-- ==== Sys2Proof/Word.lean ====
section
/-! DEFINITION. The words of the HTJ-G16: register and operand words, bytes, and sparse tables of state.

Every register is 64 bits wide (18_register_map.md), bytes are little-endian (R8), bits are numbered
from 0 at the least significant end (00_scope.md). -/

namespace Sys2Proof

/-- A 64-bit word: a register, an operand value, a tag. -/
abbrev Word := BitVec 64

/-- A byte of memory. -/
abbrev Byte := BitVec 8

/-- A context identifier (R38: CTX is 24 bits). -/
abbrev CtxId := BitVec 24

/-- An instruction pointer (R38: IP is 16 bits). -/
abbrev Ip := BitVec 16

/-- A sparse table: entries in rising order of key, an unlisted key holding the owner's default. -/
abbrev Tbl (α : Type) := List (Nat × α)

end Sys2Proof
end

