-- ==== Sys2Proof/Types.lean ====
section
/-! DEFINITION. The carriers of the commands' operands: the numbers of the units of the part, and what the
environment decides in a step (an error code's outcome, a frame on a lane, data of a host read).

Each type is plain data. What a value of it means is said by the meaning of the command that takes it. -/

namespace Sys2Proof

/-- Channel number (R13). -/
abbrev Ch := Fin 16
/-- Physical duet: 0-63 are the duets of the tiles, 64-67 the spares of the sets (R245). -/
abbrev DuetId := Fin 68
/-- Logical caller number CL0-CL3 (R471). -/
abbrev CallerId := Fin 4
/-- Physical caller duet 0-4 (R471). -/
abbrev PhysId := Fin 5
/-- Tile index 8y + x (R17). -/
abbrev Tile := Fin 64
/-- Set of sixteen tiles (R17). -/
abbrev SetId := Fin 4
/-- Entry of a matching-store bank: way e % 24 of row e / 24 (R164). -/
abbrev EntryId := Fin 1536
/-- Loop entry (R107). -/
abbrev LoopId := Fin 1024
/-- Solo slot (R257). -/
abbrev SlotId := Fin 4096
/-- Order queue (R252). -/
abbrev OrdId := Fin 128
/-- Submission or completion ring (15_host_interface.md). -/
abbrev RingId := Fin 128
/-- Lock word (R369). -/
abbrev LockId := Fin 4096
/-- Fabric port: 0 X+, 1 X-, 2 Y+, 3 Y-, 4 Z+, 5 Z- (R323). -/
abbrev PortId := Fin 6
/-- Virtual channel of a port or a router input (R424, R432). -/
abbrev Vc := Fin 4
/-- Power domain of a channel: 0-3 SET0-SET3, 4 MEM, 5 SPINE, 6 DRAM, 7 FABRIC (R596). -/
abbrev DomId := Fin 8
/-- Event source of a channel (R501) or of the device, where 0-255 exist (R518). -/
abbrev SrcId := Fin 1024
/-- MSI-X vector (R528). -/
abbrev VecId := Fin 256
/-- PCIe function: 0 is PF0, k + 1 the function of channel k (R13). -/
abbrev FnId := Fin 17
/-- GPIO pin. -/
abbrev GpioId := Fin 16
/-- Rail alarm: the bit of TH_RAIL it sets, 0-15 regulators, 16-21 rails (R623). -/
abbrev RailId := Fin 22
/-- Copy slot (R550). -/
abbrev CopyId := Fin 8
/-- DRAM bank (R402). -/
abbrev DramBank := Fin 16

/-- A token of R37. -/
structure Token where
  /-- SIDEBAND [135:128] (R39). -/
  sb : BitVec 8
  /-- VALUE [127:64]. -/
  val : Word
  /-- TAG [63:0] (R38). -/
  tag : Word
  deriving DecidableEq, Repr

/-- The unit that executes: a duet in its tile, or a logical caller (R234). -/
inductive Exe where
  | duet (d : DuetId)
  | caller (n : CallerId)
  deriving DecidableEq, Repr

/-- Who makes a register access (R12, R478, R479, R605, R613). -/
inductive Party where
  /-- Host software, through PCIe. -/
  | host
  /-- The service core, under R16. -/
  | service
  /-- A caller at supervisor privilege, through the setup range (R658). -/
  | supv
  /-- A firing of a context with SUPV set, through the setup range (R658). -/
  | firing
  deriving DecidableEq, Repr

/-- A party of the channel itself, which reaches only its setup range (R658). -/
def Party.inChannel (p : Party) : Bool := p == .supv || p == .firing

/-- Outcome of an error code over what a step reads (R175, R211, R360, R397). -/
inductive Ecc where
  | clean
  | corrected
  | uncorrectable
  deriving DecidableEq, Repr

/-- The GDDR7 lines in which the codewords that a step reads are in error (R395, R397): the line's address, and whether the error is
uncorrectable. A line that is not listed reads without an error. -/
abbrev LineErrs := List (Nat × Bool)

/-- The scratchpad words in which the code of a step's reads finds an error (R360): the word's address, and whether the error is
uncorrectable. -/
abbrev WordErrs := List (Nat × Bool)

/-- Outcome of the codes that a token's arrival meets: over the entries of the row that is read (R175), the way concerned; or over the record
of its context in the context cache (R625). -/
inductive RowFault where
  | record
  | clean
  | corrected (way : Fin 24)
  | uncorrectable (way : Fin 24)
  deriving DecidableEq, Repr

/-- Parity of a queue read (R336): true where a half fails. a is the item's word, b its twin (DUP 1);
0 is [71:0], 1 is [143:72]. -/
structure Parity where
  a0 : Bool
  a1 : Bool
  b0 : Bool
  b1 : Bool
  deriving DecidableEq, Repr

/-- What the reads of a step find of the parity of queue words (R336), by word number; a word that is not listed reads without a failure. -/
abbrev QErrs := List (Nat × Parity)

/-- A unit's sample register (R218): the TIME count and the words of POLL sources 0x00-0x03. -/
structure Sample where
  time : Word
  p0 : Word
  p1 : Word
  p2 : Word
  p3 : Word
  deriving DecidableEq, Repr, Inhabited

/-- A fault at a comparison (R222, R224): bits flipped in either signature, a comparator's two wires forced, a
delay-line parity error found since the last comparison. All zero, none and false is a comparison without a fault. -/
structure CmpFault where
  slx : Word
  sfx : Word
  aOut : Option (BitVec 2)
  bOut : Option (BitVec 2)
  dlpar : Bool
  deriving DecidableEq, Repr

/-- The eight words of a 64-byte line read from host memory or from the memory. -/
structure Line where
  w0 : Word
  w1 : Word
  w2 : Word
  w3 : Word
  w4 : Word
  w5 : Word
  w6 : Word
  w7 : Word
  deriving DecidableEq, Repr

/-- A host read of a descriptor: its words, or a failure of the read (R563). -/
inductive Fetched where
  | ok (l : Line)
  | failed
  deriving DecidableEq, Repr

/-- A host read of word 0 of a doorbell or head record: the word, or a failure (R563). -/
inductive RecRead where
  | ok (w : Word)
  | failed
  deriving DecidableEq, Repr

/-- The record read: the doorbell record of a submission ring, or the head record of a completion ring. -/
inductive RecId where
  | submission (r : RingId)
  | completion (c : RingId)
  deriving DecidableEq, Repr

/-- What a part of a copy finds: the bytes read from the host (COPYIN, LOAD), an error of that read, its poison, and the GDDR7 lines or
scratchpad words in error among those that the part reads, the translation entry's line among them (R360, R397, R532). -/
structure Part where
  data : List Byte
  err : Bool
  poison : Bool
  errs : LineErrs
  deriving DecidableEq, Repr

/-- A router's input buffer: the router, its input (0 E, 1 W, 2 S, 3 N, 4 L, 5 G), and the virtual channel. -/
structure Rx where
  r : Tile
  inp : Fin 6
  vc : Vc
  deriving DecidableEq, Repr

/-- One used slot of a DATA frame with its slot descriptor (R438, R439). -/
structure Slot where
  tok : Token
  vc : BitVec 2
  epoch : Bool
  deriving DecidableEq, Repr

/-- A DATA or REDATA frame as it is received (R439): NSLOT is the number of slots. -/
structure Frame where
  seq : BitVec 8
  ack : BitVec 8
  crvc : BitVec 2
  crcnt : BitVec 3
  slots : List Slot
  deriving DecidableEq, Repr

/-- What the code finds of a received frame (R437, R438, R466): the codewords corrected among those that it is the first to overlap, whether
it overlaps an uncorrectable one, and whether its CRC holds. -/
structure FrameCheck where
  fixed : Nat
  bad : Bool
  crc : Bool
  deriving DecidableEq, Repr

/-- A frame without an error. -/
def frameGood : FrameCheck := ⟨0, false, true⟩

/-- The header fields of a CONTROL frame that act whatever its code (R439). -/
structure Hdr where
  ack : BitVec 8
  crvc : BitVec 2
  crcnt : BitVec 3
  chk : FrameCheck
  deriving DecidableEq, Repr

/-- A BOW frame (R451). -/
structure Bow where
  chk : FrameCheck
  serial : Word
  dev : BitVec 16
  plane : BitVec 4
  port : BitVec 4
  cap : BitVec 32
  digest : Word
  rcvd : BitVec 8
  ackd : BitVec 8
  seqValid : Bool
  pvalid : Bool
  nxm1 : BitVec 6
  nym1 : BitVec 5
  nzm1 : BitVec 5
  rxcap0 : BitVec 14
  rxcap1 : BitVec 14
  rxcap2 : BitVec 14
  rxcap3 : BitVec 14
  got : Bool
  deriving DecidableEq, Repr

/-- The event controller of a channel, or the device event controller of PF0 (R518). -/
inductive EvCtl where
  | chan (k : Ch)
  | dev
  deriving DecidableEq, Repr

/-- Size of a register access of host software (R657): aligned 8 bytes, aligned 4 bytes, or any other. -/
inductive AccSize where
  | eight
  | four
  | other
  deriving DecidableEq, Repr

/-- What a mask operation on MSI-X changes (R566): the mask of the vector named, cleared, or the mask of the whole function. -/
inductive MaskOp where
  | vector
  | functionClear
  | functionSet
  deriving DecidableEq, Repr

/-- Digest of SHA-384. -/
abbrev Digest := BitVec 384

/-- What start-up finds in fuses, flash and self-tests (R606, R607). -/
structure BootInfo where
  /-- The committed directory record names bank 1. -/
  bank1 : Bool
  /-- The service firmware of bank 0 and of bank 1 verifies. -/
  ok0 : Bool
  ok1 : Bool
  /-- The table bundle verifies. -/
  tablesOk : Bool
  /-- Digests M0 to M6 of the objects loaded. -/
  digests : List Digest
  /-- Bit k: channel k passed the self-tests of step 7. -/
  selfTest : BitVec 16
  /-- Duets of the tiles and spares whose start-up self-test fails, by channel (R225, R229). -/
  badDuets : List (Nat × DuetId)
  /-- Physical caller duets whose start-up self-test fails, by channel (R225, R234). -/
  badCallers : List (Nat × PhysId)
  /-- Steps of the GDDR7 start-up programs that the memory does not carry out, by channel (R406). -/
  badSteps : List (Nat × Nat)
  /-- The steward image of step 9 verifies. -/
  stewardOk : Bool
  /-- The words of the steward image from IP 0xE000 up. -/
  steward : List Word
  deriving DecidableEq, Repr

/-- One measurement of the aging monitors of a channel (R631), in units of 0.01 %. -/
structure Aging where
  set0 : BitVec 12
  set1 : BitVec 12
  set2 : BitVec 12
  set3 : BitVec 12
  spine : BitVec 12
  deriving DecidableEq, Repr

/-- What the hourly record of the ledger needs from the sensors (R636): the Tj histogram in 5 degree bins and the
highest Tj. -/
structure HourInfo where
  hist : List (BitVec 32)
  maxTj : BitVec 16
  deriving DecidableEq, Repr

/-- What STAGE finds (R639): the host read failed, the image's size is wrong for the object, the signature
verifies, its security version, its digest, the flash write succeeded. -/
structure ImgInfo where
  hostErr : Bool
  sizeBad : Bool
  sigOk : Bool
  svn : BitVec 32
  digest : Digest
  flashOk : Bool
  deriving DecidableEq, Repr, Inhabited

/-- A row of the memory device (R402, R418). -/
structure RowId where
  dev : Bool
  bank : DramBank
  row : BitVec 18
  deriving DecidableEq, Repr

/-- The connection an SPDM request came by (R610). -/
inductive Spdm where
  | doe
  | mctp
  deriving DecidableEq, Repr

/-- Nonce of a requester. -/
abbrev Nonce := BitVec 256

/-- An array the Shuffle tests (R364, R368): the bank of each kind. -/
inductive Arr where
  | scratch (b : Tile)
  | lock (g : Tile)
  | matching (t : Tile)
  | prog (s : SetId) (b : Fin 32)
  | queue (b : Tile)
  deriving DecidableEq, Repr

end Sys2Proof
end

