-- ==== Sys2Proof/Syntax.lean ====
section
/-! DEFINITION. The commands of the block: one constructor per row of spec/opcode_table.json.

Operand names: k the channel, u the unit that executes, d a physical duet, n a caller, t a tile, p who makes a register
access and w the word written, and what the environment decides in the step (an error code, parity, a frame, the data
of a read, the outcome of a self-test). The summary of each row is the table's own. -/

namespace Sys2Proof

inductive Instr where
  /-- ADD (R91): Firing or caller adds L and Rt modulo 2^64, setting IOV on signed overflow. -/
  | add (k : Ch) (u : Exe)
  /-- SUB (R91): Firing or caller subtracts Rt from L, setting IOV on signed overflow. -/
  | sub (k : Ch) (u : Exe)
  /-- MUL (R91): Firing or caller delivers the low 64 bits of L times Rt. -/
  | mul (k : Ch) (u : Exe)
  /-- MULH (R91): Firing or caller delivers the high 64 bits of the signed product. -/
  | mulh (k : Ch) (u : Exe)
  /-- MULHU (R91): Firing or caller delivers the high 64 bits of the unsigned product. -/
  | mulhu (k : Ch) (u : Exe)
  /-- DIV (R130): Signed truncating division on the iterative divider, with the zero-divisor and overflow results of R130. -/
  | div (k : Ch) (u : Exe)
  /-- DIVU (R130): Unsigned division on the iterative divider. -/
  | divu (k : Ch) (u : Exe)
  /-- REM (R129): Signed remainder with the sign of L. -/
  | rem (k : Ch) (u : Exe)
  /-- REMU (R129): Unsigned remainder. -/
  | remu (k : Ch) (u : Exe)
  /-- MIN (R91): Signed minimum of L and Rt. -/
  | min (k : Ch) (u : Exe)
  /-- MAX (R91): Signed maximum of L and Rt. -/
  | max (k : Ch) (u : Exe)
  /-- ABS (R128): Absolute value of L, setting IOV for the most negative number. -/
  | abs (k : Ch) (u : Exe)
  /-- NEG (R128): Negation of L, setting IOV for the most negative number. -/
  | neg (k : Ch) (u : Exe)
  /-- SEL (R91): Delivers Rt if the controlling L is nonzero, otherwise T. -/
  | sel (k : Ch) (u : Exe)
  /-- AND (R93): Bitwise and of L and Rt. -/
  | and (k : Ch) (u : Exe)
  /-- OR (R93): Bitwise or of L and Rt. -/
  | or (k : Ch) (u : Exe)
  /-- XOR (R93): Bitwise exclusive or of L and Rt. -/
  | xor (k : Ch) (u : Exe)
  /-- ANDN (R93): L and not Rt. -/
  | andn (k : Ch) (u : Exe)
  /-- SHL (R93): Logical left shift of L by Rt[5:0]. -/
  | shl (k : Ch) (u : Exe)
  /-- SHR (R93): Logical right shift of L by Rt[5:0]. -/
  | shr (k : Ch) (u : Exe)
  /-- SAR (R93): Arithmetic right shift of L by Rt[5:0]. -/
  | sar (k : Ch) (u : Exe)
  /-- ROT (R93): Left rotation of L by Rt[5:0]. -/
  | rot (k : Ch) (u : Exe)
  /-- CLZ (R93): Count of leading zeros of L. -/
  | clz (k : Ch) (u : Exe)
  /-- CTZ (R93): Count of trailing zeros of L. -/
  | ctz (k : Ch) (u : Exe)
  /-- POPC (R93): Count of one bits of L. -/
  | popc (k : Ch) (u : Exe)
  /-- CMP_CC (R94): Integer comparison of L with Rt under condition code cc, giving 1 or 0. -/
  | cmpCc (k : Ch) (u : Exe)
  /-- FADD (R132): Binary64 or binary32-pair addition under the context's rounding mode. -/
  | fadd (k : Ch) (u : Exe)
  /-- FSUB (R132): Binary64 or binary32-pair subtraction. -/
  | fsub (k : Ch) (u : Exe)
  /-- FMUL (R132): Binary64 or binary32-pair multiplication. -/
  | fmul (k : Ch) (u : Exe)
  /-- FDIV (R141): Binary64 or binary32-pair division, occupying the FDIV and FSQRT unit. -/
  | fdiv (k : Ch) (u : Exe)
  /-- FSQRT (R132): Binary64 or binary32-pair square root. -/
  | fsqrt (k : Ch) (u : Exe)
  /-- FMA (R140): Fused multiply-add with a single rounding. -/
  | fma (k : Ch) (u : Exe)
  /-- FMIN (R142): minimumNumber of L and Rt. -/
  | fmin (k : Ch) (u : Exe)
  /-- FMAX (R142): maximumNumber of L and Rt. -/
  | fmax (k : Ch) (u : Exe)
  /-- FCVT (R144): Conversion to the floating-point format from the source named in IMM[1:0]. -/
  | fcvt (k : Ch) (u : Exe)
  /-- ICVT (R145): Conversion from floating point to a signed or unsigned integer with saturating out-of-range results. -/
  | icvt (k : Ch) (u : Exe)
  /-- FADD_C (R147): Complex binary32 addition. -/
  | faddC (k : Ch) (u : Exe)
  /-- FSUB_C (R147): Complex binary32 subtraction. -/
  | fsubC (k : Ch) (u : Exe)
  /-- CMUL_C (R147): Complex binary32 multiplication with one rounding per part. -/
  | cmulC (k : Ch) (u : Exe)
  /-- CMAC_C (R147): Complex binary32 multiply-accumulate T + L × Rt. -/
  | cmacC (k : Ch) (u : Exe)
  /-- FCMP_CC (R143): Floating-point comparison under condition cc, for binary64 or per binary32 lane. -/
  | fcmpCc (k : Ch) (u : Exe)
  /-- COPY (R98): Sends L to DEST0 and DEST1. -/
  | copy (k : Ch) (u : Exe)
  /-- FAN (R99): Sends L to DEST0, DEST1 and the destinations of k extension words. -/
  | fan (k : Ch) (d : DuetId)
  /-- SWITCH (R98): Sends L to DEST0 or DEST1 according to the controlling Rt. -/
  | switch (k : Ch) (d : DuetId)
  /-- GATE (R100): Passes L to both destinations or drops it according to Rt and IMM[0]. -/
  | gate (k : Ch) (d : DuetId)
  /-- SINK (R98): Consumes its operands and emits nothing. -/
  | sink (k : Ch) (d : DuetId)
  /-- CTXNEW (R101): Creates a new context once an identifier can be allocated, and sends its identifier. -/
  | ctxnew (k : Ch) (u : Exe)
  /-- CTXEND (R60): Ends the firing's context at commit and sends its operand to RET_TAG. -/
  | ctxend (k : Ch) (d : DuetId)
  /-- CTXKILL (R61): Kills the named context at commit, subject to kill rights. -/
  | ctxkill (k : Ch) (u : Exe)
  /-- RETAG (R102): Sends L to a whole tag or into another context of the device. -/
  | retag (k : Ch) (u : Exe)
  /-- NEXTIT (R109): Creates the next iteration context of a loop within its window. -/
  | nextit (k : Ch) (d : DuetId)
  /-- LOOPIN (R108): Opens a loop entry and creates iteration context 0. -/
  | loopin (k : Ch) (d : DuetId)
  /-- LOOPOUT (R110): Ends an iteration context and, with FINAL, keeps the exit value and closes the loop. -/
  | loopout (k : Ch) (d : DuetId)
  /-- SEND (R103): Emits an argument token and a link tag to a remote entry tag. -/
  | send (k : Ch) (u : Exe)
  /-- RETURN (R104): Sends L to RET_TAG or to a named tag with KIND data. -/
  | retn (k : Ch) (d : DuetId)
  /-- SIGNAL (R98): Raises event source 768 + IMM[7:0] at commit and passes L on. -/
  | signal (k : Ch) (u : Exe)
  /-- EXC (R98): Raises cause 0x80 + IMM[6:0] in its context. -/
  | exc (k : Ch) (u : Exe)
  /-- ILLEGAL_INSTRUCTION (R81): A firing of a reserved opcode, mode or operand form raises cause 0x20 and emits nothing. -/
  | illegalInstruction (k : Ch) (u : Exe)
  /-- FLOWSET (R248): Sets the context's flow class, freeing any held slot or position and taking a new position. -/
  | flowset (k : Ch) (d : DuetId)
  /-- SOLO_IN (R257): Waits until the Solo slot for the key is held by the context. -/
  | soloIn (k : Ch) (d : DuetId)
  /-- SOLO_OUT (R258): Frees the Solo slot of the key if the context owns it. -/
  | soloOut (k : Ch) (d : DuetId)
  /-- PROM_REL (R252): Releases the context's Promenade position once it is at HEAD. -/
  | promRel (k : Ch) (d : DuetId)
  /-- LD (R115): Split-phase load of 1, 2, 4 or 8 bytes. -/
  | ld (k : Ch) (u : Exe)
  /-- LD_Q (R115): Split-phase load of 16 bytes to two destinations. -/
  | ldQ (k : Ch) (u : Exe)
  /-- ST (R115): Split-phase store of 1, 2, 4 or 8 bytes with a done token. -/
  | st (k : Ch) (u : Exe)
  /-- ST_Q (R115): Split-phase store of 16 bytes with a done token. -/
  | stQ (k : Ch) (u : Exe)
  /-- CAS (R362): Memory-side compare and swap of an 8-byte word. -/
  | cas (k : Ch) (u : Exe)
  /-- SWAP (R362): Memory-side swap of an 8-byte word. -/
  | swap (k : Ch) (u : Exe)
  /-- XADD (R362): Memory-side fetch and add of an 8-byte word. -/
  | xadd (k : Ch) (u : Exe)
  /-- ACC_D (R148): Memory-side binary64 accumulate rounding to nearest even. -/
  | accD (k : Ch) (u : Exe)
  /-- ACQ (R372): Requests a lock word and waits until granted. -/
  | acq (k : Ch) (u : Exe)
  /-- TRYACQ (R372): Requests a lock word and returns 1 if granted, 0 if not. -/
  | tryacq (k : Ch) (u : Exe)
  /-- REL (R372): Releases a lock word. -/
  | rel (k : Ch) (u : Exe)
  /-- QPUSH (R334): Pushes L to a software queue and returns a status token. -/
  | qpush (k : Ch) (u : Exe)
  /-- QPOP (R333): Pops the head word of a software queue, waiting if empty. -/
  | qpop (k : Ch) (u : Exe)
  /-- QMARK (R332): Records MARK = RD on a retaining software queue. -/
  | qmark (k : Ch) (u : Exe)
  /-- QREWIND (R332): Sets RD back to MARK or REL on a retaining software queue. -/
  | qrewind (k : Ch) (u : Exe)
  /-- QRELEASE (R332): Sets REL to RD and clears MARK on a retaining software queue. -/
  | qrelease (k : Ch) (u : Exe)
  /-- TIME (R219): Returns the TIME count latched when the unit opened the window. -/
  | time (k : Ch) (u : Exe)
  /-- POLL (R119): Returns the latched word of a POLL source. -/
  | poll (k : Ch) (u : Exe)
  /-- RAND (R220): Draws 64 bits from the entropy source. -/
  | rand (k : Ch) (u : Exe) (v : Word)
  /-- BR_CC (R125): Caller branches to TARGET if RS1 cc RS2 holds. -/
  | brCc (k : Ch) (n : CallerId)
  /-- JMP (R125): Caller jumps to TARGET. -/
  | jmp (k : Ch) (n : CallerId)
  /-- CALL (R125): Caller writes IP + 1 to RD and jumps to TARGET. -/
  | call (k : Ch) (n : CallerId)
  /-- RET (R125): Caller jumps to RS1[15:0]. -/
  | ret (k : Ch) (n : CallerId)
  /-- WAIT (R488): Caller stops until its requests complete or a CCLK limit passes. -/
  | wait (k : Ch) (n : CallerId)
  /-- WAITEV (R514): Caller takes the head inbox entry, polling, waiting with a limit or waiting. -/
  | waitev (k : Ch) (n : CallerId)
  /-- RFE (R483): Caller returns from an exception, restoring IP, bank, privilege and IE. -/
  | rfe (k : Ch) (n : CallerId)
  /-- CSRRD (R486): Caller reads a CSR into RD. -/
  | csrrd (k : Ch) (n : CallerId)
  /-- CSRWR (R486): Caller writes RS1 to a CSR. -/
  | csrwr (k : Ch) (n : CallerId)
  /-- FENCE (R489): Caller waits until earlier accesses of the named classes are visible. -/
  | fence (k : Ch) (n : CallerId)
  /-- CALLER_EXCEPTION_ENTRY (R482): After the preceding window commits, the caller enters its handler with EPC, ECAUSE and EVAL set. -/
  | callerExceptionEntry (k : Ch) (n : CallerId)
  /-- EVENT_INTERRUPT (R485): At a window boundary with IE 1, a caller takes a FAST inbox entry as an interrupt with cause 0x30. -/
  | eventInterrupt (k : Ch) (n : CallerId)
  /-- TOKEN_ARRIVAL (R70): A token enters its home tile, is checked, looked up and inserted for matching or discarded. -/
  | tokenArrival (k : Ch) (t : Tile) (e : RowFault) (errs : LineErrs := [])
  /-- CONTEXT_RECORD_FILL (R171): A missed context record arrives and the waiting token re-enters the row compare. -/
  | contextRecordFill (k : Ch) (t : Tile) (errs : LineErrs)
  /-- DEFERRED_TOKEN_RETRY (R170): The oldest deferred token retries in an XCLK free of arrivals. -/
  | deferredTokenRetry (k : Ch) (t : Tile) (errs : LineErrs := [])
  /-- READY_PUSH_RETRY (R181): A held packet is pushed once its full ready queue has space. -/
  | readyPushRetry (k : Ch) (t : Tile)
  /-- CONTROL_TOKEN (R46): A control token reaches the context unit and kills the named context. -/
  | controlToken (k : Ch)
  /-- DISPATCH_SELECT (R182): The duet selects a packet from its ready queues, checks its context and starts it in the Lead. -/
  | dispatchSelect (k : Ch) (d : DuetId) (fs : Sample) (pf : Parity) (e : Ecc) (dl : Bool)
  /-- WINDOW_CLOSE (R200): The Lead closes the window once a close condition holds and all outputs are in the commit buffer. -/
  | windowClose (k : Ch) (u : Exe)
  /-- WINDOW_COMPARE (R208): Comparators A and B compare the two signatures and decide commit, rewind or stand-in. -/
  | windowCompare (k : Ch) (u : Exe) (cf : CmpFault)
  /-- REPLAY_OPEN (R212): After the flush the Lead opens the replay attempt with the failed window's WSEQ. -/
  | replayOpen (k : Ch) (u : Exe) (fs : Sample)
  /-- STAND_IN_COMPLETE (R228): The spare passes its self-test, takes the tile and the failed duet is retired. -/
  | standInComplete (k : Ch) (d : DuetId) (pass : Bool)
  /-- COMPARATOR_TEST_FAILURE (R223): A comparator gives a wrong result on a test pair, stopping windows and scheduling a stand-in. -/
  | comparatorTestFailure (k : Ch) (u : Exe)
  /-- COMMIT_BUFFER_DRAIN (R210): A committed entry leaves the commit buffer to the router or request port when it has credit. -/
  | commitBufferDrain (k : Ch) (u : Exe) (e : Ecc)
  /-- SPARETEST (R229): Write of LF_CTL.SPARETEST starts the self-test of every spare duet. -/
  | sparetest (k : Ch) (p : Party) (w : Word)
  /-- SPARE_SELF_TEST_COMPLETE (R229): A spare's self-test ends and a failing spare is retired. -/
  | spareSelfTestComplete (k : Ch) (g : SetId) (pass : Bool)
  /-- DUET_RETEST (R233): LF_DUETn.CMD 1 starts the self-test of a retired duet. -/
  | duetRetest (k : Ch) (p : Party) (d : DuetId) (w : Word)
  /-- RETEST_COMPLETE (R233): A retested duet becomes SPARE or RETIRED and may take a DOUBLE or dark tile at once. -/
  | retestComplete (k : Ch) (d : DuetId) (pass : Bool)
  /-- DUET_RETIRE (R225): LF_DUETn.CMD 2 retires a duet, by stand-in at its next boundary or at once for a spare. -/
  | duetRetire (k : Ch) (p : Party) (d : DuetId) (w : Word)
  /-- LF_INJ_ARM (R244): Arms one injected fault in the next window of the named duet. -/
  | lfInjArm (k : Ch) (p : Party) (w : Word)
  /-- LF_WIN_WRITE (R238): A change of window length forces a boundary close and applies to later windows. -/
  | lfWinWrite (k : Ch) (p : Party) (w : Word)
  /-- CONTEXT_TABLE_START (R681): Setting CH_CTXCFG.EN with no context LIVE makes context 0 LIVE and starts building the free list. -/
  | contextTableStart (k : Ch) (p : Party) (w : Word)
  /-- FREE_LIST_BUILT (R681): The free list has been written and allocations may proceed. -/
  | freeListBuilt (k : Ch)
  /-- CONTEXT_CACHE_FLUSH (R73): CH_CTXCFG.FLUSH writes every dirty cached record back to the table. -/
  | contextCacheFlush (k : Ch) (p : Party) (w : Word)
  /-- CONTEXT_ALLOCATION (R295): The channel grants one waiting context allocation per XCLK by rank and gate. -/
  | contextAllocation (k : Ch) (errs : LineErrs := [])
  /-- ELDER_PROMOTION (R297): A context becoming one of the 256 lowest SEQ has ELDER set. -/
  | elderPromotion (k : Ch) (c : CtxId)
  /-- SWEEP_PASS (R65): A pass scans every bank, the deferral buffers and Cut-in queue for up to 16 DEAD contexts. -/
  | sweepPass (k : Ch) (errs : LineErrs := [])
  /-- CONTEXT_FREE (R66): A DEAD context returns to FREE once swept, uncommitted-free and past quarantine. -/
  | contextFree (k : Ch) (c : CtxId)
  /-- EXCEPTION_RECORD_WRITE (R154): The memory side writes an exception record if its slot is free, then sends the exception token. -/
  | exceptionRecordWrite (k : Ch) (errs : LineErrs := [])
  /-- EXCEPTION_RECORDS_ENABLE (R160): Setting CH_EXCCFG.EN checks the area and sets WR to 0. -/
  | exceptionRecordsEnable (k : Ch) (p : Party) (w : Word)
  /-- LOOP_EXIT (R111): A loop entry with LIVE 0 and no pending NEXTIT sends its exit value if CLOSING and is freed. -/
  | loopExit (k : Ch) (e : LoopId)
  /-- PARKED_FIRING_WAKE (R250): A parked firing whose wait has ended is formed again and pushed. -/
  | parkedFiringWake (k : Ch) (t : Tile) (e : EntryId)
  /-- SOLO_GRANT (R257): A freed Solo slot is granted to its next LIVE waiter. -/
  | soloGrant (k : Ch) (q : SlotId)
  /-- SOLO_SLOT_RELEASE (R259): Slots owned by a context that left LIVE are freed within 256 XCLK. -/
  | soloSlotRelease (k : Ch) (q : SlotId)
  /-- SOLO_CURSOR_ADVANCE (R261): The Solo cursor passes a position once its SOLO.IN registers or it is released or skipped. -/
  | soloCursorAdvance (k : Ch) (n : OrdId)
  /-- PROMENADE_HEAD_ADVANCE (R254): HEAD advances once every output of the releasing firing is accepted, or past a skipped position. -/
  | promenadeHeadAdvance (k : Ch) (n : OrdId) (pf : Parity)
  /-- HEAD_TIME_LIMIT (R256): HEAD held at one position for HEADTIME × 1,024 XCLK raises source 320 + n. -/
  | headTimeLimit (k : Ch) (n : OrdId)
  /-- ADMISSION_DECISION (R274): The ring engine accepts or declines a fetched RUN descriptor under its tempo class. -/
  | admissionDecision (k : Ch) (r : RingId) (f : Fetched)
  /-- AD_CFG_WRITE (R271): A write to AD_CFG that would leave EN 1 under a forbidden configuration is ignored whole. -/
  | adCfgWrite (k : Ch) (p : Party) (w : Word)
  /-- BACKGROUND_EVICTION (R300): While above the watermark, an aged non-elder WAIT entry is chosen for eviction. -/
  | backgroundEviction (k : Ch) (t : Tile) (errs : LineErrs := [])
  /-- EVICTION_COMPLETE (R302): The spill record write completes and the victim's ways are freed. -/
  | evictionComplete (k : Ch) (t : Tile) (errs : LineErrs := [])
  /-- SPILL_RETRY_TIMEOUT (R309): After 1,024 XCLK Cut-in retries a deferred token that could not be placed. -/
  | spillRetryTimeout (k : Ch) (t : Tile) (errs : LineErrs := [])
  /-- CUT_IN_LOOKUP (R305): Cut-in reads the probe buckets for a token the spill filter sent it. -/
  | cutInLookup (k : Ch) (errs : LineErrs)
  /-- STALL_MONITOR_FIRE (R311): The stall count reaches LIMIT, setting FIRED and raising source 15. -/
  | stallMonitorFire (k : Ch)
  /-- QUEUE_UNIT_OPERATION (R334): A committed queue instruction acts at the queue unit and sends its status or word. -/
  | queueUnitOperation (k : Ch) (t : Tile) (pf : Parity)
  /-- POP_WAITER_REMOVAL (R333): A pop waiter whose context left LIVE is removed within 256 XCLK. -/
  | popWaiterRemoval (k : Ch) (i : Nat)
  /-- READY_QUEUE_REBUILD (R338): An unrecoverable ready-queue read rebuilds the tile's queues from its matching entries. -/
  | readyQueueRebuild (k : Ch) (t : Tile)
  /-- RING_TOKEN_REGENERATION (R337): A failed ring-queue word is regenerated from the re-fetched descriptor. -/
  | ringTokenRegeneration (k : Ch) (r : RingId) (f : Fetched)
  /-- SCRATCHPAD_ACCESS (R358): A scratchpad bank takes a load, store or atomic request and returns its token. -/
  | scratchpadAccess (k : Ch) (t : Tile) (e : WordErrs)
  /-- SPLIT_SECONDARY_PART (R354): The secondary bank locks its bytes and reads or holds its part of a split access. -/
  | splitSecondaryPart (k : Ch) (t : Tile) (e : WordErrs)
  /-- SPLIT_REPLY (R354): The primary bank joins or writes its part and releases the secondary. -/
  | splitReply (k : Ch) (t : Tile)
  /-- SPLIT_GO (R354): The secondary bank writes its held part on go and unlocks. -/
  | splitGo (k : Ch) (t : Tile)
  /-- SCRATCHPAD_CLEAR_COMPLETE (R349): The zeroing of scratchpad and lock memory ends and INITDONE reads 1. -/
  | scratchpadClearComplete (k : Ch)
  /-- SETUP_PORT_ACCESS (R685): The setup port serves a program-store-view or setup-register access of a firing or caller. -/
  | setupPortAccess (k : Ch)
  /-- SHUFFLE_REGION_START (R364): A bank borrows its next region for copy, test and restore. -/
  | shuffleRegionStart (k : Ch) (a : Arr)
  /-- SHUFFLE_TEST_COMPLETE (R367): The March test of a region ends, moving a faulty region to the repair copy or halting the bank. -/
  | shuffleTestComplete (k : Ch) (a : Arr) (bad : Bool)
  /-- SHUFFLE_RESTORE_COMPLETE (R365): The last restore write ends the borrowing and removes the redirect. -/
  | shuffleRestoreComplete (k : Ch) (a : Arr)
  /-- SHUFREP_GO (R648): The service core takes a scratchpad region out of use from the repair map. -/
  | shufrepGo (k : Ch) (p : Party) (b : Tile) (w : Word)
  /-- LOCK_UNIT_REQUEST (R372): The lock unit takes ACQ, TRYACQ, REL or LD.d of a lock word in arrival order. -/
  | lockUnitRequest (k : Ch) (t : Tile) (e : Ecc := .clean)
  /-- LOCK_GRANT (R373): After a release, the lock is granted to the oldest eligible waiter. -/
  | lockGrant (k : Ch) (i : LockId)
  /-- LOCK_ABANDON (R376): A lock whose holder left LIVE or was reset becomes ABANDONED. -/
  | lockAbandon (k : Ch) (i : LockId)
  /-- LOCK_WAITER_REMOVAL (R374): A lock waiter whose context left LIVE is removed within 256 XCLK. -/
  | lockWaiterRemoval (k : Ch) (i : Nat)
  /-- GDDR7_REQUEST_ACCEPT (R398): The GDDR7 controller accepts one request into its queue. -/
  | gddr7RequestAccept (k : Ch)
  /-- GDDR7_REQUEST_COMPLETE (R401): The controller serves an accepted request and returns its result or done token. -/
  | gddr7RequestComplete (k : Ch) (i : Nat) (errs : LineErrs)
  /-- DM_ENABLE (R392): Setting DM_CFG.EN starts the start-up training program. -/
  | dmEnable (k : Ch) (p : Party) (w : Word)
  /-- DM_DISABLE (R686): Clearing DM_CFG.EN stops the controller and sets STATE to IDLE. -/
  | dmDisable (k : Ch) (p : Party) (w : Word)
  /-- TRAINING_PROGRAM_COMPLETE (R392): A training program ends with success or failure, setting STATE. -/
  | trainingProgramComplete (k : Ch)
  /-- TRAIN_END (R406): Training step END ends the program with success. -/
  | trainEnd (k : Ch)
  /-- MRW (R406): Training step writes a mode register. -/
  | mrw (k : Ch)
  /-- CHECK (R406): Training step reads and compares a mode register. -/
  | check (k : Ch)
  /-- TRAIN_WAIT (R406): Training step waits C ns. -/
  | trainWait (k : Ch)
  /-- ZQ (R406): Training step runs impedance calibration. -/
  | zq (k : Ch) (ok : Bool)
  /-- WCK (R406): Training step aligns the write clock. -/
  | wck (k : Ch) (ok : Bool)
  /-- RDTRAIN (R406): Training step runs read training per pin. -/
  | rdtrain (k : Ch) (ok : Bool)
  /-- WRTRAIN (R406): Training step runs write training per pin. -/
  | wrtrain (k : Ch) (ok : Bool)
  /-- VREF (R406): Training step sweeps the receiver reference. -/
  | vref (k : Ch) (ok : Bool)
  /-- LEVELS (R406): Training step calibrates the PAM3 levels. -/
  | levels (k : Ch) (ok : Bool)
  /-- TRAIN_SAVE (R406): Training step keeps the results as the DELTA reference. -/
  | trainSave (k : Ch)
  /-- DELTA (R406): Training step re-centres every pin against the saved reference. -/
  | delta (k : Ch) (ok : Bool)
  /-- HPPR (R406): Training step hard-repairs a row. -/
  | hppr (k : Ch) (ok : Bool)
  /-- PERIODIC_TRAINING (R405): The periodic program runs on its timer or a temperature change. -/
  | periodicTraining (k : Ch)
  /-- REFRESH (R407): The controller issues a per-bank refresh at its interval. -/
  | refresh (k : Ch) (b : DramBank)
  /-- MEMORY_TEMPERATURE_READ (R407): Every 1 ms the controller reads the memory temperature and sets the refresh multiplier. -/
  | memoryTemperatureRead (k : Ch) (temp : BitVec 8)
  /-- PATROL_SCRUB_READ (R408): Scrub reads the next line, corrects and writes it back. -/
  | patrolScrubRead (k : Ch) (e : Ecc)
  /-- ROW_REPAIR (R409): A candidate row is soft-repaired in service through a holding buffer. -/
  | rowRepair (k : Ch) (row : RowId) (ok : Bool)
  /-- FLIT_RECEIVE (R428): A router receives a flit, checks its CRC and signals good receipt or failure. -/
  | flitReceive (k : Ch) (rx : Rx) (ok : Bool)
  /-- FLIT_RESEND (R428): A failed flit is resent 4 XCLK after its first send. -/
  | flitResend (k : Ch) (rx : Rx) (ok : Bool)
  /-- RECEIVE_QUEUE_ROUTE (R434): A token leaving a receive queue is routed onward or discarded at the gate tile. -/
  | receiveQueueRoute (k : Ch) (p : PortId) (j : Vc) (pf : Parity)
  /-- FRAME_TRANSMIT (R441): A fabric port sends a DATA, CONTROL or IDLE frame with credits and ACK. -/
  | frameTransmit (k : Ch) (p : PortId) (errs : QErrs)
  /-- DATA_FRAME_RECEIVE (R441): A DATA frame is checked for CRC, FEC and SEQ and its slots enter receive queues. -/
  | dataFrameReceive (k : Ch) (p : PortId) (fr : Frame) (ok : FrameCheck)
  /-- REDATA_FRAME_RECEIVE (R441): A re-sent frame supplies the word a REFETCH asked for. -/
  | redataFrameReceive (k : Ch) (p : PortId) (fr : Frame) (ok : FrameCheck)
  /-- BOW_FRAME_RECEIVE (R452): A received Bow is checked and raises BOWOK or BOWFAIL. -/
  | bowFrameReceive (k : Ch) (p : PortId) (b : Bow)
  /-- BOW_SEND (R444): In state BOW the port sends a BOW frame every 10 µs. -/
  | bowSend (k : Ch) (p : PortId)
  /-- CONTROL_IDLE (R439): A CONTROL IDLE frame is received. -/
  | controlIdle (k : Ch) (p : PortId) (h : Hdr)
  /-- NAK (R441): A NAK makes the sender re-send from the oldest unacknowledged frame. -/
  | nak (k : Ch) (p : PortId) (h : Hdr) (arg : BitVec 8)
  /-- SLEEPREQ (R449): A partner asks to sleep and is answered SLEEPACK or SLEEPNAK. -/
  | sleepreq (k : Ch) (p : PortId) (h : Hdr)
  /-- SLEEPACK (R449): SLEEPACK raises IDLE at the initiator. -/
  | sleepack (k : Ch) (p : PortId) (h : Hdr)
  /-- SLEEPNAK (R449): SLEEPNAK cancels the sleep handshake. -/
  | sleepnak (k : Ch) (p : PortId) (h : Hdr)
  /-- DRAINREQ (R445): A received DRAINREQ raises PDRAIN. -/
  | drainreq (k : Ch) (p : PortId) (h : Hdr)
  /-- DRAINDONE (R450): A received DRAINDONE contributes to the DRAINDONE event. -/
  | draindone (k : Ch) (p : PortId) (h : Hdr)
  /-- REFETCH (R441): A REFETCH makes the sender re-send one frame as REDATA. -/
  | refetch (k : Ch) (p : PortId) (h : Hdr) (arg : BitVec 8)
  /-- REPLAY_TIMEOUT (R441): REPLAYT without an ACK advance makes the sender replay. -/
  | replayTimeout (k : Ch) (p : PortId)
  /-- SLEEP_IDLE_TIMEOUT (R449): After IDLET µs idle in ACTIVE the port sends SLEEPREQ. -/
  | sleepIdleTimeout (k : Ch) (p : PortId)
  /-- LSM_TRANSITION (R447): A port takes the matching link-table entry, changes state and carries out its actions. -/
  | lsmTransition (k : Ch) (p : PortId) (errs : QErrs := [])
  /-- LANE_TRAINING_COMPLETE (R445): Lane training ends, raising TRAINOK or TRAINFAIL. -/
  | laneTrainingComplete (k : Ch) (p : PortId) (ok : Bool)
  /-- SIGDET (R445): Signal present or the listener sees the partner leave electrical idle. -/
  | sigdet (k : Ch) (p : PortId) (ok : Bool)
  /-- SIGLOSS (R445): No valid signal for 1 µs. -/
  | sigloss (k : Ch) (p : PortId) (ok : Bool)
  /-- STATE_TIMER_EXPIRY (R447): A link state's timer expires, raising TIMEOUT. -/
  | stateTimerExpiry (k : Ch) (p : PortId)
  /-- PORT_ENABLE (R460): FB_PCTLp.EN written from 0 to 1 raises ENABLE. -/
  | portEnable (k : Ch) (p : Party) (q : PortId) (w : Word)
  /-- PORT_DISABLE (R460): FB_PCTLp.EN written from 1 to 0 raises DISABLE. -/
  | portDisable (k : Ch) (p : Party) (q : PortId) (w : Word)
  /-- FORCEDOWN (R460): CMD 1 raises FORCEDOWN. -/
  | forcedown (k : Ch) (p : Party) (q : PortId) (w : Word)
  /-- WAKE (R460): CMD 2 raises WAKE on a sleeping port. -/
  | wake (k : Ch) (p : Party) (q : PortId) (w : Word)
  /-- DISCARD (R453): CMD 3 in DOWN or DETECT frees every replay slot and counts tokens in doubt. -/
  | discard (k : Ch) (p : Party) (q : PortId) (w : Word)
  /-- NT_EPOCH_WRITE (R436): A write applies routing-table VALID bits and then CUR. -/
  | ntEpochWrite (k : Ch) (p : Party) (w : Word)
  /-- CALLER_RUN (R479): CC_CALLn.RUN from 0 to 1 starts the caller at START. -/
  | callerRun (k : Ch) (p : Party) (n : CallerId) (w : Word)
  /-- CALLER_STOP (R479): CC_CALLn.RUN from 1 to 0 halts the caller at its next window boundary. -/
  | callerStop (k : Ch) (p : Party) (n : CallerId) (w : Word)
  /-- HALT (R479): CC_CALLn CMD 1 halts the caller. -/
  | halt (k : Ch) (p : Party) (n : CallerId) (w : Word)
  /-- RESET (R479): CC_CALLn CMD 2 discards windows, clears banks and abandons the caller's locks. -/
  | reset (k : Ch) (p : Party) (n : CallerId) (w : Word)
  /-- CALLER_RETEST (R490): CC_PHYSm CMD 1 runs the self-test of a retired caller duet. -/
  | callerRetest (k : Ch) (p : Party) (m : PhysId) (w : Word)
  /-- CALLER_RETIRE (R490): CC_PHYSm CMD 2 retires a caller duet, by stand-in or at once for the spare. -/
  | callerRetire (k : Ch) (p : Party) (m : PhysId) (w : Word)
  /-- CALLER_RETEST_COMPLETE (R490): A retested caller duet passes and stands in for the lowest LOST caller. -/
  | callerRetestComplete (k : Ch) (m : PhysId) (pass : Bool)
  /-- DOORBELL_MESSAGE (R500): The event controller takes a doorbell message and adds to the source's COUNT or refuses it. -/
  | doorbellMessage (x : EvCtl)
  /-- EVENT_SELECTION (R507): The controller selects one eligible source per CCLK and starts its delivery. -/
  | eventSelection (x : EvCtl)
  /-- DELIVERY_LANDING (R510): At d + 4 the delivery lands in the target inbox or MSI-X, or bounces. -/
  | deliveryLanding (x : EvCtl)
  /-- MODERATION_HOLD_EXPIRY (R508): A source's moderation hold of MODIV × 64 CCLK ends. -/
  | moderationHoldExpiry (x : EvCtl) (q : SrcId)
  /-- EV_SRC_CLEAR (R520): EV_SRCs.CLEAR sets COUNT to 0. -/
  | evSrcClear (x : EvCtl) (p : Party) (q : SrcId) (w : Word)
  /-- EV_DOORBELL_WRITE (R524): A write to EV_DOORBELL or its BAR2 mirror sends a doorbell message and may wake the channel. -/
  | evDoorbellWrite (k : Ch) (p : Party) (w : Word)
  /-- DE_DOORBELL_WRITE (R518): A write to DE_DOORBELL raises a device source. -/
  | deDoorbellWrite (p : Party) (w : Word)
  /-- MSIX_MASK_CLEAR (R566): Clearing a vector mask with its PBA bit set sends one ordered message. -/
  | msixMaskClear (fn : FnId) (v : VecId) (m : MaskOp := .vector)
  /-- GPIO_EDGE (R622): A selected edge on a GPIO pin raises device source 0x40 + g. -/
  | gpioEdge (g : GpioId) (lvl : Bool)
  /-- KICK (R542): A KICK write returns named rings to ACTIVE and reads their records. -/
  | kick (k : Ch) (w : Word)
  /-- RING_POLL (R540): Every POLL × 100 ns the ring engine reads an active ring's record. -/
  | ringPoll (k : Ch) (r : RingId)
  /-- RECORD_READ_COMPLETE (R540): A doorbell or head record read returns and updates PI or HEAD. -/
  | recordReadComplete (k : Ch) (x : RecId) (f : RecRead)
  /-- RING_IDLE_SLEEP (R540): After IDLE µs with no new PI the engine writes SLEEP and re-reads before sleeping. -/
  | ringIdleSleep (k : Ch) (x : RecId) (f : RecRead)
  /-- RUN (R549): An accepted RUN descriptor creates its context and places its argument tokens in the ring queue. -/
  | run (k : Ch) (r : RingId)
  /-- COPYIN (R558): A COPYIN descriptor copies host memory to the channel in parts. -/
  | copyin (k : Ch) (r : RingId) (f : Fetched)
  /-- COPYOUT (R558): A COPYOUT descriptor copies channel memory to the host in parts. -/
  | copyout (k : Ch) (r : RingId) (f : Fetched)
  /-- LOAD (R568): A LOAD descriptor checks and writes a program image. -/
  | load (k : Ch) (r : RingId) (f : Fetched)
  /-- NOP (R547): A NOP descriptor is completed at once. -/
  | nop (k : Ch) (r : RingId) (f : Fetched)
  /-- COPY_SLOT_GRANT (R550): A copy slot is granted to a waiting copy or LOAD in round-robin ring order. -/
  | copySlotGrant (k : Ch)
  /-- COPY_PART_COMPLETE (R558): A copy part completes, is written in order, or stops the copy on failure. -/
  | copyPartComplete (k : Ch) (i : CopyId) (part : Part)
  /-- RING_INJECTION (R547): The ring engine sends an admitted item's tokens from the ring queue into the network. -/
  | ringInjection (k : Ch) (r : RingId) (pf : Parity)
  /-- COMPLETION_TOKEN (R555): The ring engine takes a completion token, checks the context record and issues or discards it. -/
  | completionToken (k : Ch) (r : RingId) (pf : Parity)
  /-- COMPLETION_WRITE (R553): The ring engine writes a completion as two posted writes when the ring has room. -/
  | completionWrite (k : Ch) (r : RingId) (errs : LineErrs)
  /-- RING_ENABLE (R560): RG_SCFGr.EN from 0 to 1 in DISABLED sets CI to 0 and makes the ring ACTIVE. -/
  | ringEnable (k : Ch) (p : Party) (r : RingId) (w : Word)
  /-- RING_DISABLE (R561): RG_SCFGr.EN from 1 to 0 starts a graceful disable. -/
  | ringDisable (k : Ch) (p : Party) (r : RingId) (w : Word)
  /-- ABORT (R562): RG_SCFGr CMD 1 kills the ring's outstanding items and stops its copies. -/
  | abort (k : Ch) (p : Party) (r : RingId) (w : Word)
  /-- RING_DRAINED (R561): A draining or aborting ring with OUT 0 and no copy becomes DISABLED. -/
  | ringDrained (k : Ch) (r : RingId)
  /-- COMPLETION_RING_ENABLE (R564): RG_CCFGc.EN write enables or disables a completion ring, setting TAIL and HEAD. -/
  | completionRingEnable (k : Ch) (p : Party) (r : RingId) (w : Word)
  /-- HOST_WINDOW_ACCESS (R532): The host window unit translates an access and issues it to PCIe or raises cause 0x2D. -/
  | hostWindowAccess (k : Ch) (errs : LineErrs)
  /-- HOST_READ_COMPLETION (R534): A PCIe completion returns host-window load data, poisoned on error. -/
  | hostReadCompletion (k : Ch) (i : Nat) (d0 : Word) (d1 : Word) (err : Bool)
  /-- HOST_COMPLETION_TIMEOUT (R534): A host-window load times out and delivers a poisoned result. -/
  | hostCompletionTimeout (k : Ch) (i : Nat)
  /-- HWTDATA_WRITE (R535): A write to CH_HWTDATA writes entry INDEX, invalidates its cached copy and advances INDEX. -/
  | hwtdataWrite (k : Ch) (p : Party) (w : Word)
  /-- HWTDATA_READ (R572): A read of CH_HWTDATA returns entry INDEX from the table. -/
  | hwtdataRead (k : Ch) (p : Party)
  /-- HWCTL_ENABLE (R535): Setting CH_HWCTL.EN empties the translation cache and enables translation. -/
  | hwctlEnable (k : Ch) (p : Party) (w : Word)
  /-- SYNC (R535): CH_HWCTL.SYNC is set and cleared once earlier accesses complete. -/
  | sync (k : Ch) (p : Party) (w : Word)
  /-- INVALL (R571): CH_HWCTL.INVALL invalidates every cached translation entry. -/
  | invall (k : Ch) (p : Party) (w : Word)
  /-- FUNCTION_LEVEL_RESET (R529): FLR of a channel function resets the channel and its PCIe state. -/
  | functionLevelReset (fn : FnId)
  /-- C1_ENTRY (R588): After T1 idle XCLK the channel gates its clocks. -/
  | c1Entry (k : Ch)
  /-- C2_ENTRY (R588): After T2 µs in C1 the channel powers off its sets and retains MEM. -/
  | c2Entry (k : Ch)
  /-- C3_ENTRY (R588): After T3 µs in C2 with rings asleep the channel powers off SPINE and DRAM. -/
  | c3Entry (k : Ch)
  /-- SET_PARK (R589): An idle set powers off by itself after TSET µs. -/
  | setPark (k : Ch) (g : SetId)
  /-- CHANNEL_WAKE (R590): A held packet, kick, access or listener starts the wake of a sleeping domain. -/
  | channelWake (k : Ch)
  /-- PWR_END (R594): Sequencing step END ends the program. -/
  | pwrEnd (k : Ch) (d : DomId)
  /-- CLKGATE (R594): Sequencing step gates the domain's clocks. -/
  | clkgate (k : Ch) (d : DomId)
  /-- CLKUNGATE (R594): Sequencing step ungates the domain's clocks. -/
  | clkungate (k : Ch) (d : DomId)
  /-- ISOON (R594): Sequencing step clamps the domain's outputs. -/
  | isoon (k : Ch) (d : DomId)
  /-- ISOOFF (R594): Sequencing step releases the clamps. -/
  | isooff (k : Ch) (d : DomId)
  /-- RSTON (R594): Sequencing step asserts the domain's reset. -/
  | rston (k : Ch) (d : DomId)
  /-- RSTOFF (R594): Sequencing step releases the domain's reset. -/
  | rstoff (k : Ch) (d : DomId)
  /-- SWOFF (R594): Sequencing step opens the power switches. -/
  | swoff (k : Ch) (d : DomId)
  /-- SWON (R594): Sequencing step closes switch groups in ascending order. -/
  | swon (k : Ch) (d : DomId)
  /-- RETON (R594): Sequencing step lowers MEM to the retention voltage. -/
  | reton (k : Ch) (d : DomId)
  /-- RETOFF (R594): Sequencing step restores VDD_SRAM. -/
  | retoff (k : Ch) (d : DomId)
  /-- PWR_DRAIN (R595): Sequencing step waits until the domain is idle, abandoning the program on timeout. -/
  | pwrDrain (k : Ch) (d : DomId)
  /-- SAVE (R594): Sequencing step copies domain state to its save area. -/
  | save (k : Ch) (d : DomId)
  /-- RESTORE (R594): Sequencing step copies domain state back. -/
  | restore (k : Ch) (d : DomId)
  /-- SELFREF (R594): Sequencing step puts GDDR7 into self-refresh. -/
  | selfref (k : Ch) (d : DomId)
  /-- SREXIT (R594): Sequencing step leaves self-refresh and runs the periodic program. -/
  | srexit (k : Ch) (d : DomId)
  /-- PWR_WAIT (R594): Sequencing step waits B ACLK. -/
  | pwrWait (k : Ch) (d : DomId)
  /-- ENTER_C4 (R613): PWR_CTL CMD 1 takes the channel to C4. -/
  | enterC4 (k : Ch) (p : Party) (w : Word)
  /-- SET_READY (R613): PWR_CTL CMD 2 sets PWR_STAT.READY. -/
  | setReady (k : Ch) (p : Party) (w : Word)
  /-- CLEAR_READY (R613): PWR_CTL CMD 3 clears PWR_STAT.READY. -/
  | clearReady (k : Ch) (p : Party) (w : Word)
  /-- WAKE_TO_C0 (R613): PWR_CTL CMD 4 wakes the channel to C0. -/
  | wakeToC0 (k : Ch) (p : Party) (w : Word)
  /-- CHANNEL_RESET (R604): PWR_CTL CMD 5 or another cause resets the channel's registers and arrays. -/
  | channelReset (k : Ch) (p : Party) (w : Word)
  /-- OPERATING_POINT_SWITCH (R599): The channel moves to a new curve point, ordering voltage and PLL switch. -/
  | operatingPointSwitch (k : Ch)
  /-- POWER_LIMITER (R600): Each ms the limiter lowers or raises channel caps against PLIM. -/
  | powerLimiter (watts : Nat)
  /-- THERMAL_SAMPLE (R601): Every 100 µs sensors are sampled against WARN, LIMIT and TRIP. -/
  | thermalSample (temps : List (BitVec 16))
  /-- CLK32K_LOSS (R584): No CLK32K edge for 100 µs switches LPCLK to ACLK and raises 0x31. -/
  | clk32kLoss
  /-- CLK32K_RESTORE (R584): After 1,024 good edges LPCLK returns to CLK32K. -/
  | clk32kRestore
  /-- RAIL_ALARM (R602): A rail or regulator leaving tolerance sets TH_RAIL and raises 0x31. -/
  | railAlarm (a : RailId)
  /-- POR_N (R606): Release of POR_N resets everything and runs the start-up sequence. -/
  | porN (b : BootInfo)
  /-- PERST_N (R603): PERST_N low resets the HOST domain and every channel. -/
  | perstN
  /-- TRST_N (R603): TRST_N low resets the JTAG TAP. -/
  | trstN
  /-- AGING_MEASUREMENT (R631): Once per hour every aging monitor is measured into TH_AGEn. -/
  | agingMeasurement (k : Ch) (m : Aging)
  /-- AGE_ADJUSTMENT (R632): Daily the service firmware raises AGE towards its target and records it. -/
  | ageAdjustment (k : Ch)
  /-- HOURLY (R636): Each hour the service firmware writes an HOURLY ledger record. -/
  | hourly (h : HourInfo)
  /-- LEDGER_RECORD_WRITE (R635): The service firmware programs, reads back and commits a ledger record. -/
  | ledgerRecordWrite (ok : Bool)
  /-- SECTOR_RECLAIM (R637): With fewer than 4 erased sectors, records are copied and the oldest sector erased. -/
  | sectorReclaim
  /-- STAGE (R639): UP_CTL CMD 1 writes and verifies an image in the inactive bank. -/
  | stage (p : Party) (w : Word) (img : ImgInfo)
  /-- COMMIT (R639): UP_CTL CMD 2 writes the directory record making the staged bank active. -/
  | commit (p : Party) (w : Word) (ok : Bool := true)
  /-- ACTIVATE (R639): UP_CTL CMD 3 puts the committed object into service without a stop. -/
  | activate (p : Party) (w : Word)
  /-- UPDATE_ABORT (R653): UP_CTL CMD 4 stops STAGE or COMMIT before its directory record. -/
  | updateAbort (p : Party) (w : Word)
  /-- HAND_OVER_TIMEOUT (R640): A steward hand-over not seen within 10 ms is undone. -/
  | handOverTimeout (k : Ch)
  /-- GET_VERSION (R610): SPDM request answered by the PF0 responder. -/
  | getVersion (tr : Spdm)
  /-- GET_CAPABILITIES (R610): SPDM request answered by the PF0 responder. -/
  | getCapabilities (tr : Spdm)
  /-- NEGOTIATE_ALGORITHMS (R610): SPDM request answered by the PF0 responder. -/
  | negotiateAlgorithms (tr : Spdm)
  /-- GET_DIGESTS (R610): SPDM request returning certificate digests. -/
  | getDigests (tr : Spdm)
  /-- GET_CERTIFICATE (R611): SPDM request returning the slot 0 chain. -/
  | getCertificate (tr : Spdm) (slot : BitVec 4) (off : BitVec 16) (len : BitVec 16)
  /-- CHALLENGE (R610): SPDM challenge signed by the alias key. -/
  | challenge (tr : Spdm) (slot : BitVec 4) (nonce : Nonce)
  /-- GET_MEASUREMENTS (R612): SPDM request returning measurement blocks of M0–M7. -/
  | getMeasurements (tr : Spdm) (idx : BitVec 8) (nonce : Nonce)
  /-- MCTP_REGISTER_READ (R643): An MCTP message over I3C or SMBus reads one 64-bit register. -/
  | mctpRegisterRead (off : BitVec 20)
  /-- ML_LSEL_WRITE (R651): A write of SEQ makes the service firmware fetch that ledger record into ML_LBUFw. -/
  | mlLselWrite (p : Party) (w : Word)
  /-- REGISTER_READ_CLEAR (R12): A read of an RC field returns its value and clears it. -/
  | registerReadClear (fn : FnId) (p : Party) (off : BitVec 20) (sz : AccSize)
  /-- REGISTER_WRITE (R12): A write to a register with no row of its own updates its fields under their access codes. -/
  | registerWrite (fn : FnId) (p : Party) (off : BitVec 20) (sz : AccSize) (w : Word)
  /-- WAIT_TIME_LIMIT (R488): A caller waiting in WAIT with IMM[1] or WAITEV with IMM[0] resumes when RS1 CCLK have passed on its own counter. -/
  | waitTimeLimit (k : Ch) (n : CallerId)
  /-- CALLER_RESULT_ARRIVAL (R124): A load, atomic, lock, queue or grant result arrives at a caller and is written to its register, ending a wait on that register. -/
  | callerResultArrival (k : Ch) (n : CallerId)
  /-- PROGRAM_STORE_CLEAR_COMPLETE (R604): The 8,192 XCLK clearing of the program store after a channel reset ends and waiting program-store accesses proceed. -/
  | programStoreClearComplete (k : Ch)
  /-- SHUFFLE_COPY_COMPLETE (R365): The copy step of a borrowed region ends and reads of the region are redirected to the saved copy for the test step. -/
  | shuffleCopyComplete (k : Ch) (a : Arr)
  /-- REBUILD_COMPLETE (R338): The bank scan of a ready-queue rebuild ends, the tile takes arrivals again and the duet resumes in replay mode. -/
  | rebuildComplete (k : Ch) (t : Tile)
  /-- CALLER_STAND_IN_COMPLETE (R236): The spare caller duet finishes its self-test and takes over the logical caller, raising source 25. -/
  | callerStandInComplete (k : Ch) (n : CallerId) (pass : Bool)
  /-- PERST_N_RELEASE (R605): Release of PERST_N restarts HCLK and the HOST domain and enables PCIe link training within 2 ms. -/
  | perstNRelease
  /-- RESERVED_FRAME_RECEIVE (R439): A frame with a reserved FTYPE or a CONTROL frame with a reserved code is discarded and counted in CRCERR. -/
  | reservedFrameReceive (k : Ch) (p : PortId) (ftype : BitVec 3) (code : BitVec 8) (chk : FrameCheck := frameGood)
  /-- GDDR7_POWER_DOWN (R410): In C1 or C2 the GDDR7 controller places the memory in power-down after 1 µs without a request. -/
  | gddr7PowerDown (k : Ch)
  /-- BADDESC (R548): A fetched descriptor with a reserved OPC is completed at once with status 0x30 and its consumer index advanced. -/
  | baddesc (k : Ch) (r : RingId) (f : Fetched)
  deriving DecidableEq, Repr

end Sys2Proof
end

