-- ==== Sys2Proof/WellFormed.lean ====
section
/-! DEFINITION. Which commands are well formed: operands whose lists and numbers fit the structures they stand for. -/

namespace Sys2Proof

/-- A DATA frame holds at most seven slots (R438). -/
def Frame.wf (f : Frame) : Bool := decide (f.slots.length ≤ 7)

/-- Start-up reads seven digests, M0 to M6 (R606, R609), and a steward image of the words 0xE000 to 0xFFFF (R20). -/
def BootInfo.wf (b : BootInfo) : Bool := decide (b.digests.length = 7) && decide (b.steward.length ≤ 8192)

/-- One temperature for each TH_SENSn, n = 0 to 19 (R622). -/
def sensorsWf (ts : List (BitVec 16)) : Bool := decide (ts.length = 20)

/-- The histogram of an HOURLY record leaves room in a payload of 960 bytes (R634, R636). -/
def HourInfo.wf (h : HourInfo) : Bool := decide (h.hist.length ≤ 64)

/-- A source of the event controller: 1,024 on a channel, 256 on the device (R501, R518). -/
def srcWf (x : EvCtl) (q : SrcId) : Bool :=
  match x with
  | .chan _ => true
  | .dev => decide (q.val < 256)

/-- A vector of a function: 64 on PF0, 256 on the others (R528). -/
def vecWf (fn : FnId) (v : VecId) : Bool := decide (fn.val ≠ 0) || decide (v.val < 64)

/-- A part of a copy holds at most 512 bytes (R558). -/
def Part.wf (p : Part) : Bool := decide (p.data.length ≤ 512)

/-- Well-formed commands. -/
def Instr.wf : Instr → Bool
  | .dataFrameReceive _ _ fr _ => fr.wf
  | .redataFrameReceive _ _ fr _ => fr.wf
  | .porN b => b.wf
  | .thermalSample ts => sensorsWf ts
  | .hourly h => h.wf
  | .moderationHoldExpiry x q => srcWf x q
  | .evSrcClear x _ q _ => srcWf x q
  | .msixMaskClear fn v => vecWf fn v
  | .copyPartComplete _ _ p => p.wf
  | _ => true

end Sys2Proof
end

