-- ==== Sys2Proof/Decode.lean ====
section
/-! DEFINITION. The command that a word spells by the bits of spec/opcode_table.json.

Every row of that table has an empty list of fields: no row gives its command any bits, so no word spells a command. -/

namespace Sys2Proof

/-- The command a table word spells: none, as no row of the table gives bits. -/
def decodeTableWord (nbits w : Nat) : Option Instr :=
  match nbits, w with
  | _, _ => none

end Sys2Proof
end

