-- ==== Sys2Proof/Machine/State.lean ====
section
/-! DEFINITION. The state of the block: sixteen channels, the device-level blocks, and the queue of waiting commands.

Plain data throughout. Registers are held by BAR0 offset in sparse tables (an unlisted register holds its reset
value, Ops.lean); every other piece of state has a field of its own. A field's default is its value after reset.
Docstrings name the rule of spec/ that gives the state; a field marked MODEL is the model's own book-keeping. -/

namespace Sys2Proof.Machine

/-! ## Tokens under way and requests -/

/-- An operand: VALUE and SIDEBAND (R39: TYPE in [7:4], POISON in [3]). -/
structure Opd where
  val : Word := 0
  sb : BitVec 8 := 0
  deriving DecidableEq, Repr

/-- MODEL. What is accepted when a token is accepted: a word of a queue with RETAIN 0 (R332), or an output of the
releasing firing of a position (R254). -/
inductive Acc where
  | none
  | qword (q : Nat)
  | ord (n : Nat) (seq : BitVec 16)
  deriving DecidableEq, Repr

/-- The party a memory-side unit answers and whose life it reads: a context by identifier and SEQ (R51), or a caller
by number with the model's count of its resets (R372). -/
inductive Who where
  | ctx (c : CtxId) (seq : BitVec 48)
  | caller (n : Nat) (gen : Nat)
  deriving DecidableEq, Repr

/-- Where a result goes: to destination tags (R114), or to a caller's request by its number (R124). -/
inductive Reply where
  | tags (t0 t1 : Option Word)
  | regs (n : Nat) (gen : Nat) (id : Nat)
  deriving DecidableEq, Repr

/-- What a request asks of a memory, lock or queue unit (R115, R117, R154, R369). -/
inductive ReqKind where
  | ld
  | st
  | cas
  | swap
  | xadd
  | acc
  | exc
  | acq
  | tryacq
  | rel
  | ldLock
  | qpush (q : Nat)
  | qpop (q : Nat)
  | qmark (q : Nat)
  | qrewind (q : Nat)
  | qrelease (q : Nat)
  deriving DecidableEq, Repr

/-- A request of a firing, a caller or the context unit. -/
structure Req where
  kind : ReqKind
  /-- Channel address of the first byte. -/
  addr : BitVec 40 := 0
  /-- Bytes accessed. -/
  size : Nat := 0
  /-- Data: the store's bytes, CAS's expected and new value, the operand of an atomic, the pushed word. -/
  d0 : Opd := {}
  d1 : Opd := {}
  /-- TYPE of the result. -/
  ty : BitVec 4 := 1
  reply : Reply := .tags none none
  who : Who := .ctx 0 0
  /-- Instruction that made the request, for a cause raised at the unit. -/
  ip : Ip := 0
  /-- Supervisor privilege of the requester (R371, R477). -/
  supv : Bool := false
  /-- Words 0 to 7 of an exception record (R157), with index in its slot. -/
  words : List Word := []
  /-- MODEL. The commit buffer that the request left (R210): of duet cb, or of caller cb - 68. -/
  cb : Nat := 0
  deriving DecidableEq, Repr

/-- An entry of a commit buffer (R204): a token, a request, or an effect entry, whose effect takes place as the window commits. -/
inductive Ent where
  | tok (t : Token)
  | req (r : Req)
  | eff
  deriving DecidableEq, Repr

/-- A committed commit-buffer entry with the context and instruction of its firing (R210, R211). -/
structure CEntry where
  ent : Ent
  ctx : CtxId := 0
  ip : Ip := 0
  acc : Acc := .none
  /-- XCLK of a firing's commit, in which the entry does not yet drain (R186, R210; log entry 51). -/
  at_ : Option Nat := none
  deriving DecidableEq, Repr

/-! ## Contexts and loops (02_tokens_and_tags.md, 03_instruction_set.md) -/

/-- STATE of a context record (R50). -/
inductive CtxSt where
  | free
  | live
  | dead
  | poisoned
  deriving DecidableEq, Repr

/-- A context record, words 0 to 7 (R50, R51). -/
structure Ctx where
  st : CtxSt := .free
  flow : BitVec 6 := 0
  tempo : BitVec 4 := 0
  priocap : BitVec 3 := 0
  ring : BitVec 8 := 0
  origin : BitVec 2 := 0
  itwin : BitVec 4 := 0
  elder : Bool := false
  supv : Bool := false
  slot : BitVec 16 := 0
  retTag : Word := 0
  excTag : Word := 0
  rm : BitVec 2 := 0
  te : BitVec 8 := 0
  flags : BitVec 8 := 0
  seq : BitVec 48 := 0
  deadline : BitVec 32 := 0
  cost : BitVec 32 := 0
  mscount : BitVec 24 := 0
  orphans : BitVec 8 := 0
  exccnt : BitVec 8 := 0
  steward : Word := 0
  /-- XCLK in which the context left LIVE (R66). -/
  diedAt : Nat := 0
  /-- XCLK of the last change of STATE, and STATE before it, which a lookup made in that XCLK returns (R56). -/
  chAt : Option Nat := none
  was : CtxSt := .free
  /-- Its sweep pass has finished (R66). -/
  swept : Bool := false
  /-- The loop entry of which it is an iteration context (R111). -/
  loop : Option Nat := none
  deriving DecidableEq, Repr

/-- A granted context allocation (R295): the identifier, the loop entry a LOOPIN takes, and the weight (R292). -/
structure Grant where
  id : CtxId
  loop : Option Nat := none
  weight : Nat := 0
  deriving DecidableEq, Repr

/-- A loop entry in use (R107); a FREE entry is not listed. -/
structure Loop where
  /-- CLOSING, otherwise OPEN. -/
  closing : Bool := false
  exitTag : Word := 0
  win : Nat := 8
  live : Nat := 0
  newest : CtxId := 0
  exitVal : Opd := {}
  /-- Context and IP of the LOOPIN (R683). -/
  ctx : CtxId := 0
  ip : Ip := 0
  /-- NEXTITs that have fired and whose windows have neither committed nor rewound (R109). -/
  pending : Nat := 0
  /-- XCLK of the last LOOPOUT that committed, and how many committed in it: their room is not visible before the next XCLK (R112). -/
  outAt : Nat := 0
  outs : Nat := 0
  deriving DecidableEq, Repr

/-- An end of a context that sent a word to RET_TAG in an XCLK (R63): the context, the XCLK, the rank of the kill (none for a CTXEND), the
word as sent, and the acceptance mark it carries. -/
structure Ended where
  id : Nat
  at_ : Nat
  rank : Option Nat := none
  word : Token
  acc : Acc := .none
  deriving DecidableEq, Repr

/-- The context unit with its cache, free list, loop entries and sweep (R54 to R66, R107, R295, R681). -/
structure CtxUnit where
  /-- Records of contexts that are not in their reset form, by identifier. -/
  tbl : Tbl Ctx := []
  /-- Cached records, most recently used first, with the dirty mark (R54). -/
  cached : List (Nat × Bool) := []
  /-- Free list (R57): identifiers given back by a rewind, then the unused range, then freed ones in order. -/
  freeFront : List Nat := []
  freeNext : Nat := 0
  freeEnd : Nat := 0
  freed : List Nat := []
  /-- Identifiers lost with a line of the list (R397): they stay in their slots and are passed over. -/
  lost : List Nat := []
  /-- Slot of the list at which the identifier at its head lies (R57, R403). -/
  freeHead : Nat := 0
  /-- Ends of the present XCLK, latest first (R63). -/
  ends : List Ended := []
  /-- The creation counter (R51): SEQ of the next creation. -/
  seqNext : BitVec 48 := 0
  /-- The free list is being written (R681). -/
  building : Bool := false
  /-- The record of context 0 is still to be read from the table (R681). -/
  starting : Bool := false
  /-- A flush runs (R74). -/
  flushing : Bool := false
  /-- Contexts served by the running sweep pass (R65). -/
  sweep : Option (List Nat) := none
  loops : Tbl Loop := []
  /-- Member of the round robin last granted: a tile, or 64 for the callers (R295, R487). -/
  rr : Nat := 64
  /-- Sum of the weights granted and not yet turned into a LIVE context or an open loop (R292). -/
  granted : Nat := 0
  deriving DecidableEq, Repr

/-! ## Matching (05_matching_and_firing.md) and Cut-in (08_progress_and_cut_in.md) -/

/-- STATE of a matching entry in use (R165); a FREE entry is not listed. -/
inductive MSt where
  | wait
  | matched
  | extension
  deriving DecidableEq, Repr

/-- A matching entry (R165). -/
structure MEntry where
  val0 : Word := 0
  val1 : Word := 0
  sb0 : BitVec 8 := 0
  sb1 : BitVec 8 := 0
  ctx : CtxId := 0
  ip : Ip := 0
  need : BitVec 4 := 0
  got : BitVec 4 := 0
  pmin : BitVec 3 := 0
  st : MSt := .wait
  xway : BitVec 5 := 31
  /-- Order of allocation (R167, R301). -/
  born : Nat := 0
  /-- XCLK of allocation (R300). -/
  at_ : Nat := 0
  /-- XCLK in which a token last filled it (R301). -/
  filledAt : Option Nat := none
  deriving DecidableEq, Repr

/-- A firing packet (R180). -/
structure FPacket where
  instr : Word := 0
  ctx : CtxId := 0
  ip : Ip := 0
  prio : BitVec 3 := 0
  row : BitVec 6 := 0
  way : BitVec 5 := 0
  deriving DecidableEq, Repr

/-- Why a token waits in a miss buffer: its record's fill (R171), the eviction of its key (R302), or the region of its row that the Shuffle
has borrowed (R189). -/
inductive MissWhy where
  | record
  | eviction
  | shuffle
  deriving DecidableEq, Repr

/-- A token of a miss buffer, with the instruction word read as it entered the tile (R178). -/
structure Missed where
  tok : Token
  word : Word
  why : MissWhy
  deriving DecidableEq, Repr

/-- A token of a deferral buffer (R170), with its instruction word (R178) and the XCLK since which Cut-in found no place for a victim
(R309). -/
structure Deferred where
  tok : Token
  word : Word
  stuckAt : Option Nat := none
  deriving DecidableEq, Repr

/-- A token of the Cut-in queue (R305), with its tile and its instruction word (R178). -/
structure CutTok where
  tile : Nat
  tok : Token
  word : Word
  deriving DecidableEq, Repr

/-- A packet that the ready stage holds (R181, R250); passed once it waits for room in its ready queue only. -/
structure HeldPkt where
  pkt : FPacket
  passed : Bool := false
  deriving DecidableEq, Repr

/-- The eviction in flight of a bank (R302): entry, bucket and slot of the record. -/
structure Evict where
  e : Nat
  bucket : Nat
  slot : Nat
  deriving DecidableEq, Repr

/-- The units of a tile around its matching bank. -/
structure TileSt where
  defer : List Deferred := []
  miss : List Missed := []
  /-- Packet held by the ready stage (R181, R250). -/
  held : Option HeldPkt := none
  evict : Option Evict := none
  /-- Spill filter (R307): counters that are not 0. -/
  filter : Tbl Nat := []
  /-- Spill records of the tile (R307). -/
  spilled : Nat := 0
  /-- A rebuild of the tile's ready queues runs (R338), and its scan of the bank has been made. -/
  rebuild : Bool := false
  scanned : Bool := false
  deriving DecidableEq, Repr

/-- What a parked firing waits for (R250, R252, R257, R261). -/
inductive ParkFor where
  | slot (q : Nat)
  | cursor (n : Nat) (seq : BitVec 16)
  | head (n : Nat) (seq : BitVec 16)
  deriving DecidableEq, Repr

/-- A record of the waiting pool (R250). -/
structure Parked where
  tile : Nat
  row : BitVec 6
  way : BitVec 5
  ctx : CtxId
  /-- Instruction word read with the completing token (R172, R180). -/
  word : Word := 0
  why : ParkFor
  /-- Its wait has ended (R250). -/
  woken : Bool := false
  deriving DecidableEq, Repr

/-- The matching store, the ready stages, the waiting pool and Cut-in of a channel. -/
structure Match where
  /-- Entries in use, by tile x 1536 + entry. -/
  entries : Tbl MEntry := []
  tiles : Tbl TileSt := []
  pool : List Parked := []
  /-- Cut-in queue (R305). -/
  cutq : List CutTok := []
  /-- MODEL. The head of the Cut-in queue, once it has been looked up and could not go on (R401). -/
  cutTried : Option CutTok := none
  /-- MODEL. Allocations so far, the source of MEntry.born. -/
  births : Nat := 0
  /-- Contexts killed since the stall monitor fired and until the steward reports the stall, latest first (R312, R636). -/
  stallKills : List Nat := []
  /-- XCLK in which spill exhaustion last raised source 16 (R309). -/
  fullAt : Option Nat := none
  /-- Stall count, and XCLK of the last commit of a window (R311). -/
  stall : Nat := 0
  commitAt : Option Nat := none
  /-- MS_OCC.TOTAL has changed in this XCLK: it is compared with the watermarks at its end (R177, R296). -/
  moved : Bool := false
  deriving DecidableEq, Repr

/-! ## Duets (06_lead_and_follow.md) -/

/-- Actions of a firing that take effect when its window commits (R204's effect entry). -/
inductive Eff where
  | signal (n : BitVec 8)
  | ctxend (v : Opd)
  | kill (c : CtxId) (status : BitVec 8)
  | ctxnew (g : Grant) (ret : Word)
  | loopin (g : Grant) (exitTag : Word)
  | nextit (g : Grant) (e : Nat)
  | loopout (e : Nat) (final : Option Opd)
  | flowset (n : BitVec 6)
  | soloOut (key : Word)
  | promRel
  deriving DecidableEq, Repr

/-- What one unit computes for a firing: entries in order, flags raised (lane 0 or whole, lane 1), whether a raised
flag is trapped, a raised cause with DETAIL, the default result, its poison, and the effects. -/
structure Res where
  ents : List Ent := []
  flags0 : BitVec 8 := 0
  flags1 : BitVec 8 := 0
  trap : Bool := false
  cause : Option (BitVec 8 × BitVec 32) := none
  result : Word := 0
  rpoison : Bool := false
  effs : List Eff := []
  deriving DecidableEq, Repr


/-- A caller register with its poison bit (R123). -/
abbrev Reg := Word × Bool

/-- CSRs of a caller (R486, R517) with its instruction pointer. -/
structure Csrs where
  ip : Ip := 0
  /-- STATUS: [5] PBANK, [4] BANK, [3] PPRIV, [2] PRIV, [1] PIE, [0] IE. -/
  status : BitVec 6 := 0
  epc : Ip := 0
  ecause : Word := 0
  eval : Word := 0
  vec : Ip := 0xE000
  fpcsr : BitVec 18 := 0
  ctxt : Word := 0
  ctxexc : Word := 0
  /-- EVTGT: [1] MASK, [0] EN. -/
  evtgt : BitVec 2 := 0
  deriving DecidableEq, Repr

/-- A firing started in a window: packet, tile, operands read from the bank, grant, and the results of Lead and Follow once
executed; for a caller's instruction, the CSRs with which it executed (R477, R487). -/
structure Firing where
  pkt : FPacket
  tile : Nat := 0
  l : Opd := {}
  r : Opd := {}
  t : Opd := {}
  grant : Option Grant := none
  lead : Option Res := none
  follow : Option Res := none
  csrs : Csrs := {}
  deriving DecidableEq, Repr

/-- A firing that committed while its context was LIVE: the duet and window that committed it, the XCLK, the bits it added to FLAGS, and whether
its own window ended its context (R186). -/
structure Done where
  duet : Nat
  wseq : BitVec 32
  at_ : Nat
  f : Firing
  raised : BitVec 8 := 0
  own : Bool := false
  deriving DecidableEq, Repr

/-- A selected packet in the dispatch stage (R182, R183): started once nothing holds it. -/
structure Staged where
  pkt : FPacket
  tile : Nat
  grant : Option Grant := none
  /-- Selected under the starving rule (R183). -/
  starve : Bool := false
  deriving DecidableEq, Repr

/-- A request of a caller that has not been answered: number, class of R489 (0 scratchpad and locks, 1 GDDR7, 2 host
window, 3 setup, 4 queue), its bank and registers, and whether a later instruction has written the register since. -/
structure OutReq where
  id : Nat
  cls : Nat
  fast : Bool
  rd : Nat
  rd2 : Option Nat := none
  over1 : Bool := false
  over2 : Bool := false
  deriving DecidableEq, Repr

/-- A caller checkpoint (R235): both banks, the instruction pointer and the CSRs. -/
structure Ckpt where
  csrs : Csrs := {}
  normal : Tbl Reg := []
  fast : Tbl Reg := []
  /-- Requests not answered at the checkpoint: a rewind forgets those made since. -/
  reqs : List OutReq := []
  deriving DecidableEq, Repr

/-- An uncommitted window of a duet or a caller (R199, R203, R218). -/
structure Win where
  wseq : BitVec 32
  firings : List Firing := []
  sl : Sample := ⟨0, 0, 0, 0, 0⟩
  sf : Sample := ⟨0, 0, 0, 0, 0⟩
  /-- The window runs in the single-sample regime (R218). -/
  single : Bool := false
  /-- LF_WIN.LEN and LF_CTL.TEST when it was opened (R200, R238). -/
  len : BitVec 2 := 1
  test : Bool := false
  openAt : Nat := 0
  /-- XCLK in which the last firing started (R200, Idle). -/
  lastAt : Nat := 0
  closed : Bool := false
  /-- A delay-line parity error marked it as failed (R224). -/
  dlBad : Bool := false
  /-- Injection acting in it (R244), 0 for none. -/
  inj : BitVec 4 := 0
  /-- A caller's Follow took another way than its Lead in it (R234). -/
  split : Bool := false
  ckpt : Option Ckpt := none
  deriving DecidableEq, Repr

/-- A tile that a partner is to take at its next window boundary (R230): the tile, the duet that left it, the cause, and the XCLK of the
start of the event. -/
structure Join where
  tile : Nat
  from_ : Nat
  cause : Nat
  since : Nat
  deriving DecidableEq, Repr

/-- A stand-in under way (R226): its cause, the XCLK of its start, and the spare that takes the tile. -/
structure StandIn where
  cause : BitVec 3
  since : Nat
  spare : Nat
  /-- A hand-over of R233 (without step 3): the tile handed over. -/
  handOver : Option Nat := none
  deriving DecidableEq, Repr

/-- A duet (roles and causes are fields of its LF_DUETn). -/
structure Duet where
  /-- WSEQ of the window opened last (R199). -/
  wseq : BitVec 32 := 0
  /-- Uncommitted windows, oldest first, at most two (R202). -/
  wins : List Win := []
  stage : Option Staged := none
  /-- Committed entries not yet drained, oldest first (R210). -/
  cb : List CEntry := []
  /-- Failed attempts in a row (R217). -/
  attempts : Nat := 0
  /-- Replay mode (R212, R216). -/
  replay : Bool := false
  /-- WSEQ the next window takes again, after a rewind (R199). -/
  again : Option (BitVec 32) := none
  /-- Comparator A or B failed on a test pair (R223). -/
  cmpBad : Bool := false
  /-- A RETIRE waits for the next window boundary (R225). -/
  retire : Bool := false
  /-- Tiles that wait for the duet's window boundary to be connected to it (R200, R230). -/
  joins : List Join := []
  /-- Whose turn it is in role DOUBLE: false the tile of SERVES (R231). -/
  turn : Bool := false
  standIn : Option StandIn := none
  /-- A SPARETEST self-test runs (R229). -/
  testing : Bool := false
  /-- An injection with REPEAT that acted, the WSEQ of its window, and the marks at which it acts again (R244). -/
  injAgain : BitVec 4 := 0
  injAt : BitVec 32 := 0
  injMarks : List Nat := []
  /-- XCLK from which the divider, the FDIV and FSQRT unit, the complex issue slot and the decoder are free (R120, R183). -/
  divFree : Nat := 0
  fdivFree : Nat := 0
  cplxFree : Nat := 0
  fanFree : Nat := 0
  /-- XCLK of the last comparison, and XCLKs with a comparison so far: in every other XCLK the comparators take a test pair (R223). -/
  cmpAt : Option Nat := none
  compares : Nat := 0
  deriving DecidableEq, Repr

/-! ## Queues (09_hardware_queues.md) -/

/-- Pointers of a queue (R330): offsets of WR and REL, HELD, UNREAD, and marks as words read since REL (R331). For a
software queue the one mark is MARK (R332). -/
structure QPtr where
  wr : Nat := 0
  rel : Nat := 0
  held : Nat := 0
  unread : Nat := 0
  marks : List Nat := []
  /-- XCLK of the last change, and the words pushed, words released and items read in it (R335). -/
  at_ : Option Nat := none
  pushed : Nat := 0
  freed : Nat := 0
  reads : Nat := 0
  deriving DecidableEq, Repr

/-- A pop waiter (R333). -/
structure PopWait where
  q : Nat
  req : Req
  deriving DecidableEq, Repr

/-- The queue unit. -/
structure Queues where
  ptrs : Tbl QPtr := []
  /-- Words of the store that are not 0, by word number (R324). -/
  store : Tbl (BitVec 144) := []
  /-- Pop waiters, oldest first (R333). -/
  waiters : List PopWait := []
  /-- Queues whose HELD or watermark has changed in this XCLK: compared at its end (R340). -/
  touched : List Nat := []
  /-- wait[p] of R182, by ready queue: XCLK for which the level has held a packet without being dispatched. -/
  waits : Tbl Nat := []
  deriving DecidableEq, Repr

/-! ## Flows and admission (07_flows_and_admission.md) -/

/-- A Solo slot in use (R257). -/
structure SoloSlot where
  owner : Option (CtxId × BitVec 16) := none
  /-- Waiters: tile, row, way, context, class. -/
  waiters : List (Nat × BitVec 6 × BitVec 5 × CtxId × BitVec 6) := []
  deriving DecidableEq, Repr

/-- An order queue's own registers (R252, R254, R256, R261); its positions are words of queue 768 + n. -/
structure Ord where
  head : BitVec 16 := 0
  tail : BitVec 16 := 0
  cursor : BitVec 16 := 0
  /-- XCLK since which HEAD has stayed, HEADTIME as that position reached it (R249), and whether its limit has fired. -/
  since : Nat := 0
  limit : Nat := 0
  fired : Bool := false
  /-- Outputs of releasing firings not yet accepted, by sequence number (R254). -/
  unacc : Tbl Nat := []
  deriving DecidableEq, Repr

/-- What a deadline of R273 stands for: the accepted item of a ring that has no context yet, or an item's context. -/
inductive DlFor where
  | ring (r : Nat)
  | ctx (id : CtxId)
  deriving DecidableEq, Repr

/-- Flow units and admission state. -/
structure Flow where
  solo : Tbl SoloSlot := []
  ords : Tbl Ord := []
  /-- Deadlines of outstanding guaranteed items of level q, in admission order (R273). -/
  lists : Tbl (List (Nat × DlFor)) := []
  /-- F[q] (R273), in ACLK periods. -/
  f : Tbl Nat := []
  deriving DecidableEq, Repr

/-! ## Scratchpad, locks, Shuffle (10_scratchpad_and_locks.md) -/

/-- A split access under way (R354). -/
structure Split where
  /-- Number of the access, which its messages carry (MODEL). -/
  id : Nat := 0
  req : Req
  t1 : Nat
  t2 : Nat
  /-- 0 the primary has sent the secondary part, 1 the secondary has answered, 2 go has been sent. -/
  stage : Nat := 0
  /-- That message has reached its bank. -/
  got : Bool := false
  /-- Bytes and poison the secondary part of a load returned. -/
  data : List Byte := []
  poison : List Bool := []
  /-- Bytes and poison of the primary part of a load, read as the primary bank locked its bytes. -/
  data1 : List Byte := []
  poison1 : List Bool := []
  deriving DecidableEq, Repr

/-- The Shuffle of one bank of an array (R365, R367). -/
structure Shuf where
  step : BitVec 2 := 0
  region : Nat := 0
  spare : Option Nat := none
  halted : Bool := false
  /-- While HALTED, the region that stays in the saved copy (R367, R648). -/
  haltAt : Nat := 0
  /-- Region to borrow next, and TIME from which it may be (R364, R386). -/
  next : Nat := 0
  dueAt : Nat := 0
  /-- Passes completed (R387). -/
  passes : Nat := 0
  /-- A region was found uncorrectable while the bank was HALTED (R645, R648). -/
  spent : Bool := false
  /-- Background XCLK that the step has had: beats copied, operations of the test, beats restored (R365). -/
  prog : Nat := 0
  /-- The region tested before the borrowed one, which a borrowing that is called off leaves in REGION (R388). -/
  prev : Nat := 0
  /-- The bank has served a request in this XCLK, and the Shuffle went without the one before (R357). -/
  used : Bool := false
  denied : Bool := false
  deriving DecidableEq, Repr

/-- The scratchpad's own state beside its bytes. -/
structure Scratch where
  /-- The clearing of R349 runs. -/
  clearing : Bool := true
  splits : List Split := []
  /-- MODEL. Split accesses so far, the source of Split.id. -/
  splitNext : Nat := 0
  /-- Requests taken and waiting for a locked byte, by tile (R357). -/
  waiting : List (Nat × Req) := []
  /-- Shuffle state by array: see arrKey. -/
  shuf : Tbl Shuf := []
  deriving DecidableEq, Repr

/-- A waiter of a lock (R374). -/
structure LWait where
  who : Who
  reply : Reply
  deriving DecidableEq, Repr

/-- A lock word (R370) that is not 0, with its waiters and a grant due (R373). -/
structure Lock where
  st : BitVec 2 := 0
  hkind : Bool := false
  hseq : BitVec 16 := 0
  holder : CtxId := 0
  gen : BitVec 16 := 0
  waiters : List LWait := []
  due : Bool := false
  /-- Reset count of the holding caller when it took the lock (R376). -/
  hgen : Nat := 0
  deriving DecidableEq, Repr

/-! ## GDDR7 (11_gddr7_memory.md) -/

/-- A training program under way (R406): step, restarts so far, whether it is the periodic one, the step words as they stood at
its start (R419), the TIME of its start and of the start of the present step, the settings before it, which a failing periodic program
leaves in place, and whether it ends after its present step as EN was written 0 (R686). -/
structure Training where
  modes0 : Tbl (BitVec 16) := []
  saved0 : Bool := false
  stop : Bool := false
  step : Nat
  fails : Nat := 0
  periodic : Bool := false
  words : List Word := []
  since : Nat := 0
  stepAt : Nat := 0
  deriving DecidableEq, Repr

/-- Outcome of a training program waiting for TRAINING_PROGRAM_COMPLETE, with the TIME of its start. -/
inductive TrainEnd where
  | success (periodic : Bool) (since : Nat)
  | failure (periodic : Bool) (since : Nat)
  deriving DecidableEq, Repr

/-- An accepted request, with the MCLK of its acceptance (R401). -/
structure Acpt where
  req : Req
  at_ : Nat := 0
  deriving DecidableEq, Repr

/-- A write of the context unit that waits at the internal port (R398): a whole line, or some bytes of one (R400). -/
structure InWr where
  addr : Nat
  bytes : List Byte
  deriving DecidableEq, Repr

/-- The GDDR7 controller. -/
structure Dram where
  /-- MODEL. MCLK periods (R391; log entry 3), and the MCLK in which a request was last accepted (R398). -/
  mclk : Nat := 0
  accAt : Option Nat := none
  /-- Accepted requests, oldest first (R398). -/
  acc : List Acpt := []
  /-- Writes that wait at the internal port, oldest first (R398). -/
  inq : List InWr := []
  /-- The internal port has taken an access since the end of the last period (R410). -/
  touched : Bool := false
  /-- Lines in the write buffer, oldest first (R398). -/
  wbuf : List Nat := []
  /-- Blocks whose check lines are in the check-line cache, most recently used first, with the dirty mark (R396). -/
  checks : List (Nat × Bool) := []
  /-- Check lines as the memory holds them, by block (R394, R395). -/
  checkMem : Tbl (BitVec 512) := []
  train : Option Training := none
  ended : Option TrainEnd := none
  /-- Mode registers written, by device x 256 + register (R406). -/
  modes : Tbl (BitVec 16) := []
  /-- Training results are kept as the reference for DELTA (R406). -/
  saved : Bool := false
  /-- TIME of the last periodic program and memory temperature at the last training (R405). -/
  lastTrain : Nat := 0
  trainTemp : BitVec 8 := 0
  /-- Next line of the patrol scrub, and TIME from which its next pass may start (R408). -/
  scrubLine : Nat := 0
  scrubAt : Nat := 0
  /-- Lines corrected in this pass, by row (R409). -/
  rowCorr : List (RowId × Nat) := []
  /-- Rows that are candidates for repair (R409). -/
  rowBad : List RowId := []
  /-- Rows with uncorrectable lines: the last scrub pass that met one, and the number of passes that did (R645). -/
  rowUnc : List (RowId × (Nat × Nat)) := []
  /-- Hard repairs made (R406). -/
  hard : List RowId := []
  /-- Rows repaired in service, for the repair map (R409). -/
  repaired : List RowId := []
  /-- TIME since which no request has come (R410). -/
  idleSince : Nat := 0
  powerDown : Bool := false
  /-- The device is in self-refresh (R410). -/
  selfRefresh : Bool := false
  /-- EN was written 0, and the controller has yet to finish its accepted requests or, in SELFREF, to wake (R686). -/
  stopDue : Bool := false
  deriving DecidableEq, Repr

/-! ## Network and fabric (12_network_and_fabric.md) -/

/-- A doorbell message (R497): source, COUNT, and whether its sender had the right to name the source (R498). -/
structure EvMsg where
  src : Nat
  count : Nat := 1
  allowed : Bool := true
  /-- Sender of the packet: a tile, or with 64 added the shared unit of one. -/
  tile : Nat := 99
  deriving DecidableEq, Repr

/-- Payload of a packet (R422). -/
inductive Pay where
  | tok (t : Token)
  | req (r : Req)
  | result (n gen id : Nat) (d0 d1 : Opd)
  /-- A doorbell message of a unit of the channel (R497). -/
  | event (m : EvMsg)
  /-- A message of the split access with this number (R354). -/
  | split (id : Nat)
  deriving DecidableEq, Repr

/-- A packet in the network: its header (R423) and payload. -/
structure NPkt where
  pay : Pay
  cls : Bool := false
  dl : Bool := false
  dkind : Nat := 0
  dtile : Nat := 0
  epoch : Bool := false
  fvc : BitVec 2 := 0
  nflit : Nat := 0
  /-- Arrival port, 7 for a token that started here (R440). -/
  ap : BitVec 3 := 7
  acc : Acc := .none
  /-- Its last send failed CHECK and awaits the resend (R428). -/
  failed : Bool := false
  /-- Instruction word read as the token entered its home tile (R178). -/
  word : Word := 0
  deriving DecidableEq, Repr

/-- The routers of a channel. -/
structure Net where
  /-- Input buffers, by (router x 6 + input) x 4 + virtual channel, oldest first. -/
  bufs : Tbl (List NPkt) := []
  /-- Packets that units offer to an L or G port and that wait for room in its input buffer, by buffer x 2 + side: 1 for a shared unit, 0 for
  the tile (R421); and the buffers whose last packet came from the shared unit. -/
  offers : Tbl (List NPkt) := []
  unitLast : List Nat := []
  /-- Input last granted an output, as input x 4 + virtual channel, by router x 6 + output (R427). -/
  rr : Tbl Nat := []
  /-- Packets delivered through an L or G port and not yet taken, by tile x 8 + DKIND. -/
  arrive : Tbl NPkt := []
  /-- Consecutive failures of a link, by router x 6 + output (R428). -/
  fails : Tbl Nat := []
  /-- The last OLDCNT was not 0 after a change of CUR (R436). -/
  flip : Bool := false
  deriving DecidableEq, Repr

/-- A frame in a replay buffer (R441), with the credits it carries. -/
structure TxFrame where
  seq : BitVec 8
  slots : List Slot
  crvc : BitVec 2 := 0
  crcnt : BitVec 3 := 0
  deriving DecidableEq, Repr

/-- A fabric port (R444 to R453). -/
structure Port where
  st : BitVec 3 := 0
  avail : Bool := false
  /-- DATA frames and credits are enabled: OPEN, until the port leaves ACTIVE and DRAIN (R446). -/
  dataOn : Bool := false
  /-- TIME at which the state's timer expires (R447). -/
  timer : Option Nat := none
  /-- Pending pulse events, bit e for event e (R445). -/
  pulses : BitVec 32 := 0
  sigDet : Bool := false
  sigLoss : Bool := false
  /-- CMD 2 was written (R445, WAKE). -/
  wakeCmd : Bool := false
  /-- DRAINDONE was received since the port entered ACTIVE, and sent since it entered DRAIN (R445, R450). -/
  drainDone : Bool := false
  drainSent : Bool := false
  /-- Transmitter in electrical idle, lane training running, and SerDes powered down with its settings kept (R446). -/
  txIdle : Bool := true
  training : Bool := false
  serdesOff : Bool := false
  /-- Transmit credits of each virtual channel (R442). -/
  credits : Tbl Nat := []
  /-- Replay buffer, oldest first (R441). -/
  replay : List TxFrame := []
  /-- Frames of the replay buffer to send again, from the oldest (R441). -/
  resend : List (BitVec 8) := []
  /-- Frames asked for by REFETCH, to be sent as REDATA (R441). -/
  redata : List (BitVec 8) := []
  /-- Virtual channel whose word filled the last slot. -/
  lastVc : Nat := 3
  /-- Next SEQ to send, next SEQ expected. -/
  txSeq : BitVec 8 := 0
  rxSeq : BitVec 8 := 0
  /-- Frames received whose tokens have not all left the receive queues: SEQ and tokens left per channel (R439). -/
  rxFrames : List (BitVec 8 × List Nat) := []
  /-- SEQ of the last frame whose tokens have all left (ACK sent). -/
  rxAck : BitVec 8 := 255
  /-- A NAK for the expected SEQ has been sent (R441). -/
  nakSent : Bool := false
  /-- Control codes waiting to be sent, with arguments. -/
  ctl : List (BitVec 8 × BitVec 8) := []
  /-- Credits to return, by virtual channel (R442). -/
  giveBack : Tbl Nat := []
  /-- TIME of the last advance of ACK or of the last replay (R441). -/
  ackAt : Nat := 0
  /-- TIMEs of the replays of the last ms (R441). -/
  replays : List Nat := []
  /-- Partner's serial held, and SEQVALID (R451, R453). -/
  peer : Option Word := none
  seqValid : Bool := false
  /-- A Bow of the partner has passed R452 (GOT), and Bows to send. -/
  got : Bool := false
  bowDue : Bool := false
  bowAt : Nat := 0
  /-- TIME since which queues and replay buffer have been empty (R449), and the handshake. -/
  idleSince : Nat := 0
  sleepSent : Bool := false
  /-- REFETCH outstanding, by virtual channel: the frame's SEQ, and its words of that channel from the failed one on (R337). -/
  refetch : Tbl (BitVec 8 × Nat) := []
  /-- Acceptance marks of the words of each transmit queue (MODEL). -/
  txAcc : Tbl (List Acc) := []
  deriving DecidableEq, Repr

/-! ## Callers (13_caller_cores.md) -/

/-- STATE of a caller (R472). -/
inductive CallSt where
  | halted
  | running
  | waiting
  | waitev
  | faulted
  | lost
  deriving DecidableEq, Repr

/-- Who has taken an inbox entry, in a window that has not committed (R513): the WAITEV of a window, or the handler. -/
inductive Taker where
  | nobody
  | waitev (wseq : BitVec 32)
  | handler
  deriving DecidableEq, Repr

/-- An inbox entry (R504). -/
structure InEntry where
  src : Nat
  count : Nat
  fast : Bool
  taken : Taker := .nobody
  /-- Landed in this CCLK: visible from the next (R510). -/
  fresh : Bool := false
  deriving DecidableEq, Repr

/-- What a waiting caller waits for (R488, R514). -/
structure WaitFor where
  /-- Every earlier request has been answered (IMM[0] of WAIT). -/
  reqs : Bool := false
  /-- CCLK at which the limit passes. -/
  until_ : Option Nat := none
  /-- RD of a WAITEV. -/
  rd : Nat := 0
  /-- A landing woke the WAITEV while EVTGT.MASK was 1 (R516). -/
  woke : Bool := false
  deriving DecidableEq, Repr

/-- An exception due (R481): cause and DETAIL, the IP of the faulting instruction, the default result and the flags to OR
(R482); late when a unit raised it after the window of the instruction committed. -/
structure PendExc where
  cause : BitVec 8
  detail : BitVec 32
  ip : Ip
  late : Bool := false
  eval : Word := 0
  flags : BitVec 8 := 0
  deriving DecidableEq, Repr

/-- A logical caller. -/
structure Caller where
  /-- Instruction buffer (R474): words by IP, the one fetched last first. -/
  ibuf : List (Nat × Word) := []
  st : CallSt := .halted
  csrs : Csrs := {}
  /-- Registers w1 to w31 of each bank that are not 0 (R480). -/
  normal : Tbl Reg := []
  fast : Tbl Reg := []
  /-- Registers that hold another value in the Follow, by 32 x bank + number (R218, R234). -/
  follow : Tbl Reg := []
  wseq : BitVec 32 := 0
  wins : List Win := []
  cb : List CEntry := []
  attempts : Nat := 0
  replay : Bool := false
  again : Option (BitVec 32) := none
  /-- The comparators of its duet: one failed on a test pair; XCLK of the last comparison, and how many (R223). -/
  cmpBad : Bool := false
  cmpAt : Option Nat := none
  compares : Nat := 0
  reqs : List OutReq := []
  /-- MODEL. Number of the next request, and resets so far (R372). -/
  nextId : Nat := 0
  gen : Nat := 0
  /-- Exceptions due, oldest first (R481). -/
  exc : List PendExc := []
  wait : WaitFor := {}
  inbox : List InEntry := []
  grant : Option Grant := none
  /-- RUN was written 0: the caller halts at its next boundary (R479). -/
  halting : Bool := false
  /-- IP of the last committed window's next instruction (R492). -/
  ipDone : Ip := 0
  /-- Physical duet, none while LOST (R471). -/
  phys : Option Nat := none
  /-- The physical duet is to be retired at the next boundary; the spare of a stand-in under way, and its cause (R490). -/
  retire : Bool := false
  standIn : Option Nat := none
  standCause : Nat := 0
  dcause : Word := 0
  deriving DecidableEq, Repr

/-! ## Events (14_events_and_doorbells.md) -/

/-- Where a delivery goes (R505, R518). -/
inductive EvTarget where
  | caller (n : Nat)
  | vector (v : Nat)
  | service
  deriving DecidableEq, Repr

/-- Hardware state of a source (R520): COUNT, INFLIGHT, INBOX, LAST, and the CCLK at which its hold ends. -/
structure EvSt where
  count : Nat := 0
  inflight : Nat := 0
  inbox : Bool := false
  last : BitVec 2 := 0
  hold : Nat := 0
  /-- First CCLK in which it may be selected again after a bounce or a CLEAR (R510, R520). -/
  from_ : Nat := 0
  /-- Raises added in CCLK freshAt, which a selection in it leaves (R500). -/
  fresh : Nat := 0
  freshAt : Option Nat := none
  /-- CCLK of the last write to EN, and the value before it (R506). -/
  enWas : Option (Nat × Bool) := none
  deriving DecidableEq, Repr

/-- A delivery on its way (R510). -/
structure Deliv where
  src : Nat
  count : Nat
  fast : Bool
  target : EvTarget
  roundRobin : Bool := false
  /-- CCLK of the selection. -/
  at_ : Nat := 0
  deriving DecidableEq, Repr

/-- An event controller. -/
structure EvUnit where
  /-- Raises of this XCLK, whose packets enter the network at its end (R497). -/
  sent : List EvMsg := []
  msgs : List EvMsg := []
  srcs : Tbl EvSt := []
  deliv : List Deliv := []
  /-- Last source selected from 64-1023 (R507). -/
  lastSel : Nat := 63
  /-- CCLK in which the doorbell port last took a message (R499), and in which a source was last selected (R507). -/
  takenAt : Option Nat := none
  selAt : Option Nat := none
  /-- The sources, and the enabled targets, at the end of the CCLK before (R506). -/
  was : Tbl EvSt := []
  tgts : List Nat := []
  /-- Deliveries that have bounced in this CCLK: their counts return in the next (R510). -/
  backs : List Deliv := []
  /-- Sources a raise of this CCLK found at 255: counted in SATURATED at its end, unless the source is selected in it (R500). -/
  sat : List Nat := []
  deriving DecidableEq, Repr

/-! ## Host interface (15_host_interface.md) -/

/-- STATE of a submission ring (R560). -/
inductive RingSt where
  | disabled
  | active
  | sleep
  | draining
  | aborting
  | error
  deriving DecidableEq, Repr

/-- The admission of a fetched RUN (R274): DEADLINE, COST, whether the item is guaranteed, and its tempo class. -/
structure Adm where
  deadline : Nat := 0
  cost : BitVec 32 := 0
  guar : Bool := false
  tc : Nat := 0
  deriving DecidableEq, Repr

/-- An item that has its context and no completion yet: context, slot, and its admission. -/
structure Item where
  ctx : CtxId
  slot : BitVec 16
  guar : Bool := false
  tc : Nat := 0
  /-- SEQ of the context, which tells it from a later one of the same identifier (R51). -/
  seq : BitVec 48 := 0
  deriving DecidableEq, Repr

/-- A token in a ring queue: the slot and the context of its item, and its argument number (R337). -/
structure RTok where
  slot : BitVec 16
  ctx : CtxId
  arg : Nat
  deriving DecidableEq, Repr

/-- A submission ring. -/
structure Ring where
  st : RingSt := .disabled
  err : Nat := 0
  ci : BitVec 32 := 0
  /-- PI and EPOCH last read from the record (R577), and the last PI of the ring's own EPOCH (R539). -/
  pi : BitVec 32 := 0
  piEpoch : BitVec 16 := 0
  avail : BitVec 32 := 0
  out : Nat := 0
  /-- The next entry, decided to be taken up and waiting: a context grant, a copy slot, or a fence. -/
  fetched : Option Line := none
  grant : Option Grant := none
  /-- Decision of the admission for the fetched RUN (R274). -/
  admitted : Option Adm := none
  /-- Record reads outstanding that count for the ring (R540, R542); word 1 has been written with SLEEP 1. -/
  reading : Nat := 0
  sleepW : Bool := false
  idleSince : Nat := 0
  pollAt : Nat := 0
  /-- Its items, each from its start to its completion (R555, R562). -/
  items : List Item := []
  /-- Tokens of items in ring queue 512 + r, oldest first (R337). -/
  toks : List RTok := []
  /-- The head word of ring queue 512 + r failed and awaits regeneration (R337). -/
  badHead : Bool := false
  /-- Copy entries and completions of entries that have not been written (R544, FENCE). -/
  busy : Nat := 0
  deriving DecidableEq, Repr

/-- A completion decided and not yet issued (R552). -/
structure Cpl where
  result : Word := 0
  detail : BitVec 32 := 0
  cflags : BitVec 8 := 0
  ctx : CtxId := 0
  deadline : BitVec 32 := 0
  status : BitVec 8 := 0
  guar : Option (BitVec 4) := none
  rpoison : Bool := false
  sq : Nat := 0
  slot : BitVec 16 := 0
  /-- CI advances when it is issued (R547), and it carries a reason of R275. -/
  bumpCi : Bool := false
  /-- It completes a RUN item: OUT falls (R555). -/
  item : Bool := false
  deriving DecidableEq, Repr

/-- A completion ring. -/
structure CRing where
  head : BitVec 32 := 0
  tail : BitVec 32 := 0
  full : Bool := false
  error : Bool := false
  /-- Head reads outstanding that count for the ring (R542). -/
  reading : Nat := 0
  /-- TIME from which the head record is read again while FULL (R579). -/
  pollAt : Nat := 0
  /-- Completions decided and not yet issued, oldest first. -/
  cpls : List Cpl := []
  /-- Status words of kills that wait for room in queue 640 + c, oldest first (R551). -/
  waitPush : List (BitVec 144) := []
  deriving DecidableEq, Repr

/-- Kind of a copy (R544). -/
inductive CopyKind where
  | copyin
  | copyout
  | load
  deriving DecidableEq, Repr

/-- A copy slot in use (R550, R558, R568). -/
structure Copy where
  kind : CopyKind
  ring : Nat
  slot : BitVec 16
  host : BitVec 40
  chan : BitVec 40
  len : Nat
  /-- Bytes done. -/
  done : Nat := 0
  poisonAt : Option Nat := none
  /-- LOAD: the image read so far in the first pass, and whether the second pass runs. -/
  image : List Byte := []
  second : Bool := false
  /-- LOAD: the section being written in the second pass; done counts its bytes. -/
  sec : Nat := 0
  /-- To be stopped at the next part boundary (R562). -/
  abort : Bool := false
  deriving DecidableEq, Repr

/-- The host window unit (R534, R535). -/
structure HostWin where
  /-- Record reads of the ring engine outstanding: number, whether a submission ring's, ring (R535, R540, R542). -/
  reads : List (Nat × Bool × Nat) := []
  /-- The uncorrectable error status of the function's AER capability (R527; log entry 53). -/
  aer : BitVec 32 := 0
  /-- Cached translation entries, most recently used first. -/
  cache : List (Nat × Word) := []
  /-- Reads outstanding, with the TIME of issue. -/
  outst : List (Nat × Req) := []
  nextId : Nat := 0
  /-- Accesses that SYNC waits for. -/
  sync : Option (List Nat) := none
  deriving DecidableEq, Repr

/-! ## Power (16_power_clocks_and_startup.md) -/

/-- A sequencing program under way in a domain (R593, R595). -/
structure Prog where
  up : Bool
  pc : Nat
  /-- Completed steps, latest first. -/
  done : List Word := []
  /-- The PNR step has started (R430). -/
  pnr : Bool := false
  /-- TIME from which the present step may run: the end of the step before it. -/
  since : Nat := 0
  /-- Abandoned: the inverses still to be carried out. -/
  undo : Option (List (BitVec 8)) := none
  /-- No DRAIN wait (R601). -/
  noDrain : Bool := false
  deriving DecidableEq, Repr

/-- What a step of R594 switches in a domain. -/
structure DomSt where
  gated : Bool := false
  clamped : Bool := false
  inReset : Bool := false
  /-- Its power switches have been opened. -/
  off : Bool := false
  retention : Bool := false
  saved : Bool := false
  deriving DecidableEq, Repr

/-- A register access held while the channel sleeps (R591): party, offset, the bits addressed, and the word of a write. -/
structure HeldAcc where
  party : Party
  off : Nat
  lo : Nat := 0
  hi : Nat := 64
  w : Option Word
  deriving DecidableEq, Repr

/-- The power controller of a channel. -/
structure Power where
  /-- C-state 0 to 4 (R587). -/
  cst : Nat := 0
  ready : Bool := false
  /-- SETON (R614): the sets powered; 0 before start-up. -/
  seton : BitVec 4 := 0
  /-- ABANDON and DRAINTO (R614). -/
  abandon : BitVec 16 := 0
  drainto : BitVec 16 := 0
  doms : Tbl DomSt := []
  progs : Tbl Prog := []
  /-- C-state the running transition leads to. -/
  goal : Nat := 0
  /-- XCLK since which R588's condition for C1 holds; TIME of entry into C1 and C2. -/
  idleSince : Nat := 0
  c1At : Nat := 0
  c2At : Nat := 0
  /-- TIME since which R589's conditions hold for a set, by set. -/
  setIdle : Tbl Nat := []
  /-- A wake of the whole channel is asked for and waits (R590, R595); domains that held packets ask for. -/
  wake : Bool := false
  wakeDoms : List Nat := []
  /-- TIME at which the regulator's soft start ends (R596). -/
  regAt : Nat := 0
  /-- Register accesses held until the channel is awake, oldest first (R591). -/
  held : List HeldAcc := []
  /-- KICK words held until the channel is awake, oldest first (R542, R590). -/
  kicks : List Word := []
  /-- Held in C4 until POR_N: after a trip (R601), or as start-up ended before step 6 (R606, R607). -/
  tripped : Bool := false
  /-- The step of R606 that the service firmware has to carry out next for the channel, 7 to 9; 0 for none, and 10 once a step has failed (R592,
  R604, R606). -/
  due : Nat := 0
  /-- Operating point: MHz in force and mV applied (R598), TIME of the last switch (R582). -/
  mhz : Nat := 0
  mv : Nat := 0
  lastSwitch : Nat := 0
  /-- Curve points the power limiter has taken off, and the thermal cap (R600). -/
  limited : Nat := 0
  thermal : Bool := false
  cap : Nat := 0
  deriving DecidableEq, Repr

/-! ## What leaves the block -/

/-- A frame sent on a lane (R438, R439, R451). -/
inductive FrameOut where
  | data (seq ack : BitVec 8) (crvc : BitVec 2) (crcnt : BitVec 3) (slots : List Slot)
  | redata (seq ack : BitVec 8) (slots : List Slot)
  | ctl (code arg : BitVec 8) (ack : BitVec 8) (crvc : BitVec 2) (crcnt : BitVec 3)
  | bow (b : Bow)
  deriving DecidableEq, Repr

/-- What the block puts on its links, in order. -/
inductive Out where
  /-- A posted write: host address, bytes, EP bit, No Snoop and Relaxed Ordering. -/
  | write (addr : Word) (data : List Byte) (ep ns ro : Bool)
  /-- A read request: host address, length, number of the access, No Snoop. -/
  | read (addr : Word) (len : Nat) (id : Nat) (ns : Bool)
  | msix (vec : Nat) (addr : Word) (data : BitVec 32)
  /-- A frame on the lane of port p: what it carries, and its 1,024 bits (R438). -/
  | frame (p : Nat) (f : FrameOut) (bits : BitVec 1024)
  /-- A reply of the SPDM responder (R610): code and payload bits. -/
  | spdm (tr : Spdm) (code : BitVec 8) (body : List Word)
  /-- A reply to a management register read (R643). -/
  | mctp (w : Word)
  deriving DecidableEq, Repr

/-- An MSI-X vector (PCIe): message address and data, vector mask. -/
structure Msix where
  addr : Word := 0
  data : BitVec 32 := 0
  mask : Bool := true
  deriving DecidableEq, Repr

/-- MSI-X of a function (R566): table entries not in reset form, PBA, and the function mask. -/
structure MsixFn where
  vecs : Tbl Msix := []
  pba : List Nat := []
  fmask : Bool := false
  deriving DecidableEq, Repr

/-- A trapping firing's record write (R154, R155): the request with the index it takes, the tile of the committing duet, and the XCLK
of the commit. -/
structure TrapRec where
  req : Req
  idx : Nat
  tile : Nat := 0
  at_ : Nat := 0
  deriving DecidableEq, Repr

/-- What a channel has for the life ledger (R636): a source raised, with the tag of what it is about, where that is no address; a start-up step that failed,
with the memory's STATE; a stall that the steward has reported. -/
inductive Note where
  | source (src : Nat) (tag : Option Nat)
  | startfail (step status : Nat)
  | stall (report : List Byte)
  deriving DecidableEq, Repr

/-- A channel. -/
structure Chan where
  /-- The channel's number (R13). -/
  idx : Nat := 0
  /-- MODEL. XCLK periods of the channel (R9, R581; log entry 3). -/
  xclk : Nat := 0
  regs : Tbl Word := []
  /-- Program store words that are not all ones (R604); every copy holds the same (R21). -/
  prog : Tbl Word := []
  /-- The clearing of the program store runs (R604). -/
  progClearing : Bool := true
  /-- Scratchpad and GDDR7 bytes by channel address. -/
  mem : List Host.Cell := []
  /-- Addresses of 8-byte words whose poison bit is set (R348, R395). -/
  poison : List Nat := []
  cu : CtxUnit := {}
  ms : Match := {}
  duets : Tbl Duet := []
  qu : Queues := {}
  fl : Flow := {}
  sp : Scratch := {}
  locks : Tbl Lock := []
  dm : Dram := {}
  net : Net := {}
  ports : Tbl Port := []
  callers : Tbl Caller := []
  ev : EvUnit := {}
  rings : Tbl Ring := []
  crings : Tbl CRing := []
  copies : Tbl Copy := []
  /-- Ring last granted a copy slot (R550). -/
  copyRr : Nat := 127
  hw : HostWin := {}
  pw : Power := {}
  msix : MsixFn := {}
  /-- Data of the last register read of the channel's function. -/
  readData : Word := 0
  out : List Out := []
  /-- Exception record writes issued at a commit and not yet carried out, in order of index (R154, R155). -/
  excq : List TrapRec := []
  /-- Registers whose change acts from the XCLK after the write, by offset: the XCLK of the last write and the word before the writes of
  that XCLK (CH_PLANE, R68; CH_EXCCFG, R155; NT_EPOCH.CUR, R435). -/
  late : Tbl (Nat × Word) := []
  /-- Firings that duets have committed in the present XCLK, oldest first (R109, R186). -/
  done : List Done := []
  /-- Device sources raised by the channel and not yet taken by the device event controller (R484, R490, R518). -/
  devEv : List Nat := []
  /-- What the service firmware has yet to record in the ledger, oldest first (R636). -/
  notes : List Note := []
  deriving DecidableEq, Repr

/-! ## Device (R16, R518, R601 to R612, 17_reliability_and_service_life.md) -/

/-- A ledger record in flash (R634): its bytes 0 to 19 + LEN are given by the fields; committed is COMMIT 0x5A. -/
structure LedgerRec where
  ty : BitVec 8
  seq : BitVec 32
  hours : BitVec 32
  payload : List Byte
  committed : Bool
  deriving DecidableEq, Repr

/-- A record waiting to be written (R638). -/
structure LedgerBuf where
  ty : BitVec 8
  payload : List Byte
  deriving DecidableEq, Repr

/-- STATE of the update engine (R655). -/
inductive UpSt where
  | idle
  | staging
  | staged
  | committed
  | activating
  | done
  | failed
  deriving DecidableEq, Repr

/-- A directory record in flash (R607): the object, the bank it makes active, the digest of the image in it; committed is COMMIT 0x5A. -/
structure DirRec where
  obj : Nat
  bank : Bool
  digest : Digest
  committed : Bool
  deriving DecidableEq, Repr

/-- The service core with its firmware's state. -/
structure Service where
  /-- Ledger sectors 0-127: records of each written sector, in order (R633). -/
  flash : Tbl (List LedgerRec) := []
  /-- Sector in use, and 64-byte slots used in it. -/
  sector : Nat := 0
  seqNext : BitVec 32 := 0
  hours : BitVec 32 := 0
  /-- Service hours at the last daily adjustment of AGE, by channel (R632). -/
  aged : Tbl (BitVec 32) := []
  buffer : List LedgerBuf := []
  fail : Nat := 0
  /-- ML_LBUF: the selected record's bytes, DONE and FOUND (R651). -/
  lbuf : List Byte := []
  lfound : Bool := false
  ldone : Bool := false
  /-- A selection waits for the restart of the service core to end (R641, R651). -/
  lwait : Bool := false
  /-- Update (R639): state, reason, object staged, its facts, channels done, hand-overs under way with the old RESTART
  and the TIME of their start (R640). -/
  up : UpSt := .idle
  reason : Nat := 0
  img : Option ImgInfo := none
  obj : Nat := 0
  chdone : BitVec 16 := 0
  handOver : List (Nat × Ip × Nat) := []
  /-- Channels that an ACTIVATE under way has yet to serve (R639, R642). -/
  todo : List Nat := []
  /-- OTP minimum security version of each object (R639). -/
  otpMin : Tbl (BitVec 32) := []
  /-- Directory records, oldest first (R607, R639). -/
  dir : List DirRec := []
  /-- TIME at which a restart of the service core ends (R641). -/
  restartEnd : Nat := 0
  /-- The steward image that step 9 of R606 writes. -/
  steward : List Word := []
  /-- Inbox and EVTGT of the service core (R518). -/
  inbox : List InEntry := []
  evtgt : BitVec 2 := 0
  deriving DecidableEq, Repr

/-- State of an SPDM connection (R610): messages of the negotiation completed. -/
structure SpdmConn where
  version : Bool := false
  caps : Bool := false
  algs : Bool := false
  deriving DecidableEq, Repr

/-- The device-level blocks. -/
structure Dev where
  /-- MODEL. Periods of the device so far: the clocks have their edges in them (log entry 3). -/
  xclk : Nat := 0
  /-- TIME: ACLK periods since POR_N was released (R118). -/
  time : Nat := 0
  regs : Tbl Word := []
  ev : EvUnit := {}
  msix : MsixFn := {}
  /-- Measurement slots M0-M7 that hold a digest (R609). -/
  slots : Tbl Digest := []
  mlGen : BitVec 32 := 0
  svc : Service := {}
  doe : SpdmConn := {}
  mctp : SpdmConn := {}
  /-- Levels of GPIO[15:0] (R119). -/
  gpio : BitVec 16 := 0
  /-- POR_N, PERST_N and TRST_N are released (R603). -/
  por : Bool := true
  perst : Bool := true
  /-- The JTAG TAP is in reset (R603). -/
  tapReset : Bool := false
  /-- CLK32K is good (R584). -/
  clk32 : Bool := true
  /-- Recovery mode (R607). -/
  recovery : Bool := false
  /-- Link training is enabled (R605). -/
  linkUp : Bool := false
  /-- ALERT_N driven low by a trip (R601). -/
  tripAlert : Bool := false
  /-- Channels that failed step 7 or 8 (R666), last step completed, bank of the running firmware. -/
  chFail : BitVec 16 := 0
  step : Nat := 0
  /-- What the last POR_N has found, for the steps that follow a recovery (R606, R607). -/
  boot : Option BootInfo := none
  svBank : Bool := false
  /-- Samples above 90 degrees since the last whole second (R601). -/
  above90 : Nat := 0
  above90s : BitVec 32 := 0
  /-- Sensors above WARN (R601). -/
  warn : List Nat := []
  warnNow : Bool := false
  /-- Sum and number of the hottest readings in 0.125 degrees, samples of them above 90 degrees, and whether one exceeded 105
  degrees (R645). -/
  tjSum : Int := 0
  tjCount : Nat := 0
  tjHot : Nat := 0
  tj105 : Bool := false
  tripped : Bool := false
  /-- ms the power estimate has been below 95 % of PLIM (R600), and TIME of the last limiter step. -/
  lowMs : Nat := 0
  /-- Channels whose caps the power limiter has lowered, latest first (R600). -/
  limOrder : List Nat := []
  readData : Word := 0
  out : List Out := []
  deriving DecidableEq, Repr

/-- Reasons the model stops with a fault. -/
inductive Fault where
  /-- Raised by exec for a command whose operands do not fit the widths of the structure they stand for (WellFormed.lean), which no sender can put
  on the part's links. Safe: no effect is claimed for it. -/
  | illFormed
  deriving DecidableEq, Repr

/-- Reasons a command has no meaning. -/
inductive Refusal where
  /-- Raised by exec for a command that is not modelled yet. Safe: nothing is claimed about it. -/
  | notModelled (mnemonic : String)
  deriving DecidableEq, Repr

/-- The state of the block. -/
structure State where
  dev : Dev := {}
  /-- Channels that are not in their reset form, by number. -/
  chans : Tbl Chan := []
  /-- Commands waiting, first in first out. -/
  pending : List Instr := []
  deriving DecidableEq, Repr

/-- The block right after reset: every channel and the device blocks at their reset values, no command waiting. -/
def State.reset : State := {}

end Sys2Proof.Machine
end

