-- ==== Sys2Proof/Machine/Tbl.lean ====
section
/-! DEFINITION. Operations over sparse tables, lists of byte cells, and bit fields: the model's own means.

A table lists only the keys whose value differs from the default the owner names; every write keeps that form. -/

namespace Sys2Proof.Machine

/-- The entry of a table at key k, if it is listed. -/
def tblFind {α : Type} : Tbl α → Nat → Option α
  | [], _ => none
  | (j, v) :: r, k => if j = k then some v else tblFind r k

/-- The value of a table at key k, d where k is not listed. -/
def tblGet {α : Type} (t : Tbl α) (k : Nat) (d : α) : α := (tblFind t k).getD d

/-- Lists value v at key k. -/
def tblIns {α : Type} : Tbl α → Nat → α → Tbl α
  | [], k, v => [(k, v)]
  | (j, w) :: r, k, v => if k < j then (k, v) :: (j, w) :: r else if k = j then (k, v) :: r else (j, w) :: tblIns r k v

/-- Takes key k off a table. -/
def tblDel {α : Type} (t : Tbl α) (k : Nat) : Tbl α := t.filter (fun e => e.1 != k)

/-- Writes value v at key k of a table whose unlisted keys hold d. -/
def tblPut {α : Type} [DecidableEq α] (t : Tbl α) (k : Nat) (v d : α) : Tbl α :=
  if v = d then tblDel t k else tblIns t k v

/-- Keys strictly rising. -/
def tblSorted {α : Type} : Tbl α → Bool
  | [] => true
  | [_] => true
  | (j, _) :: (k, v) :: r => decide (j < k) && tblSorted ((k, v) :: r)

/-- Takes element i off a list. -/
def dropNth {α : Type} (l : List α) (i : Nat) : List α := l.take i ++ l.drop (i + 1)

/-- Replaces element i of a list. -/
def setNth {α : Type} (l : List α) (i : Nat) (v : α) : List α := l.set i v

/-- The index of the first element that satisfies p. -/
def findIx {α : Type} (p : α → Bool) (l : List α) : Option Nat := l.findIdx? p

/-- Bits lo to lo + len - 1 of a number. -/
def bitsOf (w lo len : Nat) : Nat := (w >>> lo) % 2 ^ len

/-- Bits lo to lo + len - 1 of a word, as a number. -/
def wbits (w : Word) (lo len : Nat) : Nat := bitsOf w.toNat lo len

/-- Bit i of a word. -/
def wbit (w : Word) (i : Nat) : Bool := w.toNat.testBit i

/-- A word with bits lo to lo + len - 1 replaced by v modulo 2 ^ len. -/
def setBits (w : Word) (lo len v : Nat) : Word :=
  BitVec.ofNat 64 (w.toNat - (bitsOf w.toNat lo len) * 2 ^ lo + (v % 2 ^ len) * 2 ^ lo)

/-- A truth value as a number. -/
def b2n (b : Bool) : Nat := if b then 1 else 0

end Sys2Proof.Machine
end

