-- ==== Sys2Proof/Machine/Flags.lean ====
section
/-! DEFINITION. Integer and floating-point results with their flags (04_arithmetic.md), computed exactly and narrowed once.

Flags are a byte in the layout of FLAGS (R51): [0] NX, [1] UF, [2] OF, [3] DZ, [4] NV, [5] IDZ, [6] IOV. -/

namespace Sys2Proof.Machine

/-- A value computed with the flags it raises. -/
structure Fl (α : Type) where
  val : α
  flags : BitVec 8 := 0
  deriving DecidableEq, Repr

def flNX : BitVec 8 := 1
def flUF : BitVec 8 := 2
def flOF : BitVec 8 := 4
def flDZ : BitVec 8 := 8
def flNV : BitVec 8 := 16
def flIDZ : BitVec 8 := 32
def flIOV : BitVec 8 := 64

/-- The flag byte b when p holds, no flag otherwise. -/
def flIf (p : Bool) (b : BitVec 8) : BitVec 8 := if p then b else 0

/-- Arithmetic cause of the first trapped flag in the order NV, DZ, OF, UF, NX, IDZ, IOV (R153). -/
def trapCause (trapped : BitVec 8) : Option (BitVec 8) :=
  if trapped.getLsbD 4 then some 0x05
  else if trapped.getLsbD 3 then some 0x04
  else if trapped.getLsbD 2 then some 0x03
  else if trapped.getLsbD 1 then some 0x02
  else if trapped.getLsbD 0 then some 0x01
  else if trapped.getLsbD 5 then some 0x06
  else if trapped.getLsbD 6 then some 0x07
  else none

/-! ## Integers (R127 to R131, R93, R94) -/

/-- Whether an exact integer lies outside the signed 64-bit range (R128). -/
def outside64 (x : Int) : Bool := decide (x < -(2 ^ 63)) || decide (2 ^ 63 ≤ x)

/-- An exact integer modulo 2^64, with IOV where it does not fit (R127, R128). -/
def narrow64 (x : Int) : Fl Word := ⟨BitVec.ofInt 64 x, flIf (outside64 x) flIOV⟩

def intAdd (l r : Word) : Fl Word := narrow64 (l.toInt + r.toInt)
def intSub (l r : Word) : Fl Word := narrow64 (l.toInt - r.toInt)
def intMul (l r : Word) : Fl Word := narrow64 (l.toInt * r.toInt)
def intMulh (l r : Word) : Fl Word := ⟨BitVec.ofInt 64 ((l.toInt * r.toInt) / 2 ^ 64), 0⟩
def intMulhu (l r : Word) : Fl Word := ⟨BitVec.ofNat 64 ((l.toNat * r.toNat) / 2 ^ 64), 0⟩

/-- DIV (R129, R130). -/
def intDiv (l r : Word) : Fl Word :=
  if r = 0 then ⟨BitVec.allOnes 64, flIDZ⟩ else narrow64 (l.toInt.tdiv r.toInt)

/-- DIVU (R129, R130). -/
def intDivu (l r : Word) : Fl Word :=
  if r = 0 then ⟨BitVec.allOnes 64, flIDZ⟩ else ⟨BitVec.ofNat 64 (l.toNat / r.toNat), 0⟩

/-- REM (R129, R130): the sign of L, and 0 for the most negative number by -1. -/
def intRem (l r : Word) : Fl Word :=
  if r = 0 then ⟨l, flIDZ⟩ else ⟨BitVec.ofInt 64 (l.toInt.tmod r.toInt), 0⟩

/-- REMU (R129, R130). -/
def intRemu (l r : Word) : Fl Word :=
  if r = 0 then ⟨l, flIDZ⟩ else ⟨BitVec.ofNat 64 (l.toNat % r.toNat), 0⟩

def intMin (l r : Word) : Fl Word := ⟨if l.toInt ≤ r.toInt then l else r, 0⟩
def intMax (l r : Word) : Fl Word := ⟨if l.toInt ≤ r.toInt then r else l, 0⟩
def intAbs (l : Word) : Fl Word := narrow64 (if l.toInt < 0 then -l.toInt else l.toInt)
def intNeg (l : Word) : Fl Word := narrow64 (-l.toInt)

/-- Shift amount: Rt[5:0] (R93). -/
def shAmt (r : Word) : Nat := wbits r 0 6

def bitClz (l : Word) : Word := if l = 0 then 64 else BitVec.ofNat 64 (63 - l.toNat.log2)
def bitCtz (l : Word) : Word := BitVec.ofNat 64 (((List.range 64).find? (fun i => l.toNat.testBit i)).getD 64)
def bitPopc (l : Word) : Word := BitVec.ofNat 64 ((List.range 64).countP (fun i => l.toNat.testBit i))

/-- Condition code cc on L and Rt (R94). -/
def intCond (cc : Nat) (l r : Word) : Bool :=
  match cc with
  | 0 => decide (l = r)
  | 1 => decide (l ≠ r)
  | 2 => decide (l.toInt < r.toInt)
  | 3 => decide (r.toInt ≤ l.toInt)
  | 4 => decide (l.toNat < r.toNat)
  | 5 => decide (r.toNat ≤ l.toNat)
  | 6 => decide (r.toInt < l.toInt)
  | 7 => decide (l.toInt ≤ r.toInt)
  | 8 => decide (r.toNat < l.toNat)
  | 9 => decide (l.toNat ≤ r.toNat)
  | _ => false

/-! ## Floating point (R132 to R148) -/

/-- A binary format: widths of the exponent and of the fraction. -/
structure Fmt where
  eb : Nat
  mb : Nat
  deriving DecidableEq, Repr

def b64 : Fmt := ⟨11, 52⟩
def b32 : Fmt := ⟨8, 23⟩
def b16 : Fmt := ⟨5, 10⟩

/-- Largest exponent, which is also the bias. -/
def Fmt.emax (f : Fmt) : Int := 2 ^ (f.eb - 1) - 1
/-- Exponent of the smallest normal number. -/
def Fmt.emin (f : Fmt) : Int := 1 - f.emax

/-- A datum: a NaN (signalling or not), an infinity, or m × 2^e with a sign. -/
inductive FV where
  | nan (sig : Bool)
  | inf (neg : Bool)
  | fin (neg : Bool) (m : Nat) (e : Int)
  deriving DecidableEq, Repr

/-- The datum of a bit pattern. -/
def fpDec (f : Fmt) (w : Nat) : FV :=
  let m := bitsOf w 0 f.mb
  let x := bitsOf w f.mb f.eb
  let neg := w.testBit (f.mb + f.eb)
  if x = 2 ^ f.eb - 1 then (if m = 0 then .inf neg else .nan (!m.testBit (f.mb - 1)))
  else if x = 0 then .fin neg m (f.emin - f.mb)
  else .fin neg (2 ^ f.mb + m) (x - f.emax - f.mb)

def fpSign (f : Fmt) (neg : Bool) : Nat := if neg then 2 ^ (f.mb + f.eb) else 0
/-- The canonical NaN of a format (R137). -/
def fpNaN (f : Fmt) : Nat := (2 ^ f.eb - 1) * 2 ^ f.mb + 2 ^ (f.mb - 1)
def fpInf (f : Fmt) (neg : Bool) : Nat := fpSign f neg + (2 ^ f.eb - 1) * 2 ^ f.mb
/-- The largest finite number. -/
def fpMax (f : Fmt) (neg : Bool) : Nat := fpSign f neg + (2 ^ f.eb - 1) * 2 ^ f.mb - 1

/-- Whether a magnitude with quotient q, remainder r of 2^sh is rounded up in mode rm (R51 RM). -/
def roundsUp (rm : Nat) (neg : Bool) (q r sh : Nat) : Bool :=
  match rm with
  | 0 => decide (2 ^ sh < 2 * r) || (decide (2 * r = 2 ^ sh) && decide (q % 2 = 1))
  | 1 => false
  | 2 => !neg && decide (0 < r)
  | _ => neg && decide (0 < r)

/-- m × 2^e rounded to a multiple of 2^q: the multiple and whether it is inexact. -/
def roundAt (rm : Nat) (neg : Bool) (m : Nat) (e q : Int) : Nat × Bool :=
  if q ≤ e then (m * 2 ^ (e - q).toNat, false)
  else
    let sh := (q - e).toNat
    let r := m % 2 ^ sh
    (m / 2 ^ sh + b2n (roundsUp rm neg (m / 2 ^ sh) r sh), decide (r ≠ 0))

/-- Overflow result (R136). -/
def fpOver (f : Fmt) (rm : Nat) (neg : Bool) : Nat :=
  match rm with
  | 0 => fpInf f neg
  | 1 => fpMax f neg
  | 2 => if neg then fpMax f true else fpInf f false
  | _ => if neg then fpInf f true else fpMax f false

/-- A nonzero m × 2^e rounded to a format, with OF, UF and NX (R133 to R136). -/
def fpRound (f : Fmt) (rm : Nat) (neg : Bool) (m : Nat) (e : Int) : Fl Nat :=
  let top : Int := (m.log2 : Int) + e
  let q : Int := max (top - f.mb) (f.emin - f.mb)
  let (n, nx) := roundAt rm neg m e q
  let free := (roundAt rm neg m e (top - f.mb)).1
  let tiny := decide (top < f.emin) && !(decide (top = f.emin - 1) && decide (free = 2 ^ (f.mb + 1)))
  if n = 0 then ⟨fpSign f neg, flIf nx (flNX ||| flUF)⟩
  else if (f.emax : Int) < (n.log2 : Int) + q then ⟨fpOver f rm neg, flOF ||| flNX⟩
  else ⟨fpSign f neg + (q + f.mb + f.emax - 1).toNat * 2 ^ f.mb + n, flIf nx flNX ||| flIf (nx && tiny) flUF⟩

/-- A term of an exact sum: a NaN, a zero times an infinity, an infinity or a finite value. -/
inductive Term where
  | nan (sig : Bool)
  | bad
  | inf (neg : Bool)
  | fin (neg : Bool) (m : Nat) (e : Int)
  deriving DecidableEq, Repr

def FV.term : FV → Term
  | .nan s => .nan s
  | .inf n => .inf n
  | .fin n m e => .fin n m e

/-- A datum with its sign changed; a NaN stays. -/
def FV.flip : FV → FV
  | .nan s => .nan s
  | .inf n => .inf (!n)
  | .fin n m e => .fin (!n) m e

def FV.isSig : FV → Bool
  | .nan s => s
  | _ => false

def FV.isNaN : FV → Bool
  | .nan _ => true
  | _ => false

/-- The exact product of two data (R138: a zero times an infinity is invalid). -/
def fpProd (a b : FV) : Term :=
  match a, b with
  | .nan s, y => .nan (s || y.isSig)
  | x, .nan s => .nan (s || x.isSig)
  | .inf n, .inf k => .inf (xor n k)
  | .inf n, .fin k m _ => if m = 0 then .bad else .inf (xor n k)
  | .fin n m _, .inf k => if m = 0 then .bad else .inf (xor n k)
  | .fin n m e, .fin k m' e' => .fin (xor n k) (m * m') (e + e')

def Term.isInf (neg : Bool) : Term → Bool
  | .inf n => n == neg
  | _ => false

def Term.isBad : Term → Bool
  | .bad => true
  | .nan s => s
  | _ => false

def Term.isNaN : Term → Bool
  | .nan _ => true
  | _ => false

/-- Smallest exponent among the finite terms. -/
def minExp : List Term → Int → Int
  | [], d => d
  | .fin _ _ e :: r, d => minExp r (min e d)
  | _ :: r, d => minExp r d

/-- Exact sum of the finite terms in units of 2^q. -/
def sumAt (q : Int) : List Term → Int
  | [] => 0
  | .fin n m e :: r => (if n then -(m * 2 ^ (e - q).toNat : Int) else (m * 2 ^ (e - q).toNat : Int)) + sumAt q r
  | _ :: r => sumAt q r

/-- Sign of an exact zero sum (R139): the common sign of the terms when all are zeros of one sign, otherwise + (- in RM 3). DEDUCED (log entry
49): R139 stands where the last sentence of R149 would give such a sum the same sign under every mode. -/
def zeroNeg (rm : Nat) (ts : List Term) : Bool :=
  if ts.all (fun t => match t with | .fin n m _ => n && m == 0 | _ => false) then true
  else if ts.all (fun t => match t with | .fin n m _ => !n && m == 0 | _ => false) then false
  else rm == 3

/-- The exact sum of terms, rounded once (R137 to R140, R147). -/
def fpSum (f : Fmt) (rm : Nat) (ts : List Term) : Fl Nat :=
  let posInf := ts.any (Term.isInf false)
  let negInf := ts.any (Term.isInf true)
  if ts.any Term.isBad || (posInf && negInf) then ⟨fpNaN f, flNV⟩
  else if ts.any Term.isNaN then ⟨fpNaN f, 0⟩
  else if posInf then ⟨fpInf f false, 0⟩
  else if negInf then ⟨fpInf f true, 0⟩
  else
    let q := minExp ts 1024
    let x := sumAt q ts
    if x = 0 then ⟨fpSign f (zeroNeg rm ts), 0⟩ else fpRound f rm (decide (x < 0)) x.natAbs q

def fpAdd (f : Fmt) (rm a b : Nat) : Fl Nat := fpSum f rm [(fpDec f a).term, (fpDec f b).term]
def fpSub (f : Fmt) (rm a b : Nat) : Fl Nat := fpSum f rm [(fpDec f a).term, (fpDec f b).flip.term]
def fpMul (f : Fmt) (rm a b : Nat) : Fl Nat := fpSum f rm [fpProd (fpDec f a) (fpDec f b)]
def fpFma (f : Fmt) (rm a b t : Nat) : Fl Nat := fpSum f rm [fpProd (fpDec f a) (fpDec f b), (fpDec f t).term]

/-- Division (R138, R141). -/
def fpDiv (f : Fmt) (rm a b : Nat) : Fl Nat :=
  match fpDec f a, fpDec f b with
  | .nan s, y => ⟨fpNaN f, flIf (s || y.isSig) flNV⟩
  | _, .nan s => ⟨fpNaN f, flIf s flNV⟩
  | .inf _, .inf _ => ⟨fpNaN f, flNV⟩
  | .inf n, .fin k _ _ => ⟨fpInf f (xor n k), 0⟩
  | .fin n _ _, .inf k => ⟨fpSign f (xor n k), 0⟩
  | .fin n m e, .fin k m' e' =>
    if m' = 0 then (if m = 0 then ⟨fpNaN f, flNV⟩ else ⟨fpInf f (xor n k), flDZ⟩)
    else if m = 0 then ⟨fpSign f (xor n k), 0⟩
    else
      let sh := 2 * f.mb + 8
      let q := (m * 2 ^ sh) / m'
      let r := (m * 2 ^ sh) % m'
      fpRound f rm (xor n k) (2 * q + b2n (decide (r ≠ 0))) (e - e' - sh - 1)

/-- Integer square root of a number below 2^180. -/
def isqrt (x : Nat) : Nat := (List.range 90).foldr (fun i s => if (s + 2 ^ i) * (s + 2 ^ i) ≤ x then s + 2 ^ i else s) 0

/-- Square root (R138, R139). -/
def fpSqrt (f : Fmt) (rm a : Nat) : Fl Nat :=
  match fpDec f a with
  | .nan s => ⟨fpNaN f, flIf s flNV⟩
  | .inf n => if n then ⟨fpNaN f, flNV⟩ else ⟨fpInf f false, 0⟩
  | .fin n m e =>
    if m = 0 then ⟨fpSign f n, 0⟩
    else if n then ⟨fpNaN f, flNV⟩
    else
      let odd := decide (e % 2 ≠ 0)
      let e' := if odd then e - 1 else e
      let x := (if odd then 2 * m else m) * 2 ^ (2 * (f.mb + 4))
      let s := isqrt x
      fpRound f rm false (2 * s + b2n (decide (s * s ≠ x))) (e' / 2 - (f.mb + 4) - 1)

/-- Whether a is ordered below b, the zeros compared by sign when tie is set (R142, R143). -/
def fpLt (a b : FV) : Bool :=
  match a, b with
  | .nan _, _ => false
  | _, .nan _ => false
  | .inf n, .inf k => n && !k
  | .inf n, .fin .. => n
  | .fin .., .inf k => !k
  | .fin n m e, .fin k m' e' =>
    let q := min e e'
    decide (sumAt q [.fin n m e] < sumAt q [.fin k m' e'])

def fpEq (a b : FV) : Bool := !a.isNaN && !b.isNaN && !fpLt a b && !fpLt b a

/-- Whether a datum is a zero with its sign set. -/
def FV.negZero : FV → Bool
  | .fin n m _ => n && m == 0
  | _ => false

/-- minimumNumber and maximumNumber, -0 ordered below +0 (R142). -/
def fpMinMax (f : Fmt) (max : Bool) (a b : Nat) : Fl Nat :=
  let x := fpDec f a
  let y := fpDec f b
  let fl := flIf (x.isSig || y.isSig) flNV
  if x.isNaN && y.isNaN then ⟨fpNaN f, fl⟩
  else if x.isNaN then ⟨b, fl⟩
  else if y.isNaN then ⟨a, fl⟩
  else
    let less := fpLt x y || (fpEq x y && x.negZero)
    ⟨if less != max then a else b, fl⟩

/-- FCMP condition cc (R143). -/
def fpCond (f : Fmt) (cc a b : Nat) : Fl Bool :=
  let x := fpDec f a
  let y := fpDec f b
  let un := x.isNaN || y.isNaN
  let sg := flIf (x.isSig || y.isSig) flNV
  match cc with
  | 0 => ⟨fpEq x y, sg⟩
  | 1 => ⟨!fpEq x y, sg⟩
  | 2 => ⟨fpLt x y, flIf un flNV⟩
  | 3 => ⟨fpLt x y || fpEq x y, flIf un flNV⟩
  | 4 => ⟨un, sg⟩
  | _ => ⟨!un, sg⟩

/-- Conversion of an integer (R144). -/
def fpFromInt (f : Fmt) (rm : Nat) (x : Int) : Fl Nat :=
  if x = 0 then ⟨0, 0⟩ else fpRound f rm (decide (x < 0)) x.natAbs 0

/-- Conversion between formats (R144). -/
def fpConv (src dst : Fmt) (rm a : Nat) : Fl Nat :=
  match fpDec src a with
  | .nan s => ⟨fpNaN dst, flIf s flNV⟩
  | .inf n => ⟨fpInf dst n, 0⟩
  | .fin n m e => if m = 0 then ⟨fpSign dst n, 0⟩ else fpRound dst rm n m e

/-- Conversion to an integer of w bits, signed or not (R145): an out-of-range operand saturates and sets NV. -/
def fpToInt (f : Fmt) (rm w : Nat) (uns : Bool) (a : Nat) : Fl Nat :=
  let top := if uns then 2 ^ w - 1 else 2 ^ (w - 1) - 1
  let bot := if uns then 0 else 2 ^ (w - 1)
  match fpDec f a with
  | .nan _ => ⟨top, flNV⟩
  | .inf n => ⟨if n then bot else top, flNV⟩
  | .fin n m e =>
    let (r, nx) := roundAt rm n m e 0
    if n then
      (if uns then (if r = 0 then ⟨0, flIf nx flNX⟩ else ⟨0, flNV⟩)
       else if 2 ^ (w - 1) < r then ⟨bot, flNV⟩
       else ⟨(2 ^ w - r) % 2 ^ w, flIf nx flNX⟩)
    else if top < r then ⟨top, flNV⟩
    else ⟨r, flIf nx flNX⟩

/-- An immediate binary16 value in a format, exactly; a NaN gives the canonical NaN, no flag is raised (R82). -/
def fpImm (f : Fmt) (i : Nat) : Nat := (fpConv b16 f 0 i).val

/-- The memory-side accumulate: binary64 addition to nearest even, no flag (R148). -/
def accAdd (old new : Word) : Word := BitVec.ofNat 64 (fpAdd b64 0 old.toNat new.toNat).val

end Sys2Proof.Machine
end

