-- ==== Sys2Proof/Machine/Operands.lean ====
section
/-! DEFINITION. Instruction words, their legality, operands and immediates (03_instruction_set.md R78 to R83, R121, R125),
tokens and tags (R37 to R40). -/

namespace Sys2Proof.Machine

/-! ## Tags, sidebands (R38, R39) -/

def tagDev (t : Word) : Nat := wbits t 48 16
def tagIp (t : Word) : Nat := wbits t 32 16
def tagCtx (t : Word) : Nat := wbits t 8 24
def tagPort (t : Word) : Nat := wbits t 6 2
def tagPrio (t : Word) : Nat := wbits t 3 3
def tagKind (t : Word) : Nat := wbits t 0 3

/-- A tag from its fields (R38). -/
def mkTag (dev ip ctx port prio kind : Nat) : Word :=
  BitVec.ofNat 64 ((dev % 2 ^ 16) <<< 48 + (ip % 2 ^ 16) <<< 32 + (ctx % 2 ^ 24) <<< 8 + (port % 4) <<< 6
    + (prio % 8) <<< 3 + kind % 8)

/-- The tag that names nothing (R51, R157). -/
def noTag : Word := BitVec.allOnes 64

/-- A sideband of a TYPE with POISON (R39). -/
def mkSb (ty : Nat) (p : Bool) : BitVec 8 := BitVec.ofNat 8 ((ty % 16) * 16 + b2n p * 8)

def sbType (s : BitVec 8) : Nat := s.toNat / 16
def sbPoison (s : BitVec 8) : Bool := s.getLsbD 3
/-- The reserved sideband bits are ignored on receipt (R39). -/
def sbClean (s : BitVec 8) : BitVec 8 := mkSb (sbType s) (sbPoison s)

def Opd.poison (o : Opd) : Bool := sbPoison o.sb
def Opd.ty (o : Opd) : Nat := sbType o.sb
/-- An operand of a value, a TYPE and POISON. -/
def mkOpd (v : Word) (ty : Nat) (p : Bool) : Opd := ⟨v, mkSb ty p⟩
/-- The operand with POISON set as well when p holds. -/
def Opd.orPoison (o : Opd) (p : Bool) : Opd := ⟨o.val, mkSb o.ty (o.poison || p)⟩

/-- PRIO raised to PRIOCAP, for a KIND other than completion and control (R43). -/
def raisePrio (cap : Nat) (t : Word) : Word :=
  if tagKind t = 2 ∨ tagKind t = 3 then t
  else if tagPrio t < cap then setBits t 3 3 cap else t

/-! ## Instruction words (R78, R79, R121) -/

def iOp (w : Word) : Nat := wbits w 56 8
def iMode (w : Word) : Nat := wbits w 52 4
def iArity (w : Word) : Nat := wbits w 54 2
def iTrig (w : Word) : Bool := wbit w 53
def iImmr (w : Word) : Bool := wbit w 52
def iDest0 (w : Word) : Nat := wbits w 34 18
def iDest1 (w : Word) : Nat := wbits w 16 18
def iImm (w : Word) : Nat := wbits w 0 16
/-- Form R and form B fields (R121). -/
def iRd (w : Word) : Nat := wbits w 47 5
def iRs1 (w : Word) : Nat := wbits w 42 5
def iRs2 (w : Word) : Nat := wbits w 37 5
def iRs3 (w : Word) : Nat := wbits w 32 5
def iRd2 (w : Word) : Nat := wbits w 27 5
def iTarget (w : Word) : Nat := wbits w 18 16

/-- IMM sign-extended to 64 bits (R82). -/
def immS (w : Word) : Word := (BitVec.ofNat 16 (iImm w)).signExtend 64

/-- The destination field that names none (R79). -/
def noDest : Nat := 0x3FFFF

/-! ## Opcodes (R90 to R99, R113 to R119, R125) -/

/-- The instructions, by the row of spec/opcode_table.json that executes them; fanx is the FAN extension word. -/
inductive Op where
  | add | sub | mul | mulh | mulhu | div | divu | rem | remu | min | max | abs | neg | sel
  | and | or | xor | andn | shl | shr | sar | rot | clz | ctz | popc | cmpCc
  | fadd | fsub | fmul | fdiv | fsqrt | fma | fmin | fmax | fcvt | icvt
  | faddC | fsubC | cmulC | cmacC | fcmpCc
  | copy | fan | switch | gate | sink | ctxnew | ctxend | ctxkill | retag | nextit | loopin | loopout | send | retn
  | signal | exc
  | flowset | soloIn | soloOut | promRel
  | ld | ldQ | st | stQ | cas | swap | xadd | accD | acq | tryacq | rel
  | qpush | qpop | qmark | qrewind | qrelease
  | time | poll | rand
  | brCc | jmp | call | ret | wait | waitev | rfe | csrrd | csrwr | fence
  | fanx
  deriving DecidableEq, Repr

/-- Column IMM of an opcode table: op, or the mask of the bits that have a meaning. -/
inductive ImmUse where
  | op
  | ext (mask : Nat)
  deriving DecidableEq, Repr

/-- Column Seq: register form, a rule of the section, illegal in sequential mode, or caller only. -/
inductive SeqUse where
  | reg | rule | illegal | only
  deriving DecidableEq, Repr

/-- A row of the opcode tables: first and last OP, instruction, allowed ARITY, IMM, Seq. -/
structure OpRow where
  lo : Nat
  hi : Nat
  op : Op
  ar : List Nat
  imm : ImmUse
  seq : SeqUse
  deriving DecidableEq, Repr

def opsInt : List OpRow := [
  ⟨0x00, 0x00, .add, [2], .op, .reg⟩, ⟨0x01, 0x01, .sub, [2], .op, .reg⟩, ⟨0x02, 0x02, .mul, [2], .op, .reg⟩,
  ⟨0x03, 0x03, .mulh, [2], .op, .reg⟩, ⟨0x04, 0x04, .mulhu, [2], .op, .reg⟩, ⟨0x05, 0x05, .div, [2], .op, .reg⟩,
  ⟨0x06, 0x06, .divu, [2], .op, .reg⟩, ⟨0x07, 0x07, .rem, [2], .op, .reg⟩, ⟨0x08, 0x08, .remu, [2], .op, .reg⟩,
  ⟨0x09, 0x09, .min, [2], .op, .reg⟩, ⟨0x0A, 0x0A, .max, [2], .op, .reg⟩, ⟨0x0B, 0x0B, .abs, [1], .ext 0, .reg⟩,
  ⟨0x0C, 0x0C, .neg, [1], .ext 0, .reg⟩, ⟨0x0D, 0x0D, .sel, [3], .op, .reg⟩,
  ⟨0x10, 0x10, .and, [2], .op, .reg⟩, ⟨0x11, 0x11, .or, [2], .op, .reg⟩, ⟨0x12, 0x12, .xor, [2], .op, .reg⟩,
  ⟨0x13, 0x13, .andn, [2], .op, .reg⟩, ⟨0x14, 0x14, .shl, [2], .op, .reg⟩, ⟨0x15, 0x15, .shr, [2], .op, .reg⟩,
  ⟨0x16, 0x16, .sar, [2], .op, .reg⟩, ⟨0x17, 0x17, .rot, [2], .op, .reg⟩, ⟨0x18, 0x18, .clz, [1], .ext 0, .reg⟩,
  ⟨0x19, 0x19, .ctz, [1], .ext 0, .reg⟩, ⟨0x1A, 0x1A, .popc, [1], .ext 0, .reg⟩,
  ⟨0x20, 0x29, .cmpCc, [2], .op, .reg⟩]

def opsFp : List OpRow := [
  ⟨0x30, 0x30, .fadd, [2], .op, .reg⟩, ⟨0x31, 0x31, .fsub, [2], .op, .reg⟩, ⟨0x32, 0x32, .fmul, [2], .op, .reg⟩,
  ⟨0x33, 0x33, .fdiv, [2], .op, .reg⟩, ⟨0x34, 0x34, .fsqrt, [1], .ext 0, .reg⟩, ⟨0x35, 0x35, .fma, [3], .op, .reg⟩,
  ⟨0x36, 0x36, .fmin, [2], .op, .reg⟩, ⟨0x37, 0x37, .fmax, [2], .op, .reg⟩, ⟨0x38, 0x38, .fcvt, [1], .ext 3, .reg⟩,
  ⟨0x39, 0x39, .icvt, [1], .ext 3, .reg⟩,
  ⟨0x40, 0x40, .fadd, [2], .op, .reg⟩, ⟨0x41, 0x41, .fsub, [2], .op, .reg⟩, ⟨0x42, 0x42, .fmul, [2], .op, .reg⟩,
  ⟨0x43, 0x43, .fdiv, [2], .op, .reg⟩, ⟨0x44, 0x44, .fsqrt, [1], .ext 0, .reg⟩, ⟨0x45, 0x45, .fma, [3], .op, .reg⟩,
  ⟨0x46, 0x46, .fmin, [2], .op, .reg⟩, ⟨0x47, 0x47, .fmax, [2], .op, .reg⟩, ⟨0x48, 0x48, .fcvt, [1], .ext 3, .reg⟩,
  ⟨0x49, 0x49, .icvt, [1], .ext 3, .reg⟩,
  ⟨0x50, 0x50, .faddC, [2], .op, .reg⟩, ⟨0x51, 0x51, .fsubC, [2], .op, .reg⟩, ⟨0x52, 0x52, .cmulC, [2], .op, .reg⟩,
  ⟨0x53, 0x53, .cmacC, [3], .op, .reg⟩, ⟨0x60, 0x65, .fcmpCc, [2], .op, .reg⟩, ⟨0x68, 0x6D, .fcmpCc, [2], .op, .reg⟩]

def opsSteer : List OpRow := [
  ⟨0x70, 0x70, .copy, [1], .ext 0, .rule⟩, ⟨0x71, 0x71, .fan, [1], .ext 7, .illegal⟩,
  ⟨0x72, 0x72, .switch, [2], .ext 0, .illegal⟩, ⟨0x73, 0x73, .gate, [2], .ext 1, .illegal⟩,
  ⟨0x74, 0x74, .sink, [1, 2, 3], .ext 0, .illegal⟩, ⟨0x75, 0x75, .ctxnew, [1, 2], .ext 0, .rule⟩,
  ⟨0x76, 0x76, .ctxend, [1], .ext 0, .illegal⟩, ⟨0x77, 0x77, .ctxkill, [1], .ext 0xFF, .rule⟩,
  ⟨0x78, 0x78, .retag, [2], .ext 1, .rule⟩, ⟨0x79, 0x79, .nextit, [1], .ext 0, .illegal⟩,
  ⟨0x7A, 0x7A, .loopin, [1], .ext 0, .illegal⟩, ⟨0x7B, 0x7B, .loopout, [2], .ext 1, .illegal⟩,
  ⟨0x7C, 0x7C, .send, [2], .ext 0, .rule⟩, ⟨0x7D, 0x7D, .retn, [1, 2], .ext 0, .illegal⟩,
  ⟨0x7E, 0x7E, .signal, [0, 1], .ext 0xFF, .rule⟩, ⟨0x7F, 0x7F, .exc, [1], .ext 0x7F, .rule⟩,
  ⟨0x80, 0x80, .flowset, [1], .ext 0x3F, .illegal⟩, ⟨0x81, 0x81, .soloIn, [2], .ext 0, .illegal⟩,
  ⟨0x82, 0x82, .soloOut, [2], .ext 0, .illegal⟩, ⟨0x83, 0x83, .promRel, [1], .ext 0, .illegal⟩]

def opsMem : List OpRow := [
  ⟨0x90, 0x93, .ld, [1], .ext 0xFFFF, .rule⟩, ⟨0x94, 0x94, .ldQ, [1], .ext 0xFFFF, .rule⟩,
  ⟨0x98, 0x9B, .st, [2], .ext 0xFFFF, .rule⟩, ⟨0x9C, 0x9C, .stQ, [3], .ext 0xFFFF, .rule⟩,
  ⟨0xA0, 0xA0, .cas, [3], .ext 0xFFFF, .rule⟩, ⟨0xA1, 0xA1, .swap, [2], .ext 0xFFFF, .rule⟩,
  ⟨0xA2, 0xA2, .xadd, [2], .ext 0xFFFF, .rule⟩, ⟨0xA3, 0xA3, .accD, [2], .ext 0xFFFF, .rule⟩,
  ⟨0xA8, 0xA8, .acq, [1], .ext 0xFFFF, .rule⟩, ⟨0xA9, 0xA9, .tryacq, [1], .ext 0xFFFF, .rule⟩,
  ⟨0xAA, 0xAA, .rel, [1], .ext 0xFFFF, .rule⟩,
  ⟨0xB0, 0xB0, .qpush, [1], .ext 0x3FF, .reg⟩, ⟨0xB1, 0xB1, .qpop, [0, 1], .ext 0x3FF, .reg⟩,
  ⟨0xB2, 0xB2, .qmark, [0, 1], .ext 0x3FF, .reg⟩, ⟨0xB3, 0xB3, .qrewind, [0, 1], .ext 0x3FF, .reg⟩,
  ⟨0xB4, 0xB4, .qrelease, [0, 1], .ext 0x3FF, .reg⟩,
  ⟨0xC0, 0xC0, .time, [0, 1], .ext 0, .reg⟩, ⟨0xC1, 0xC1, .poll, [0, 1], .ext 0xFF, .reg⟩,
  ⟨0xC2, 0xC2, .rand, [0, 1], .ext 0, .reg⟩]

/-- The caller-only instructions (R125). Their table names no ARITY but WAITEV's (R514): one that reads registers takes as many as it reads,
and one that reads none any number that is not 0, as MODE 0b0000 is reserved (R81, R121; log entry 20). -/
def opsSeq : List OpRow := [
  ⟨0xD0, 0xD9, .brCc, [2], .op, .only⟩, ⟨0xDA, 0xDA, .jmp, [1, 2, 3], .ext 0, .only⟩,
  ⟨0xDB, 0xDB, .call, [1, 2, 3], .ext 0, .only⟩, ⟨0xDC, 0xDC, .ret, [1], .ext 0, .only⟩,
  ⟨0xE0, 0xE0, .wait, [1], .ext 3, .only⟩, ⟨0xE1, 0xE1, .waitev, [1], .ext 3, .only⟩,
  ⟨0xE2, 0xE2, .rfe, [1, 2, 3], .ext 0, .only⟩, ⟨0xE3, 0xE3, .csrrd, [1, 2, 3], .ext 0xFFF, .only⟩,
  ⟨0xE4, 0xE4, .csrwr, [1], .ext 0xFFF, .only⟩, ⟨0xE5, 0xE5, .fence, [1, 2, 3], .ext 0xF, .only⟩,
  ⟨0xF0, 0xF0, .fanx, [], .ext 0, .illegal⟩]

/-- The opcode tables of 03_instruction_set.md. -/
def opTable : List OpRow := opsInt ++ opsFp ++ opsSteer ++ opsMem ++ opsSeq

/-- The row of an OP value; none for a reserved one (R90). -/
def opRow (op : Nat) : Option OpRow := opTable.find? (fun r => decide (r.lo ≤ op) && decide (op ≤ r.hi))

/-- Modes reserved by R81. -/
def modeReserved (m : Nat) : Bool := m == 0 || m == 1 || m == 3 || m == 5

/-- Whether IMM and IMMR are as the row allows (R81): with IMM "op", IMM is 0 unless it is the operand. -/
def immOk (r : OpRow) (w : Word) : Bool :=
  match r.imm with
  | .op => iImmr w || iImm w == 0
  | .ext m => !iImmr w && (iImm w &&& m) == iImm w

/-- Reason of cause 0x20 for the value of an IMM extension field (R81, R96, R119). -/
def extReason (op : Op) (w : Word) : Option Nat :=
  if op = .poll ∧ 3 < iImm w then some 8
  else if op = .fcvt ∧ iImm w % 4 = 3 then some 9
  else none

/-- The reason for which a word is illegal in a firing (R81, R88), none for a legal one. FAN's extension words are judged
when it executes (R99). -/
def illegalFiring (w : Word) : Option Nat :=
  match opRow (iOp w) with
  | none => some 1
  | some r =>
    if r.op = .fanx then some 7
    else if r.seq = .only then some 5
    else if modeReserved (iMode w) then some 2
    else if !r.ar.contains (iArity w) then some 3
    else if !immOk r w then some 4
    else extReason r.op w

/-- Bits of form B and form R that must be 0 (R121). -/
def seqReserved (op : Op) (w : Word) : Bool :=
  match op with
  | .brCc | .jmp => wbits w 34 3 != 0 || wbits w 16 2 != 0 || iRd w != 0
  | .call => wbits w 34 3 != 0 || wbits w 16 2 != 0
  | _ => wbits w 16 11 != 0

/-- The reason for which a word is illegal in sequential mode (R81, R121, R122, R124). DESIGN CHOICE (log entry 20): R88 names no reason for
three of these words: an instruction marked X has 5, a word with TRIG 1 has 2, and a RETAG in context form has 4. -/
def illegalSeq (w : Word) : Option Nat :=
  match opRow (iOp w) with
  | none => some 1
  | some r =>
    if r.op = .fanx then some 7
    else if r.seq = .illegal then some 5
    else if iTrig w || modeReserved (iMode w) then some 2
    else if !r.ar.contains (iArity w) || (r.op = .ctxnew ∧ iArity w ≠ 1) then some 3
    else if !immOk r w || seqReserved r.op w || (r.op = .retag ∧ iImm w ≠ 0) then some 4
    else extReason r.op w

/-- DETAIL of cause 0x20 (R88). -/
def illegalDetail (reason : Nat) (w : Word) : BitVec 32 := BitVec.ofNat 32 (reason <<< 24 + iOp w <<< 8 + iMode w)

/-- The instruction that a legal word executes. -/
def opOf (w : Word) : Option Op := (opRow (iOp w)).map (·.op)

/-! ## Operand ports (R80) -/

/-- Number of data operands taken from ports. -/
def portCount (w : Word) : Nat := iArity w - b2n (iImmr w)

/-- Ports a firing consumes, as a mask of ports 0 to 3 (R80). -/
def needPorts (w : Word) : Nat := (2 ^ portCount w - 1) + b2n (iTrig w) * 8

/-- Whether a token's PORT is consumed by the instruction, whose MODE is not reserved (R83). -/
def portConsumed (w : Word) (port : Nat) : Bool := !modeReserved (iMode w) && (needPorts w).testBit port

/-- Format in which an immediate operand is converted: none for an integer (R82). -/
def immWord (op : Nat) (w : Word) : Opd :=
  if (0x30 ≤ op ∧ op ≤ 0x3F) ∨ (0x60 ≤ op ∧ op ≤ 0x65) then mkOpd (BitVec.ofNat 64 (fpImm b64 (iImm w))) 3 false
  else if (0x40 ≤ op ∧ op ≤ 0x4F) ∨ (0x68 ≤ op ∧ op ≤ 0x6D) then
    mkOpd (BitVec.ofNat 64 (fpImm b32 (iImm w) + fpImm b32 (iImm w) * 2 ^ 32)) 4 false
  else if 0x50 ≤ op ∧ op ≤ 0x5F then mkOpd (BitVec.ofNat 64 (fpImm b32 (iImm w))) 5 false
  else mkOpd (immS w) 0 false

/-- The left, right and third operands once the immediate stands in its place (R80, R82); an absent one is 0. -/
def withImm (w : Word) (l r t : Opd) : Opd × Opd × Opd :=
  let n := portCount w
  let i := iImmr w
  let pick := fun (k : Nat) (o : Opd) => if k < n then o else if i && k == n then immWord (iOp w) w else {}
  (pick 0 l, pick 1 r, pick 2 t)

end Sys2Proof.Machine
end

