-- ==== Sys2Proof/Config.lean ====
section
/-! DEFINITION. What one device fixes, and the values the spec leaves open.

Every constant here is opaque: nothing can be proved of its value, so a claim holds whatever it is. -/

namespace Sys2Proof

/-- The grade of the device: HTJ-G16-E20, otherwise HTJ-G16-L18 (R2). -/
opaque Config.isE20 : Bool

/-- Holtelm's PCI vendor ID (R664; log entry 1). -/
opaque Config.vendor : BitVec 16

/-- The device's serial number, from OTP (R664). -/
opaque Config.serial : Word

/-- Whether an edge of ACLK falls into period n of the device: neither the ratios nor the phases of the clocks are fixed (R9, R582, R583;
log entry 3). -/
opaque Config.aclkEdge : Nat → Bool

/-- Whether an edge of XCLK of channel k falls into period n of the device: every channel has PLLs of its own (R9, R581; log entry 3). -/
opaque Config.xclkEdge : Nat → Nat → Bool

/-- Whether an edge of MCLK of channel k falls into period n of the device (R9, R391, R581; log entry 3). -/
opaque Config.mclkEdge : Nat → Nat → Bool

/-- Whether the self-test of a spare fails in a stand-in that a channel reset waits for (R228, R604; log entry 33): by channel, the spare's
number (128 + m for caller duet m), and XCLK. -/
opaque Config.standInFails : Nat → Nat → Nat → Bool

/-- Whether a self-test of step 7 of R606 fails when it is run again after a wake from C4 (R592; log entry 36): by channel, XCLK, and the unit: a
duet, 128 + m for caller duet m, 256 for the channel as a whole. -/
opaque Config.startFails : Nat → Nat → Nat → Bool

/-- The sample that the Follow of a caller duet latches 3 CCLK after its Lead (R218, R234; log entry 2): by channel, caller and XCLK. -/
opaque Config.callerSample : Nat → Nat → Nat → Sample

/-- The data of a host-window load that a PCIe error or timeout left without any (R534; log entry 2): by channel, number of the
access, and half. -/
opaque Config.lostWord : Nat → Nat → Nat → Word

/-- A half of a queue word that both twins have lost (R336, R339; log entry 2): by channel, word of the store, and half. -/
opaque Config.lostHalf : Nat → Nat → Nat → BitVec 72

/-- What a mode register that no training step has written reads as (R406; log entry 5): by channel, and device x 256 +
register. -/
opaque Config.modeReg : Nat → Nat → BitVec 16

/-- The three check symbols of a GDDR7 codeword, whose generator the spec does not give (R395; log entry 2): of the eight words of a line
and its poison byte. -/
opaque Config.checkSyms : List Word → Byte → BitVec 24

/-- What the code of a GDDR7 line finds when the context unit or a register access reads it: nothing, a corrected error, or an uncorrectable one
(R397, R400; log entry 52): by channel, MCLK, and line. -/
opaque Config.lineCode : Nat → Nat → Nat → Option Bool

/-- The signature that the alias key makes over the transcript of an SPDM exchange (R610, R611; log entry 2), in six words of each of
its two numbers. -/
opaque Config.sign : List Word → List Word

/-- The certificate chain of slot 0, whose alias certificate carries M0 and M1 (R611; log entry 2): its bytes and length. -/
opaque Config.certByte : Digest → Digest → Nat → BitVec 8
opaque Config.certLen : Digest → Digest → Nat

/-- The words of a table object or of a steward image, which its digest stands for (R640, R642; log entry 2): by channel, and register
offset or instruction. -/
opaque Config.tableWord : Digest → Nat → Nat → Word
opaque Config.imageWord : Digest → Nat → Word

/-- What host memory holds as an update image: by address and length (R639; log entry 2). -/
opaque Config.hostImage : Word → Nat → ImgInfo

/-- The version that an image carries (R636; log entry 2). -/
opaque Config.imageVersion : Digest → BitVec 32

/-- The responder's nonces (R610; log entry 2): by message and word. -/
opaque Config.nonce : Nat → Nat → Word

end Sys2Proof
end

