-- ==== Sys2Proof/Machine/Regs.lean ====
section
/-! DEFINITION. The registers of the part: their offsets, fields, access codes and reset values, written from the offset
tables of 18_register_map.md (R660 to R666) and the field tables of the chapters (R72 to R655). -/

namespace Sys2Proof.Machine

/-- Access code of a field (R12). -/
inductive Access where
  | rw | ro | w1c | w1s | wo | rc
  deriving DecidableEq, Repr

/-- A field of a register: BAR0 offset of the register, lowest bit, length. -/
structure Fd where
  off : Nat
  lo : Nat
  len : Nat
  deriving DecidableEq, Repr

/-- The registers, by name; an indexed register is one name. -/
inductive RegName where
  | chId | chParam | chCtxbase | chCtxcfg | chCtxstat | chPlane | chTokstat | chStray
  | chExcbase | chExccfg | chExcstat | chQstat | chHwtbase | chHwctl | chHwtidx | chHwtdata
  | chHwstat | chRgstat | pwrCtl | pwrStat | pwrIdle | pwrOpp | pwrDom | pwrCurve
  | pwrSeq | lfWin | lfCtl | lfCnt | lfCnt2 | lfCommits | lfLast | lfInj
  | lfDuet | msOcc | msWm | msWmstat | msStat | msFirestat | msBank | flClass
  | flCnt | flStat | flPool | flOrd | adTcfg | adTfix | adTcnt | adTstat
  | adCurve | adCfg | adStat | adLevel | pgThr | pgElder | pgSpillbase | pgSpillcfg
  | pgSpillstat | pgCutcnt | pgStall | pgTcount | quCfg | quPtr | quWm | quStat
  | rgSbase | rgSdb | rgScfg | rgSctx | rgSexc | rgSstat | rgSpi | rgCbase
  | rgCdb | rgCcfg | rgCstat | evStat | evDeliv | evCall | evDoorbell | evSrc
  | lkFlow | lkMode | lkStat | lkPool | lkAband | spCfg | spStat | spErraddr
  | spShuf | spShufstat | spShufbank | spShufrep | dmCfg | dmTrcfg | dmTrstat | dmRef
  | dmScrub | dmEccstat | dmErraddr | dmPpr | dmTrstep | ntEpoch | ntStat | ntUnrtag
  | ntRt0 | ntRt1 | fbPctl | fbPcfg | fbPstat | fbPeersn | fbPeer | fbPeerdig
  | fbExpdig | fbErr | fbLoss | fbDoubttag | fbLsm | fbOwndig | ccCall | ccStat
  | ccCctx | ccDcause | ccPhys | ccStew | ccCnt | dvId | dvSerial | svStat
  | mlMstat | mlM | mlMargin | mlLstat | mlLsel | mlLbuf | thCfg | thStat
  | thGpio | thRail | thSens | thAge | deSrc | deStat | deDoorbell | upCtl
  | upSrc | upStat
  deriving DecidableEq, Repr

/-- A register of the offset tables: name, offset of instance 0, distance of instances, their number, and its fields as
(lowest bit, length, access). -/
structure RegDesc where
  name : RegName
  base : Nat
  stride : Nat
  count : Nat
  fields : List (Nat × Nat × Access)
  deriving DecidableEq, Repr

/-- Registers of a channel function (R660), part 0. -/
def chanRegs0 : List RegDesc := [
  ⟨.chId, 0x0, 0, 1, [(48, 16, .ro), (40, 8, .ro), (36, 4, .ro), (0, 4, .ro)]⟩,
  ⟨.chParam, 0x8, 0, 1, [(56, 8, .ro), (48, 8, .ro), (44, 4, .ro), (40, 4, .ro), (16, 16, .ro), (0, 16, .ro)]⟩,
  ⟨.chCtxbase, 0x100, 0, 1, [(20, 20, .rw)]⟩,
  ⟨.chCtxcfg, 0x108, 0, 1, [(63, 1, .wo), (32, 8, .rw), (16, 1, .rw), (0, 12, .rw)]⟩,
  ⟨.chCtxstat, 0x110, 0, 1, [(63, 1, .ro), (62, 1, .ro), (32, 24, .ro), (0, 24, .ro)]⟩,
  ⟨.chPlane, 0x118, 0, 1, [(63, 1, .rw), (48, 6, .rw), (40, 5, .rw), (32, 5, .rw), (16, 4, .ro), (0, 16, .rw)]⟩,
  ⟨.chTokstat, 0x120, 0, 1, [(48, 16, .rc), (32, 16, .rc), (16, 16, .rc), (0, 16, .rc)]⟩,
  ⟨.chStray, 0x128, 0, 1, [(0, 64, .rc)]⟩,
  ⟨.chExcbase, 0x140, 0, 1, [(6, 34, .rw)]⟩,
  ⟨.chExccfg, 0x148, 0, 1, [(63, 1, .rw), (0, 5, .rw)]⟩,
  ⟨.chExcstat, 0x150, 0, 1, [(48, 16, .rc), (0, 16, .ro)]⟩,
  ⟨.chQstat, 0x160, 0, 1, [(48, 16, .rc), (32, 16, .rc), (24, 8, .rc), (16, 8, .rc), (0, 16, .rc)]⟩,
  ⟨.chHwtbase, 0x180, 0, 1, [(20, 20, .rw)]⟩,
  ⟨.chHwctl, 0x188, 0, 1, [(63, 1, .rw), (1, 1, .w1s), (0, 1, .wo)]⟩,
  ⟨.chHwtidx, 0x190, 0, 1, [(0, 17, .rw)]⟩,
  ⟨.chHwtdata, 0x198, 0, 1, [(0, 64, .rw)]⟩,
  ⟨.chHwstat, 0x1A0, 0, 1, [(48, 16, .rc), (32, 16, .rc), (16, 16, .rc)]⟩,
  ⟨.chRgstat, 0x1A8, 0, 1, [(48, 16, .rc), (32, 16, .rc), (16, 16, .rc), (0, 16, .rc)]⟩,
  ⟨.pwrCtl, 0x1000, 0, 1, [(63, 1, .rw), (62, 1, .rw), (0, 4, .wo)]⟩,
  ⟨.pwrStat, 0x1008, 0, 1, [(61, 3, .ro), (60, 1, .ro), (56, 4, .ro), (48, 8, .ro), (32, 16, .ro), (16, 16, .ro)]⟩]

/-- Registers of a channel function (R660), part 1. -/
def chanRegs1 : List RegDesc := [
  ⟨.pwrIdle, 0x1010, 0, 1, [(48, 16, .rw), (32, 16, .rw), (16, 16, .rw), (0, 16, .rw)]⟩,
  ⟨.pwrOpp, 0x1018, 0, 1, [(48, 16, .rw), (32, 16, .ro), (22, 10, .ro), (19, 3, .ro), (0, 16, .rw)]⟩,
  ⟨.pwrDom, 0x1040, 8, 8, [(16, 7, .rw), (0, 7, .rw)]⟩,
  ⟨.pwrCurve, 0x1100, 8, 16, [(63, 1, .rw), (32, 16, .rw), (24, 8, .rw), (0, 16, .rw)]⟩,
  ⟨.pwrSeq, 0x1400, 8, 128, [(56, 8, .rw), (55, 1, .rw), (32, 16, .rw), (0, 32, .rw)]⟩,
  ⟨.lfWin, 0x2000, 0, 1, [(0, 2, .rw)]⟩,
  ⟨.lfCtl, 0x2008, 0, 1, [(1, 1, .wo), (0, 1, .rw)]⟩,
  ⟨.lfCnt, 0x2010, 0, 1, [(48, 16, .rc), (32, 16, .rc), (16, 16, .rc), (0, 16, .rc)]⟩,
  ⟨.lfCnt2, 0x2018, 0, 1, [(48, 16, .rc), (32, 16, .rc), (24, 8, .rc), (16, 8, .rc)]⟩,
  ⟨.lfCommits, 0x2020, 0, 1, [(0, 64, .ro)]⟩,
  ⟨.lfLast, 0x2028, 0, 1, [(63, 1, .rc), (56, 7, .rc), (49, 7, .rc), (46, 3, .rc), (40, 6, .rc), (0, 32, .rc)]⟩,
  ⟨.lfInj, 0x2030, 0, 1, [(63, 1, .w1s), (62, 1, .rw), (8, 7, .rw), (0, 4, .rw)]⟩,
  ⟨.lfDuet, 0x2100, 8, 68, [(48, 16, .rc), (24, 6, .ro), (18, 6, .ro), (12, 4, .ro), (9, 3, .ro), (7, 1, .ro), (5, 2, .ro), (0, 4, .wo)]⟩,
  ⟨.msOcc, 0x3000, 0, 1, [(48, 13, .ro), (42, 6, .ro), (31, 11, .ro), (0, 17, .ro)]⟩,
  ⟨.msWm, 0x3008, 0, 1, [(32, 17, .rw), (0, 17, .rw)]⟩,
  ⟨.msWmstat, 0x3010, 0, 1, [(63, 1, .ro), (62, 1, .w1c), (61, 1, .w1c), (0, 16, .rc)]⟩,
  ⟨.msStat, 0x3018, 0, 1, [(48, 16, .rc), (32, 16, .rc), (16, 16, .rc), (0, 16, .rc)]⟩,
  ⟨.msFirestat, 0x3020, 0, 1, [(32, 32, .rc), (16, 16, .rc), (0, 16, .rc)]⟩,
  ⟨.msBank, 0x3100, 8, 64, [(22, 4, .ro), (19, 3, .ro), (12, 7, .ro), (0, 11, .ro)]⟩,
  ⟨.flClass, 0x4000, 16, 64, [(60, 2, .rw), (48, 4, .rw), (32, 12, .rw), (16, 7, .rw), (0, 16, .rw)]⟩]

/-- Registers of a channel function (R660), part 2. -/
def chanRegs2 : List RegDesc := [
  ⟨.flCnt, 0x4008, 16, 64, [(32, 32, .ro), (0, 32, .ro)]⟩,
  ⟨.flStat, 0x4400, 0, 1, [(48, 16, .rc), (32, 16, .rc), (16, 16, .rc), (0, 16, .rc)]⟩,
  ⟨.flPool, 0x4408, 0, 1, [(0, 14, .ro)]⟩,
  ⟨.flOrd, 0x4800, 8, 128, [(48, 16, .ro), (32, 16, .ro), (16, 16, .ro), (0, 13, .ro)]⟩,
  ⟨.adTcfg, 0x5000, 32, 16, [(63, 1, .rw), (62, 1, .rw), (59, 3, .rw), (52, 4, .rw), (40, 8, .rw), (38, 2, .rw), (0, 32, .rw)]⟩,
  ⟨.adTfix, 0x5008, 32, 16, [(0, 32, .rw)]⟩,
  ⟨.adTcnt, 0x5010, 32, 16, [(32, 32, .rc), (0, 32, .rc)]⟩,
  ⟨.adTstat, 0x5018, 32, 16, [(48, 16, .rc), (0, 11, .ro)]⟩,
  ⟨.adCurve, 0x5200, 8, 128, [(32, 32, .rw), (0, 32, .rw)]⟩,
  ⟨.adCfg, 0x5600, 0, 1, [(63, 1, .rw), (32, 16, .rw), (0, 16, .rw)]⟩,
  ⟨.adStat, 0x5608, 0, 1, [(48, 16, .rc), (32, 16, .rc), (16, 16, .rc), (0, 16, .rc)]⟩,
  ⟨.adLevel, 0x5610, 8, 8, [(32, 32, .ro), (0, 11, .ro)]⟩,
  ⟨.pgThr, 0x6000, 0, 1, [(63, 1, .ro), (62, 1, .ro), (61, 1, .rw), (60, 1, .rw), (24, 24, .rw), (0, 24, .rw)]⟩,
  ⟨.pgElder, 0x6008, 0, 1, [(40, 24, .ro), (16, 16, .ro), (0, 9, .ro)]⟩,
  ⟨.pgSpillbase, 0x6010, 0, 1, [(20, 20, .rw)]⟩,
  ⟨.pgSpillcfg, 0x6018, 0, 1, [(63, 1, .rw), (16, 16, .rw), (12, 4, .rw), (0, 8, .rw)]⟩,
  ⟨.pgSpillstat, 0x6020, 0, 1, [(38, 26, .ro), (37, 1, .ro), (16, 16, .rc), (0, 16, .rc)]⟩,
  ⟨.pgCutcnt, 0x6028, 0, 1, [(32, 32, .rc), (0, 32, .rc)]⟩,
  ⟨.pgStall, 0x6030, 0, 1, [(63, 1, .w1c), (62, 1, .rw), (0, 32, .rw)]⟩,
  ⟨.pgTcount, 0x6038, 0, 1, [(0, 24, .ro)]⟩]

/-- Registers of a channel function (R660), part 3. -/
def chanRegs3 : List RegDesc := [
  ⟨.quCfg, 0x8000, 32, 1024, [(63, 1, .rw), (62, 1, .rw), (61, 1, .rw), (32, 16, .rw), (0, 14, .rw)]⟩,
  ⟨.quPtr, 0x8008, 32, 1024, [(48, 14, .ro), (32, 14, .ro), (16, 14, .ro), (0, 14, .ro)]⟩,
  ⟨.quWm, 0x8010, 32, 1024, [(63, 1, .ro), (62, 1, .w1c), (61, 1, .w1c), (60, 1, .rw), (59, 1, .rw), (48, 10, .rw), (40, 8, .rc), (16, 14, .rw), (0, 14, .rw)]⟩,
  ⟨.quStat, 0x8018, 32, 1024, [(62, 2, .ro), (48, 14, .ro), (32, 14, .ro), (24, 8, .rc), (16, 8, .rc), (0, 9, .ro)]⟩,
  ⟨.rgSbase, 0x10000, 64, 128, [(12, 28, .rw)]⟩,
  ⟨.rgSdb, 0x10008, 64, 128, [(4, 36, .rw)]⟩,
  ⟨.rgScfg, 0x10010, 64, 128, [(63, 1, .rw), (56, 5, .rw), (52, 4, .wo), (32, 16, .rw), (16, 16, .rw), (8, 8, .rw), (0, 7, .rw)]⟩,
  ⟨.rgSctx, 0x10018, 64, 128, [(58, 6, .rw), (54, 4, .rw), (50, 4, .rw), (49, 1, .rw), (16, 2, .rw), (8, 8, .rw)]⟩,
  ⟨.rgSexc, 0x10020, 64, 128, [(0, 64, .rw)]⟩,
  ⟨.rgSstat, 0x10028, 64, 128, [(61, 3, .ro), (56, 5, .ro), (32, 24, .ro), (0, 32, .ro)]⟩,
  ⟨.rgSpi, 0x10030, 64, 128, [(32, 16, .ro), (0, 32, .ro)]⟩,
  ⟨.rgCbase, 0x12000, 64, 128, [(12, 28, .rw)]⟩,
  ⟨.rgCdb, 0x12008, 64, 128, [(4, 36, .rw)]⟩,
  ⟨.rgCcfg, 0x12010, 64, 128, [(63, 1, .rw), (62, 1, .rw), (61, 1, .ro), (60, 1, .ro), (48, 5, .rw), (32, 16, .rw), (0, 8, .rw)]⟩,
  ⟨.rgCstat, 0x12018, 64, 128, [(32, 32, .ro), (0, 32, .ro)]⟩,
  ⟨.evStat, 0x14008, 0, 1, [(48, 16, .rc), (32, 16, .rc), (16, 16, .rc), (0, 16, .rc)]⟩,
  ⟨.evDeliv, 0x14010, 0, 1, [(0, 64, .ro)]⟩,
  ⟨.evCall, 0x14100, 8, 4, [(63, 1, .ro), (62, 1, .ro), (61, 1, .ro), (16, 5, .ro), (0, 10, .ro)]⟩,
  ⟨.evDoorbell, 0x14F00, 0, 1, [(24, 8, .wo), (0, 10, .wo)]⟩,
  ⟨.evSrc, 0x16000, 8, 1024, [(63, 1, .rw), (62, 1, .rw), (61, 1, .rw), (60, 1, .ro), (58, 2, .rw), (56, 2, .rw), (52, 4, .rw), (50, 2, .ro), (49, 1, .ro), (40, 8, .rw), (32, 8, .rw), (24, 8, .ro), (8, 1, .wo), (0, 8, .ro)]⟩]

/-- Registers of a channel function (R660), part 4. -/
def chanRegs4 : List RegDesc := [
  ⟨.lkFlow, 0x18000, 16, 64, [(0, 64, .rw)]⟩,
  ⟨.lkMode, 0x18008, 16, 64, [(63, 1, .rw), (62, 1, .rw), (48, 10, .rw)]⟩,
  ⟨.lkStat, 0x18400, 0, 1, [(48, 16, .rc), (32, 16, .rc), (16, 16, .rc), (0, 16, .rc)]⟩,
  ⟨.lkPool, 0x18408, 0, 1, [(0, 13, .ro)]⟩,
  ⟨.lkAband, 0x18410, 0, 1, [(63, 1, .rc), (0, 12, .rc)]⟩,
  ⟨.spCfg, 0x19000, 0, 1, [(63, 1, .ro), (0, 1, .rw)]⟩,
  ⟨.spStat, 0x19008, 0, 1, [(48, 16, .rc), (32, 16, .rc), (16, 16, .rc), (0, 16, .rc)]⟩,
  ⟨.spErraddr, 0x19010, 0, 1, [(63, 1, .rc), (0, 40, .rc)]⟩,
  ⟨.spShuf, 0x19018, 0, 1, [(63, 1, .rw), (0, 16, .rw)]⟩,
  ⟨.spShufstat, 0x19020, 0, 1, [(32, 32, .ro), (16, 16, .rc)]⟩,
  ⟨.spShufbank, 0x19100, 8, 64, [(62, 2, .ro), (48, 9, .ro), (47, 1, .ro), (32, 9, .ro), (31, 1, .ro)]⟩,
  ⟨.spShufrep, 0x19400, 8, 64, [(63, 1, .wo), (0, 9, .wo)]⟩,
  ⟨.dmCfg, 0x1A000, 0, 1, [(63, 1, .rw), (62, 1, .rw), (56, 2, .rw), (48, 6, .rw)]⟩,
  ⟨.dmTrcfg, 0x1A008, 0, 1, [(56, 8, .rw), (32, 16, .rw), (16, 4, .rw), (8, 8, .rw), (0, 8, .rw)]⟩,
  ⟨.dmTrstat, 0x1A010, 0, 1, [(60, 4, .ro), (48, 8, .ro), (32, 16, .ro), (0, 32, .ro)]⟩,
  ⟨.dmRef, 0x1A018, 0, 1, [(56, 8, .ro), (54, 2, .ro), (8, 8, .rw), (0, 8, .rw)]⟩,
  ⟨.dmScrub, 0x1A020, 0, 1, [(63, 1, .rw), (32, 16, .ro), (0, 16, .rw)]⟩,
  ⟨.dmEccstat, 0x1A028, 0, 1, [(48, 16, .rc), (32, 16, .rc), (16, 16, .rc), (0, 16, .rc)]⟩,
  ⟨.dmErraddr, 0x1A030, 0, 1, [(63, 1, .rc), (0, 40, .rc)]⟩,
  ⟨.dmPpr, 0x1A038, 0, 1, [(63, 1, .ro), (62, 1, .rw), (52, 4, .rw), (40, 8, .ro), (36, 4, .ro), (35, 1, .ro), (0, 18, .ro)]⟩]

/-- Registers of a channel function (R660), part 5. -/
def chanRegs5 : List RegDesc := [
  ⟨.dmTrstep, 0x1A800, 8, 256, [(56, 8, .rw), (48, 8, .rw), (32, 16, .rw), (0, 32, .rw)]⟩,
  ⟨.ntEpoch, 0x1C000, 0, 1, [(63, 1, .rw), (62, 1, .rw), (61, 1, .rw), (0, 32, .ro)]⟩,
  ⟨.ntStat, 0x1C008, 0, 1, [(48, 16, .rc), (32, 16, .rc), (16, 16, .rc), (0, 16, .rc)]⟩,
  ⟨.ntUnrtag, 0x1C010, 0, 1, [(0, 64, .rc)]⟩,
  ⟨.ntRt0, 0x1C100, 8, 8, [(60, 3, .rw), (56, 3, .rw), (52, 3, .rw), (48, 3, .rw), (44, 3, .rw), (40, 3, .rw), (36, 3, .rw), (32, 3, .rw), (28, 3, .rw), (24, 3, .rw), (20, 3, .rw), (16, 3, .rw), (12, 3, .rw), (8, 3, .rw), (4, 3, .rw), (0, 3, .rw)]⟩,
  ⟨.ntRt1, 0x1C140, 8, 8, [(60, 3, .rw), (56, 3, .rw), (52, 3, .rw), (48, 3, .rw), (44, 3, .rw), (40, 3, .rw), (36, 3, .rw), (32, 3, .rw), (28, 3, .rw), (24, 3, .rw), (20, 3, .rw), (16, 3, .rw), (12, 3, .rw), (8, 3, .rw), (4, 3, .rw), (0, 3, .rw)]⟩,
  ⟨.fbPctl, 0x20000, 256, 6, [(63, 1, .rw), (0, 4, .wo)]⟩,
  ⟨.fbPcfg, 0x20008, 256, 6, [(63, 1, .rw), (62, 1, .rw), (61, 1, .rw), (48, 8, .rw), (32, 16, .rw), (0, 16, .rw)]⟩,
  ⟨.fbPstat, 0x20010, 256, 6, [(61, 3, .ro), (60, 1, .ro), (59, 1, .ro), (48, 8, .ro), (44, 4, .ro), (32, 8, .ro), (0, 32, .ro)]⟩,
  ⟨.fbPeersn, 0x20018, 256, 6, [(0, 64, .ro)]⟩,
  ⟨.fbPeer, 0x20020, 256, 6, [(48, 16, .ro), (44, 4, .ro), (40, 4, .ro), (0, 32, .ro)]⟩,
  ⟨.fbPeerdig, 0x20028, 256, 6, [(0, 64, .ro)]⟩,
  ⟨.fbExpdig, 0x20030, 256, 6, [(0, 64, .rw)]⟩,
  ⟨.fbErr, 0x20038, 256, 6, [(48, 16, .rc), (32, 16, .rc), (16, 16, .rc), (0, 16, .rc)]⟩,
  ⟨.fbLoss, 0x20040, 256, 6, [(48, 16, .rc), (32, 16, .rc), (16, 16, .rc)]⟩,
  ⟨.fbDoubttag, 0x20048, 256, 6, [(0, 64, .rc)]⟩,
  ⟨.fbLsm, 0x20800, 8, 32, [(63, 1, .rw), (60, 3, .rw), (55, 5, .rw), (52, 3, .rw), (44, 8, .rw), (0, 32, .rw)]⟩,
  ⟨.fbOwndig, 0x20900, 0, 1, [(0, 64, .ro)]⟩,
  ⟨.ccCall, 0x30000, 32, 4, [(63, 1, .rw), (62, 1, .rw), (16, 4, .wo), (0, 16, .rw)]⟩,
  ⟨.ccStat, 0x30008, 32, 4, [(60, 4, .ro), (59, 1, .ro), (58, 1, .ro), (57, 1, .ro), (48, 3, .ro), (0, 16, .ro)]⟩]

/-- Registers of a channel function (R660), part 6. -/
def chanRegs6 : List RegDesc := [
  ⟨.ccCctx, 0x30010, 32, 4, [(0, 24, .rw)]⟩,
  ⟨.ccDcause, 0x30018, 32, 4, [(0, 64, .ro)]⟩,
  ⟨.ccPhys, 0x30100, 8, 5, [(48, 16, .rc), (21, 3, .ro), (12, 4, .ro), (9, 3, .ro), (0, 4, .wo)]⟩,
  ⟨.ccStew, 0x30200, 0, 1, [(63, 1, .rw), (0, 16, .rw)]⟩,
  ⟨.ccCnt, 0x30208, 0, 1, [(48, 16, .rc), (32, 16, .rc), (16, 16, .rc), (8, 8, .rc), (0, 8, .rc)]⟩]

/-- Registers of a channel function (R660). -/
def chanRegTable : List RegDesc :=
  chanRegs0 ++ chanRegs1 ++ chanRegs2 ++ chanRegs3 ++ chanRegs4 ++ chanRegs5 ++ chanRegs6

/-- Registers of PF0 (R662), part 0. -/
def devRegs0 : List RegDesc := [
  ⟨.dvId, 0x0, 0, 1, [(48, 16, .ro), (40, 8, .ro), (36, 4, .ro), (16, 1, .ro), (0, 16, .ro)]⟩,
  ⟨.dvSerial, 0x8, 0, 1, [(0, 64, .ro)]⟩,
  ⟨.svStat, 0x1000, 0, 1, [(60, 4, .ro), (59, 1, .ro), (32, 16, .ro), (16, 16, .ro)]⟩,
  ⟨.mlMstat, 0x2000, 0, 1, [(32, 32, .ro), (0, 8, .ro)]⟩,
  ⟨.mlM, 0x2100, 8, 64, [(0, 64, .ro)]⟩,
  ⟨.mlMargin, 0x2300, 0, 1, [(10, 2, .ro), (8, 2, .ro), (6, 2, .ro), (4, 2, .ro), (2, 2, .ro), (0, 2, .ro)]⟩,
  ⟨.mlLstat, 0x2308, 0, 1, [(32, 32, .ro), (24, 8, .ro), (0, 16, .ro)]⟩,
  ⟨.mlLsel, 0x2310, 0, 1, [(63, 1, .ro), (62, 1, .ro), (0, 32, .rw)]⟩,
  ⟨.mlLbuf, 0x2400, 8, 128, [(0, 64, .ro)]⟩,
  ⟨.thCfg, 0x3000, 0, 1, [(56, 8, .rw), (48, 8, .rw), (40, 8, .rw), (32, 8, .rw), (0, 16, .rw)]⟩,
  ⟨.thStat, 0x3008, 0, 1, [(48, 16, .ro), (47, 1, .ro), (46, 1, .ro), (45, 1, .ro), (0, 32, .ro)]⟩,
  ⟨.thGpio, 0x3010, 0, 1, [(30, 2, .rw), (28, 2, .rw), (26, 2, .rw), (24, 2, .rw), (22, 2, .rw), (20, 2, .rw), (18, 2, .rw), (16, 2, .rw), (14, 2, .rw), (12, 2, .rw), (10, 2, .rw), (8, 2, .rw), (6, 2, .rw), (4, 2, .rw), (2, 2, .rw), (0, 2, .rw)]⟩,
  ⟨.thRail, 0x3018, 0, 1, [(22, 1, .w1c), (16, 6, .w1c), (0, 16, .w1c)]⟩,
  ⟨.thSens, 0x3100, 8, 20, [(0, 16, .ro)]⟩,
  ⟨.thAge, 0x3200, 8, 16, [(48, 12, .ro), (36, 12, .ro), (24, 12, .ro), (12, 12, .ro), (0, 12, .ro)]⟩,
  ⟨.deSrc, 0x4000, 8, 256, [(63, 1, .rw), (62, 1, .rw), (61, 1, .rw), (60, 1, .ro), (59, 1, .rw), (58, 1, .rw), (57, 1, .rw), (56, 1, .w1c), (49, 1, .ro), (40, 8, .rw), (32, 8, .rw), (24, 8, .ro), (8, 1, .wo), (0, 8, .ro)]⟩,
  ⟨.deStat, 0x4800, 0, 1, [(48, 16, .rc), (32, 16, .rc), (16, 16, .rc), (0, 16, .rc)]⟩,
  ⟨.deDoorbell, 0x4F00, 0, 1, [(24, 8, .wo), (0, 10, .wo)]⟩,
  ⟨.upCtl, 0x5000, 0, 1, [(60, 4, .wo), (56, 4, .rw), (55, 1, .rw), (32, 16, .rw), (0, 32, .rw)]⟩,
  ⟨.upSrc, 0x5008, 0, 1, [(12, 52, .rw)]⟩]

/-- Registers of PF0 (R662), part 1. -/
def devRegs1 : List RegDesc := [
  ⟨.upStat, 0x5010, 0, 1, [(60, 4, .ro), (52, 8, .ro), (32, 16, .ro), (0, 32, .ro)]⟩]

/-- Registers of PF0 (R662). -/
def devRegTable : List RegDesc :=
  devRegs0 ++ devRegs1

/-- The register at an offset, with its instance. -/
def regAt : List RegDesc → Nat → Option (RegDesc × Nat)
  | [], _ => none
  | d :: r, off =>
    if off = d.base then some (d, 0)
    else if d.base < off ∧ d.stride ≠ 0 ∧ (off - d.base) % d.stride = 0 ∧ (off - d.base) / d.stride < d.count then
      some (d, (off - d.base) / d.stride)
    else regAt r off

/-- Access of a field of an instance: DUP and RETAIN of QU_CFGn are RO for n below 960 (R342); EN, ROUTE, TARGET and TSET of
EV_SRCs are RO for s below 64 (R520). -/
def fieldAccess (n : RegName) (i lo : Nat) (a : Access) : Access :=
  match n with
  | .quCfg => if i < 960 ∧ (lo = 62 ∨ lo = 61) then .ro else a
  | .evSrc => if i < 64 ∧ (lo = 63 ∨ lo = 58 ∨ lo = 56 ∨ lo = 52) then .ro else a
  | _ => a

/-! ## Fields by name -/

namespace F

def chIdMember : Fd := ⟨0x0, 48, 16⟩
def chIdStep : Fd := ⟨0x0, 40, 8⟩
def chIdGrade : Fd := ⟨0x0, 36, 4⟩
def chIdChannel : Fd := ⟨0x0, 0, 4⟩
def chParamChannels : Fd := ⟨0x8, 56, 8⟩
def chParamTiles : Fd := ⟨0x8, 48, 8⟩
def chParamSets : Fd := ⟨0x8, 44, 4⟩
def chParamFabports : Fd := ⟨0x8, 40, 4⟩
def chParamSpkib : Fd := ⟨0x8, 16, 16⟩
def chParamDrammib : Fd := ⟨0x8, 0, 16⟩
def chCtxbaseBase : Fd := ⟨0x100, 20, 20⟩
def chCtxcfgFlush : Fd := ⟨0x108, 63, 1⟩
def chCtxcfgQuar : Fd := ⟨0x108, 32, 8⟩
def chCtxcfgEn : Fd := ⟨0x108, 16, 1⟩
def chCtxcfgLimit : Fd := ⟨0x108, 0, 12⟩
def chCtxstatFlushing : Fd := ⟨0x110, 63, 1⟩
def chCtxstatSweeping : Fd := ⟨0x110, 62, 1⟩
def chCtxstatFree : Fd := ⟨0x110, 32, 24⟩
def chCtxstatLive : Fd := ⟨0x110, 0, 24⟩
def chPlaneValid : Fd := ⟨0x118, 63, 1⟩
def chPlaneNxm1 : Fd := ⟨0x118, 48, 6⟩
def chPlaneNym1 : Fd := ⟨0x118, 40, 5⟩
def chPlaneNzm1 : Fd := ⟨0x118, 32, 5⟩
def chPlanePlane : Fd := ⟨0x118, 16, 4⟩
def chPlaneDev : Fd := ⟨0x118, 0, 16⟩
def chTokstatDeadctx : Fd := ⟨0x120, 48, 16⟩
def chTokstatMalformed : Fd := ⟨0x120, 32, 16⟩
def chTokstatUnreach : Fd := ⟨0x120, 16, 16⟩
def chTokstatPoisonctx : Fd := ⟨0x120, 0, 16⟩
def chStrayTag : Fd := ⟨0x128, 0, 64⟩
def chExcbaseBase : Fd := ⟨0x140, 6, 34⟩
def chExccfgEn : Fd := ⟨0x148, 63, 1⟩
def chExccfgSize : Fd := ⟨0x148, 0, 5⟩
def chExcstatLost : Fd := ⟨0x150, 48, 16⟩
def chExcstatWr : Fd := ⟨0x150, 0, 16⟩
def chQstatParerr : Fd := ⟨0x160, 48, 16⟩
def chQstatTwin : Fd := ⟨0x160, 32, 16⟩
def chQstatRebuild : Fd := ⟨0x160, 24, 8⟩
def chQstatRegen : Fd := ⟨0x160, 16, 8⟩
def chQstatPoison : Fd := ⟨0x160, 0, 16⟩
def chHwtbaseAddr : Fd := ⟨0x180, 20, 20⟩
def chHwctlEn : Fd := ⟨0x188, 63, 1⟩
def chHwctlSync : Fd := ⟨0x188, 1, 1⟩
def chHwctlInvall : Fd := ⟨0x188, 0, 1⟩
def chHwtidxIndex : Fd := ⟨0x190, 0, 17⟩
def chHwtdataData : Fd := ⟨0x198, 0, 64⟩
def chHwstatMiss : Fd := ⟨0x1A0, 48, 16⟩
def chHwstatDenied : Fd := ⟨0x1A0, 32, 16⟩
def chHwstatTblerr : Fd := ⟨0x1A0, 16, 16⟩
def chRgstatStray : Fd := ⟨0x1A8, 48, 16⟩
def chRgstatBaddesc : Fd := ⟨0x1A8, 32, 16⟩
def chRgstatFetcherr : Fd := ⟨0x1A8, 16, 16⟩
def chRgstatCopyfail : Fd := ⟨0x1A8, 0, 16⟩
def pwrCtlAuto : Fd := ⟨0x1000, 63, 1⟩
def pwrCtlSetauto : Fd := ⟨0x1000, 62, 1⟩
def pwrCtlCmd : Fd := ⟨0x1000, 0, 4⟩
def pwrStatCstate : Fd := ⟨0x1008, 61, 3⟩
def pwrStatReady : Fd := ⟨0x1008, 60, 1⟩
def pwrStatSeton : Fd := ⟨0x1008, 56, 4⟩
def pwrStatBusy : Fd := ⟨0x1008, 48, 8⟩
def pwrStatAbandon : Fd := ⟨0x1008, 32, 16⟩
def pwrStatDrainto : Fd := ⟨0x1008, 16, 16⟩
def pwrIdleT1 : Fd := ⟨0x1010, 48, 16⟩
def pwrIdleTset : Fd := ⟨0x1010, 32, 16⟩
def pwrIdleT2 : Fd := ⟨0x1010, 16, 16⟩
def pwrIdleT3 : Fd := ⟨0x1010, 0, 16⟩
def pwrOppTarget : Fd := ⟨0x1018, 48, 16⟩
def pwrOppCurmhz : Fd := ⟨0x1018, 32, 16⟩
def pwrOppCurmv : Fd := ⟨0x1018, 22, 10⟩
def pwrOppCap : Fd := ⟨0x1018, 19, 3⟩
def pwrOppGap : Fd := ⟨0x1018, 0, 16⟩
def pwrDomDown (i : Nat) : Fd := ⟨0x1040 + 8 * i, 16, 7⟩
def pwrDomUp (i : Nat) : Fd := ⟨0x1040 + 8 * i, 0, 7⟩
def pwrCurveValid (i : Nat) : Fd := ⟨0x1100 + 8 * i, 63, 1⟩
def pwrCurveMhz (i : Nat) : Fd := ⟨0x1100 + 8 * i, 32, 16⟩
def pwrCurveAge (i : Nat) : Fd := ⟨0x1100 + 8 * i, 24, 8⟩
def pwrCurveMv (i : Nat) : Fd := ⟨0x1100 + 8 * i, 0, 16⟩
def pwrSeqOp (i : Nat) : Fd := ⟨0x1400 + 8 * i, 56, 8⟩
def pwrSeqPnr (i : Nat) : Fd := ⟨0x1400 + 8 * i, 55, 1⟩
def pwrSeqA (i : Nat) : Fd := ⟨0x1400 + 8 * i, 32, 16⟩
def pwrSeqB (i : Nat) : Fd := ⟨0x1400 + 8 * i, 0, 32⟩
def lfWinLen : Fd := ⟨0x2000, 0, 2⟩
def lfCtlSparetest : Fd := ⟨0x2008, 1, 1⟩
def lfCtlTest : Fd := ⟨0x2008, 0, 1⟩
def lfCntRewind : Fd := ⟨0x2010, 48, 16⟩
def lfCntAsync : Fd := ⟨0x2010, 32, 16⟩
def lfCntChkerr : Fd := ⟨0x2010, 16, 16⟩
def lfCntDlpar : Fd := ⟨0x2010, 0, 16⟩
def lfCnt2Cbcorr : Fd := ⟨0x2018, 48, 16⟩
def lfCnt2Cbuncorr : Fd := ⟨0x2018, 32, 16⟩
def lfCnt2Standin : Fd := ⟨0x2018, 24, 8⟩
def lfCnt2Retire : Fd := ⟨0x2018, 16, 8⟩
def lfCommitsWindows : Fd := ⟨0x2020, 0, 64⟩
def lfLastValid : Fd := ⟨0x2028, 63, 1⟩
def lfLastFailed : Fd := ⟨0x2028, 56, 7⟩
def lfLastTaker : Fd := ⟨0x2028, 49, 7⟩
def lfLastReason : Fd := ⟨0x2028, 46, 3⟩
def lfLastTile : Fd := ⟨0x2028, 40, 6⟩
def lfLastTime : Fd := ⟨0x2028, 0, 32⟩
def lfInjArm : Fd := ⟨0x2030, 63, 1⟩
def lfInjRepeat : Fd := ⟨0x2030, 62, 1⟩
def lfInjDuet : Fd := ⟨0x2030, 8, 7⟩
def lfInjKind : Fd := ⟨0x2030, 0, 4⟩
def lfDuetRewind (i : Nat) : Fd := ⟨0x2100 + 8 * i, 48, 16⟩
def lfDuetServes2 (i : Nat) : Fd := ⟨0x2100 + 8 * i, 24, 6⟩
def lfDuetServes (i : Nat) : Fd := ⟨0x2100 + 8 * i, 18, 6⟩
def lfDuetRole (i : Nat) : Fd := ⟨0x2100 + 8 * i, 12, 4⟩
def lfDuetCause (i : Nat) : Fd := ⟨0x2100 + 8 * i, 9, 3⟩
def lfDuetReplay (i : Nat) : Fd := ⟨0x2100 + 8 * i, 7, 1⟩
def lfDuetUncom (i : Nat) : Fd := ⟨0x2100 + 8 * i, 5, 2⟩
def lfDuetCmd (i : Nat) : Fd := ⟨0x2100 + 8 * i, 0, 4⟩
def msOccEsc : Fd := ⟨0x3000, 48, 13⟩
def msOccMaxtile : Fd := ⟨0x3000, 42, 6⟩
def msOccMaxocc : Fd := ⟨0x3000, 31, 11⟩
def msOccTotal : Fd := ⟨0x3000, 0, 17⟩
def msWmLow : Fd := ⟨0x3008, 32, 17⟩
def msWmHigh : Fd := ⟨0x3008, 0, 17⟩
def msWmstatNow : Fd := ⟨0x3010, 63, 1⟩
def msWmstatHighseen : Fd := ⟨0x3010, 62, 1⟩
def msWmstatLowseen : Fd := ⟨0x3010, 61, 1⟩
def msWmstatCross : Fd := ⟨0x3010, 0, 16⟩
def msStatDefer : Fd := ⟨0x3018, 48, 16⟩
def msStatMiss : Fd := ⟨0x3018, 32, 16⟩
def msStatCorr : Fd := ⟨0x3018, 16, 16⟩
def msStatUncorr : Fd := ⟨0x3018, 0, 16⟩
def msFirestatCancel : Fd := ⟨0x3020, 32, 32⟩
def msFirestatStarve : Fd := ⟨0x3020, 16, 16⟩
def msFirestatPorterr : Fd := ⟨0x3020, 0, 16⟩
def msBankMissq (i : Nat) : Fd := ⟨0x3100 + 8 * i, 22, 4⟩
def msBankDeferq (i : Nat) : Fd := ⟨0x3100 + 8 * i, 19, 3⟩
def msBankEsc (i : Nat) : Fd := ⟨0x3100 + 8 * i, 12, 7⟩
def msBankOcc (i : Nat) : Fd := ⟨0x3100 + 8 * i, 0, 11⟩
def flClassKind (i : Nat) : Fd := ⟨0x4000 + 16 * i, 60, 2⟩
def flClassSsize (i : Nat) : Fd := ⟨0x4000 + 16 * i, 48, 4⟩
def flClassSbase (i : Nat) : Fd := ⟨0x4000 + 16 * i, 32, 12⟩
def flClassOrdq (i : Nat) : Fd := ⟨0x4000 + 16 * i, 16, 7⟩
def flClassHeadtime (i : Nat) : Fd := ⟨0x4000 + 16 * i, 0, 16⟩
def flCntPositions (i : Nat) : Fd := ⟨0x4008 + 16 * i, 32, 32⟩
def flCntGrants (i : Nat) : Fd := ⟨0x4008 + 16 * i, 0, 32⟩
def flStatFlowerr : Fd := ⟨0x4400, 48, 16⟩
def flStatSoloerr : Fd := ⟨0x4400, 32, 16⟩
def flStatHeadlate : Fd := ⟨0x4400, 16, 16⟩
def flStatPoolfull : Fd := ⟨0x4400, 0, 16⟩
def flPoolUsed : Fd := ⟨0x4408, 0, 14⟩
def flOrdHead (i : Nat) : Fd := ⟨0x4800 + 8 * i, 48, 16⟩
def flOrdTail (i : Nat) : Fd := ⟨0x4800 + 8 * i, 32, 16⟩
def flOrdCursor (i : Nat) : Fd := ⟨0x4800 + 8 * i, 16, 16⟩
def flOrdInflight (i : Nat) : Fd := ⟨0x4800 + 8 * i, 0, 13⟩
def adTcfgEn (i : Nat) : Fd := ⟨0x5000 + 32 * i, 63, 1⟩
def adTcfgGuar (i : Nat) : Fd := ⟨0x5000 + 32 * i, 62, 1⟩
def adTcfgLevel (i : Nat) : Fd := ⟨0x5000 + 32 * i, 59, 3⟩
def adTcfgCurve (i : Nat) : Fd := ⟨0x5000 + 32 * i, 52, 4⟩
def adTcfgRewn (i : Nat) : Fd := ⟨0x5000 + 32 * i, 40, 8⟩
def adTcfgStandn (i : Nat) : Fd := ⟨0x5000 + 32 * i, 38, 2⟩
def adTcfgBound (i : Nat) : Fd := ⟨0x5000 + 32 * i, 0, 32⟩
def adTfixFixed (i : Nat) : Fd := ⟨0x5008 + 32 * i, 0, 32⟩
def adTcntAccept (i : Nat) : Fd := ⟨0x5010 + 32 * i, 32, 32⟩
def adTcntDecline (i : Nat) : Fd := ⟨0x5010 + 32 * i, 0, 32⟩
def adTstatLate (i : Nat) : Fd := ⟨0x5018 + 32 * i, 48, 16⟩
def adTstatOut (i : Nat) : Fd := ⟨0x5018 + 32 * i, 0, 11⟩
def adCurveXmax (i : Nat) : Fd := ⟨0x5200 + 8 * i, 32, 32⟩
def adCurveCost (i : Nat) : Fd := ⟨0x5200 + 8 * i, 0, 32⟩
def adCfgEn : Fd := ⟨0x5600, 63, 1⟩
def adCfgMinmhz : Fd := ⟨0x5600, 32, 16⟩
def adCfgCostclk : Fd := ⟨0x5600, 0, 16⟩
def adStatDisabled : Fd := ⟨0x5608, 48, 16⟩
def adStatRange : Fd := ⟨0x5608, 32, 16⟩
def adStatResource : Fd := ⟨0x5608, 16, 16⟩
def adStatCapacity : Fd := ⟨0x5608, 0, 16⟩
def adLevelFinish (i : Nat) : Fd := ⟨0x5610 + 8 * i, 32, 32⟩
def adLevelOut (i : Nat) : Fd := ⟨0x5610 + 8 * i, 0, 11⟩
def pgThrClosed : Fd := ⟨0x6000, 63, 1⟩
def pgThrEclosed : Fd := ⟨0x6000, 62, 1⟩
def pgThrForce : Fd := ⟨0x6000, 61, 1⟩
def pgThrWmen : Fd := ⟨0x6000, 60, 1⟩
def pgThrEldres : Fd := ⟨0x6000, 24, 24⟩
def pgThrMaxlive : Fd := ⟨0x6000, 0, 24⟩
def pgElderOldest : Fd := ⟨0x6008, 40, 24⟩
def pgElderInherited : Fd := ⟨0x6008, 16, 16⟩
def pgElderPrimary : Fd := ⟨0x6008, 0, 9⟩
def pgSpillbaseBase : Fd := ⟨0x6010, 20, 20⟩
def pgSpillcfgEn : Fd := ⟨0x6018, 63, 1⟩
def pgSpillcfgAge : Fd := ⟨0x6018, 16, 16⟩
def pgSpillcfgProbe : Fd := ⟨0x6018, 12, 4⟩
def pgSpillcfgSize : Fd := ⟨0x6018, 0, 8⟩
def pgSpillstatUsed : Fd := ⟨0x6020, 38, 26⟩
def pgSpillstatNear : Fd := ⟨0x6020, 37, 1⟩
def pgSpillstatFull : Fd := ⟨0x6020, 16, 16⟩
def pgSpillstatFalsepos : Fd := ⟨0x6020, 0, 16⟩
def pgCutcntEvict : Fd := ⟨0x6028, 32, 32⟩
def pgCutcntReload : Fd := ⟨0x6028, 0, 32⟩
def pgStallFired : Fd := ⟨0x6030, 63, 1⟩
def pgStallEn : Fd := ⟨0x6030, 62, 1⟩
def pgStallLimit : Fd := ⟨0x6030, 0, 32⟩
def pgTcountN : Fd := ⟨0x6038, 0, 24⟩
def quCfgEn (i : Nat) : Fd := ⟨0x8000 + 32 * i, 63, 1⟩
def quCfgDup (i : Nat) : Fd := ⟨0x8000 + 32 * i, 62, 1⟩
def quCfgRetain (i : Nat) : Fd := ⟨0x8000 + 32 * i, 61, 1⟩
def quCfgBase (i : Nat) : Fd := ⟨0x8000 + 32 * i, 32, 16⟩
def quCfgCap (i : Nat) : Fd := ⟨0x8000 + 32 * i, 0, 14⟩
def quPtrHeld (i : Nat) : Fd := ⟨0x8008 + 32 * i, 48, 14⟩
def quPtrUnread (i : Nat) : Fd := ⟨0x8008 + 32 * i, 32, 14⟩
def quPtrRdoff (i : Nat) : Fd := ⟨0x8008 + 32 * i, 16, 14⟩
def quPtrWroff (i : Nat) : Fd := ⟨0x8008 + 32 * i, 0, 14⟩
def quWmNow (i : Nat) : Fd := ⟨0x8010 + 32 * i, 63, 1⟩
def quWmHighseen (i : Nat) : Fd := ⟨0x8010 + 32 * i, 62, 1⟩
def quWmLowseen (i : Nat) : Fd := ⟨0x8010 + 32 * i, 61, 1⟩
def quWmNrise (i : Nat) : Fd := ⟨0x8010 + 32 * i, 60, 1⟩
def quWmNfall (i : Nat) : Fd := ⟨0x8010 + 32 * i, 59, 1⟩
def quWmEvsrc (i : Nat) : Fd := ⟨0x8010 + 32 * i, 48, 10⟩
def quWmCross (i : Nat) : Fd := ⟨0x8010 + 32 * i, 40, 8⟩
def quWmHigh (i : Nat) : Fd := ⟨0x8010 + 32 * i, 16, 14⟩
def quWmLow (i : Nat) : Fd := ⟨0x8010 + 32 * i, 0, 14⟩
def quStatNmark (i : Nat) : Fd := ⟨0x8018 + 32 * i, 62, 2⟩
def quStatMark0 (i : Nat) : Fd := ⟨0x8018 + 32 * i, 48, 14⟩
def quStatMark1 (i : Nat) : Fd := ⟨0x8018 + 32 * i, 32, 14⟩
def quStatParerr (i : Nat) : Fd := ⟨0x8018 + 32 * i, 24, 8⟩
def quStatPoison (i : Nat) : Fd := ⟨0x8018 + 32 * i, 16, 8⟩
def quStatWaitpop (i : Nat) : Fd := ⟨0x8018 + 32 * i, 0, 9⟩
def rgSbaseAddr (i : Nat) : Fd := ⟨0x10000 + 64 * i, 12, 28⟩
def rgSdbAddr (i : Nat) : Fd := ⟨0x10008 + 64 * i, 4, 36⟩
def rgScfgEn (i : Nat) : Fd := ⟨0x10010 + 64 * i, 63, 1⟩
def rgScfgSize (i : Nat) : Fd := ⟨0x10010 + 64 * i, 56, 5⟩
def rgScfgCmd (i : Nat) : Fd := ⟨0x10010 + 64 * i, 52, 4⟩
def rgScfgEpoch (i : Nat) : Fd := ⟨0x10010 + 64 * i, 32, 16⟩
def rgScfgIdle (i : Nat) : Fd := ⟨0x10010 + 64 * i, 16, 16⟩
def rgScfgPoll (i : Nat) : Fd := ⟨0x10010 + 64 * i, 8, 8⟩
def rgScfgCq (i : Nat) : Fd := ⟨0x10010 + 64 * i, 0, 7⟩
def rgSctxFlow (i : Nat) : Fd := ⟨0x10018 + 64 * i, 58, 6⟩
def rgSctxTempo (i : Nat) : Fd := ⟨0x10018 + 64 * i, 54, 4⟩
def rgSctxItwin (i : Nat) : Fd := ⟨0x10018 + 64 * i, 50, 4⟩
def rgSctxSupv (i : Nat) : Fd := ⟨0x10018 + 64 * i, 49, 1⟩
def rgSctxRm (i : Nat) : Fd := ⟨0x10018 + 64 * i, 16, 2⟩
def rgSctxTe (i : Nat) : Fd := ⟨0x10018 + 64 * i, 8, 8⟩
def rgSexcExc (i : Nat) : Fd := ⟨0x10020 + 64 * i, 0, 64⟩
def rgSstatState (i : Nat) : Fd := ⟨0x10028 + 64 * i, 61, 3⟩
def rgSstatErr (i : Nat) : Fd := ⟨0x10028 + 64 * i, 56, 5⟩
def rgSstatOut (i : Nat) : Fd := ⟨0x10028 + 64 * i, 32, 24⟩
def rgSstatCi (i : Nat) : Fd := ⟨0x10028 + 64 * i, 0, 32⟩
def rgSpiEpoch (i : Nat) : Fd := ⟨0x10030 + 64 * i, 32, 16⟩
def rgSpiPi (i : Nat) : Fd := ⟨0x10030 + 64 * i, 0, 32⟩
def rgCbaseAddr (i : Nat) : Fd := ⟨0x12000 + 64 * i, 12, 28⟩
def rgCdbAddr (i : Nat) : Fd := ⟨0x12008 + 64 * i, 4, 36⟩
def rgCcfgEn (i : Nat) : Fd := ⟨0x12010 + 64 * i, 63, 1⟩
def rgCcfgIrq (i : Nat) : Fd := ⟨0x12010 + 64 * i, 62, 1⟩
def rgCcfgFull (i : Nat) : Fd := ⟨0x12010 + 64 * i, 61, 1⟩
def rgCcfgError (i : Nat) : Fd := ⟨0x12010 + 64 * i, 60, 1⟩
def rgCcfgSize (i : Nat) : Fd := ⟨0x12010 + 64 * i, 48, 5⟩
def rgCcfgEpoch (i : Nat) : Fd := ⟨0x12010 + 64 * i, 32, 16⟩
def rgCcfgPoll (i : Nat) : Fd := ⟨0x12010 + 64 * i, 0, 8⟩
def rgCstatHead (i : Nat) : Fd := ⟨0x12018 + 64 * i, 32, 32⟩
def rgCstatTail (i : Nat) : Fd := ⟨0x12018 + 64 * i, 0, 32⟩
def evStatRefused : Fd := ⟨0x14008, 48, 16⟩
def evStatSaturated : Fd := ⟨0x14008, 32, 16⟩
def evStatBounced : Fd := ⟨0x14008, 16, 16⟩
def evStatBypass : Fd := ⟨0x14008, 0, 16⟩
def evDelivDeliveries : Fd := ⟨0x14010, 0, 64⟩
def evCallEn (i : Nat) : Fd := ⟨0x14100 + 8 * i, 63, 1⟩
def evCallMask (i : Nat) : Fd := ⟨0x14100 + 8 * i, 62, 1⟩
def evCallEnabled (i : Nat) : Fd := ⟨0x14100 + 8 * i, 61, 1⟩
def evCallDepth (i : Nat) : Fd := ⟨0x14100 + 8 * i, 16, 5⟩
def evCallHead (i : Nat) : Fd := ⟨0x14100 + 8 * i, 0, 10⟩
def evDoorbellCount : Fd := ⟨0x14F00, 24, 8⟩
def evDoorbellSrc : Fd := ⟨0x14F00, 0, 10⟩
def evSrcEn (i : Nat) : Fd := ⟨0x16000 + 8 * i, 63, 1⟩
def evSrcMask (i : Nat) : Fd := ⟨0x16000 + 8 * i, 62, 1⟩
def evSrcClass (i : Nat) : Fd := ⟨0x16000 + 8 * i, 61, 1⟩
def evSrcInflight (i : Nat) : Fd := ⟨0x16000 + 8 * i, 60, 1⟩
def evSrcRoute (i : Nat) : Fd := ⟨0x16000 + 8 * i, 58, 2⟩
def evSrcTarget (i : Nat) : Fd := ⟨0x16000 + 8 * i, 56, 2⟩
def evSrcTset (i : Nat) : Fd := ⟨0x16000 + 8 * i, 52, 4⟩
def evSrcLast (i : Nat) : Fd := ⟨0x16000 + 8 * i, 50, 2⟩
def evSrcInbox (i : Nat) : Fd := ⟨0x16000 + 8 * i, 49, 1⟩
def evSrcVec (i : Nat) : Fd := ⟨0x16000 + 8 * i, 40, 8⟩
def evSrcModiv (i : Nat) : Fd := ⟨0x16000 + 8 * i, 32, 8⟩
def evSrcModleft (i : Nat) : Fd := ⟨0x16000 + 8 * i, 24, 8⟩
def evSrcClear (i : Nat) : Fd := ⟨0x16000 + 8 * i, 8, 1⟩
def evSrcCount (i : Nat) : Fd := ⟨0x16000 + 8 * i, 0, 8⟩
def lkFlowFlows (i : Nat) : Fd := ⟨0x18000 + 16 * i, 0, 64⟩
def lkModeCallers (i : Nat) : Fd := ⟨0x18008 + 16 * i, 63, 1⟩
def lkModeWake (i : Nat) : Fd := ⟨0x18008 + 16 * i, 62, 1⟩
def lkModeEvsrc (i : Nat) : Fd := ⟨0x18008 + 16 * i, 48, 10⟩
def lkStatAbandon : Fd := ⟨0x18400, 48, 16⟩
def lkStatForeign : Fd := ⟨0x18400, 32, 16⟩
def lkStatIdlerel : Fd := ⟨0x18400, 16, 16⟩
def lkStatDenied : Fd := ⟨0x18400, 0, 16⟩
def lkPoolUsed : Fd := ⟨0x18408, 0, 13⟩
def lkAbandValid : Fd := ⟨0x18410, 63, 1⟩
def lkAbandIndex : Fd := ⟨0x18410, 0, 12⟩
def spCfgInitdone : Fd := ⟨0x19000, 63, 1⟩
def spCfgKeep : Fd := ⟨0x19000, 0, 1⟩
def spStatCorr : Fd := ⟨0x19008, 48, 16⟩
def spStatUncorr : Fd := ⟨0x19008, 32, 16⟩
def spStatUnmapped : Fd := ⟨0x19008, 16, 16⟩
def spStatSplit : Fd := ⟨0x19008, 0, 16⟩
def spErraddrValid : Fd := ⟨0x19010, 63, 1⟩
def spErraddrAddr : Fd := ⟨0x19010, 0, 40⟩
def spShufEn : Fd := ⟨0x19018, 63, 1⟩
def spShufPeriod : Fd := ⟨0x19018, 0, 16⟩
def spShufstatPasses : Fd := ⟨0x19020, 32, 32⟩
def spShufstatFaults : Fd := ⟨0x19020, 16, 16⟩
def spShufbankStep (i : Nat) : Fd := ⟨0x19100 + 8 * i, 62, 2⟩
def spShufbankRegion (i : Nat) : Fd := ⟨0x19100 + 8 * i, 48, 9⟩
def spShufbankSpareused (i : Nat) : Fd := ⟨0x19100 + 8 * i, 47, 1⟩
def spShufbankSpareregion (i : Nat) : Fd := ⟨0x19100 + 8 * i, 32, 9⟩
def spShufbankHalted (i : Nat) : Fd := ⟨0x19100 + 8 * i, 31, 1⟩
def spShufrepGo (i : Nat) : Fd := ⟨0x19400 + 8 * i, 63, 1⟩
def spShufrepRegion (i : Nat) : Fd := ⟨0x19400 + 8 * i, 0, 9⟩
def dmCfgEn : Fd := ⟨0x1A000, 63, 1⟩
def dmCfgTopo : Fd := ⟨0x1A000, 62, 1⟩
def dmCfgDens : Fd := ⟨0x1A000, 56, 2⟩
def dmCfgRate : Fd := ⟨0x1A000, 48, 6⟩
def dmTrcfgTdelta : Fd := ⟨0x1A008, 56, 8⟩
def dmTrcfgPeriod : Fd := ⟨0x1A008, 32, 16⟩
def dmTrcfgRetry : Fd := ⟨0x1A008, 16, 4⟩
def dmTrcfgPer : Fd := ⟨0x1A008, 8, 8⟩
def dmTrcfgStart : Fd := ⟨0x1A008, 0, 8⟩
def dmTrstatState : Fd := ⟨0x1A010, 60, 4⟩
def dmTrstatFailstep : Fd := ⟨0x1A010, 48, 8⟩
def dmTrstatLastlen : Fd := ⟨0x1A010, 32, 16⟩
def dmTrstatRetrains : Fd := ⟨0x1A010, 0, 32⟩
def dmRefTemp : Fd := ⟨0x1A018, 56, 8⟩
def dmRefMult : Fd := ⟨0x1A018, 54, 2⟩
def dmRefT2 : Fd := ⟨0x1A018, 8, 8⟩
def dmRefT1 : Fd := ⟨0x1A018, 0, 8⟩
def dmScrubEn : Fd := ⟨0x1A020, 63, 1⟩
def dmScrubPasses : Fd := ⟨0x1A020, 32, 16⟩
def dmScrubPeriod : Fd := ⟨0x1A020, 0, 16⟩
def dmEccstatCorr : Fd := ⟨0x1A028, 48, 16⟩
def dmEccstatUncorr : Fd := ⟨0x1A028, 32, 16⟩
def dmEccstatScrubcorr : Fd := ⟨0x1A028, 16, 16⟩
def dmEccstatScrubuncorr : Fd := ⟨0x1A028, 0, 16⟩
def dmErraddrValid : Fd := ⟨0x1A030, 63, 1⟩
def dmErraddrAddr : Fd := ⟨0x1A030, 0, 40⟩
def dmPprExhausted : Fd := ⟨0x1A038, 63, 1⟩
def dmPprSoften : Fd := ⟨0x1A038, 62, 1⟩
def dmPprThresh : Fd := ⟨0x1A038, 52, 4⟩
def dmPprUsed : Fd := ⟨0x1A038, 40, 8⟩
def dmPprBank : Fd := ⟨0x1A038, 36, 4⟩
def dmPprDev : Fd := ⟨0x1A038, 35, 1⟩
def dmPprRow : Fd := ⟨0x1A038, 0, 18⟩
def dmTrstepOp (i : Nat) : Fd := ⟨0x1A800 + 8 * i, 56, 8⟩
def dmTrstepA (i : Nat) : Fd := ⟨0x1A800 + 8 * i, 48, 8⟩
def dmTrstepB (i : Nat) : Fd := ⟨0x1A800 + 8 * i, 32, 16⟩
def dmTrstepC (i : Nat) : Fd := ⟨0x1A800 + 8 * i, 0, 32⟩
def ntEpochCur : Fd := ⟨0x1C000, 63, 1⟩
def ntEpochValid1 : Fd := ⟨0x1C000, 62, 1⟩
def ntEpochValid0 : Fd := ⟨0x1C000, 61, 1⟩
def ntEpochOldcnt : Fd := ⟨0x1C000, 0, 32⟩
def ntStatLinkretry : Fd := ⟨0x1C008, 48, 16⟩
def ntStatEpochmis : Fd := ⟨0x1C008, 32, 16⟩
def ntStatSrcref : Fd := ⟨0x1C008, 16, 16⟩
def ntStatTransit : Fd := ⟨0x1C008, 0, 16⟩
def ntUnrtagTag : Fd := ⟨0x1C010, 0, 64⟩
def ntRt0Port15 (i : Nat) : Fd := ⟨0x1C100 + 8 * i, 60, 3⟩
def ntRt0Port14 (i : Nat) : Fd := ⟨0x1C100 + 8 * i, 56, 3⟩
def ntRt0Port13 (i : Nat) : Fd := ⟨0x1C100 + 8 * i, 52, 3⟩
def ntRt0Port12 (i : Nat) : Fd := ⟨0x1C100 + 8 * i, 48, 3⟩
def ntRt0Port11 (i : Nat) : Fd := ⟨0x1C100 + 8 * i, 44, 3⟩
def ntRt0Port10 (i : Nat) : Fd := ⟨0x1C100 + 8 * i, 40, 3⟩
def ntRt0Port9 (i : Nat) : Fd := ⟨0x1C100 + 8 * i, 36, 3⟩
def ntRt0Port8 (i : Nat) : Fd := ⟨0x1C100 + 8 * i, 32, 3⟩
def ntRt0Port7 (i : Nat) : Fd := ⟨0x1C100 + 8 * i, 28, 3⟩
def ntRt0Port6 (i : Nat) : Fd := ⟨0x1C100 + 8 * i, 24, 3⟩
def ntRt0Port5 (i : Nat) : Fd := ⟨0x1C100 + 8 * i, 20, 3⟩
def ntRt0Port4 (i : Nat) : Fd := ⟨0x1C100 + 8 * i, 16, 3⟩
def ntRt0Port3 (i : Nat) : Fd := ⟨0x1C100 + 8 * i, 12, 3⟩
def ntRt0Port2 (i : Nat) : Fd := ⟨0x1C100 + 8 * i, 8, 3⟩
def ntRt0Port1 (i : Nat) : Fd := ⟨0x1C100 + 8 * i, 4, 3⟩
def ntRt0Port0 (i : Nat) : Fd := ⟨0x1C100 + 8 * i, 0, 3⟩
def ntRt1Port15 (i : Nat) : Fd := ⟨0x1C140 + 8 * i, 60, 3⟩
def ntRt1Port14 (i : Nat) : Fd := ⟨0x1C140 + 8 * i, 56, 3⟩
def ntRt1Port13 (i : Nat) : Fd := ⟨0x1C140 + 8 * i, 52, 3⟩
def ntRt1Port12 (i : Nat) : Fd := ⟨0x1C140 + 8 * i, 48, 3⟩
def ntRt1Port11 (i : Nat) : Fd := ⟨0x1C140 + 8 * i, 44, 3⟩
def ntRt1Port10 (i : Nat) : Fd := ⟨0x1C140 + 8 * i, 40, 3⟩
def ntRt1Port9 (i : Nat) : Fd := ⟨0x1C140 + 8 * i, 36, 3⟩
def ntRt1Port8 (i : Nat) : Fd := ⟨0x1C140 + 8 * i, 32, 3⟩
def ntRt1Port7 (i : Nat) : Fd := ⟨0x1C140 + 8 * i, 28, 3⟩
def ntRt1Port6 (i : Nat) : Fd := ⟨0x1C140 + 8 * i, 24, 3⟩
def ntRt1Port5 (i : Nat) : Fd := ⟨0x1C140 + 8 * i, 20, 3⟩
def ntRt1Port4 (i : Nat) : Fd := ⟨0x1C140 + 8 * i, 16, 3⟩
def ntRt1Port3 (i : Nat) : Fd := ⟨0x1C140 + 8 * i, 12, 3⟩
def ntRt1Port2 (i : Nat) : Fd := ⟨0x1C140 + 8 * i, 8, 3⟩
def ntRt1Port1 (i : Nat) : Fd := ⟨0x1C140 + 8 * i, 4, 3⟩
def ntRt1Port0 (i : Nat) : Fd := ⟨0x1C140 + 8 * i, 0, 3⟩
def fbPctlEn (i : Nat) : Fd := ⟨0x20000 + 256 * i, 63, 1⟩
def fbPctlCmd (i : Nat) : Fd := ⟨0x20000 + 256 * i, 0, 4⟩
def fbPcfgSleepen (i : Nat) : Fd := ⟨0x20008 + 256 * i, 63, 1⟩
def fbPcfgChkcoord (i : Nat) : Fd := ⟨0x20008 + 256 * i, 62, 1⟩
def fbPcfgChkdig (i : Nat) : Fd := ⟨0x20008 + 256 * i, 61, 1⟩
def fbPcfgErrmax (i : Nat) : Fd := ⟨0x20008 + 256 * i, 48, 8⟩
def fbPcfgIdlet (i : Nat) : Fd := ⟨0x20008 + 256 * i, 32, 16⟩
def fbPcfgReplayt (i : Nat) : Fd := ⟨0x20008 + 256 * i, 0, 16⟩
def fbPstatState (i : Nat) : Fd := ⟨0x20010 + 256 * i, 61, 3⟩
def fbPstatAvail (i : Nat) : Fd := ⟨0x20010 + 256 * i, 60, 1⟩
def fbPstatRetained (i : Nat) : Fd := ⟨0x20010 + 256 * i, 59, 1⟩
def fbPstatUnack (i : Nat) : Fd := ⟨0x20010 + 256 * i, 48, 8⟩
def fbPstatBowfail (i : Nat) : Fd := ⟨0x20010 + 256 * i, 44, 4⟩
def fbPstatEntry (i : Nat) : Fd := ⟨0x20010 + 256 * i, 32, 8⟩
def fbPstatTrans (i : Nat) : Fd := ⟨0x20010 + 256 * i, 0, 32⟩
def fbPeersnSerial (i : Nat) : Fd := ⟨0x20018 + 256 * i, 0, 64⟩
def fbPeerDev (i : Nat) : Fd := ⟨0x20020 + 256 * i, 48, 16⟩
def fbPeerPlane (i : Nat) : Fd := ⟨0x20020 + 256 * i, 44, 4⟩
def fbPeerPort (i : Nat) : Fd := ⟨0x20020 + 256 * i, 40, 4⟩
def fbPeerCap (i : Nat) : Fd := ⟨0x20020 + 256 * i, 0, 32⟩
def fbPeerdigDigest (i : Nat) : Fd := ⟨0x20028 + 256 * i, 0, 64⟩
def fbExpdigDigest (i : Nat) : Fd := ⟨0x20030 + 256 * i, 0, 64⟩
def fbErrFeccorr (i : Nat) : Fd := ⟨0x20038 + 256 * i, 48, 16⟩
def fbErrFecuncorr (i : Nat) : Fd := ⟨0x20038 + 256 * i, 32, 16⟩
def fbErrCrcerr (i : Nat) : Fd := ⟨0x20038 + 256 * i, 16, 16⟩
def fbErrReplay (i : Nat) : Fd := ⟨0x20038 + 256 * i, 0, 16⟩
def fbLossDoubt (i : Nat) : Fd := ⟨0x20040 + 256 * i, 48, 16⟩
def fbLossRerouted (i : Nat) : Fd := ⟨0x20040 + 256 * i, 32, 16⟩
def fbLossRefetch (i : Nat) : Fd := ⟨0x20040 + 256 * i, 16, 16⟩
def fbDoubttagTag (i : Nat) : Fd := ⟨0x20048 + 256 * i, 0, 64⟩
def fbLsmValid (i : Nat) : Fd := ⟨0x20800 + 8 * i, 63, 1⟩
def fbLsmFrom (i : Nat) : Fd := ⟨0x20800 + 8 * i, 60, 3⟩
def fbLsmEvent (i : Nat) : Fd := ⟨0x20800 + 8 * i, 55, 5⟩
def fbLsmTo (i : Nat) : Fd := ⟨0x20800 + 8 * i, 52, 3⟩
def fbLsmActions (i : Nat) : Fd := ⟨0x20800 + 8 * i, 44, 8⟩
def fbLsmTimer (i : Nat) : Fd := ⟨0x20800 + 8 * i, 0, 32⟩
def fbOwndigDigest : Fd := ⟨0x20900, 0, 64⟩
def ccCallRun (i : Nat) : Fd := ⟨0x30000 + 32 * i, 63, 1⟩
def ccCallPriv (i : Nat) : Fd := ⟨0x30000 + 32 * i, 62, 1⟩
def ccCallCmd (i : Nat) : Fd := ⟨0x30000 + 32 * i, 16, 4⟩
def ccCallStart (i : Nat) : Fd := ⟨0x30000 + 32 * i, 0, 16⟩
def ccStatState (i : Nat) : Fd := ⟨0x30008 + 32 * i, 60, 4⟩
def ccStatPriv (i : Nat) : Fd := ⟨0x30008 + 32 * i, 59, 1⟩
def ccStatBank (i : Nat) : Fd := ⟨0x30008 + 32 * i, 58, 1⟩
def ccStatIe (i : Nat) : Fd := ⟨0x30008 + 32 * i, 57, 1⟩
def ccStatPhys (i : Nat) : Fd := ⟨0x30008 + 32 * i, 48, 3⟩
def ccStatIp (i : Nat) : Fd := ⟨0x30008 + 32 * i, 0, 16⟩
def ccCctxCtx (i : Nat) : Fd := ⟨0x30010 + 32 * i, 0, 24⟩
def ccDcauseCause (i : Nat) : Fd := ⟨0x30018 + 32 * i, 0, 64⟩
def ccPhysRewind (i : Nat) : Fd := ⟨0x30100 + 8 * i, 48, 16⟩
def ccPhysServes (i : Nat) : Fd := ⟨0x30100 + 8 * i, 21, 3⟩
def ccPhysRole (i : Nat) : Fd := ⟨0x30100 + 8 * i, 12, 4⟩
def ccPhysCause (i : Nat) : Fd := ⟨0x30100 + 8 * i, 9, 3⟩
def ccPhysCmd (i : Nat) : Fd := ⟨0x30100 + 8 * i, 0, 4⟩
def ccStewRun : Fd := ⟨0x30200, 63, 1⟩
def ccStewRestart : Fd := ⟨0x30200, 0, 16⟩
def ccCntExc : Fd := ⟨0x30208, 48, 16⟩
def ccCntEvents : Fd := ⟨0x30208, 32, 16⟩
def ccCntPsrefuse : Fd := ⟨0x30208, 16, 16⟩
def ccCntStandin : Fd := ⟨0x30208, 8, 8⟩
def ccCntLost : Fd := ⟨0x30208, 0, 8⟩
def dvIdMember : Fd := ⟨0x0, 48, 16⟩
def dvIdStep : Fd := ⟨0x0, 40, 8⟩
def dvIdGrade : Fd := ⟨0x0, 36, 4⟩
def dvIdRecovery : Fd := ⟨0x0, 16, 1⟩
def dvIdVendor : Fd := ⟨0x0, 0, 16⟩
def dvSerialSerial : Fd := ⟨0x8, 0, 64⟩
def svStatStep : Fd := ⟨0x1000, 60, 4⟩
def svStatBank : Fd := ⟨0x1000, 59, 1⟩
def svStatChready : Fd := ⟨0x1000, 32, 16⟩
def svStatChfail : Fd := ⟨0x1000, 16, 16⟩
def mlMstatGen : Fd := ⟨0x2000, 32, 32⟩
def mlMstatValid : Fd := ⟨0x2000, 0, 8⟩
def mlMBytes (i : Nat) : Fd := ⟨0x2100 + 8 * i, 0, 64⟩
def mlMarginThermal : Fd := ⟨0x2300, 10, 2⟩
def mlMarginAging : Fd := ⟨0x2300, 8, 2⟩
def mlMarginDram : Fd := ⟨0x2300, 6, 2⟩
def mlMarginArray : Fd := ⟨0x2300, 4, 2⟩
def mlMarginCaller : Fd := ⟨0x2300, 2, 2⟩
def mlMarginSpares : Fd := ⟨0x2300, 0, 2⟩
def mlLstatNextseq : Fd := ⟨0x2308, 32, 32⟩
def mlLstatFreesec : Fd := ⟨0x2308, 24, 8⟩
def mlLstatFail : Fd := ⟨0x2308, 0, 16⟩
def mlLselDone : Fd := ⟨0x2310, 63, 1⟩
def mlLselFound : Fd := ⟨0x2310, 62, 1⟩
def mlLselSeq : Fd := ⟨0x2310, 0, 32⟩
def mlLbufBytes (i : Nat) : Fd := ⟨0x2400 + 8 * i, 0, 64⟩
def thCfgWarn : Fd := ⟨0x3000, 56, 8⟩
def thCfgLimit : Fd := ⟨0x3000, 48, 8⟩
def thCfgTrip : Fd := ⟨0x3000, 40, 8⟩
def thCfgHyst : Fd := ⟨0x3000, 32, 8⟩
def thCfgPlim : Fd := ⟨0x3000, 0, 16⟩
def thStatMax : Fd := ⟨0x3008, 48, 16⟩
def thStatWarnnow : Fd := ⟨0x3008, 47, 1⟩
def thStatLimitnow : Fd := ⟨0x3008, 46, 1⟩
def thStatTripped : Fd := ⟨0x3008, 45, 1⟩
def thStatAbove90 : Fd := ⟨0x3008, 0, 32⟩
def thGpioEdge15 : Fd := ⟨0x3010, 30, 2⟩
def thGpioEdge14 : Fd := ⟨0x3010, 28, 2⟩
def thGpioEdge13 : Fd := ⟨0x3010, 26, 2⟩
def thGpioEdge12 : Fd := ⟨0x3010, 24, 2⟩
def thGpioEdge11 : Fd := ⟨0x3010, 22, 2⟩
def thGpioEdge10 : Fd := ⟨0x3010, 20, 2⟩
def thGpioEdge9 : Fd := ⟨0x3010, 18, 2⟩
def thGpioEdge8 : Fd := ⟨0x3010, 16, 2⟩
def thGpioEdge7 : Fd := ⟨0x3010, 14, 2⟩
def thGpioEdge6 : Fd := ⟨0x3010, 12, 2⟩
def thGpioEdge5 : Fd := ⟨0x3010, 10, 2⟩
def thGpioEdge4 : Fd := ⟨0x3010, 8, 2⟩
def thGpioEdge3 : Fd := ⟨0x3010, 6, 2⟩
def thGpioEdge2 : Fd := ⟨0x3010, 4, 2⟩
def thGpioEdge1 : Fd := ⟨0x3010, 2, 2⟩
def thGpioEdge0 : Fd := ⟨0x3010, 0, 2⟩
def thRailClk32 : Fd := ⟨0x3018, 22, 1⟩
def thRailRails : Fd := ⟨0x3018, 16, 6⟩
def thRailReg : Fd := ⟨0x3018, 0, 16⟩
def thSensTemp (i : Nat) : Fd := ⟨0x3100 + 8 * i, 0, 16⟩
def thAgeSpine (i : Nat) : Fd := ⟨0x3200 + 8 * i, 48, 12⟩
def thAgeSet3 (i : Nat) : Fd := ⟨0x3200 + 8 * i, 36, 12⟩
def thAgeSet2 (i : Nat) : Fd := ⟨0x3200 + 8 * i, 24, 12⟩
def thAgeSet1 (i : Nat) : Fd := ⟨0x3200 + 8 * i, 12, 12⟩
def thAgeSet0 (i : Nat) : Fd := ⟨0x3200 + 8 * i, 0, 12⟩
def deSrcEn (i : Nat) : Fd := ⟨0x4000 + 8 * i, 63, 1⟩
def deSrcMask (i : Nat) : Fd := ⟨0x4000 + 8 * i, 62, 1⟩
def deSrcClass (i : Nat) : Fd := ⟨0x4000 + 8 * i, 61, 1⟩
def deSrcInflight (i : Nat) : Fd := ⟨0x4000 + 8 * i, 60, 1⟩
def deSrcSvc (i : Nat) : Fd := ⟨0x4000 + 8 * i, 59, 1⟩
def deSrcHost (i : Nat) : Fd := ⟨0x4000 + 8 * i, 58, 1⟩
def deSrcAlert (i : Nat) : Fd := ⟨0x4000 + 8 * i, 57, 1⟩
def deSrcAlertseen (i : Nat) : Fd := ⟨0x4000 + 8 * i, 56, 1⟩
def deSrcInbox (i : Nat) : Fd := ⟨0x4000 + 8 * i, 49, 1⟩
def deSrcVec (i : Nat) : Fd := ⟨0x4000 + 8 * i, 40, 8⟩
def deSrcModiv (i : Nat) : Fd := ⟨0x4000 + 8 * i, 32, 8⟩
def deSrcModleft (i : Nat) : Fd := ⟨0x4000 + 8 * i, 24, 8⟩
def deSrcClear (i : Nat) : Fd := ⟨0x4000 + 8 * i, 8, 1⟩
def deSrcCount (i : Nat) : Fd := ⟨0x4000 + 8 * i, 0, 8⟩
def deStatRefused : Fd := ⟨0x4800, 48, 16⟩
def deStatSaturated : Fd := ⟨0x4800, 32, 16⟩
def deStatBounced : Fd := ⟨0x4800, 16, 16⟩
def deStatBypass : Fd := ⟨0x4800, 0, 16⟩
def deDoorbellCount : Fd := ⟨0x4F00, 24, 8⟩
def deDoorbellSrc : Fd := ⟨0x4F00, 0, 10⟩
def upCtlCmd : Fd := ⟨0x5000, 60, 4⟩
def upCtlObj : Fd := ⟨0x5000, 56, 4⟩
def upCtlBurn : Fd := ⟨0x5000, 55, 1⟩
def upCtlChmask : Fd := ⟨0x5000, 32, 16⟩
def upCtlLen : Fd := ⟨0x5000, 0, 32⟩
def upSrcAddr : Fd := ⟨0x5008, 12, 52⟩
def upStatState : Fd := ⟨0x5010, 60, 4⟩
def upStatReason : Fd := ⟨0x5010, 52, 8⟩
def upStatChdone : Fd := ⟨0x5010, 32, 16⟩
def upStatSvn : Fd := ⟨0x5010, 0, 32⟩

end F

/-! ## Reset values -/

/-- Step words of the released power table, as (index, OP, PNR, A, B) (R597). -/
def powerSeqReset : List (Nat × Nat × Nat × Nat × Nat) := [
  (0, 0x0B, 0, 0, 1000), (1, 0x01, 0, 0, 0), (2, 0x03, 0, 0, 0), (3, 0x05, 0, 0, 0), (4, 0x07, 1, 0, 20),
  (8, 0x08, 0, 0xF, 100), (9, 0x10, 0, 0, 50), (10, 0x06, 0, 0, 0), (11, 0x02, 0, 0, 0), (12, 0x04, 0, 0, 0),
  (16, 0x0B, 0, 0, 2000), (17, 0x01, 0, 0, 0), (18, 0x09, 1, 0, 100),
  (24, 0x0A, 0, 0, 150), (25, 0x02, 0, 0, 0),
  (32, 0x0B, 0, 0, 2000), (33, 0x0C, 0, 0, 200), (34, 0x01, 0, 0, 0), (35, 0x03, 0, 0, 0), (36, 0x05, 0, 0, 0),
  (37, 0x07, 1, 0, 20),
  (40, 0x08, 0, 0xF, 100), (41, 0x10, 0, 0, 50), (42, 0x06, 0, 0, 0), (43, 0x02, 0, 0, 0), (44, 0x0D, 0, 0, 200),
  (45, 0x04, 0, 0, 0),
  (48, 0x0B, 0, 0, 600), (49, 0x0E, 0, 0, 500), (50, 0x03, 0, 0, 0), (51, 0x07, 1, 0, 20),
  (56, 0x08, 0, 0x3, 100), (57, 0x10, 0, 0, 50), (58, 0x04, 0, 0, 0), (59, 0x0F, 0, 0, 1200),
  (64, 0x0B, 0, 0, 100), (65, 0x03, 0, 0, 0), (66, 0x07, 1, 0, 20),
  (72, 0x08, 0, 0x3F, 50), (73, 0x04, 0, 0, 0)]

/-- PWR_SEQi at reset (R597): steps not listed are END. -/
def powerSeqWord (i : Nat) : Nat :=
  match powerSeqReset.find? (fun e => e.1 == i) with
  | some (_, op, pnr, a, b) => op <<< 56 + pnr <<< 55 + a <<< 32 + b
  | none => 0

/-- First steps of the down and up program of each domain at reset (R597). -/
def powerDomReset : List (Nat × Nat) :=
  [(0, 8), (0, 8), (0, 8), (0, 8), (16, 24), (32, 40), (48, 56), (64, 72)]

/-- MHZ and MV of curve points 0 to 5 at reset (R619). -/
def powerCurveReset : List (Nat × Nat) :=
  [(400, 600), (800, 640), (1200, 680), (1600, 730), (1800, 760), (2000, 790)]

/-- Instance of an array of registers at an offset: base, distance, number. -/
def instOf (off base stride count : Nat) : Option Nat :=
  if base ≤ off ∧ (off - base) % stride = 0 ∧ (off - base) / stride < count then some ((off - base) / stride) else none

/-- Reset value of the register of channel k at a BAR0 offset (R660, R663, R665; grade by R2). -/
def chanReset (k off : Nat) : Nat :=
  if off < 0x1000 then
    if off = 0x0 then (if Config.isE20 then 0x0004B01000000000 else 0x0004B02000000000) + k
    else if off = 0x8 then 0x1040460018000000
    else if off = 0x100 then 0x0000001000000000
    else if off = 0x108 then 0x0000008000000100
    else if off = 0x118 then k <<< 16
    else if off = 0x148 then 4
    else if off = 0x180 then 0x0000001008000000
    else 0
  else if off < 0x2000 then
    if off = 0x1000 then 0xC000000000000000
    else if off = 0x1010 then 0x00400032006400C8
    else if off = 0x1018 then (if Config.isE20 then 0x07D0000000000064 else 0x0708000000000064)
    else match instOf off 0x1040 8 8 with
      | some d => let e := powerDomReset.getD d (0, 0); e.1 <<< 16 + e.2
      | none =>
        match instOf off 0x1100 8 16 with
        | some i => if i < 6 then let e := powerCurveReset.getD i (0, 0); 2 ^ 63 + e.1 <<< 32 + e.2 else 0
        | none =>
          match instOf off 0x1400 8 128 with
          | some i => powerSeqWord i
          | none => 0
  else if off < 0x3000 then
    if off = 0x2000 then 1
    else match instOf off 0x2100 8 68 with
      | some n => if n < 64 then 0x3F000000 + n * 0x40000 else 0x3FFC2000
      | none => 0
  else if off < 0x8000 then
    if off = 0x3008 then 0x0000F00000012000
    else if off = 0x5600 then 0x0000064000000021
    else if off = 0x6000 then 0x1000000200001000
    else if off = 0x6010 then 0x0000001010000000
    else if off = 0x6018 then 0x0000000000404010
    else if off = 0x6030 then 0x4000000000010000
    else match instOf off 0x5200 8 128 with
      | some _ => 0xFFFFFFFF
      | none => 0
  else if off < 0x10000 then
    match instOf off 0x8000 32 1024 with
    | some n =>
      if n < 512 then 0xA000000000000020 + (640 * (n / 8) + 32 * (n % 8)) <<< 32
      else if (640 ≤ n ∧ n < 896) ∨ (896 ≤ n ∧ n < 944 ∧ 4 ≤ n % 8) then 0x4000000000000000
      else 0
    | none =>
      match instOf off 0x8010 32 1024 with
      | some _ => 0x3FFF0000
      | none => 0
  else if off < 0x14000 then
    match instOf off 0x10010 64 128 with
    | some _ => 0x0600000000640A00
    | none =>
      match instOf off 0x10020 64 128 with
      | some _ => 0xFFFFFFFFFFFFFFFF
      | none =>
        match instOf off 0x12010 64 128 with
        | some _ => 0x000600000000000A
        | none => 0
  else if off < 0x20000 then
    if off = 0x19018 then 0x80000000000003E8
    else if off = 0x1A000 then 0x0020000000000000
    else if off = 0x1A008 then 0x140003E800038000
    else if off = 0x1A018 then 0x5F55
    else if off = 0x1A020 then 0x8000000000000018
    else if off = 0x1A038 then 0x4040000000000000
    else match instOf off 0x16000 8 64 with
      | some _ => 0xA000000000000000
      | none =>
        match instOf off 0x1C100 8 16 with
        | some _ => 0x7777777777777777
        | none => 0
  else
    if off = 0x30000 then 0x400000000000E000
    else if off = 0x30200 then 0xE000
    else match instOf off 0x20008 0x100 6 with
      | some _ => 0xC0100032000000C8
      | none =>
        match instOf off 0x30008 0x20 4 with
        | some n => n <<< 48
        | none =>
          match instOf off 0x30100 8 5 with
          | some m => if m < 4 then m * 0x200000 else 0xE02000
          | none => 0

/-- Reset value of the register of PF0 at an offset (R662, R664). -/
def devReset (off : Nat) : Nat :=
  if off = 0x0 then (if Config.isE20 then 0x0004B01000000000 else 0x0004B02000000000) + Config.vendor.toNat
  else if off = 0x8 then Config.serial.toNat
  else if off = 0x3000 then (if Config.isE20 then 0x5F676E0300000140 else 0x5F676E030000010E)
  else 0

end Sys2Proof.Machine
end

