-- ==== Sys2Proof/Machine/Ops.lean ====
section
/-! DEFINITION. The named operations over the state: registers, channels, events, memory, hardware queues, context records,
tokens on their way, kills and causes. Every meaning is written over these. -/

namespace Sys2Proof.Machine

/-! ## Registers (R12, R660) -/

/-- Reset value of a register of the channel. -/
def Chan.rst (c : Chan) (off : Nat) : Word := BitVec.ofNat 64 (chanReset c.idx off)

/-- The word a register holds. -/
def Chan.rd (c : Chan) (off : Nat) : Word := tblGet c.regs off (c.rst off)

/-- Writes the whole word a register holds. -/
def Chan.wr (c : Chan) (off : Nat) (w : Word) : Chan := { c with regs := tblPut c.regs off w (c.rst off) }

/-- The value of a field. -/
def Chan.fld (c : Chan) (f : Fd) : Nat := wbits (c.rd f.off) f.lo f.len

/-- Whether a field is not 0. -/
def Chan.flag (c : Chan) (f : Fd) : Bool := c.fld f != 0

/-- Writes a field, modulo its width. -/
def Chan.setFld (c : Chan) (f : Fd) (v : Nat) : Chan := c.wr f.off (setBits (c.rd f.off) f.lo f.len v)

/-- Adds n to a saturating counter (R76, R193, R240 and the like). -/
def Chan.addSat (c : Chan) (f : Fd) (n : Nat) : Chan := c.setFld f (min (2 ^ f.len - 1) (c.fld f + n))

/-- Adds 1 to a counter that wraps (R242, R280). -/
def Chan.wrapInc (c : Chan) (f : Fd) : Chan := c.setFld f (c.fld f + 1)

/-- Adds 1 to a saturating counter. -/
def Chan.inc (c : Chan) (f : Fd) : Chan := c.addSat f 1

/-- Writes v to a field that reads 0, and leaves another value (R70, R434, R453). -/
def Chan.first (c : Chan) (f : Fd) (v : Nat) : Chan := if c.fld f = 0 then c.setFld f v else c

def Dev.rst (off : Nat) : Word := BitVec.ofNat 64 (devReset off)
def Dev.rd (d : Dev) (off : Nat) : Word := tblGet d.regs off (Dev.rst off)
def Dev.wr (d : Dev) (off : Nat) (w : Word) : Dev := { d with regs := tblPut d.regs off w (Dev.rst off) }
def Dev.fld (d : Dev) (f : Fd) : Nat := wbits (d.rd f.off) f.lo f.len
def Dev.flag (d : Dev) (f : Fd) : Bool := d.fld f != 0
def Dev.setFld (d : Dev) (f : Fd) (v : Nat) : Dev := d.wr f.off (setBits (d.rd f.off) f.lo f.len v)
def Dev.addSat (d : Dev) (f : Fd) (n : Nat) : Dev := d.setFld f (min (2 ^ f.len - 1) (d.fld f + n))
def Dev.inc (d : Dev) (f : Fd) : Dev := d.addSat f 1

/-! ## Channels of the device (R13, R14) -/

/-- A channel in its reset form. -/
def Chan.fresh (k : Nat) : Chan := { idx := k }

def State.chan (s : State) (k : Nat) : Chan := tblGet s.chans k (Chan.fresh k)
def State.setChan (s : State) (k : Nat) (c : Chan) : State := { s with chans := tblPut s.chans k c (Chan.fresh k) }

/-- A command of channel k: it reads the device blocks and changes that channel only (R14). -/
def onCh (k : Ch) (s : State) (f : Dev → Chan → Chan) : Host.Outcome State Fault Refusal :=
  .next (s.setChan k.val (f s.dev (s.chan k.val)))

/-- A command of the device blocks. -/
def onDev (s : State) (f : Dev → Dev) : Host.Outcome State Fault Refusal := .next { s with dev := f s.dev }

/-! ## Records held in tables -/

def Chan.caller (c : Chan) (n : Nat) : Caller := tblGet c.callers n { phys := some n }
def Chan.setCaller (c : Chan) (n : Nat) (x : Caller) : Chan :=
  { c with callers := tblPut c.callers n x { phys := some n } }
def Chan.duet (c : Chan) (d : Nat) : Duet := tblGet c.duets d {}
def Chan.setDuet (c : Chan) (d : Nat) (x : Duet) : Chan := { c with duets := tblPut c.duets d x {} }
def Chan.tile (c : Chan) (t : Nat) : TileSt := tblGet c.ms.tiles t {}
def Chan.setTile (c : Chan) (t : Nat) (x : TileSt) : Chan := { c with ms := { c.ms with tiles := tblPut c.ms.tiles t x {} } }
def Chan.port (c : Chan) (p : Nat) : Port := tblGet c.ports p {}
def Chan.setPort (c : Chan) (p : Nat) (x : Port) : Chan := { c with ports := tblPut c.ports p x {} }
def Chan.ring (c : Chan) (r : Nat) : Ring := tblGet c.rings r {}
def Chan.setRing (c : Chan) (r : Nat) (x : Ring) : Chan := { c with rings := tblPut c.rings r x {} }
def Chan.cring (c : Chan) (r : Nat) : CRing := tblGet c.crings r {}
def Chan.setCring (c : Chan) (r : Nat) (x : CRing) : Chan := { c with crings := tblPut c.crings r x {} }
def Chan.loop (c : Chan) (e : Nat) : Option Loop := tblFind c.cu.loops e
def Chan.setLoop (c : Chan) (e : Nat) (x : Loop) : Chan := { c with cu := { c.cu with loops := tblIns c.cu.loops e x } }
def Chan.dropLoop (c : Chan) (e : Nat) : Chan := { c with cu := { c.cu with loops := tblDel c.cu.loops e } }
def Chan.ord (c : Chan) (n : Nat) : Ord := tblGet c.fl.ords n {}
def Chan.setOrd (c : Chan) (n : Nat) (x : Ord) : Chan := { c with fl := { c.fl with ords := tblPut c.fl.ords n x {} } }
def Chan.solo (c : Chan) (q : Nat) : SoloSlot := tblGet c.fl.solo q {}
def Chan.setSolo (c : Chan) (q : Nat) (x : SoloSlot) : Chan := { c with fl := { c.fl with solo := tblPut c.fl.solo q x {} } }
def Chan.lock (c : Chan) (i : Nat) : Lock := tblGet c.locks i {}
def Chan.setLock (c : Chan) (i : Nat) (x : Lock) : Chan := { c with locks := tblPut c.locks i x {} }
def Chan.dom (c : Chan) (d : Nat) : DomSt := tblGet c.pw.doms d {}
def Chan.setDom (c : Chan) (d : Nat) (x : DomSt) : Chan := { c with pw := { c.pw with doms := tblPut c.pw.doms d x {} } }
def Chan.qptr (c : Chan) (q : Nat) : QPtr := tblGet c.qu.ptrs q {}
def Chan.setQptr (c : Chan) (q : Nat) (x : QPtr) : Chan := { c with qu := { c.qu with ptrs := tblPut c.qu.ptrs q x {} } }
def Chan.entry (c : Chan) (t e : Nat) : Option MEntry := tblFind c.ms.entries (t * 1536 + e)
def Chan.setEntry (c : Chan) (t e : Nat) (x : MEntry) : Chan :=
  { c with ms := { c.ms with entries := tblIns c.ms.entries (t * 1536 + e) x } }
def Chan.dropEntry (c : Chan) (t e : Nat) : Chan := { c with ms := { c.ms with entries := tblDel c.ms.entries (t * 1536 + e) } }

/-- Power domain d runs: not gated, clamped, in reset or switched off (R429, R594). -/
def Chan.domUp (c : Chan) (d : Nat) : Bool :=
  !(c.dom d).gated && !(c.dom d).clamped && !(c.dom d).inReset && !(c.dom d).off

/-- The clocks of domain g run, a set or SPINE for the caller cores: it is powered, and the channel is in C0 (R581, R587). -/
def Chan.setRuns (c : Chan) (g : Nat) : Bool := c.domUp g && c.pw.cst == 0

/-- The power domain of the set of a tile (R17, R25). -/
def setOf (t : Nat) : Nat := t / 16

/-- CCLK periods of the channel: CCLK is XCLK / 2 (R9, R581). -/
def Chan.cclk (c : Chan) : Nat := c.xclk / 2

/-! ## Events (R497) -/

/-- Sources whose causes the service firmware records in the ledger: ERROR and REPAIR records (R636). -/
def ledgerSrc (src : Nat) : Bool := [9, 21, 23, 12, 13, 18, 22, 25].contains src

def tileRing : Nat := 27
def tileDram : Nat := 28
def tileCall : Nat := 35
def tileCtx : Nat := 36

/-- Gate tile of a fabric port (R421). -/
def gateTile (p : Nat) : Nat := [23, 40, 61, 2, 55, 8].getD p 0

/-- The shared unit of a tile, as a sender of packets (R421): the tile's number with 64 added. -/
def unitAt (tile : Nat) : Nat := tile + 64

/-- Where the message of a source enters the network (R421, R497). DESIGN CHOICE (log entry 32): the ring engine, the gate tile of a port, the
GDDR7 controller, the caller cores; every other unit sends through the context unit's tile. -/
def evSender (src : Nat) : Nat :=
  if 64 ≤ src ∧ src < 320 then unitAt tileRing
  else if 448 ≤ src ∧ src < 496 then gateTile ((src - 448) / 8)
  else if 20 ≤ src ∧ src ≤ 22 then unitAt tileDram
  else if 24 ≤ src ∧ src ≤ 28 then unitAt tileCall
  else unitAt tileCtx

/-- Raises an event source of the channel (R497): a doorbell message to the event controller, from a tile or unit. -/
def Chan.raise (c : Chan) (src : Nat) (count : Nat := 1) (tile : Nat := evSender src) (tag : Option Nat := none) : Chan :=
  { c with ev := { c.ev with sent := c.ev.sent ++ [{ src := src, count := count, tile := tile }] },
           notes := if ledgerSrc src then c.notes ++ [.source src tag] else c.notes }

/-- Raises a source of the device event controller from this channel (R518). -/
def Chan.raiseDev (c : Chan) (src : Nat) : Chan := { c with devEv := c.devEv ++ [src] }

/-- Raises a source of the device event controller. -/
def Dev.raise (d : Dev) (src : Nat) : Dev := { d with ev := { d.ev with msgs := d.ev.msgs ++ [{ src := src }] } }

/-! ## Memory bytes (R8, R23) -/

/-- What a byte nothing has written reads as: 0 (R349 for the scratchpad; log entry 5 for GDDR7). -/
def memDefault : Byte := 0

def memByte (m : List Host.Cell) (a : Nat) : Byte := tblGet m a memDefault
def memPutByte (m : List Host.Cell) (a : Nat) (b : Byte) : List Host.Cell := tblPut m a b memDefault

/-- n bytes from an address up. -/
def memBytes (m : List Host.Cell) (a : Nat) : Nat → List Byte
  | 0 => []
  | n + 1 => memByte m a :: memBytes m (a + 1) n

/-- Writes bytes from an address up. -/
def memPutBytes (m : List Host.Cell) (a : Nat) : List Byte → List Host.Cell
  | [] => m
  | b :: r => memPutBytes (memPutByte m a b) (a + 1) r

/-- The little-endian value of a list of bytes (R8). -/
def bytesVal : List Byte → Nat
  | [] => 0
  | b :: r => b.toNat + 256 * bytesVal r

/-- The n low bytes of a value, little-endian (R8). -/
def valBytes (v : Nat) : Nat → List Byte
  | 0 => []
  | n + 1 => BitVec.ofNat 8 v :: valBytes (v / 256) n

/-- The canonical form of a memory: addresses strictly rising, no entry equal to what an unlisted byte reads as. -/
def Memory.wf (m : List Host.Cell) : Bool := tblSorted m && m.all (fun e => e.2 != memDefault)

def Chan.rdWord (c : Chan) (a : Nat) : Word := BitVec.ofNat 64 (bytesVal (memBytes c.mem a 8))
/-- A write of a whole word, which clears its poison (R348, R395). -/
def Chan.wrWord (c : Chan) (a : Nat) (w : Word) : Chan :=
  { c with mem := memPutBytes c.mem a (valBytes w.toNat 8), poison := c.poison.filter (fun x => x != a / 8 * 8) }

/-- Whether the 8-byte word of an address is marked poisoned (R348, R395). -/
def Chan.wordPoison (c : Chan) (a : Nat) : Bool := c.poison.contains (a / 8 * 8)

/-- Marks or clears the poison bit of the word of an address. -/
def Chan.setPoison (c : Chan) (a : Nat) (p : Bool) : Chan :=
  { c with poison := if p then (if c.poison.contains (a / 8 * 8) then c.poison else (a / 8 * 8) :: c.poison)
                     else c.poison.filter (fun x => x != a / 8 * 8) }

/-- An instruction word of the program store; every word is all ones after the clearing of R604. -/
def Chan.instr (c : Chan) (ip : Nat) : Word := tblGet c.prog (ip % 2 ^ 16) (BitVec.allOnes 64)
def Chan.setInstr (c : Chan) (ip : Nat) (w : Word) : Chan :=
  { c with prog := tblPut c.prog (ip % 2 ^ 16) w (BitVec.allOnes 64) }

/-- A write through the program store view: the copies, and the callers' instruction buffers (R21, R474). -/
def Chan.putInstr (c : Chan) (ip : Nat) (w : Word) : Chan :=
  let go := fun (e : Nat × Caller) =>
    (e.1, { e.2 with ibuf := e.2.ibuf.map (fun x => if x.1 = ip % 2 ^ 16 then (x.1, w) else x) })
  { c.setInstr ip w with callers := c.callers.map go }

/-! ## Hardware queues (R326 to R332, R340, R341) -/

def Chan.qEn (c : Chan) (q : Nat) : Bool := c.flag (F.quCfgEn q)
def Chan.qDup (c : Chan) (q : Nat) : Bool := c.flag (F.quCfgDup q)
def Chan.qRetain (c : Chan) (q : Nat) : Bool := c.flag (F.quCfgRetain q)
def Chan.qBase (c : Chan) (q : Nat) : Nat := c.fld (F.quCfgBase q)
def Chan.qCap (c : Chan) (q : Nat) : Nat := c.fld (F.quCfgCap q)
/-- Words one item occupies (R329). -/
def Chan.qUnit (c : Chan) (q : Nat) : Nat := if c.qDup q then 2 else 1

def Chan.qWord (c : Chan) (a : Nat) : BitVec 144 := tblGet c.qu.store a 0
def Chan.setQWord (c : Chan) (a : Nat) (w : BitVec 144) : Chan :=
  { c with qu := { c.qu with store := tblPut c.qu.store a w 0 } }

/-- Word number of the item n words after REL. -/
def Chan.qAddr (c : Chan) (q n : Nat) : Nat := c.qBase q + ((c.qptr q).rel + n) % (max 1 (c.qCap q))

/-- The item n items after REL. -/
def Chan.qItem (c : Chan) (q i : Nat) : BitVec 144 := c.qWord (c.qAddr q (i * c.qUnit q))

/-- Items from REL to WR, and items read and not released. -/
def Chan.qHeld (c : Chan) (q : Nat) : Nat := (c.qptr q).held / c.qUnit q
def Chan.qRead (c : Chan) (q : Nat) : Nat := ((c.qptr q).held - (c.qptr q).unread) / c.qUnit q
def Chan.qUnreadItems (c : Chan) (q : Nat) : Nat := (c.qptr q).unread / c.qUnit q

/-- Raises the source of a watermark notice; one below 64 raises nothing (R341). -/
def Chan.qNotice (c : Chan) (q : Nat) : Chan :=
  if 64 ≤ c.fld (F.quWmEvsrc q) then c.raise (c.fld (F.quWmEvsrc q)) else c

/-- HELD or the watermark of a queue has changed: it is compared at the end of this XCLK (R340). -/
def Chan.qMark (c : Chan) (q : Nat) : Chan :=
  if c.qu.touched.contains q then c else { c with qu := { c.qu with touched := c.qu.touched ++ [q] } }

/-- The comparison of HELD with the watermark at the end of an XCLK (R340, R341). -/
def Chan.qCompare (c : Chan) (q : Nat) : Chan :=
  let held := (c.qptr q).held
  if c.flag (F.quWmNow q) = false ∧ c.fld (F.quWmHigh q) ≤ held then
    let c := ((c.setFld (F.quWmNow q) 1).setFld (F.quWmHighseen q) 1).inc (F.quWmCross q)
    if c.flag (F.quWmNrise q) then c.qNotice q else c
  else if c.flag (F.quWmNow q) = true ∧ held < c.fld (F.quWmLow q) ∧ c.fld (F.quWmLow q) < c.fld (F.quWmHigh q) then
    let c := (c.setFld (F.quWmNow q) 0).setFld (F.quWmLowseen q) 1
    if c.flag (F.quWmNfall q) then c.qNotice q else c
  else c

/-- The comparisons of the XCLK that ends (R340). -/
def Chan.qCompareAll (c : Chan) : Chan :=
  { c.qu.touched.foldl (fun c q => c.qCompare q) c with qu := { (c.qu.touched.foldl (fun c q => c.qCompare q) c).qu with touched := [] } }

/-- Pointers with the counts of XCLK n (R335). -/
def QPtr.in_ (p : QPtr) (n : Nat) : QPtr := if p.at_ = some n then p else { p with at_ := some n, pushed := 0, freed := 0, reads := 0 }

/-- The counts of the present XCLK. -/
def Chan.qNow (c : Chan) (q : Nat) : QPtr := (c.qptr q).in_ c.xclk

/-- A push finds room: the queue is enabled, HELD at the start of the XCLK leaves space for an item, and no item has been pushed in it (R327,
R330, R335). -/
def Chan.qRoom (c : Chan) (q : Nat) : Bool :=
  c.qEn q && decide ((c.qNow q).pushed = 0) && decide ((c.qptr q).held + (c.qNow q).freed + c.qUnit q ≤ c.qCap q)

/-- Unread items that a read of this XCLK finds: those that were there at its start (R335). -/
def Chan.qSeenItems (c : Chan) (q : Nat) : Nat := ((c.qptr q).unread - (c.qNow q).pushed) / c.qUnit q

/-- The queue gives an item in this XCLK: it holds one, and none has been read, nor its read position set back, in it (R335). -/
def Chan.qGives (c : Chan) (q : Nat) : Bool := decide (0 < c.qSeenItems q) && decide ((c.qNow q).reads = 0)

/-- Pushes an item, twice with DUP 1 (R329, R330). -/
def Chan.qPush (c : Chan) (q : Nat) (w : BitVec 144) : Chan :=
  let p := c.qNow q
  let u := c.qUnit q
  let cap := max 1 (c.qCap q)
  let c := c.setQWord (c.qBase q + p.wr) w
  let c := if u = 2 then c.setQWord (c.qBase q + (p.wr + 1) % cap) w else c
  (c.setQptr q { p with wr := (p.wr + u) % cap, held := p.held + u, unread := p.unread + u, pushed := p.pushed + u }).qMark q

/-- RD advances by one item (R330). -/
def Chan.qAdvance (c : Chan) (q : Nat) : Chan :=
  let p := c.qNow q
  c.setQptr q { p with unread := p.unread - c.qUnit q, reads := p.reads + 1 }

/-- REL advances by n items; a mark moves with it (R330, R331). -/
def Chan.qRelease (c : Chan) (q n : Nat) : Chan :=
  let p := c.qNow q
  let m := min (n * c.qUnit q) p.held
  let cap := max 1 (c.qCap q)
  (c.setQptr q { p with rel := (p.rel + m) % cap, held := p.held - m, unread := min p.unread (p.held - m),
                        marks := p.marks.map (fun x => x - m), freed := p.freed + m }).qMark q

/-- RD goes back to n items read and not released (R331). -/
def Chan.qRewindTo (c : Chan) (q n : Nat) : Chan :=
  let p := c.qNow q
  c.setQptr q { p with unread := p.held - n * c.qUnit q, reads := p.reads + 1 }

/-- WR, RD and REL go to BASE, nothing is held (R338, R604). -/
def Chan.qEmpty (c : Chan) (q : Nat) : Chan := (c.setQptr q {}).qMark q

/-- What a read finds after parity (R336, R339): the failed halves of the two words. Returns the word read, whether it is
lost in bits [71:0], and whether it is lost at all; a read that fails counts once (R345, R346). -/
def Chan.qParity (c : Chan) (q : Nat) (pf : Parity) : Chan × Bool × Bool :=
  let n := b2n (pf.a0 || pf.a1 || (c.qDup q && (pf.b0 || pf.b1)))
  let c := (c.addSat (F.quStatParerr q) n).addSat F.chQstatParerr n
  let lost0 := pf.a0 && (!c.qDup q || pf.b0)
  let lost1 := pf.a1 && (!c.qDup q || pf.b1)
  let c := if 0 < n ∧ c.qDup q = true ∧ !(lost0 || lost1) then c.inc F.chQstatTwin else c
  (c, lost0, lost0 || lost1)

/-- An event of R339. -/
def Chan.qPoisonEvent (c : Chan) (q : Nat) : Chan :=
  ((c.inc (F.quStatPoison q)).inc F.chQstatPoison).raise 9 (tag := some q)

/-! ## Token and packet words -/

/-- A token as a queue word, with bits [143:136] above it (R325). -/
def tokWord (t : Token) (hi : Nat) : BitVec 144 := BitVec.ofNat 8 hi ++ t.sb ++ t.val ++ t.tag

/-- The token of a queue word (R37). -/
def wordTok (w : BitVec 144) : Token := ⟨w.extractLsb' 128 8, w.extractLsb' 64 64, w.extractLsb' 0 64⟩

def wordHi (w : BitVec 144) : Nat := (w.extractLsb' 136 8).toNat

/-- A firing packet as a queue word (R180). -/
def packetWord (p : FPacket) : BitVec 144 :=
  p.instr ++ p.ctx ++ p.ip ++ p.prio ++ p.row ++ p.way ++ (0 : BitVec 26)

def wordPacket (w : BitVec 144) : FPacket :=
  { instr := w.extractLsb' 80 64, ctx := w.extractLsb' 56 24, ip := w.extractLsb' 40 16, prio := w.extractLsb' 37 3,
    row := w.extractLsb' 31 6, way := w.extractLsb' 26 5 }

/-! ## Home tile and row (R162) -/

/-- Home tile of a context and an instruction. -/
def homeTile (ctx ip : Nat) : Nat :=
  (bitsOf ip 0 6 ^^^ bitsOf ip 6 6 ^^^ bitsOf ip 12 4) ^^^
    (bitsOf ctx 0 6 ^^^ bitsOf ctx 6 6 ^^^ bitsOf ctx 12 6 ^^^ bitsOf ctx 18 6)

/-- Row of a context and an instruction. -/
def homeRow (ctx ip : Nat) : Nat := bitsOf ctx 6 6 ^^^ bitsOf ip 0 6 ^^^ bitsOf ip 10 6

/-! ## Context records (R50 to R56) -/

def Chan.ctx (c : Chan) (id : Nat) : Ctx := tblGet c.cu.tbl id {}

/-- STATE changes in XCLK n. -/
def Ctx.turn (x : Ctx) (n : Nat) (st : CtxSt) : Ctx :=
  { x with st := st, was := if x.chAt = some n then x.was else x.st, chAt := some n }

/-- STATE as a lookup of this XCLK returns it: a change that takes effect in it is not seen (R56). -/
def Chan.seenSt (c : Chan) (id : Nat) : CtxSt := if (c.ctx id).chAt = some c.xclk then (c.ctx id).was else (c.ctx id).st

/-- A context below LIMIT x 4,096 that is LIVE. -/
def Chan.live (c : Chan) (id : Nat) : Bool := (c.ctx id).st == .live

def Chan.setCtx (c : Chan) (id : Nat) (x : Ctx) : Chan := { c with cu := { c.cu with tbl := tblPut c.cu.tbl id x {} } }

/-- The number of identifiers of the table (R57). -/
def Chan.ctxLimit (c : Chan) : Nat := c.fld F.chCtxcfgLimit * 4096

def ctxStCode : CtxSt → Nat
  | .free => 0
  | .live => 1
  | .dead => 2
  | .poisoned => 3

/-- The eight words of a record (R50, R51). -/
def Ctx.words (x : Ctx) : List Word := [
  BitVec.ofNat 64 ((ctxStCode x.st) <<< 60 + x.flow.toNat <<< 54 + x.tempo.toNat <<< 50 + x.priocap.toNat <<< 47
    + x.ring.toNat <<< 39 + x.origin.toNat <<< 37 + x.itwin.toNat <<< 33 + (b2n x.elder) <<< 32 + (b2n x.supv) <<< 31
    + x.slot.toNat <<< 15),
  x.retTag, x.excTag,
  BitVec.ofNat 64 (x.rm.toNat <<< 16 + x.te.toNat <<< 8 + x.flags.toNat),
  BitVec.ofNat 64 x.seq.toNat,
  BitVec.ofNat 64 (x.deadline.toNat <<< 32 + x.cost.toNat),
  BitVec.ofNat 64 (x.mscount.toNat <<< 40 + x.orphans.toNat <<< 32 + x.exccnt.toNat <<< 24),
  x.steward]

/-- The creator's fields of word 0 of a record, and of the template CTXT (R50, R487). -/
def Ctx.ofWord0 (w : Word) : Ctx :=
  { flow := BitVec.ofNat 6 (wbits w 54 6), tempo := BitVec.ofNat 4 (wbits w 50 4), priocap := BitVec.ofNat 3 (wbits w 47 3),
    ring := BitVec.ofNat 8 (wbits w 39 8), origin := BitVec.ofNat 2 (wbits w 37 2), itwin := BitVec.ofNat 4 (wbits w 33 4),
    elder := wbit w 32, supv := wbit w 31, slot := BitVec.ofNat 16 (wbits w 15 16) }

/-- A record read from its words in memory (R681). -/
def Chan.ctxFromMem (c : Chan) (a : Nat) : Ctx :=
  let w3 := c.rdWord (a + 24)
  let w5 := c.rdWord (a + 40)
  let w6 := c.rdWord (a + 48)
  { Ctx.ofWord0 (c.rdWord a) with
    retTag := c.rdWord (a + 8), excTag := c.rdWord (a + 16), rm := BitVec.ofNat 2 (wbits w3 16 2),
    te := BitVec.ofNat 8 (wbits w3 8 7), flags := BitVec.ofNat 8 (wbits w3 0 7),
    seq := BitVec.ofNat 48 (wbits (c.rdWord (a + 32)) 0 48), deadline := BitVec.ofNat 32 (wbits w5 32 32),
    cost := BitVec.ofNat 32 (wbits w5 0 32), mscount := BitVec.ofNat 24 (wbits w6 40 24),
    orphans := BitVec.ofNat 8 (wbits w6 32 8), exccnt := BitVec.ofNat 8 (wbits w6 24 8), steward := c.rdWord (a + 56) }

/-- Address of record n (R50). -/
def Chan.ctxAddr (c : Chan) (id : Nat) : Nat := c.fld F.chCtxbaseBase * 2 ^ 20 + 64 * id

/-- Writes words to memory from an address up. -/
def Chan.wrWords (c : Chan) (a : Nat) : List Word → Chan
  | [] => c
  | w :: r => (c.wrWord a w).wrWords (a + 8) r

def dramBase : Nat := 0x1000000000

/-- Raw address (R394). -/
def rawAddr (a : Nat) : Nat :=
  let o := a - dramBase
  let line := o / 64
  line / 15 * 1024 + line % 15 * 64 + o % 64

/-- The lines that n bytes at a touch. -/
def linesOf (a n : Nat) : List Nat := (List.range ((a + n - 1) / 64 + 1 - a / 64)).map (fun i => (a / 64 + i) * 64)

/-! ## Codewords and check lines (R394 to R396) -/

/-- Block of a data line (R394). -/
def checkBlock (a : Nat) : Nat := rawAddr a / 1024

/-- The poison byte of a line: bit w is the poison bit of its word w (R395). -/
def Chan.poisonByte (c : Chan) (line : Nat) : Byte :=
  BitVec.ofNat 8 (((List.range 8).map (fun w => b2n (c.wordPoison (line + 8 * w)) * 2 ^ w)).foldl (· + ·) 0)

/-- Bytes 4s to 4s + 3 of a check line: the three check symbols of the data line, then its poison byte (R394, R395). -/
def Chan.checkField (c : Chan) (line : Nat) : BitVec 32 :=
  c.poisonByte line ++ Config.checkSyms ((List.range 8).map (fun w => c.rdWord (line + 8 * w))) (c.poisonByte line)

/-- The check line of a block as its data lines stand; bytes 60 to 63 are 0 (R394). -/
def Chan.checkLine (c : Chan) (b : Nat) : BitVec 512 :=
  BitVec.ofNat 512 (((List.range 15).map (fun s =>
    (c.checkField (dramBase + (b * 15 + s) * 64)).toNat * 2 ^ (32 * s))).foldl (· + ·) 0)

/-- Check lines that the cache holds (R396). -/
def checkWays : Nat := 64

/-- Writes a cached check line back (R396). -/
def Chan.storeCheck (c : Chan) (e : Nat × Bool) : Chan :=
  if e.2 then { c with dm := { c.dm with checkMem := tblPut c.dm.checkMem e.1 (c.checkLine e.1) 0 } } else c

/-- The check line of a data line is used, and updated when the line is written: it stands in the cache, which writes the check line back
that it evicts for it (R396), the one least recently used (log entry 46). -/
def Chan.checkUse (c : Chan) (a : Nat) (wr : Bool) : Chan :=
  let b := checkBlock a
  let rest := c.dm.checks.filter (fun e => e.1 != b)
  let l := (b, wr || c.dm.checks.contains (b, true)) :: rest
  let c := (l.drop checkWays).foldl (fun c e => c.storeCheck e) c
  { c with dm := { c.dm with checks := l.take checkWays } }

/-- The check-line cache is drained (R410, R686): its dirty lines are written back. -/
def Chan.drainChecks (c : Chan) : Chan :=
  let c := c.dm.checks.foldl (fun c e => c.storeCheck e) c
  { c with dm := { c.dm with checks := c.dm.checks.map (fun e => (e.1, false)) } }

/-! ## The write buffer (R398) -/

/-- Lines that the write buffer holds. -/
def wbufLines : Nat := 64

/-- A line enters the write buffer; the oldest line leaves a full one for the memory. -/
def Chan.bufLine (c : Chan) (line : Nat) : Chan :=
  if c.dm.wbuf.contains line then c
  else { c with dm := { c.dm with wbuf := (c.dm.wbuf ++ [line]).drop (c.dm.wbuf.length + 1 - wbufLines) } }

/-- n bytes at a have been written: their lines stand in the write buffer, their check lines are up to date (R396, R398). -/
def Chan.dmWrote (c : Chan) (a n : Nat) : Chan := (linesOf a n).foldl (fun c l => (c.bufLine l).checkUse l true) c

/-! ## Context records in the memory -/

/-- The internal port is offered a write of bytes at a (R398): it is carried out in its turn, once the memory takes it (R390, R401, R405). -/
def Chan.portWrite (c : Chan) (a : Nat) (bs : List Byte) : Chan := { c with dm := { c.dm with inq := c.dm.inq ++ [⟨a, bs⟩] } }

/-- Writes a cached record back to the table (R54). -/
def Chan.ctxWriteBack (c : Chan) (id : Nat) : Chan := c.portWrite (c.ctxAddr id) ((c.ctx id).words.flatMap (fun w => valBytes w.toNat 8))

/-- The address of a slot of the free list, which follows the context table (R403). -/
def Chan.freeAddr (c : Chan) (slot : Nat) : Nat := c.ctxAddr c.ctxLimit + 4 * slot

/-- Set of the context cache (R54). -/
def cacheSet (id : Nat) : Nat := bitsOf id 0 8 ^^^ bitsOf id 8 8 ^^^ bitsOf id 16 8

/-- A window of the list holds a firing of the context. -/
def winsHold (ws : List Win) (id : Nat) : Bool := ws.any (fun w => w.firings.any (fun f => f.pkt.ctx.toNat == id))

/-- A context has a firing in an uncommitted window of a duet (R54). -/
def Chan.inWindow (c : Chan) (id : Nat) : Bool := c.duets.any (fun e => winsHold e.2.wins id)

/-- A context has a firing in an uncommitted window, or a packet in a dispatch stage, which the state read there removes before it can enter one
(R66, R185). -/
def Chan.uncommitted (c : Chan) (id : Nat) : Bool :=
  c.inWindow id || c.duets.any (fun e => match e.2.stage with | some st => st.pkt.ctx.toNat == id | none => false)

/-- A change of the context's state is pending (R54): an end of the present XCLK, or the kill of a POISONED context. -/
def Chan.ctxChanging (c : Chan) (id : Nat) : Bool :=
  (c.ctx id).st == .poisoned || c.cu.ends.any (fun e => e.id == id && e.at_ == c.xclk)

/-- The record may not be evicted (R54). -/
def Chan.ctxPinned (c : Chan) (id : Nat) : Bool := (id == 0 && c.live 0) || c.inWindow id || c.ctxChanging id

def Chan.cacheHas (c : Chan) (id : Nat) : Bool := c.cu.cached.any (fun e => e.1 == id)

/-- Records of the set of id. -/
def Chan.cacheWays (c : Chan) (id : Nat) : List (Nat × Bool) := c.cu.cached.filter (fun e => cacheSet e.1 == cacheSet id)

/-- A record can be brought in: its set has a free or an unpinned way (R55). -/
def Chan.cacheCanFill (c : Chan) (id : Nat) : Bool :=
  c.cacheHas id || decide ((c.cacheWays id).length < 16) || (c.cacheWays id).any (fun e => !c.ctxPinned e.1)

/-- Brings a record into the cache or makes it the most recently used; evicts the least recently used record of the set
that is not pinned, with write back when dirty (R54). With every way pinned no record is brought in (R55): a change goes to the table
(log entry 42). -/
def Chan.cacheTouch (c : Chan) (id : Nat) (dirty : Bool) : Chan :=
  match c.cu.cached.find? (fun e => e.1 == id) with
  | some e =>
    { c with cu := { c.cu with cached := (id, e.2 || dirty) :: c.cu.cached.filter (fun x => x.1 != id) } }
  | none =>
    if !c.cacheCanFill id then (if dirty then c.ctxWriteBack id else c)
    else
    let victim := if (c.cacheWays id).length < 16 then none else (c.cacheWays id).reverse.find? (fun e => !c.ctxPinned e.1)
    let c := match victim with
      | some v =>
        let c := if v.2 then c.ctxWriteBack v.1 else c
        { c with cu := { c.cu with cached := c.cu.cached.filter (fun x => x.1 != v.1) } }
      | none => c
    { c with cu := { c.cu with cached := (id, dirty) :: c.cu.cached } }

/-- Changes a record, in the cache (R56). -/
def Chan.ctxUpd (c : Chan) (id : Nat) (f : Ctx → Ctx) : Chan := (c.setCtx id (f (c.ctx id))).cacheTouch id true

/-- Adds n to ORPHANS, saturating (R64). -/
def Chan.orphan (c : Chan) (id : Nat) (n : Nat := 1) : Chan :=
  if (c.ctx id).st = .free then c
  else c.ctxUpd id (fun x => { x with orphans := BitVec.ofNat 8 (min 255 (x.orphans.toNat + n)) })

/-- Counts a cancelled firing (R187). -/
def Chan.cancel (c : Chan) (id : Nat) : Chan := (c.orphan id).inc F.msFirestatCancel

/-- Adds to or takes from MSCOUNT (R51, R176). -/
def Chan.msAdd (c : Chan) (id n : Nat) : Chan :=
  c.ctxUpd id (fun x => { x with mscount := BitVec.ofNat 24 (x.mscount.toNat + n) })
def Chan.msSub (c : Chan) (id n : Nat) : Chan :=
  c.ctxUpd id (fun x => { x with mscount := BitVec.ofNat 24 (x.mscount.toNat - n) })

/-! ## Routing a token (R43, R67, R421, R425, R431, R432) -/

/-- A register as the units act on it in this XCLK: a change made in it acts from the next (R68, R155, R435). -/
def Chan.seen (c : Chan) (off : Nat) : Word :=
  match tblFind c.late off with
  | some (n, w) => if n = c.xclk then w else c.rd off
  | none => c.rd off

/-- Field of a register as the units act on it. -/
def Chan.seenFld (c : Chan) (f : Fd) : Nat := wbits (c.seen f.off) f.lo f.len

/-- The word that the units act on stays for the rest of the XCLK of a write. -/
def Chan.keepSeen (c : Chan) (off : Nat) : Chan := { c with late := tblIns c.late off (c.xclk, c.seen off) }

def Chan.devNo (c : Chan) : Nat := c.seenFld F.chPlaneDev

/-- The epoch that tokens routed in this XCLK are given (R435). -/
def Chan.curEpoch (c : Chan) : Nat := c.seenFld F.ntEpochCur

/-- The shape check of R67: true when the device number is inside the plane. -/
def Chan.inPlane (c : Chan) (dev : Nat) : Bool :=
  if c.seenFld F.chPlaneValid ≠ 0 then
    decide (bitsOf dev 10 6 ≤ c.seenFld F.chPlaneNxm1) && decide (bitsOf dev 5 5 ≤ c.seenFld F.chPlaneNym1)
      && decide (bitsOf dev 0 5 ≤ c.seenFld F.chPlaneNzm1)
  else dev == c.devNo

/-- Entry n of the routing table of copy e: 0 to 63 X, 64 to 95 Y, 96 to 127 Z (R459). -/
def Chan.rtEntry (c : Chan) (e n : Nat) : Nat :=
  wbits (c.rd (0x1C100 + 0x40 * e + 8 * (n / 16))) (4 * (n % 16)) 3

/-- Outcome of route (R431). -/
inductive Route where
  | home
  | port (p : Nat)
  | none
  deriving DecidableEq, Repr

/-- The dimension of a coordinate difference: 0 X, 1 Y, 2 Z, with the table entry; none for the own device. -/
def Chan.routeDim (c : Chan) (dev : Nat) : Option (Nat × Nat) :=
  let own := c.devNo
  if bitsOf dev 10 6 ≠ bitsOf own 10 6 then some (0, bitsOf dev 10 6)
  else if bitsOf dev 5 5 ≠ bitsOf own 5 5 then some (1, 64 + bitsOf dev 5 5)
  else if bitsOf dev 0 5 ≠ bitsOf own 0 5 then some (2, 96 + bitsOf dev 0 5)
  else none

def Chan.epochValid (c : Chan) (e : Nat) : Bool := if e = 0 then c.flag F.ntEpochValid0 else c.flag F.ntEpochValid1

/-- The copy of the tables by which a token of epoch e is routed (R431). -/
def Chan.routeEpoch (c : Chan) (e : Nat) : Nat := if c.epochValid e then e else c.curEpoch

/-- route of R431. -/
def Chan.route (c : Chan) (dev e ap : Nat) : Route :=
  match c.routeDim dev with
  | none => .home
  | some (d, n) =>
    let p := c.rtEntry (c.routeEpoch e) n
    if p / 2 ≠ d ∨ 6 ≤ p then .none
    else if p = ap then .none
    else if (c.port p).avail then .port p else .none

/-- Counts a route that used CUR because its copy was not valid (R431). -/
def Chan.countEpoch (c : Chan) (dev e : Nat) : Chan :=
  match c.routeDim dev with
  | none => c
  | some _ => if c.epochValid e then c else c.inc F.ntStatEpochmis

/-- dl of a token that leaves through port p, having arrived on port ap with dl adl (R432). -/
def Chan.fabricDl (c : Chan) (p ap adl : Nat) : Nat :=
  let own := c.devNo
  let co := if p / 2 = 0 then bitsOf own 10 6 else if p / 2 = 1 then bitsOf own 5 5 else bitsOf own 0 5
  let top := if p / 2 = 0 then c.seenFld F.chPlaneNxm1 else if p / 2 = 1 then c.seenFld F.chPlaneNym1 else c.seenFld F.chPlaneNzm1
  let from_ := if ap < 6 ∧ ap / 2 = p / 2 then adl else 0
  if (p % 2 = 0 ∧ co = top) ∨ (p % 2 = 1 ∧ co = 0) then 1 else from_

/-- Fabric virtual channel of a token (R432). -/
def Chan.fabricVc (c : Chan) (t : Token) (p ap adl : Nat) : Nat := (if tagKind t.tag = 0 then 0 else 2) + c.fabricDl p ap adl

/-- The packet of a token for this device: home tile, ring engine or context unit (R44 to R46, R425). -/
def localPkt (t : Token) (acc : Acc) : NPkt :=
  if tagKind t.tag = 2 then { pay := .tok t, dkind := 2, dtile := tileRing, acc := acc }
  else if tagKind t.tag = 3 then { pay := .tok t, dkind := 4, dtile := tileCtx, acc := acc }
  else { pay := .tok t, dkind := 0, dtile := homeTile (tagCtx t.tag) (tagIp t.tag), acc := acc }

/-- The packet of a token that leaves through port p (R431, R432). -/
def Chan.gatePkt (c : Chan) (t : Token) (p e ap adl : Nat) (acc : Acc) : NPkt :=
  { pay := .tok t, dkind := 3, dtile := gateTile p, epoch := e == 1, fvc := BitVec.ofNat 2 (c.fabricVc t p ap adl),
    ap := BitVec.ofNat 3 ap, acc := acc }

/-- Buffer of a router: input 0 E, 1 W, 2 S, 3 N, 4 L, 5 G, and virtual channel 2 x CLS + DL (R424). -/
def bufKey (r inp vc : Nat) : Nat := (r * 6 + inp) * 4 + vc

def Chan.buf (c : Chan) (k : Nat) : List NPkt := tblGet c.net.bufs k []
def Chan.setBuf (c : Chan) (k : Nat) (l : List NPkt) : Chan := { c with net := { c.net with bufs := tblPut c.net.bufs k l [] } }

/-- Room of an input buffer for n more flits: 4 flits for each virtual channel (R424). -/
def bufFlits (l : List NPkt) : Nat := (l.map (fun p => p.nflit + 1)).foldl (· + ·) 0
def Chan.bufRoom (c : Chan) (k n : Nat) : Bool := decide (bufFlits (c.buf k) + n ≤ 4)

/-- Packets that wait at an L or G port for room in its input buffer: of the shared unit (u), or of the tile (R421). -/
def Chan.offer (c : Chan) (k : Nat) (u : Bool) : List NPkt := tblGet c.net.offers (2 * k + b2n u) []
def Chan.setOffer (c : Chan) (k : Nat) (u : Bool) (l : List NPkt) : Chan :=
  { c with net := { c.net with offers := tblPut c.net.offers (2 * k + b2n u) l [] } }

/-- The next packet may come from side u: the other side offers none, or was the last to enter (R421). -/
def Chan.offerTurn (c : Chan) (k : Nat) (u : Bool) : Bool := (c.offer k (!u)).isEmpty || c.net.unitLast.contains k != u

/-- A packet of side u enters the input buffer. -/
def Chan.enterBuf (c : Chan) (k : Nat) (u : Bool) (p : NPkt) : Chan :=
  let c := c.setBuf k (c.buf k ++ [p])
  let l := c.net.unitLast.filter (fun x => x != k)
  { c with net := { c.net with unitLast := if u then k :: l else l } }

/-- A packet of side u is offered: it enters the buffer, or waits for room and its turn (R421, R424). -/
def Chan.offerPkt (c : Chan) (k : Nat) (u : Bool) (p : NPkt) : Chan :=
  if (c.offer k u).isEmpty && c.offerTurn k u && c.bufRoom k (p.nflit + 1) then c.enterBuf k u p
  else c.setOffer k u (c.offer k u ++ [p])

/-- The packets on offer that fit enter the buffer, from the two sides in turn; n bounds how many. -/
def Chan.refill (c : Chan) (k : Nat) : Nat → Chan
  | 0 => c
  | n + 1 =>
    let u := !(c.offer k true).isEmpty && c.offerTurn k true
    match c.offer k u with
    | [] => c
    | p :: r => if c.bufRoom k (p.nflit + 1) then ((c.setOffer k u r).enterBuf k u p).refill k n else c

/-- The head packet of an input buffer leaves it, and what is on offer there follows. -/
def Chan.popBuf (c : Chan) (k : Nat) : Chan := (c.setBuf k ((c.buf k).drop 1)).refill k 4

/-- A packet is offered to the L port of a tile, with DL 0 (R424): src is the tile, or its shared unit. -/
def Chan.inject (c : Chan) (src : Nat) (p : NPkt) : Chan :=
  c.offerPkt (bufKey (src % 64) 4 (2 * b2n p.cls)) (decide (64 ≤ src)) p

/-- Takes back one raise of a source of this XCLK. -/
def Chan.unsay (c : Chan) (src : Nat) : Chan :=
  match c.ev.sent.reverse.findIdx? (fun m => m.src == src) with
  | some i => { c with ev := { c.ev with sent := (c.ev.sent.reverse.eraseIdx i).reverse } }
  | none => c

/-- The packet of a raise (R497): DKIND 5, to the event controller's tile. -/
def evPkt (m : EvMsg) : NPkt := { pay := .event m, dkind := 5, dtile := tileCall }

/-- The raises of the XCLK that ends enter the network. -/
def Chan.sendEvents (c : Chan) : Chan :=
  c.ev.sent.foldl (fun c m => c.inject m.tile (evPkt m)) { c with ev := { c.ev with sent := [] } }

/-- The packet delivered at a tile for a unit (R423). -/
def Chan.arrived (c : Chan) (tile dkind : Nat) : Option NPkt := tblFind c.net.arrive (tile * 8 + dkind)
def Chan.takeArrived (c : Chan) (tile dkind : Nat) : Chan :=
  { c with net := { c.net with arrive := tblDel c.net.arrive (tile * 8 + dkind) } }

/-- A packet of n flits of a sender can enter the L buffer at once (R421, R424). -/
def Chan.injectRoom (c : Chan) (src : Nat) (cls : Bool) (n : Nat) : Bool :=
  let k := bufKey (src % 64) 4 (2 * b2n cls)
  let u := decide (64 ≤ src)
  (c.offer k u).isEmpty && c.offerTurn k u && c.bufRoom k n

/-! ## Tokens the device sends by itself (R62, R69, R111, R683) -/

/-- Sends a token of this channel's own making, already checked: through the L port of the context unit's tile (log entry
6). -/
def Chan.sendRaw (c : Chan) (t : Token) (r : Route) (cls : Bool := false) (acc : Acc := .none) (tile : Nat := unitAt tileCtx) : Chan :=
  match r with
  | .home => c.inject tile { localPkt t acc with cls := cls }
  | .port p => c.inject tile { c.gatePkt t p (c.curEpoch) 7 0 acc with cls := cls }
  | .none => c

/-- DETAIL of causes 0x22 and 0x2B (R69, R433). -/
def reachDetail (t : Token) : BitVec 32 := BitVec.ofNat 32 ((tagIp t.tag) <<< 16 + tagDev t.tag)

/-- The exception token of a context (R69). -/
def excToken (x : Ctx) (cause ip : Nat) (detail : BitVec 32) : Token :=
  ⟨mkSb 1 false, BitVec.ofNat 64 (cause <<< 56 + (ip % 2 ^ 16) <<< 32 + detail.toNat), setBits x.excTag 0 3 1⟩

/-- A cause of a token check: 0x22 outside the plane, 0x2B no route; none for a token that may leave (R67, R433). -/
def Chan.reach (c : Chan) (t : Token) : Option Nat :=
  if !c.inPlane (tagDev t.tag) then some 0x22
  else if c.route (tagDev t.tag) (c.curEpoch) 7 = .none then some 0x2B
  else none

/-- Counts a refused token (R67, R433), and a route that found none by the current copy (R431). -/
def Chan.countReach (c : Chan) (t : Token) (cause : Nat) : Chan :=
  if cause = 0x22 then c.inc F.chTokstatUnreach
  else (c.countEpoch (tagDev t.tag) (c.curEpoch)).inc F.ntStatSrcref

/-- Sends a token to wherever its tag leads, with no cause when it cannot. DESIGN CHOICE (log entry 49): R67 and R683 do not list the exception
token of R69; one that may not leave is held back and counted as theirs are. -/
def Chan.sendDev (c : Chan) (t : Token) : Chan :=
  match c.reach t with
  | none => (c.sendRaw t (c.route (tagDev t.tag) (c.curEpoch) 7)).countEpoch (tagDev t.tag) (c.curEpoch)
  | some cause => c.countReach t cause

/-- Adds 1 to EXCCNT, saturating (R69). -/
def Chan.excCount (c : Chan) (id : Nat) : Chan :=
  c.ctxUpd id (fun x => { x with exccnt := BitVec.ofNat 8 (min 255 (x.exccnt.toNat + 1)) })

/-! ## Occupancy of the matching store (R176, R177) -/

/-- MS_OCC.TOTAL: entries in use. -/
def Chan.occ (c : Chan) : Nat := c.ms.entries.length

/-- MS_OCC.TOTAL has changed: it is compared at the end of this XCLK (R177, R296). -/
def Chan.msMoved (c : Chan) : Chan := { c with ms := { c.ms with moved := true } }

/-- The watermark at the end of an XCLK in which TOTAL has changed (R177, R191, R296): one crossed and recrossed within it changes nothing.
DESIGN CHOICE (log entry 49): after a write of MS_WM, NOW moves with the next allocation or free. -/
def Chan.msMark (c : Chan) : Chan :=
  if c.flag F.msWmstatNow = false ∧ c.fld F.msWmHigh ≤ c.occ then
    (((c.setFld F.msWmstatNow 1).setFld F.msWmstatHighseen 1).inc F.msWmstatCross).raise 11
  else if c.flag F.msWmstatNow = true ∧ c.occ < c.fld F.msWmLow ∧ c.fld F.msWmLow < c.fld F.msWmHigh then
    (c.setFld F.msWmstatNow 0).setFld F.msWmstatLowseen 1
  else c

/-- Entry number of a row and way (R164). -/
def entryNo (row way : Nat) : Nat := row * 24 + way

/-- Entries a key occupies: two with an extension entry (R166). -/
def MEntry.size (x : MEntry) : Nat := if x.xway = 31 then 1 else 2

/-- Takes a primary entry and its extension entry off the bank, in one XCLK (R166). -/
def Chan.dropKey (c : Chan) (t e : Nat) : Chan :=
  match c.entry t e with
  | none => c
  | some x =>
    let c := c.dropEntry t e
    let c := if x.xway = 31 then c else c.dropEntry t (entryNo (e / 24) x.xway.toNat)
    c.msMoved

/-- Frees a key: its entries, and their part of MSCOUNT (R51, R176). -/
def Chan.freeKey (c : Chan) (t e : Nat) : Chan :=
  match c.entry t e with
  | none => c
  | some x => (c.dropKey t e).msSub x.ctx.toNat x.size

/-- The parked firings of a context leave the waiting pool and count as orphans (R259, R187). -/
def Chan.dropParked (c : Chan) (id : Nat) : Chan :=
  let gone := c.ms.pool.filter (fun p => p.ctx.toNat == id)
  let c := { c with ms := { c.ms with pool := c.ms.pool.filter (fun p => p.ctx.toNat != id) } }
  gone.foldl (fun c p => (c.freeKey p.tile (entryNo p.row.toNat p.way.toNat)).cancel id) c

/-- A context leaves LIVE for DEAD or POISONED: its record, its loop's LIVE (R62, R111), its parked firings (R259), its
deadline (R273). -/
def Chan.leaveLive (c : Chan) (now : Nat) (id : Nat) (st : CtxSt) : Chan :=
  let lp := (c.ctx id).loop
  let c := (c.ctxUpd id (fun x => { x.turn now st with diedAt := now, swept := false })).dropParked id
  let c := { c with fl := { c.fl with lists := (c.fl.lists.map (fun e => (e.1, e.2.filter (fun i => i.2 != .ctx (BitVec.ofNat 24 id))))).filter
                                                 (fun e => !e.2.isEmpty) } }
  match lp with
  | none => c
  | some e =>
    match c.loop e with
    | none => c
    | some l => c.setLoop e { l with live := l.live - 1 }

/-- Skips the HELD positions of a context in every order queue (R253). -/
def Chan.skipPositions (c : Chan) (id : Nat) : Chan :=
  c.fl.ords.foldl (fun c e =>
    (List.range (c.qHeld (768 + e.1))).foldl (fun c i =>
      let w := c.qItem (768 + e.1) i
      if (w.extractLsb' 120 24).toNat = id ∧ w.extractLsb' 102 2 = 0 then
        let w' := (w &&& ~~~((3 : BitVec 144) <<< 102)) ||| ((2 : BitVec 144) <<< 102)
        let a := i * 2
        (c.setQWord (c.qAddr (768 + e.1) a) w').setQWord (c.qAddr (768 + e.1) (a + 1)) w'
      else c) c) c

/-- A context ends: DEAD, its sweep due (R60, R62). -/
def Chan.die (c : Chan) (now : Nat) (id : Nat) : Chan := (c.leaveLive now id .dead).skipPositions id

/-- Raises a cause in a context, LIVE or not (R69, R684). With no handler, a LIVE context other than 0 is killed with
status 0xE0; the status word follows `kill` below. -/
def Chan.raiseNoKill (c : Chan) (id cause ip : Nat) (detail : BitVec 32) : Chan × Bool :=
  if c.ctxLimit ≤ id ∨ (c.ctx id).st = .free then (c, false)
  else
    let c := c.excCount id
    if (c.ctx id).excTag = noTag then (c.raise 10, c.live id && id != 0)
    else (c.sendDev (excToken (c.ctx id) cause ip detail), false)

/-- A token as the device emits it (R39, R47): SIDEBAND [2:0] is 0, and KIND and TYPE are none of the reserved values. The free
value of a word that both twins have lost (R339) is one of the values that are not: the high bit of a reserved one reads 0. -/
def tokEmitted (t : Token) : Token :=
  ⟨mkSb (sbType t.sb % 8) (sbPoison t.sb), t.val, setBits t.tag 0 3 (tagKind t.tag % 4)⟩

/-- A tag of a reserved KIND, which the device never emits (R47). -/
def badKind (tag : Word) : Bool := decide (4 ≤ tagKind tag)

/-- Records an end of this XCLK (R63). -/
def Chan.noteEnd (c : Chan) (e : Ended) : Chan :=
  { c with cu := { c.cu with ends := e :: c.cu.ends.filter (fun x => x.at_ == c.xclk && x.id != e.id) } }

/-- The status word of a kill. -/
def Chan.statusWord (c : Chan) (id status : Nat) (p : Bool) : Token := ⟨mkSb 1 p, BitVec.ofNat 64 status, (c.ctx id).retTag⟩

/-- The status word of a kill goes to RET_TAG: a direct push into the completion queue for a context of the ring engine
(R551), else a token that R67 and R433 check (R62, R683). A RET_TAG of a reserved KIND receives nothing (R47; log entry 43). The context
is already DEAD. -/
def Chan.sendStatus (c : Chan) (id : Nat) (status ip : Nat) (p : Bool) : Chan :=
  let x := c.ctx id
  let t := c.statusWord id status p
  if x.origin = 0 then
    let r := tagIp x.retTag % 128
    if c.qRoom (640 + r) ∧ (c.cring r).waitPush = [] then c.qPush (640 + r) (tokWord t 1)
    else c.setCring r { c.cring r with waitPush := (c.cring r).waitPush ++ [tokWord t 1] }
  else if badKind t.tag then c
  else
    match c.reach t with
    | none => c.sendDev t
    | some cause => ((c.countReach t cause).raiseNoKill id cause ip (reachDetail t)).1

/-- An output of a releasing firing is accepted: its position's outputs are one fewer (R254). -/
def Chan.acceptOrd (c : Chan) (a : Acc) : Chan :=
  match a with
  | .ord n seq =>
    let o := c.ord n
    c.setOrd n { o with unacc := tblPut o.unacc seq.toNat (tblGet o.unacc seq.toNat 0 - 1) 0 }
  | _ => c

/-- Changes the packets of the context unit that wait at its L port or in its buffer. -/
def Chan.mapSent (c : Chan) (f : List NPkt → List NPkt) : Chan :=
  let k := bufKey tileCtx 4 0
  (c.setOffer k true (f (c.offer k true))).setBuf k (f (c.buf k))

/-- Puts a word in the place of one that has not left for its destination: in the L buffer of the context unit's tile, or in a completion
queue and before it. -/
def Chan.swapWord (c : Chan) (a b : Token) : Chan :=
  let r := tagIp a.tag % 128
  let c := c.mapSent (List.map (fun p => if p.pay = .tok a then { p with pay := .tok b } else p))
  let c := (List.range (c.qUnreadItems (640 + r) * c.qUnit (640 + r))).foldl (fun c i =>
    let w := c.qAddr (640 + r) ((c.qptr (640 + r)).held - (c.qptr (640 + r)).unread + i)
    if c.qWord w = tokWord a 1 then c.setQWord w (tokWord b 1) else c) c
  c.setCring r { c.cring r with waitPush := (c.cring r).waitPush.map (fun w => if w = tokWord a 1 then tokWord b 1 else w) }

/-- A kill wins over the end e that took effect in the same XCLK (R63): only its status word is sent. Over a CTXEND it withdraws the
operand, over a kill the other status word. -/
def Chan.overEnd (c : Chan) (e : Ended) (status ip rank : Nat) (p : Bool) : Chan :=
  let t := c.statusWord e.id status p
  let c := if e.rank.isNone then
      ((c.mapSent (List.filter (fun x => x.pay != .tok e.word))).acceptOrd e.acc).sendStatus e.id status ip p
    else c.swapWord e.word t
  c.noteEnd { e with rank := some rank, word := t, acc := .none }

/-- A kill while the stall monitor's FIRED is 1 comes into the report of the stall (R312, R636). -/
def Chan.noteKill (c : Chan) (id : Nat) : Chan :=
  if c.flag F.pgStallFired then { c with ms := { c.ms with stallKills := id :: c.ms.stallKills } } else c

/-- A kill of a LIVE context other than 0, with a status (R62). Of two ends in one XCLK a kill wins over a CTXEND, and of two kills the
one of the lower rank (R63): the tile of the killing firing, 64 for a control token; log entry 44 gives the others. -/
def Chan.killCtx (c : Chan) (now : Nat) (id status : Nat) (p : Bool := false) (ip : Nat := 0) (rank : Nat := 65) : Chan :=
  if c.live id ∧ id ≠ 0 then
    ((c.noteKill id).die now id |>.sendStatus id status ip p).noteEnd
      { id := id, at_ := now, rank := some rank, word := c.statusWord id status p }
  else match c.cu.ends.find? (fun e => e.id == id && e.at_ == now) with
    | some e => if e.rank.all (fun r => decide (rank < r)) then c.overEnd e status ip rank p else c
    | none => c

/-- A cause that is counted where it is raised: 0x28 (R352). -/
def Chan.countCause (c : Chan) (cause : Nat) : Chan := if cause = 0x28 then c.inc F.spStatUnmapped else c

/-- Raises a cause in a context (R69, R682, R684). -/
def Chan.cause (c : Chan) (now : Nat) (id cause ip : Nat) (detail : BitVec 32) : Chan :=
  match c.raiseNoKill id cause ip detail with
  | (c, true) => c.killCtx now id 0xE0
  | (c, false) => c

/-- An uncorrectable error in what a context holds: source 9, and a LIVE context becomes POISONED and is killed with status
0xE1, which makes it DEAD in the XCLK after the next edge (log entry 45); for context 0 the entry counts as an orphan only (R71, R682). -/
def Chan.poisonCtx (c : Chan) (now : Nat) (id : Nat) : Chan :=
  if !c.live id then c.raise 9 (tag := some (2 ^ 16 + id))
  else
    let c := c.raise 9 (tag := some (2 ^ 16 + id))
    if id = 0 then c.orphan 0
    else (((c.leaveLive now id .poisoned).skipPositions id).sendStatus id 0xE1 0 false).noteEnd
      { id := id, at_ := now, rank := some 0, word := c.statusWord id 0xE1 false }

/-- The automatic kill of POISONED contexts that left LIVE before XCLK n has made them DEAD (R71; log entry 45). -/
def Chan.settlePoison (c : Chan) (n : Nat) : Chan :=
  ((c.cu.tbl.filter (fun e => e.2.st == .poisoned && decide (e.2.diedAt < n))).map (·.1)).foldl
    (fun c id => c.ctxUpd id (fun x => x.turn n .dead)) c

/-- Sends a token to a tag held for a context, which R67 and R433 check (R683); the cause goes to context who with IP. A tag of a reserved
KIND receives nothing (R47; log entry 43). -/
def Chan.sendHeld (c : Chan) (now : Nat) (t : Token) (who ip : Nat) : Chan :=
  if badKind t.tag then c
  else match c.reach t with
  | none => c.sendDev t
  | some cause => (c.countReach t cause).cause now who cause ip (reachDetail t)

/-! ## Requests -/

/-- The party a request answers is alive: its context is LIVE with the same SEQ, or the caller has not been reset. -/
def Chan.whoLive (c : Chan) (w : Who) : Bool :=
  match w with
  | .ctx id seq => c.live id.toNat && (c.ctx id.toNat).seq == seq
  | .caller n gen => (c.caller n).gen == gen

/-- Answers a request from a tile or its shared unit: result tokens as class B packets, or a caller's result, which takes 2 flits (R114, R422,
R424; log entry 21). The results are R84's tokens, checked as any token of the channel. -/
def Chan.reply (c : Chan) (tile : Nat) (r : Reply) (o0 o1 : Opd) (acc : Acc := .none) : Chan :=
  match r with
  | .tags t0 t1 =>
    let one := fun (c : Chan) (t : Option Word) (o : Opd) (a : Acc) =>
      match t with
      | none => c
      | some tag => c.inject tile { localPkt ⟨o.sb, o.val, tag⟩ a with cls := true }
    one (one c t0 o0 acc) t1 o1 (if t0.isSome then .none else acc)
  | .regs n gen id => c.inject tile { pay := .result n gen id o0 o1, cls := true, dkind := 5, dtile := tileCall, nflit := 1, acc := acc }

/-- A request of a caller that ended in a cause has no result to come (R473, R481). -/
def Caller.dropReq (x : Caller) (r : Reply) : Caller :=
  match r with
  | .tags _ _ => x
  | .regs _ _ id =>
    { x with reqs := x.reqs.filter (fun q => q.id != id),
             wins := x.wins.map (fun w => { w with ckpt := w.ckpt.map (fun k => { k with reqs := k.reqs.filter (fun q => q.id != id) }) }) }

/-- Raises a cause at a unit for the maker of a request: in its context, or as the caller's exception (R89, R481). -/
def Chan.causeFor (c : Chan) (now : Nat) (r : Req) (cause : Nat) (detail : BitVec 32) : Chan :=
  match r.who with
  | .ctx id _ => c.cause now id.toNat cause r.ip.toNat detail
  | .caller n gen =>
    let x := (c.caller n).dropReq r.reply
    if x.gen = gen then
      c.setCaller n { x with exc := x.exc ++ [{ cause := BitVec.ofNat 8 cause, detail := detail, ip := r.ip, late := true }] }
    else c

end Sys2Proof.Machine
end

