-- ==== Sys2Proof/Machine/Gates.lean ====
section
/-! DEFINITION. The fabric's view of a token's acceptance: credits to return, frames to acknowledge, and tokens of the old epoch
(R435, R436, R439 to R442). -/

namespace Sys2Proof.Machine

/-- Receive and transmit queues of a port (R323). -/
def rxQueue (p j : Nat) : Nat := 896 + 8 * p + j
def txQueue (p j : Nat) : Nat := 900 + 8 * p + j
def isRxQueue (q : Nat) : Bool := decide (896 ≤ q) && decide (q < 944) && decide (q % 8 < 4)

/-- Fields of a fabric queue word above the token (R440). -/
def wordEpoch (w : BitVec 144) : Bool := w.getLsbD 136
def wordPort (w : BitVec 144) : Nat := (w.extractLsb' 137 3).toNat
def wordDl (w : BitVec 144) : Nat := b2n (w.getLsbD 140)
/-- Bits [143:136] of a fabric queue word. -/
def fabricHi (epoch : Bool) (port dl : Nat) : Nat := b2n epoch + 2 * (port % 8) + 16 * (dl % 2)

/-- Tokens that stand in a fabric queue with an epoch other than cur: its unread items. One that has been read from a receive queue has left
for its tile or its gate, where it counts as on its way or in a transmit queue. -/
def Chan.oldInQueue (c : Chan) (cur : Bool) (q : Nat) : Nat :=
  ((List.range (c.qUnreadItems q)).filter (fun i => wordEpoch (c.qItem q (c.qRead q + i)) != cur)).length

/-- A packet on its way to a gate with an epoch other than cur. -/
def oldPkt (cur : Bool) (p : NPkt) : Bool := p.dkind == 3 && p.epoch != cur

/-- NT_EPOCH.OLDCNT (R436). -/
def Chan.oldCnt (c : Chan) : Nat :=
  let cur := c.flag F.ntEpochCur
  ((List.range 48).map (fun i => c.oldInQueue cur (896 + i))).foldl (· + ·) 0
    + ((c.net.bufs ++ c.net.offers).map (fun e => (e.2.filter (oldPkt cur)).length)).foldl (· + ·) 0

/-- Source 496 once OLDCNT has reached 0 after a change of CUR (R436). -/
def Chan.epochCheck (c : Chan) : Chan :=
  if c.net.flip ∧ c.oldCnt = 0 then ({ c with net := { c.net with flip := false } }).raise 496 else c

/-- The oldest frame with a token left on virtual channel j loses one. -/
def takeLeft (j : Nat) : List (BitVec 8 × List Nat) → List (BitVec 8 × List Nat)
  | [] => []
  | (s, l) :: r => if l.getD j 0 = 0 then (s, l) :: takeLeft j r else (s, l.set j (l.getD j 0 - 1)) :: r

/-- Frames whose tokens have all left: the SEQ to acknowledge, and the frames left (R439). -/
def settleFrames (a : BitVec 8) : List (BitVec 8 × List Nat) → BitVec 8 × List (BitVec 8 × List Nat)
  | [] => (a, [])
  | (s, l) :: r => if l.all (fun n => n == 0) then settleFrames s r else (a, (s, l) :: r)

/-- Advances the acknowledgement over the frames whose tokens have all left the receive queues. -/
def Port.settle (x : Port) : Port :=
  { x with rxAck := (settleFrames x.rxAck x.rxFrames).1, rxFrames := (settleFrames x.rxAck x.rxFrames).2 }

/-- A word of receive queue q has been released: a credit to return (R442), and one token fewer of its frame (R439). -/
def Chan.portRelease (c : Chan) (q : Nat) : Chan :=
  let p := (q - 896) / 8
  let j := q % 8
  let x := c.port p
  (c.setPort p (Port.settle { x with
    giveBack := tblPut x.giveBack j (tblGet x.giveBack j 0 + 1) 0, rxFrames := takeLeft j x.rxFrames })).epochCheck

end Sys2Proof.Machine
end

