-- ==== Sys2Proof/Machine/MemMap.lean ====
section
/-! DEFINITION. The channel address space: ranges, banks, and the checks a unit makes on every memory instruction (R23, R24,
R347, R350 to R353, R389, R390, R404). -/

namespace Sys2Proof.Machine

/-- The ranges of R23; hole is every address outside them. -/
inductive Range where
  | scratch | lock | prog | dram | host | setup | hole
  deriving DecidableEq, Repr

/-- DM_TRSTAT.STATE (R413): 0 IDLE, 1 START, 2 READY, 3 RETRAIN, 4 SELFREF, 5 FAILED. -/
def Chan.dmState (c : Chan) : Nat := c.fld F.dmTrstatState

/-- Usable GDDR7 size (R389): 0 while STATE is IDLE, START or FAILED. -/
def dmUsable (dens : Nat) (clam : Bool) : Nat :=
  (match dens with | 0 => 0x78000000 | 1 => 0xB4000000 | 2 => 0xF0000000 | _ => 0) * (if clam then 2 else 1)

def Chan.dramSize (c : Chan) : Nat :=
  if c.dmState = 2 ∨ c.dmState = 3 ∨ c.dmState = 4 then dmUsable (c.fld F.dmCfgDens) (c.flag F.dmCfgTopo) else 0

def scratchSize : Nat := 0x600000
def lockBase : Nat := 0x01000000
def progBase : Nat := 0x02000000
def setupBase : Nat := 0xFF00000000

/-- Range of one byte (R23, R24, R390, R658). -/
def Chan.range (c : Chan) (a : Nat) : Range :=
  if a < scratchSize then .scratch
  else if lockBase ≤ a ∧ a < lockBase + 0x8000 then .lock
  else if progBase ≤ a ∧ a < progBase + 0x80000 then .prog
  else if dramBase ≤ a ∧ a < dramBase + c.dramSize then .dram
  else if 0x8000000000 ≤ a ∧ a < 0xC000000000 then .host
  else if setupBase ≤ a ∧ a < setupBase + 0x40000 then .setup
  else .hole

/-- Bank and row of a scratchpad address (R347). -/
def bankOf (a : Nat) : Nat :=
  let line := bitsOf a 6 17
  let r := line / 64
  bitsOf line 0 6 ^^^ bitsOf r 0 6 ^^^ bitsOf r 6 5
def rowOf (a : Nat) : Nat := bitsOf a 6 17 / 64

/-- An address of the lock range (R369). -/
def isLockAddr (a : Nat) : Bool := decide (lockBase ≤ a) && decide (a < lockBase + 0x8000)

/-! ## The copies of the Shuffle (R365) -/

/-- Where the contents of a region stand (R365, R367). -/
inductive Place where
  | region
  | saved
  | repair
  deriving DecidableEq, Repr

/-- Which of an array's region r, saved copy and repair copy serves the accesses to region r: the saved copy in the test and restore steps and
for the second faulty region, the repair copy for the first (R365, R367). -/
def Shuf.served (x : Shuf) (r : Nat) : Place :=
  if x.spare = some r then .repair
  else if (x.halted ∧ x.haltAt = r) ∨ (2 ≤ x.step.toNat ∧ x.region = r) then .saved
  else .region

/-- Byte i of region r of scratchpad bank b, in its four rows (R347, R364). -/
def regionAddr (b r i : Nat) : Nat :=
  let row := 4 * r + i / 64 % 4
  64 * (64 * row + (b ^^^ row % 64 ^^^ row / 64 % 32)) + i % 64

/-- MODEL. The cells of byte i of the saved copy and of the repair copy of bank b: addresses above the scratchpad that no access reaches. -/
def savedAddr (b i : Nat) : Nat := scratchSize + 512 * b + i
def repairAddr (b i : Nat) : Nat := scratchSize + 512 * b + 256 + i

/-- The cell that holds the byte of an address, and the second cell that a write goes to as well: while a region is copied, its saved copy if
the beat is already copied; while it is restored, the region if the beat is already restored (R365). -/
def Chan.spots (c : Chan) (a : Nat) : Nat × Option Nat :=
  if scratchSize ≤ a then (a, none)
  else
    let b := bankOf a
    let r := rowOf a / 4
    let i := 64 * (rowOf a % 4) + a % 64
    let x := tblGet c.sp.shuf b {}
    let beat := decide (x.region = r) && decide (i / 16 < x.prog)
    match x.served r with
    | .repair => (repairAddr b i, none)
    | .saved => (savedAddr b i, if x.step = 3 ∧ beat = true then some a else none)
    | .region => (a, if x.step = 1 ∧ beat = true then some (savedAddr b i) else none)

/-- The cell that serves a byte. -/
def Chan.spot (c : Chan) (a : Nat) : Nat := (c.spots a).1

/-- The byte that an access reads at an address, and n bytes from it up. -/
def Chan.byteAt (c : Chan) (a : Nat) : Byte := memByte c.mem (c.spot a)
def Chan.bytesAt (c : Chan) (a n : Nat) : List Byte := (List.range n).map (fun i => c.byteAt (a + i))

/-- The word at an aligned address, and the poison of the word of a byte. -/
def Chan.wordAt (c : Chan) (a : Nat) : Word := c.rdWord (c.spot a)
def Chan.poisonAt (c : Chan) (a : Nat) : Bool := c.wordPoison (c.spot a)

/-- Marks or clears the poison of the word of a byte, in each cell that holds it. -/
def Chan.markWord (c : Chan) (a : Nat) (p : Bool) : Chan :=
  match c.spots a with
  | (x, none) => c.setPoison x p
  | (x, some y) => (c.setPoison x p).setPoison y p

/-- Writes the word at an aligned address, in each cell that holds it, which clears its poison. -/
def Chan.putWord (c : Chan) (a : Nat) (w : Word) : Chan :=
  match c.spots a with
  | (x, none) => c.wrWord x w
  | (x, some y) => (c.wrWord x w).wrWord y w

/-- Writes words from an aligned address up. -/
def Chan.putWords (c : Chan) (a : Nat) : List Word → Chan
  | [] => c
  | w :: r => (c.putWord a w).putWords (a + 8) r

/-- Writes bytes from an address up, each in every cell that holds it. -/
def Chan.putBytesAt (c : Chan) (m : List Host.Cell) (a : Nat) : List Byte → List Host.Cell
  | [] => m
  | b :: r =>
    match c.spots a with
    | (x, none) => c.putBytesAt (memPutByte m x b) (a + 1) r
    | (x, some y) => c.putBytesAt (memPutByte (memPutByte m x b) y b) (a + 1) r

/-- n bytes and the poison of their words go from one place to another, both aligned to words. -/
def Chan.moveCells (c : Chan) (a d n : Nat) : Chan :=
  (List.range (n / 8)).foldl (fun c i => c.setPoison (d + 8 * i) (c.wordPoison (a + 8 * i)))
    { c with mem := memPutBytes c.mem d (memBytes c.mem a n) }

/-- Lock word and group of an address (R369). -/
def lockIx (a : Nat) : Nat := (a - lockBase) / 8 % 4096

/-- Structures a party without supervisor rights may not address, as (base, size): context table and free list (R53, R57),
spill buckets and map, host translation table (R403, R404). -/
def Chan.private_ (c : Chan) : List (Nat × Nat) := [
  (c.fld F.chCtxbaseBase * 2 ^ 20, 68 * c.ctxLimit),
  (c.fld F.pgSpillbaseBase * 2 ^ 20, c.fld F.pgSpillcfgSize * (0x1000000 + 0x1000)),
  (c.fld F.chHwtbaseAddr * 2 ^ 20, 0x100000)]

/-- An access of n bytes at a touches a region. -/
def touches (a n : Nat) (g : Nat × Nat) : Bool := decide (a < g.1 + g.2) && decide (g.1 < a + n) && decide (0 < g.2)

/-- What a memory instruction is to the checks of R351. -/
inductive AccKind where
  | load | store | atomic | lock
  deriving DecidableEq, Repr

/-- DETAIL of cause 0x28: address bits [39:8]. -/
def detail28 (a : Nat) : BitVec 32 := BitVec.ofNat 32 (bitsOf a 8 32)
/-- DETAIL of cause 0x29: reason and address bits [27:0]. -/
def detail29 (reason a : Nat) : BitVec 32 := BitVec.ofNat 32 (reason <<< 28 + bitsOf a 0 28)

/-- The access is unmapped in some byte (R24, R42, R53, R352, R404). -/
def Chan.unmapped (c : Chan) (supv : Bool) (a n : Nat) : Bool :=
  c.range a = .hole || c.range (a + n - 1) ≠ c.range a || (!supv && c.range a = .dram && c.private_.any (touches a n))

/-- Reason of cause 0x29, the lowest that holds (R351, R352, R478). -/
def Chan.kindReason (c : Chan) (supv : Bool) (k : AccKind) (a n : Nat) : Option Nat :=
  let g := c.range a
  let al := a % 8 == 0
  let whole := (k = .load || k = .store) && n == 8 && al
  if (k = .atomic ∨ k = .lock) ∧ !al then some 1
  else if k = .atomic ∧ g ≠ .scratch ∧ g ≠ .dram then some 2
  else if g = .lock ∧ !(k = .lock || (k = .load && n == 8 && al)) then some 3
  else if g = .prog ∧ !(whole && !(k = .store && !supv && decide (0xE000 ≤ (a - progBase) / 8))) then some 4
  else if k = .lock ∧ g ≠ .lock then some 5
  else if g = .setup ∧ !supv then some 6
  else if g = .setup ∧ !whole then some 7
  else none

/-- The check of R352: cause and DETAIL of an access that is refused at the unit. -/
def Chan.accessCheck (c : Chan) (supv : Bool) (k : AccKind) (addr : Word) (n : Nat) : Option (Nat × BitVec 32) :=
  let a := addr.toNat
  if 2 ^ 40 ≤ a + n - 1 then some (0x28, detail28 a)
  else if c.unmapped supv a n then some (0x28, detail28 a)
  else match c.kindReason supv k a n with
    | some r => some (0x29, detail29 r a)
    | none => none

/-- An access to the scratchpad whose bytes lie in two lines (R353). -/
def isSplit (a n : Nat) : Bool := decide (a / 64 ≠ (a + n - 1) / 64)

/-! ## The two ports of the GDDR7 controller (R390, R398, R401, R405, R686) -/

/-- Requests the controller can hold (R398). -/
def dmQueue : Nat := 128

/-- MCLK after which a waiting request goes before every other (R401). -/
def dmAge : Nat := 2048

/-- Two accesses touch a line in common (R398). -/
def lineMeet (a n b m : Nat) : Bool := decide (a / 64 ≤ (b + m - 1) / 64) && decide (b / 64 ≤ (a + n - 1) / 64)

/-- An accepted request has waited 2,048 MCLK (R401). -/
def Chan.dmAged (c : Chan) (q : Acpt) : Bool := decide (q.at_ + dmAge ≤ c.dm.mclk)

/-- The memory is in service (R390, R405), and its domain is up. -/
def Chan.dmReady (c : Chan) : Bool := c.dmState == 2 && c.domUp 6

/-- The controller can take a request in this MCLK: the memory is in service and is not to stop, and none was taken yet (R390, R398, R405,
R686). -/
def Chan.dmOpen (c : Chan) : Bool := c.dmState == 2 && c.domUp 6 && !c.dm.stopDue && c.dm.accAt != some c.dm.mclk

/-- The internal port's access can be taken in this MCLK: no request of the network port is offered, and none of those accepted has waited 2,048
MCLK (R398, R401). -/
def Chan.dmPort (c : Chan) : Bool :=
  c.dmOpen && !((c.arrived tileDram 5).isSome && decide (c.dm.acc.length < dmQueue)) && !c.dm.acc.any c.dmAged

/-- A request accepted before, or a write that waits at the internal port, touches a line of n bytes at a (R398). -/
def Chan.dmMeets (c : Chan) (a n : Nat) : Bool :=
  c.dm.acc.any (fun q => lineMeet a n q.req.addr.toNat q.req.size) || c.dm.inq.any (fun w => lineMeet a n w.addr w.bytes.length)

/-- One of the lines has to wait for an access before it (R398). -/
def Chan.dmBlocked (c : Chan) (lines : List Nat) : Bool := lines.any (fun l => c.dmMeets l 64)

/-- The internal port can carry out an access to the lines, of the first rank of R401. -/
def Chan.dmInner (c : Chan) (lines : List Nat) : Bool := c.dmPort && !c.dmBlocked lines

/-- A token of the miss buffer can enter the row compare again: its record has a way to go to (R55), or nothing else holds it (R189). -/
def Chan.missDue (c : Chan) (m : Missed) : Bool :=
  match m.why with
  | .record => c.cacheCanFill (tagCtx m.tok.tag)
  | .shuffle => true
  | .eviction => false

/-- The line of a context's record. -/
def Chan.recordLine (c : Chan) (id : Nat) : Nat := c.ctxAddr id / 64 * 64

/-- A context-cache fill waits for the memory (R401): the next token of a miss buffer needs its record, and no request to the record's line was
accepted before. -/
def Chan.fillWaits (c : Chan) : Bool :=
  c.ms.tiles.any (fun e => match e.2.miss.find? c.missDue with
    | some m => m.why == .record && !c.cacheHas (tagCtx m.tok.tag) && !c.dmBlocked [c.recordLine (tagCtx m.tok.tag)]
    | none => false)

/-- The internal port can carry out a Cut-in access or a walk to the lines: no fill waits (R401). -/
def Chan.dmSecond (c : Chan) (lines : List Nat) : Bool := c.dmInner lines && !c.fillWaits

/-- The internal port takes this MCLK (R398); the memory leaves power-down, and its time without a request starts again (R410). -/
def Chan.dmTouch (c : Chan) : Chan := { c with dm := { c.dm with accAt := some c.dm.mclk, powerDown := false, touched := true } }

/-- A request is taken at a time (R398, R410). -/
def Chan.dmTake (c : Chan) (time : Nat) : Chan :=
  { c with dm := { c.dm with accAt := some c.dm.mclk, powerDown := false, idleSince := time } }

/-! ## The host translation table (R531, R535) -/

def hostBase : Nat := 0x8000000000
def hostSize : Nat := 0x4000000000

/-- Address of translation entry i (R531). -/
def Chan.hwEntryAddr (c : Chan) (i : Nat) : Nat := c.fld F.chHwtbaseAddr * 2 ^ 20 + 8 * i

/-- Translation entry of a channel address (R531). -/
def hwPage (a : Nat) : Nat := (a - hostBase) / 2 ^ 21

/-- The lines that the entries of an access of n bytes at a have to be read from: those that the cache does not hold, of a table in the usable
GDDR7 (R535). -/
def Chan.walkLines (c : Chan) (a n : Nat) : List Nat :=
  ([hwPage a, hwPage (a + n - 1)].filter (fun i =>
    !c.hw.cache.any (fun x => x.1 == i) && c.range (c.hwEntryAddr i) == .dram)).map (fun i => c.hwEntryAddr i / 64 * 64)

/-- The entries of an access of n bytes at a can be had now: from the cache, or from a memory that takes the walk. In RETRAIN and SELFREF the
access is held (R390, R398, R401, R405). -/
def Chan.xlateOpen (c : Chan) (a n : Nat) : Bool :=
  !c.flag F.chHwctlEn || (c.walkLines a n).isEmpty || c.dmSecond (c.walkLines a n)

/-- A walk waits for the memory (R401): that of the access delivered to the host window unit. -/
def Chan.walkWaits (c : Chan) : Bool :=
  match c.arrived tileRing 5 with
  | some { pay := .req r, .. } =>
    c.flag F.chHwctlEn && !(c.walkLines r.addr.toNat r.size).isEmpty && !c.dmBlocked (c.walkLines r.addr.toNat r.size)
  | _ => false

/-- Entry INDEX of the table can be reached: outside the usable GDDR7, or in a memory that takes the access (R390, R398, R405). -/
def Chan.hwtOpen (c : Chan) : Bool :=
  let a := c.hwEntryAddr (c.fld F.chHwtidxIndex)
  c.range a != .dram || c.dmSecond [a / 64 * 64]

end Sys2Proof.Machine
end

