-- ==== Sys2Proof/Machine/Fire.lean ====
section
/-! DEFINITION. How an instruction executes: in a firing of a window, by both units of a duet (R196, R204), and in sequential
mode by a caller (R121 to R124, R473, R481). One meaning per instruction serves both. -/

namespace Sys2Proof.Machine

/-- What an instruction sees: the word, its operands with the immediate in place, its context's fields, and the unit's
sample (R218) and draw (R220). -/
structure In where
  c : Chan
  w : Word
  ip : Nat := 0
  /-- The firing's context, or the caller's own context CC_CCTXn.CTX (R477). -/
  ctx : Nat := 0
  cr : Ctx := {}
  prio : Nat := 0
  supv : Bool := false
  rm : Nat := 0
  l : Opd := {}
  r : Opd := {}
  t : Opd := {}
  smp : Sample := ⟨0, 0, 0, 0, 0⟩
  rnd : Word := 0
  grant : Option Grant := none
  /-- Executed by a caller. -/
  seq : Bool := false

/-- What an instruction computes: the results of DEST0 and DEST1 (RD and RD2), further destinations (FAN), tokens with a
tag of their own, a request, the effects at commit, the flags of lane 0 and lane 1, and a cause with DETAIL. -/
structure Val where
  r0 : Option Opd := none
  r1 : Option Opd := none
  more : List (Nat × Opd) := []
  toks : List Token := []
  req : Option Req := none
  effs : List Eff := []
  f0 : BitVec 8 := 0
  f1 : BitVec 8 := 0
  cause : Option (Nat × BitVec 32) := none

/-- A consumed operand is poisoned (R49). -/
def In.poison (x : In) : Bool := x.l.poison || x.r.poison || x.t.poison

/-- One result to every present destination (R91). -/
def toBoth (o : Opd) : Val := { r0 := some o, r1 := some o }

/-- A result with flags, POISON set when an operand carries it (R48, R49, R84). -/
def In.res (x : In) (ty : Nat) (f : Fl Word) : Val := { toBoth (mkOpd f.val ty x.poison) with f0 := f.flags }

/-- A cause and nothing else (R89). -/
def causeVal (cause : Nat) (detail : BitVec 32) : Val := { cause := some (cause, detail) }

/-- A poisoned operand in a controlling role raises cause 0x21 (R49). -/
def ctl (os : List Opd) (v : Val) : Val := if os.any Opd.poison then causeVal 0x21 0 else v

/-! ## Firings -/

/-- The tag of an output (R84), its PRIO raised under R43. -/
def In.outTag (x : In) (dest ctx : Nat) : Word :=
  raisePrio x.cr.priocap.toNat (mkTag x.c.devNo (dest / 4) ctx (dest % 4) x.prio 0)

/-- The token of a destination field, none for 0x3_FFFF (R79, R84). -/
def In.outTok (x : In) (dest : Nat) (o : Opd) : List Ent :=
  if dest = noDest then [] else [.tok ⟨o.sb, o.val, x.outTag dest x.ctx⟩]

/-- The result tag of a request's destination (R114). -/
def In.replyTag (x : In) (dest : Nat) : Option Word := if dest = noDest then none else some (x.outTag dest x.ctx)

/-- The entries of a firing in the order of R85. -/
def In.entries (x : In) (v : Val) : List Ent :=
  (match v.r0 with | some o => x.outTok (iDest0 x.w) o | none => [])
    ++ (match v.r1 with | some o => x.outTok (iDest1 x.w) o | none => [])
    ++ v.more.flatMap (fun e => x.outTok e.1 e.2)
    ++ v.toks.map .tok
    ++ (match v.req with
        | some q =>
          [.req { q with reply := .tags (x.replyTag (iDest0 x.w)) (x.replyTag (iDest1 x.w)),
                         who := .ctx (BitVec.ofNat 24 x.ctx) x.cr.seq, ip := BitVec.ofNat 16 x.ip, supv := x.supv }]
        | none => [])

/-- What a firing leaves in the commit buffer: a cause leaves nothing else (R89), a trap only its flags (R154). -/
def In.toRes (x : In) (v : Val) : Res :=
  match v.cause with
  | some (k, d) => { cause := some (BitVec.ofNat 8 k, d) }
  | none =>
    let trapped := (v.f0 ||| v.f1) &&& x.cr.te
    let dflt := v.r0.getD {}
    if trapped ≠ 0 then { flags0 := v.f0, flags1 := v.f1, trap := true, result := dflt.val, rpoison := dflt.poison }
    else { ents := x.entries v, flags0 := v.f0, flags1 := v.f1, result := dflt.val, rpoison := dflt.poison, effs := v.effs }

/-- The oldest firing of a list of windows that has not executed: window and firing index. -/
def nextFiring (ws : List Win) : Option (Nat × Nat) :=
  match findIx (fun w => w.firings.any (fun f => f.lead.isNone)) ws with
  | none => none
  | some i =>
    match findIx (fun f : Firing => f.lead.isNone) ((ws.getD i { wseq := 0 }).firings) with
    | none => none
    | some j => some (i, j)

/-- What a firing sees in one unit. -/
def firingIn (c : Chan) (f : Firing) (smp : Sample) (rnd : Word) : In :=
  let x := c.ctx f.pkt.ctx.toNat
  let o := withImm f.pkt.instr f.l f.r f.t
  { c := c, w := f.pkt.instr, ip := f.pkt.ip.toNat, ctx := f.pkt.ctx.toNat, cr := x, prio := f.pkt.prio.toNat,
    supv := x.supv, rm := x.rm.toNat, l := o.1, r := o.2.1, t := o.2.2, smp := smp, rnd := rnd, grant := f.grant }

/-- Executes a started firing in both units (R196). -/
def runFiring (c : Chan) (w : Win) (f : Firing) (rnd : Word) (v : In → Val) : Firing :=
  let xl := firingIn c f w.sl rnd
  let xf := firingIn c f w.sf rnd
  { f with lead := some (xl.toRes (v xl)), follow := some (xf.toRes (v xf)) }

/-- Puts firing g in place j of window i. -/
def putFiring (ws : List Win) (i j : Nat) (g : Firing) : List Win :=
  match ws[i]? with
  | none => ws
  | some w => setNth ws i { w with firings := setNth w.firings j g }

/-- The next firing of a duet executes, when its word satisfies `ok`. -/
def fireDuet (c : Chan) (d : Nat) (rnd : Word) (ok : Word → Bool) (v : In → Val) : Chan :=
  let x := c.duet d
  match nextFiring x.wins with
  | none => c
  | some (i, j) =>
    let w := x.wins.getD i { wseq := 0 }
    match w.firings[j]? with
    | none => c
    | some f =>
      if ok f.pkt.instr then c.setDuet d { x with wins := putFiring x.wins i j (runFiring c w f rnd v) } else c

/-- A firing of instruction op, legal in a firing. -/
def isOp (op : Op) (w : Word) : Bool := (illegalFiring w).isNone && opOf w == some op

/-! ## Sequential mode -/

/-- The active bank of a caller (R480). -/
def Caller.fastBank (x : Caller) : Bool := x.csrs.status.getLsbD 4
def Caller.priv (x : Caller) : Bool := x.csrs.status.getLsbD 2
def Caller.ie (x : Caller) : Bool := x.csrs.status.getLsbD 0

def Caller.bankReg (x : Caller) (fast : Bool) (n : Nat) : Reg :=
  if n = 0 then (0, false) else tblGet (if fast then x.fast else x.normal) n (0, false)

/-- Writes a register of a bank; w0 discards the write (R122, R475). -/
def Caller.setBankReg (x : Caller) (fast : Bool) (n : Nat) (v : Reg) : Caller :=
  if n = 0 then x
  else if fast then { x with fast := tblPut x.fast n v (0, false) }
  else { x with normal := tblPut x.normal n v (0, false) }

def Caller.reg (x : Caller) (n : Nat) : Reg := x.bankReg x.fastBank n
def Caller.setReg (x : Caller) (n : Nat) (v : Reg) : Caller := x.setBankReg x.fastBank n v

/-- Place of a register among those that differ in the Follow. -/
def followKey (fast : Bool) (n : Nat) : Nat := 32 * b2n fast + n

/-- Lead and Follow hold the same value in a register of a bank. -/
def Caller.sameReg (x : Caller) (fast : Bool) (n : Nat) : Caller := { x with follow := tblDel x.follow (followKey fast n) }

/-- A register of the active bank as the Follow holds it (R218, R234). -/
def Caller.followReg (x : Caller) (n : Nat) : Reg :=
  if n = 0 then (0, false) else (tblFind x.follow (followKey x.fastBank n)).getD (x.reg n)

/-- The Follow's result in a register of the active bank that the Lead has written. -/
def Caller.followResult (x : Caller) (n : Nat) (v : Reg) : Caller :=
  if n = 0 ∨ x.reg n = v then x else { x with follow := tblIns x.follow (followKey x.fastBank n) v }

/-- The newest window fails: the two units went different ways in it (R208). -/
def splitNewest (ws : List Win) : List Win :=
  match ws.reverse with
  | [] => []
  | w :: r => r.reverse ++ [{ w with split := true }]

/-- An instruction writes a register of a bank, in both units: an earlier request's result no longer reaches it (R473). -/
def Caller.bankResult (x : Caller) (fast : Bool) (n : Nat) (v : Reg) : Caller :=
  let y := (x.setBankReg fast n v).sameReg fast n
  { y with reqs := y.reqs.map (fun (q : OutReq) => if q.fast != fast then q
      else { q with over1 := q.over1 || q.rd == n, over2 := q.over2 || q.rd2 == some n }) }

/-- A register result of an instruction (R122). -/
def Caller.result (x : Caller) (n : Nat) (v : Reg) : Caller := x.bankResult x.fastBank n v

/-- A register as an operand; a caller register has no TYPE, and reads as TYPE 0. -/
def Caller.opd (x : Caller) (n : Nat) : Opd := mkOpd (x.reg n).1 0 (x.reg n).2
/-- The register as the Follow's operand. -/
def Caller.followOpd (x : Caller) (n : Nat) : Opd := mkOpd (x.followReg n).1 0 (x.followReg n).2

/-- A write to the register is still on its way (R473). -/
def Caller.regBusy (x : Caller) (n : Nat) : Bool :=
  n != 0 && x.reqs.any (fun q => q.fast == x.fastBank && (q.rd == n || q.rd2 == some n))

/-- Registers the instruction at hand reads: the first ARITY - IMMR of RS1 to RS3 (R121). -/
def srcRegs (w : Word) : List Nat := [iRs1 w, iRs2 w, iRs3 w].take (portCount w)

/-- Words of a caller's instruction buffer (R474). -/
def ibufSize : Nat := 64

/-- The buffer after the fetch of a word (R474). DESIGN CHOICE (log entry 10): the word not fetched for longest leaves a full one. -/
def ibufFill (l : List (Nat × Word)) (ip : Nat) (w : Word) : List (Nat × Word) :=
  ((ip, w) :: l.filter (fun e => e.1 != ip)).take ibufSize

/-- The word a caller executes next: from its instruction buffer, or from the copy of set 2 (R474). -/
def Chan.callerWord (c : Chan) (n : Nat) : Word :=
  let ip := (c.caller n).csrs.ip.toNat
  match (c.caller n).ibuf.find? (fun e => e.1 == ip) with
  | some e => e.2
  | none => c.instr ip

/-- The samples of TIME and POLL as they stand (R118, R119). -/
def Chan.sampleNow (dv : Dev) (c : Chan) : Sample :=
  { time := BitVec.ofNat 64 dv.time,
    p0 := BitVec.ofNat 64 dv.gpio.toNat,
    p1 := BitVec.ofNat 64 ((List.range 6).foldl (fun a p => a + b2n ((c.port p).st == 4) * 2 ^ p) 0),
    p2 := BitVec.ofNat 64 (dv.fld (F.thSensTemp c.idx)),
    p3 := BitVec.ofNat 64 c.pw.mhz }

/-- The checkpoint a window opens with (R235). -/
def Caller.ckpt (x : Caller) : Ckpt := { csrs := x.csrs, normal := x.normal, fast := x.fast, reqs := x.reqs }

/-- Windows of a length code (R238). -/
def winLen (len : Nat) : Nat := 16 * 2 ^ len

/-- FAN's extension words (R99). -/
def fanExt (w : Word) : Nat := if opOf w = some .fan ∧ (illegalFiring w).isNone then iImm w % 8 else 0

/-- The largest entry count of a firing (R204). -/
def maxEntries (w : Word) : Nat := 3 + 2 * fanExt w

/-- The firing has an effect entry (R204). DESIGN CHOICE (log entry 54): a firing that raises a cause which is no flag, and leaves nothing else,
has one too. -/
def Res.hasEff (r : Res) : Bool := (r.flags0 ||| r.flags1) != 0 || r.trap || r.cause.isSome || !r.effs.isEmpty

/-- Entries that a firing wrote (R204). -/
def Res.count (r : Res) : Nat := r.ents.length + b2n r.hasEff

/-- Entries of a firing in the commit buffer: those it has written, or while it runs the most it can write (R200, R204). -/
def Firing.entries (f : Firing) : Nat := match f.lead with | some r => r.count | none => maxEntries f.pkt.instr

/-- Entries of a window (R204). -/
def winEntries (w : Win) : Nat := (w.firings.map Firing.entries).foldl (· + ·) 0

/-- Entries of a commit buffer (R204). -/
def cbSize : Nat := 128

/-- Entries in use: committed ones and those of the uncommitted windows. -/
def cbUsed (cb : List CEntry) (ws : List Win) : Nat := cb.length + (ws.map winEntries).foldl (· + ·) 0

/-- The caller's newest window takes one more instruction (R200, R234): its limits and the Idle close are counted in CCLK. -/
def Chan.callerOpen (c : Chan) (w : Win) : Bool :=
  !w.closed && decide (w.firings.length < winLen (c.fld F.lfWinLen)) && decide (winEntries w + 3 ≤ 96)
    && decide (c.cclk < w.openAt / 2 + 256) && decide (c.cclk ≤ w.lastAt / 2 + 2) && w.len.toNat == c.fld F.lfWinLen && w.test == c.flag F.lfCtlTest

/-- Closes the newest window of a list. -/
def closeNewest (ws : List Win) : List Win :=
  match ws.reverse with
  | [] => []
  | w :: r => (r.reverse) ++ [{ w with closed := true }]

/-- Caller n opens a window: in the normal regime its Follow latches a sample of its own (R218, R234). -/
def Chan.openCaller (dv : Dev) (c : Chan) (n : Nat) (x : Caller) : Caller :=
  let ws := x.again.getD (x.wseq + 1)
  let sm := Chan.sampleNow dv c
  let single := x.replay || c.flag F.lfCtlTest
  { x with wseq := ws, again := none,
           wins := x.wins ++ [{ wseq := ws, sl := sm, sf := if single then sm else Config.callerSample c.idx n c.xclk, single := single,
                                len := BitVec.ofNat 2 (c.fld F.lfWinLen), test := c.flag F.lfCtlTest,
                                openAt := c.xclk, lastAt := c.xclk, ckpt := some x.ckpt }] }

/-- The caller with an open window that takes the next instruction; none while two windows are uncommitted, or its commit buffer has no room
(R202, R234), or one of its comparators has failed (R223). -/
def Chan.callerWindow (dv : Dev) (c : Chan) (n : Nat) (x : Caller) : Option Caller :=
  let fresh := Chan.openCaller dv c n
  if cbSize < cbUsed x.cb x.wins + 3 ∨ x.cmpBad = true then none
  else match x.wins.reverse with
  | [] => some (fresh x)
  | w :: _ =>
    if c.callerOpen w then some x
    else if x.wins.length < 2 then some (fresh { x with wins := closeNewest x.wins })
    else none

/-- The caller can execute an instruction that reads the registers named: it runs, with its clock (R581, R587), nothing is due, and they have their
values (R472, R473). -/
def Chan.callerFree (c : Chan) (n : Nat) (srcs : List Nat) : Bool :=
  let x := c.caller n
  x.st == .running && x.exc.isEmpty && !x.halting && !x.retire && x.standIn.isNone && !(srcs.any x.regBusy) && c.setRuns 5

/-- As callerFree, for the registers that ARITY names. -/
def Chan.callerReady (c : Chan) (n : Nat) : Bool := c.callerFree n (srcRegs (c.callerWord n))

/-- The fetch is refused: user privilege in the steward's region (R476). -/
def Chan.fetchDenied (c : Chan) (n : Nat) : Bool :=
  !(c.caller n).priv && decide (0xE000 ≤ (c.caller n).csrs.ip.toNat)

/-- An exception becomes due: the window of the instructions before it closes, the instruction writes nothing but its
flags (R481). -/
def Caller.except (x : Caller) (cause : Nat) (detail : BitVec 32) (eval : Word := 0) (flags : BitVec 8 := 0) : Caller :=
  { x with exc := x.exc ++ [{ cause := BitVec.ofNat 8 cause, detail := detail, ip := x.csrs.ip, eval := eval, flags := flags }],
           wins := closeNewest x.wins }

/-- The samples of Lead and Follow in the window that takes the caller's next instruction (R219). -/
def Chan.callerSamples (dv : Dev) (c : Chan) (n : Nat) : Sample × Sample :=
  match (c.callerWindow dv n (c.caller n)).bind (fun x => x.wins.getLast?) with
  | some w => (w.sl, w.sf)
  | none => (Chan.sampleNow dv c, Chan.sampleNow dv c)

/-- What a caller's instruction sees in the unit with sample smp: the Lead, or the Follow with its own registers (R234). -/
def callerIn (c : Chan) (n : Nat) (rnd : Word) (smp : Sample) (fol : Bool := false) : In :=
  let x := c.caller n
  let w := c.callerWord n
  let g := fun (r : Nat) => if fol then x.followOpd r else x.opd r
  let o := withImm w (g (iRs1 w)) (g (iRs2 w)) (g (iRs3 w))
  { c := c, w := w, ip := x.csrs.ip.toNat, ctx := c.fld (F.ccCctxCtx n), cr := { te := x.csrs.fpcsr.extractLsb' 8 8 },
    supv := x.priv, rm := (x.csrs.fpcsr.extractLsb' 16 2).toNat, l := o.1, r := o.2.1, t := o.2.2, smp := smp, rnd := rnd,
    grant := x.grant, seq := true }

/-- Class of R489 of an address: 0 scratchpad and locks, 1 GDDR7, 2 host window, 3 program store view and setup. -/
def Chan.fenceClass (c : Chan) (a : Nat) : Nat :=
  match c.range a with
  | .scratch | .lock => 0
  | .host => 2
  | .prog | .setup => 3
  | .dram | .hole => 1

/-- Whether a caller issues the request before its window commits: a load (R235). -/
def ReqKind.early : ReqKind → Bool
  | .ld => true
  | .ldLock => true
  | _ => false

/-- The destination of a request on the network: DKIND and tile (R423, R425). -/
def Chan.reqDest (c : Chan) (q : Req) : Nat × Nat :=
  let a := q.addr.toNat
  match q.kind with
  | .qpush n | .qpop n | .qmark n | .qrewind n | .qrelease n => (1, (c.qBase n / 640) % 64)
  | .acq | .tryacq | .rel | .ldLock => (1, lockIx a / 64)
  | _ =>
    match c.range a with
    | .scratch => (1, bankOf a)
    | .lock => (1, lockIx a / 64)
    | .host => (5, tileRing)
    | .prog | .setup => (4, tileCtx)
    | .dram => (5, tileDram)
    | .hole => if a < dramBase then (1, bankOf a) else (5, tileDram)

/-- Flits of a request beyond the first: one per 16 bytes of data (R422; log entry 21). -/
def reqFlits (q : Req) : Nat :=
  match q.kind with
  | .st => if 8 < q.size then 2 else 1
  | .cas => 2
  | .swap | .xadd | .acc | .qpush _ => 1
  | .exc => 2
  | _ => 0

/-- The packet of a request. -/
def Chan.reqPkt (c : Chan) (q : Req) : NPkt :=
  { pay := .req q, dkind := (c.reqDest q).1, dtile := (c.reqDest q).2, nflit := reqFlits q }

/-- What a caller's unit leaves in its window: tokens and a request that waits for the commit (R204, R235). -/
def callerRes (v : Val) (req : Option Req) : Res :=
  { ents := v.toks.map .tok ++ (match req with | some q => if q.kind.early then [] else [.req q] | none => []),
    flags0 := v.f0, flags1 := v.f1, result := (v.r0.getD {}).val, effs := v.effs }

/-- The units part at an instruction: one of them raises a cause or traps, or issues a load, that the other does not (R234, R235). -/
def unitsPart (te : BitVec 8) (v vf : Val) : Bool :=
  let early := fun (x : Val) => match x.req with | some q => if q.kind.early then some q else none | none => none
  v.cause != vf.cause || (v.f0 ||| v.f1) &&& te != (vf.f0 ||| vf.f1) &&& te || early v != early vf

/-- Results and requests of an instruction of caller n in its newest window, with what post does to the caller besides. vf is what the Follow
computes; apart tells that the Follow goes another way, so that the window fails (R208, R234). -/
def callerFinish (dv : Dev) (c : Chan) (n : Nat) (x : Caller) (inp : In) (v : Val) (ipNext : Nat)
    (post : Caller → Caller := id) (vf : Val := v) (apart : Bool := false) : Chan :=
  let apart := apart || unitsPart inp.cr.te v vf
  let y := if apart then { x with wins := splitNewest x.wins } else x
  match v.cause with
  | some (k, d) => c.setCaller n (y.except k d)
  | none =>
    let trapped := (v.f0 ||| v.f1) &&& inp.cr.te
    match trapCause trapped with
    | some k => c.setCaller n (y.except k.toNat 0 (v.r0.getD {}).val (v.f0 ||| v.f1))
    | none =>
      match c.callerWindow dv n x with
      | none => c.setCaller n x
      | some x =>
        let w := inp.w
        let x := match v.r0 with | some o => x.result (iRd w) (o.val, o.poison) | none => x
        let x := match vf.r0 with | some o => x.followResult (iRd w) (o.val, o.poison) | none => x
        let x := match v.r1 with | some o => x.result (iRd2 w) (o.val, o.poison) | none => x
        let x := match vf.r1 with | some o => x.followResult (iRd2 w) (o.val, o.poison) | none => x
        let x := { x with ibuf := ibufFill x.ibuf inp.ip w,
                          csrs := { x.csrs with ip := BitVec.ofNat 16 ipNext,
                                                fpcsr := x.csrs.fpcsr ||| (v.f0 ||| v.f1).zeroExtend 18 } }
        let req := v.req.map (fun q =>
          { q with reply := .regs n x.gen x.nextId, who := .caller n x.gen, ip := BitVec.ofNat 16 inp.ip, supv := inp.supv })
        let early := match req with | some q => q.kind.early | none => false
        let f : Firing := { pkt := { instr := w, ctx := BitVec.ofNat 24 inp.ctx, ip := BitVec.ofNat 16 inp.ip },
                            lead := some (callerRes v req), follow := some (callerRes vf req), grant := inp.grant, csrs := (c.caller n).csrs }
        let x := { x with
          wins := (match x.wins.reverse with
                   | [] => []
                   | wn :: r => r.reverse ++ [{ wn with firings := wn.firings ++ [f], lastAt := c.xclk, split := wn.split || apart }]),
          grant := none }
        let x := post x
        match req with
        | none => c.setCaller n x
        | some q =>
          let cls := match q.kind with
            | .qpush _ | .qpop _ | .qmark _ | .qrewind _ | .qrelease _ => 4
            | _ => c.fenceClass q.addr.toNat
          let o : OutReq := { id := x.nextId, cls := cls, fast := x.fastBank, rd := iRd w,
                              rd2 := if q.kind = .ld ∧ q.size = 16 then some (iRd2 w) else none }
          let x := { x with reqs := x.reqs.map (fun (q : OutReq) => if q.fast != x.fastBank then q
            else { q with over1 := q.over1 || q.rd == o.rd || o.rd2 == some q.rd,
                          over2 := q.over2 || q.rd2 == some o.rd || (q.rd2.isSome && q.rd2 == o.rd2) }) }
          let c := c.setCaller n { x with nextId := x.nextId + 1, reqs := x.reqs ++ [o] }
          if early then c.inject (unitAt tileCall) (c.reqPkt q) else c

/-- A request that a caller issues only with every earlier window committed: a read of the host window or of a setup
register (R235). -/
def Chan.waitsForCommit (c : Chan) (v : Val) : Bool :=
  match v.req with
  | some q => q.kind.early && (c.range q.addr.toNat == .host || c.range q.addr.toNat == .setup)
  | none => false

/-- Caller n executes its next instruction, when its word satisfies `ok`. -/
def fireCaller (dv : Dev) (c : Chan) (n : Nat) (rnd : Word) (ok : Word → Bool) (v : In → Val) : Chan :=
  let x := c.caller n
  if !c.callerReady n || !ok (c.callerWord n) then c
  else if c.fetchDenied n then c.setCaller n (x.except 0x23 0)
  else
    let smp := Chan.callerSamples dv c n
    let inp := callerIn c n rnd smp.1
    let val := v inp
    if c.waitsForCommit val && !x.wins.isEmpty then c.setCaller n { x with wins := closeNewest x.wins }
    else callerFinish dv c n x inp val (inp.ip + 1) (vf := v (callerIn c n rnd smp.2 true))

/-- A legal sequential word of instruction op. -/
def isSeqOp (op : Op) (w : Word) : Bool := (illegalSeq w).isNone && opOf w == some op

/-- An instruction of both modes: the unit's next firing or instruction executes, when it is op. -/
def fire (op : Op) (v : In → Val) (u : Exe) (rnd : Word) (dv : Dev) (c : Chan) : Chan :=
  match u with
  | .duet d => fireDuet c d.val rnd (isOp op) v
  | .caller n => fireCaller dv c n.val rnd (isSeqOp op) v

end Sys2Proof.Machine
end

