-- ==== Sys2Proof/Machine/Inbox.lean ====
section
/-! DEFINITION. Inboxes of the callers, and what the event controller does when an entry leaves one (R504, R508, R510, R513). -/

namespace Sys2Proof.Machine

def EvUnit.src (u : EvUnit) (q : Nat) : EvSt := tblGet u.srcs q {}
def EvUnit.setSrc (u : EvUnit) (q : Nat) (x : EvSt) : EvUnit := { u with srcs := tblPut u.srcs q x {} }

def Chan.evSt (c : Chan) (q : Nat) : EvSt := c.ev.src q
def Chan.setEvSt (c : Chan) (q : Nat) (x : EvSt) : Chan := { c with ev := c.ev.setSrc q x }

/-- CCLK periods of the device event controller (R518). DESIGN CHOICE (log entry 3): the spec gives a CCLK to each channel only (R9, R581); the
device counts one in two of its periods. -/
def Dev.cclk (d : Dev) : Nat := d.xclk / 2

/-- Source 27 counts a moderation overrun (R509). -/
def Chan.overrun (c : Chan) : Chan :=
  let x := c.evSt 27
  c.setEvSt 27 { x with count := min 255 (x.count + 1) }

/-- COUNT of a source becomes n: for a privileged one other than 27, a hold ends as it reaches 255 (R509). -/
def Chan.setCount (c : Chan) (q n : Nat) (x : EvSt) : Chan :=
  let full := decide (q < 64) && q != 27 && n == 255 && decide (c.cclk < x.hold)
  let c := c.setEvSt q { x with count := n, hold := if full then c.cclk else x.hold }
  if full then c.overrun else c

/-- A source gains n raises in CCLK now (R500). -/
def EvSt.gain (x : EvSt) (now n : Nat) : EvSt :=
  { x with fresh := (if x.freshAt = some now then x.fresh else 0) + n, freshAt := some now }

/-- The raises of CCLK now, which its selection leaves behind (R500). -/
def EvSt.left (x : EvSt) (now : Nat) : Nat := if x.freshAt = some now then min 255 x.fresh else 0

/-- The values of a source at the end of the CCLK before (R506). -/
def EvUnit.before (u : EvUnit) (q : Nat) : EvSt := tblGet u.was q {}

/-- EN of a source at the end of the CCLK before. -/
def EvSt.enBefore (x : EvSt) (now : Nat) (en : Bool) : Bool :=
  match x.enWas with
  | some (t, b) => if t = now then b else en
  | none => en

/-- A write to EN in CCLK now. -/
def EvSt.keepEn (x : EvSt) (now : Nat) (en : Bool) : EvSt := { x with enWas := some (now, x.enBefore now en) }

/-- CLEAR in CCLK now: the source is not selected in it (R520; log entry 32). -/
def EvSt.clear (x : EvSt) (now : Nat) : EvSt := { x with count := 0, fresh := 0, from_ := now + 1 }

/-- A bounce: the count returns to its source (R510). -/
def Chan.bounce (c : Chan) (q count : Nat) : Chan :=
  let x := c.evSt q
  (c.setCount q (min 255 (x.count + count)) { x with inflight := 0, inbox := false }).inc F.evStatBounced

/-- The release of an inbox entry starts the hold of its source (R508, R513). -/
def Chan.release (c : Chan) (now q : Nat) : Chan :=
  let x := c.evSt q
  c.setEvSt q { x with inbox := false, hold := now + c.fld (F.evSrcModiv q) * 64 }

/-- The entries of a caller's inbox go back to their sources (R513). -/
def Chan.returnInbox (c : Chan) (n : Nat) : Chan :=
  let x := c.caller n
  (x.inbox.foldl (fun c e => c.bounce e.src e.count) c).setCaller n { x with inbox := [] }

/-- The head entry of a list: the oldest FAST one, else the oldest (R514). -/
def headEntry (l : List InEntry) : Option InEntry :=
  match l.find? (fun e => e.fast) with
  | some e => some e
  | none => l.head?

/-- Entries that nothing has taken, from the CCLK after their landing (R510). -/
def Caller.ready (x : Caller) : List InEntry := x.inbox.filter (fun e => e.taken == .nobody && !e.fresh)

/-- Marks the first entry equal to e as taken. -/
def markTaken (e : InEntry) (k : Taker) : List InEntry → List InEntry
  | [] => []
  | a :: r => if a = e then { a with taken := k } :: r else a :: markTaken e k r

/-- EVTGT.EN and EVTGT.MASK (R517). -/
def Caller.evEn (x : Caller) : Bool := x.csrs.evtgt.getLsbD 0
def Caller.evMask (x : Caller) : Bool := x.csrs.evtgt.getLsbD 1

/-- A FAST entry that is to be taken as an interrupt (R485, R503, R515). -/
def Caller.interrupt (x : Caller) : Option InEntry :=
  if x.ie && !x.evMask then x.ready.find? (fun e => e.fast) else none

/-- An enabled target (R504). -/
def Caller.enabled (x : Caller) : Bool := x.evEn && (x.st == .running || x.st == .waiting || x.st == .waitev)

/-- The entries that the commit of the window releases (R513). -/
def Caller.released (x : Caller) (w : Win) : List InEntry :=
  x.inbox.filter (fun e => e.taken == .waitev w.wseq || e.taken == .handler)

end Sys2Proof.Machine
end

