-- ==== Sys2Proof/Machine/Access.lean ====
section
/-! DEFINITION. How a register takes a write, and who may make one (R12, R16, R478, R591, R605, R613, R657). -/

namespace Sys2Proof.Machine

/-- A field lies wholly in the bits lo up to, but not including, hi that an access addresses (R657). -/
def inSpan (lo hi : Nat) (f : Nat × Nat × Access) : Bool := decide (lo ≤ f.1) && decide (f.1 + f.2.1 ≤ hi)

/-- The word a register holds after a write of w (R12): RW fields take the bits written, W1C and W1S fields clear or set
where 1 is written, and the others keep their value. -/
def mergeFields (n : RegName) (i : Nat) (old w : Word) (lo hi : Nat) : List (Nat × Nat × Access) → Word
  | [] => old
  | f :: r =>
    let u := mergeFields n i old w lo hi r
    if !inSpan lo hi f then u
    else
      let cur := wbits u f.1 f.2.1
      let v := wbits w f.1 f.2.1
      match fieldAccess n i f.1 f.2.2 with
      | .rw => setBits u f.1 f.2.1 v
      | .w1c => setBits u f.1 f.2.1 (cur &&& (2 ^ f.2.1 - 1 - v))
      | .w1s => setBits u f.1 f.2.1 (cur ||| v)
      | .ro | .wo | .rc => u

/-- The word after a read: RC fields that lie in the bits read are 0 (R12, R657). -/
def clearRead (n : RegName) (i : Nat) (old : Word) (lo hi : Nat) : List (Nat × Nat × Access) → Word
  | [] => old
  | f :: r =>
    let u := clearRead n i old lo hi r
    if inSpan lo hi f && fieldAccess n i f.1 f.2.2 == .rc then setBits u f.1 f.2.1 0 else u

/-- Writes the fields of the channel register at an offset. -/
def Chan.wrFields (c : Chan) (off : Nat) (w : Word) (lo : Nat := 0) (hi : Nat := 64) : Chan :=
  match regAt chanRegTable off with
  | none => c
  | some (d, i) => c.wr off (mergeFields d.name i (c.rd off) w lo hi d.fields)

/-- Writes the fields of the device register at an offset. -/
def Dev.wrFields (d : Dev) (off : Nat) (w : Word) (lo : Nat := 0) (hi : Nat := 64) : Dev :=
  match regAt devRegTable off with
  | none => d
  | some (r, i) => d.wr off (mergeFields r.name i (d.rd off) w lo hi r.fields)

/-- The offset lies in the PWR block, which the AON domain serves in every C-state (R591). -/
def inPwr (off : Nat) : Bool := decide (0x1000 ≤ off) && decide (off < 0x2000)

/-- The channel sleeps in C2 to C4: an access outside the PWR block is held, and wakes it (R590, R591). -/
def Chan.asleep (c : Chan) : Bool := decide (2 ≤ c.pw.cst)

/-- The offset of a channel register that host software reaches while READY is 0 (R605). -/
def hostEarly (off : Nat) : Bool := inPwr off || off == 0x0 || off == 0x8

/-- A party's write reaches a register of the channel: the host's only once READY is 1, outside the PWR block (R605). -/
def Chan.mayWrite (c : Chan) (p : Party) (off : Nat) : Bool :=
  match p with
  | .host => c.pw.ready || hostEarly off
  | .service | .supv | .firing => true

/-- An access to the channel's registers can be carried out now: AON serves it, or the channel is awake (R591) with no access before it
(R659), and the memory takes the access of CH_HWTDATA (R390, R572). -/
def Chan.served (c : Chan) (off : Nat) : Bool :=
  inPwr off || (!c.asleep && c.pw.held.isEmpty && (off != 0x198 || c.hwtOpen))

/-- An access that is held asks for a wake (R590). -/
def Chan.askWake (c : Chan) : Chan := { c with pw := { c.pw with wake := true } }

/-- Holds an access; a sleeping channel is asked to wake (R590, R591). -/
def Chan.hold (c : Chan) (a : HeldAcc) : Chan :=
  let c := if c.asleep then c.askWake else c
  { c with pw := { c.pw with held := c.pw.held ++ [a] } }

/-- An access outside the PWR block wakes a channel in C1 too (R590, R591). -/
def Chan.stir (c : Chan) (off : Nat) : Chan := if c.pw.cst = 1 ∧ inPwr off = false then c.askWake else c

/-- A write of w by party p to the channel register at an offset, with the effect f: held while it cannot be carried
out (R390, R591), dropped where the party may not write (R605). -/
def Chan.regWrite (c : Chan) (p : Party) (off : Nat) (w : Word) (f : Chan → Chan) : Chan :=
  if !c.served off then c.hold { party := p, off := off, w := some w }
  else if !c.mayWrite p off then c.stir off
  else f (c.stir off)

end Sys2Proof.Machine
end

