-- ==== Sys2Proof/Machine/Lines.lean ====
section
/-! DEFINITION. The places of lines in GDDR7, and what a line in error means (R397, R402, R403, R409). -/

namespace Sys2Proof.Machine

/-! ## Places (R394, R402) -/

/-- Highest raw address bit (R389, R402). -/
def Chan.rawTop (c : Chan) : Nat :=
  (match c.fld F.dmCfgDens with | 0 => 30 | _ => 31) + b2n (c.flag F.dmCfgTopo)

/-- Device, bank and row of a channel address (R402). -/
def Chan.rowId (c : Chan) (a : Nat) : RowId :=
  let x := rawAddr a
  let clam := c.flag F.dmCfgTopo
  let top := if clam then c.rawTop - 1 else c.rawTop
  let row := bitsOf x 14 (top - 13)
  ⟨clam && x.testBit c.rawTop, Fin.ofNat 16 (bitsOf x 10 4 ^^^ bitsOf row 0 4 ^^^ bitsOf row 4 4), BitVec.ofNat 18 row⟩

/-- The n bytes at a cover the whole line. -/
def coversLine (a n line : Nat) : Bool := decide (a ≤ line) && decide (line + 64 ≤ a + n)

/-! ## Lines in error (R397, R409) -/

/-- A line is found uncorrectable by a request: its words are poisoned, the error is counted and recorded, source 21 is
raised. -/
def Chan.dmUncorr (c : Chan) (a : Nat) : Chan :=
  let line := a / 64 * 64
  let c := (List.range 8).foldl (fun c i => c.setPoison (line + 8 * i) true) c
  let c := c.inc F.dmEccstatUncorr
  let c := if c.flag F.dmErraddrValid then c else (c.setFld F.dmErraddrValid 1).setFld F.dmErraddrAddr line
  (c.checkUse line true).raise 21

/-- Slots of the free list: 4 bytes for every identifier of the table (R403). -/
def Chan.freeSlots (c : Chan) : Nat := max 1 c.ctxLimit

/-- The identifiers on the free list in order, lost ones among them. -/
def CtxUnit.freeIds (u : CtxUnit) : List Nat := u.freeFront ++ List.range' u.freeNext (u.freeEnd - u.freeNext) ++ u.freed

/-- The free identifiers that line n of the free list holds are lost until the next channel reset (R397). -/
def Chan.loseIds (c : Chan) (n : Nat) : Chan :=
  let hit := (c.cu.freeIds.zipIdx.filter (fun e => (c.cu.freeHead + e.2) % c.freeSlots / 16 == n)).map (·.1)
  { c with cu := { c.cu with lost := c.cu.lost ++ hit.filter (fun i => !c.cu.lost.contains i) } }

/-- Writes an identifier into a slot of the free list, in its turn at the internal port (R403). -/
def Chan.putFreeSlot (c : Chan) (slot id : Nat) : Chan := c.portWrite (c.freeAddr slot) (valBytes id 4)

/-- The cached record of a context is written over its line at once, with poison clear (R397). -/
def Chan.ctxOver (c : Chan) (id : Nat) : Chan := (c.wrWords (c.ctxAddr id) (c.ctx id).words).dmWrote (c.ctxAddr id) 64

/-- What an uncorrectable line of the channel's own structures means (R397): a record's context, or the free list. -/
def Chan.lineLost (c : Chan) (now a : Nat) : Chan :=
  let line := a / 64 * 64
  let t := c.ctxAddr 0
  if t ≤ line ∧ line < t + 64 * c.ctxLimit then
    let id := (line - t) / 64
    if id = 0 then (if c.live 0 then c.ctxOver 0 else c)
    else if c.live id then c.poisonCtx now id
    else c
  else if t + 64 * c.ctxLimit ≤ line ∧ line < t + 68 * c.ctxLimit then c.loseIds ((line - t - 64 * c.ctxLimit) / 64)
  else c

/-- A row becomes a candidate for repair (R409). -/
def Chan.rowCandidate (c : Chan) (r : RowId) : Chan :=
  if c.dm.rowBad.contains r then c else { c with dm := { c.dm with rowBad := c.dm.rowBad ++ [r] } }

/-- What the code finds in a line. -/
def errOf (errs : LineErrs) (line : Nat) : Option Bool := (errs.find? (fun e => e.1 / 64 * 64 == line)).map (·.2)

/-- The codeword of a line is read (R397): an error is corrected, written back and counted, or it is uncorrectable. -/
def Chan.dmLine (c : Chan) (now : Nat) (errs : LineErrs) (line : Nat) : Chan :=
  match errOf errs line with
  | none => c.checkUse line false
  | some false => (c.checkUse line true).inc F.dmEccstatCorr
  | some true => ((c.dmUncorr line).rowCandidate (c.rowId line)).lineLost now line

/-- The lines of n bytes at a are read. -/
def Chan.dmRead (c : Chan) (now : Nat) (errs : LineErrs) (a n : Nat) : Chan :=
  (linesOf a n).foldl (fun c l => c.dmLine now errs l) c

/-- A write of n bytes at a reads the lines that it covers only in part (R400). -/
def Chan.dmMerge (c : Chan) (now : Nat) (errs : LineErrs) (a n : Nat) : Chan :=
  ((linesOf a n).filter (fun l => !coversLine a n l)).foldl (fun c l => c.dmLine now errs l) c

/-- A line of the list is uncorrectable. -/
def Chan.badLine (errs : LineErrs) (a n : Nat) : Bool := (linesOf a n).any (fun l => errOf errs l == some true)

/-! ## Accesses of the context unit and of registers (R397, R398, R400) -/

/-- What the codes of the lines of n bytes at a find in this MCLK (log entry 52). -/
def Chan.codes (c : Chan) (a n : Nat) : LineErrs :=
  (linesOf a n).filterMap (fun l => (Config.lineCode c.idx c.dm.mclk l).map (fun e => (l, e)))

/-- Writes bytes at a: a line that they cover only in part is read and merged (R400), and the poison of each word that they cover is
cleared (R395). -/
def Chan.dmPut (c : Chan) (now a : Nat) (bs : List Byte) : Chan :=
  let n := bs.length
  let c := ((linesOf a n).filter (fun l => !coversLine a n l)).foldl (fun c l => c.dmLine now (c.codes l 64) l) c
  ({ c with mem := memPutBytes c.mem a bs, poison := c.poison.filter (fun w => !(decide (a ≤ w) && decide (w + 8 ≤ a + n))) } : Chan).dmWrote a n

/-- The oldest write that waits at the internal port is carried out, once the memory takes it; a memory out of service loses it (R390, R398,
R400). -/
def Chan.servePort (c : Chan) (now : Nat) : Chan :=
  match c.dm.inq with
  | [] => c
  | w :: r =>
    let d : Chan := { c with dm := { c.dm with inq := r } }
    if c.dmState = 0 ∨ c.dmState = 1 ∨ c.dmState = 5 then d
    else if c.dmPort && !c.dm.acc.any (fun q => lineMeet w.addr w.bytes.length q.req.addr.toNat q.req.size) then d.dmTouch.dmPut now w.addr w.bytes
    else c

end Sys2Proof.Machine
end

