-- ==== Sys2Proof/Machine/Spill.lean ====
section
/-! DEFINITION. The spill area, the spill filter and evictions (R300 to R309). -/

namespace Sys2Proof.Machine

/-! ## The area (R303, R304) -/

/-- Buckets of the area. -/
def Chan.nBuckets (c : Chan) : Nat := c.fld F.pgSpillcfgSize * 32768
def Chan.spillBase (c : Chan) : Nat := c.fld F.pgSpillbaseBase * 2 ^ 20
/-- Buckets probed: 0 acts as 1, 9 to 15 act as 8 (R318). -/
def Chan.nProbe (c : Chan) : Nat := max 1 (min 8 (c.fld F.pgSpillcfgProbe))

/-- Bucket i of the probe order of a key (R304). -/
def Chan.probe (c : Chan) (ctx ip i : Nat) : Nat :=
  let key := ctx * 2 ^ 16 + ip
  let nb := max 1 c.nBuckets
  ((bitsOf key 0 20 ^^^ bitsOf key 20 20) % nb + i) % nb

/-- Address of a record: bucket and slot. -/
def Chan.recAddr (c : Chan) (b i : Nat) : Nat := c.spillBase + 512 * b + 64 * i
/-- Address and bit of a bucket in the occupancy map. -/
def Chan.mapAddr (c : Chan) (b : Nat) : Nat := c.spillBase + 512 * c.nBuckets + b / 8

/-- The lines of the buckets that a key's probes read (R304), and those of every bucket in use, with their map bytes. -/
def Chan.probeLines (c : Chan) (ctx ip : Nat) : List Nat :=
  (List.range c.nProbe).flatMap (fun p => (List.range 8).map (fun i => c.recAddr (c.probe ctx ip p) i))
def Chan.bucketLines (c : Chan) (bs : List Nat) : List Nat :=
  bs.flatMap (fun b => (c.mapAddr b / 64 * 64) :: (List.range 8).map (fun i => c.recAddr b i))

/-- The token at the head of the Cut-in queue waits for the memory (R401): it has not been looked up yet, and no request to a line that it reads
was accepted before. -/
def Chan.cutWaits (c : Chan) : Bool :=
  match c.ms.cutq with
  | [] => false
  | x :: _ => c.ms.cutTried != some x && !c.dmBlocked (c.probeLines (tagCtx x.tok.tag) (tagIp x.tok.tag))

/-- Nothing of the first two ranks of R401 waits for the memory. -/
def Chan.dmFree (c : Chan) : Bool := !c.fillWaits && !c.cutWaits && !c.walkWaits

/-- The internal port can carry out another access to the lines (R401). -/
def Chan.dmThird (c : Chan) (lines : List Nat) : Bool := c.dmInner lines && c.dmFree

/-- A spill record (R303). -/
structure SRec where
  val0 : Word
  val1 : Word
  val2 : Word
  sb0 : BitVec 8
  sb1 : BitVec 8
  sb2 : BitVec 8
  need : BitVec 4
  got : BitVec 4
  pmin : BitVec 3
  cseq : BitVec 16
  ctx : CtxId
  ip : Ip
  evtime : Word
  deriving DecidableEq, Repr

/-- The record at an address, if VALID. -/
def Chan.readRec (c : Chan) (a : Nat) : Option SRec :=
  let w3 := c.rdWord (a + 24)
  let w4 := c.rdWord (a + 32)
  if wbit w3 63 then
    some { val0 := c.rdWord a, val1 := c.rdWord (a + 8), val2 := c.rdWord (a + 16), sb2 := BitVec.ofNat 8 (wbits w3 32 8),
           sb1 := BitVec.ofNat 8 (wbits w3 24 8), sb0 := BitVec.ofNat 8 (wbits w3 16 8), need := BitVec.ofNat 4 (wbits w3 12 4),
           got := BitVec.ofNat 4 (wbits w3 8 4), pmin := BitVec.ofNat 3 (wbits w3 5 3), cseq := BitVec.ofNat 16 (wbits w4 40 16),
           ctx := BitVec.ofNat 24 (wbits w4 16 24), ip := BitVec.ofNat 16 (wbits w4 0 16), evtime := c.rdWord (a + 40) }
  else none

/-- Word 3 and word 4 of a record. -/
def SRec.word3 (r : SRec) : Word :=
  BitVec.ofNat 64 (2 ^ 63 + r.sb2.toNat <<< 32 + r.sb1.toNat <<< 24 + r.sb0.toNat <<< 16 + r.need.toNat <<< 12
    + r.got.toNat <<< 8 + r.pmin.toNat <<< 5)
def SRec.word4 (r : SRec) : Word := BitVec.ofNat 64 (r.cseq.toNat <<< 40 + r.ctx.toNat <<< 16 + r.ip.toNat)

/-- Writes a record. -/
def Chan.writeRec (c : Chan) (a : Nat) (r : SRec) : Chan :=
  (c.wrWords a [r.val0, r.val1, r.val2, r.word3, r.word4, r.evtime, 0, 0]).dmWrote a 64

/-- A stale record (R304): its context is not LIVE, or has been created anew. -/
def Chan.stale (c : Chan) (r : SRec) : Bool :=
  !c.live r.ctx.toNat || (c.ctx r.ctx.toNat).seq.truncate 16 != r.cseq

/-! ## The filter (R307) -/

/-- The two counters of a key. -/
def filter1 (ctx ip : Nat) : Nat := bitsOf ctx 0 10 ^^^ bitsOf ip 0 10
def filter2 (ctx ip : Nat) : Nat := bitsOf ctx 10 10 ^^^ (bitsOf ctx 20 4 * 64 + bitsOf ip 10 6)

def TileSt.count (x : TileSt) (i : Nat) : Nat := tblGet x.filter i 0
def TileSt.bump (x : TileSt) (i : Nat) : TileSt := { x with filter := tblPut x.filter i (min 15 (x.count i + 1)) 0 }
/-- A counter at 15 is not decremented. -/
def TileSt.unbump (x : TileSt) (i : Nat) : TileSt :=
  if x.count i = 15 then x else { x with filter := tblPut x.filter i (x.count i - 1) 0 }

/-- The filter reports "may be spilled". -/
def Chan.maySpill (c : Chan) (t ctx ip : Nat) : Bool :=
  (c.tile t).count (filter1 ctx ip) != 0 && (c.tile t).count (filter2 ctx ip) != 0

def Chan.filterAdd (c : Chan) (t ctx ip : Nat) : Chan :=
  c.setTile t (((c.tile t).bump (filter1 ctx ip)).bump (filter2 ctx ip))
def Chan.filterSub (c : Chan) (t ctx ip : Nat) : Chan :=
  c.setTile t (((c.tile t).unbump (filter1 ctx ip)).unbump (filter2 ctx ip))

/-! ## Freeing and choosing records -/

/-- The map bit of a bucket follows its records; its line is read and written back (R400). -/
def Chan.setMap (c : Chan) (b : Nat) : Chan :=
  let full := (List.range 8).any (fun i => (c.readRec (c.recAddr b i)).isSome)
  let old := memByte c.mem (c.mapAddr b)
  let m : Byte := BitVec.ofNat 8 (2 ^ (b % 8))
  ({ c with mem := memPutByte c.mem (c.mapAddr b) (if full then old ||| m else old &&& ~~~m) }).dmWrote (c.mapAddr b) 1

/-- Deferred tokens that found no place may be retried: a spill record has been freed (R309). -/
def Chan.unstick (c : Chan) : Chan :=
  { c with ms := { c.ms with tiles := c.ms.tiles.map (fun e =>
      (e.1, { e.2 with defer := e.2.defer.map (fun d => { d with stuckAt := none }) })) } }

/-- Frees a spill record: VALID 0, the map, the counts of its key's tile, the filter, and MSCOUNT while its context lives the
same life (R304 to R308, R51). -/
def Chan.freeRec (c : Chan) (b i : Nat) (r : SRec) : Chan :=
  let a := c.recAddr b i
  let t := homeTile r.ctx.toNat r.ip.toNat
  let c := ((c.wrWord (a + 24) (setBits (c.rdWord (a + 24)) 63 1 0)).dmWrote (a + 24) 8).setMap b
  let c := c.setFld F.pgSpillstatUsed (c.fld F.pgSpillstatUsed - 1)
  let c := c.filterSub t r.ctx.toNat r.ip.toNat
  let x := c.tile t
  let c := c.setTile t (if x.spilled ≤ 1 then { x with spilled := 0, filter := [] } else { x with spilled := x.spilled - 1 })
  let c := if (c.ctx r.ctx.toNat).st ≠ .free ∧ (c.ctx r.ctx.toNat).seq.truncate 16 = r.cseq then
    c.msSub r.ctx.toNat (if r.need.getLsbD 2 then 2 else 1) else c
  c.unstick

/-- A record in an uncorrectable line (R306): it is freed and its context poisoned; source 9 alone where no record names a context. -/
def Chan.badRecord (c : Chan) (now b i : Nat) : Chan :=
  let c := (c.dmUncorr (c.recAddr b i)).rowCandidate (c.rowId (c.recAddr b i))
  match c.readRec (c.recAddr b i) with
  | none => c.raise 9
  | some r => (c.freeRec b i r).poisonCtx now r.ctx.toNat

/-- Reads a bucket (R304, R306, R397), freeing the records in uncorrectable lines and those that `gone` names. -/
def Chan.readBucket (c : Chan) (now : Nat) (errs : LineErrs) (gone : Chan → SRec → Bool) (b : Nat) : Chan :=
  (List.range 8).foldl (fun c i =>
    if errOf errs (c.recAddr b i) == some true then c.badRecord now b i
    else
      let c := c.dmLine now errs (c.recAddr b i)
      match c.readRec (c.recAddr b i) with
      | some r => if gone c r then c.freeRec b i r else c
      | none => c) c

/-- Reads a bucket and frees its stale records (R304). -/
def Chan.freeStale (c : Chan) (now : Nat) (errs : LineErrs) (b : Nat) : Chan := c.readBucket now errs Chan.stale b

/-- A slot that an eviction in flight of some bank is to write. -/
def Chan.reserved (c : Chan) (b i : Nat) : Bool :=
  c.ms.tiles.any (fun e => match e.2.evict with | some v => v.bucket == b && v.slot == i | none => false)

/-- The first free record of the probe buckets, in order (R304). -/
def Chan.freeSlot (c : Chan) (ctx ip : Nat) : List Nat → Option (Nat × Nat)
  | [] => none
  | p :: r =>
    let b := c.probe ctx ip p
    match findIx (fun i => (c.readRec (c.recAddr b i)).isNone && !c.reserved b i) (List.range 8) with
    | some i => some (b, i)
    | none => c.freeSlot ctx ip r

/-- The probe buckets of a key with their stale records freed. -/
def Chan.cleanProbe (c : Chan) (now : Nat) (errs : LineErrs) (ctx ip : Nat) : Chan :=
  (List.range c.nProbe).foldl (fun c p => c.freeStale now errs (c.probe ctx ip p)) c

/-! ## Evictions (R300 to R302, R309) -/

/-- An eviction found no free record (R309): counted, with source 16 at most once per 65,536 XCLK. -/
def Chan.spillFull (c : Chan) (now : Nat) : Chan :=
  let c := c.inc F.pgSpillstatFull
  let due := match c.ms.fullAt with | none => true | some n => decide (n + 65536 ≤ now)
  if due then ({ c with ms := { c.ms with fullAt := some now } }).raise 16 else c

/-- Steps 1 and 2 of an eviction of entry e, and the choice of its record (R302). -/
def Chan.startEvict (c : Chan) (t e : Nat) (x : MEntry) (slot : Nat × Nat) : Chan :=
  let c := c.filterAdd t x.ctx.toNat x.ip.toNat
  c.setTile t { c.tile t with evict := some { e := e, bucket := slot.1, slot := slot.2 } }

/-- Tries victims in order (R301, R309): whether one has been placed. -/
def Chan.tryVictims (now t : Nat) (errs : LineErrs) : List (Nat × MEntry) → Chan → Chan × Bool
  | [], c => (c, false)
  | (e, x) :: r, c =>
    let c := c.cleanProbe now errs x.ctx.toNat x.ip.toNat
    match c.freeSlot x.ctx.toNat x.ip.toNat (List.range c.nProbe) with
    | some s => (c.startEvict t e x s, true)
    | none => tryVictims now t errs r (c.spillFull now)

/-- The lines that the search for a record reads for these victims. -/
def Chan.victimLines (c : Chan) (vs : List (Nat × MEntry)) : List Nat := vs.flatMap (fun v => c.probeLines v.2.ctx.toNat v.2.ip.toNat)

/-- WAIT primary entries of a bank, with their numbers. -/
def Chan.waits (c : Chan) (t : Nat) : List (Nat × MEntry) :=
  (c.ms.entries.filter (fun e => e.1 / 1536 == t && e.2.st == .wait)).map (fun e => (e.1 % 1536, e.2))

/-- Those of them that an eviction may take: one that a token fills in this XCLK is never a victim (R301). -/
def Chan.victims (c : Chan) (t : Nat) : List (Nat × MEntry) := (c.waits t).filter (fun v => v.2.filledAt != some c.xclk)

/-- Inserts into a list kept in order. -/
def insertBy {α : Type} (le : α → α → Bool) (a : α) : List α → List α
  | [] => [a]
  | b :: r => if le a b then a :: b :: r else b :: insertBy le a r

/-- A list put in order. -/
def sortBy {α : Type} (le : α → α → Bool) : List α → List α
  | [] => []
  | a :: r => insertBy le a (sortBy le r)

/-- Victims of a demand eviction for a token of context id in a row, in the order of R301. -/
def Chan.demandVictims (c : Chan) (t row id : Nat) : List (Nat × MEntry) :=
  let l := (c.victims t).filter (fun v => v.1 / 24 == row)
  let young := l.filter (fun v => !(c.ctx v.2.ctx.toNat).elder)
  let old := l.filter (fun v => (c.ctx v.2.ctx.toNat).elder
    && decide ((c.ctx id).seq.toNat < (c.ctx v.2.ctx.toNat).seq.toNat))
  sortBy (fun a b => decide (a.2.born ≤ b.2.born)) young
    ++ (if (c.ctx id).elder then
          sortBy (fun a b => decide ((c.ctx b.2.ctx.toNat).seq.toNat ≤ (c.ctx a.2.ctx.toNat).seq.toNat)) old
        else [])

/-- A demand eviction for the oldest deferred token (R300, R301, R309, R310); it waits while the memory does not take its reads (R390, R398,
R401). -/
def Chan.demandEvict (c : Chan) (now t : Nat) (errs : LineErrs) : Chan :=
  let x := c.tile t
  match x.defer with
  | [] => c
  | d :: _ =>
    if !c.flag F.pgSpillcfgEn || x.evict.isSome || d.stuckAt.isSome then c
    else
      let id := tagCtx d.tok.tag
      let vs := c.demandVictims t (homeRow id (tagIp d.tok.tag)) id
      if vs.isEmpty || !c.dmSecond (c.victimLines vs) then c
      else match Chan.tryVictims now t errs vs c.dmTouch with
        | (c, true) => c
        | (c, false) =>
          let x := c.tile t
          c.setTile t { x with defer := match x.defer with | [] => [] | d :: r => { d with stuckAt := some now } :: r }

/-- Tokens of the miss buffer that wait for the eviction of a key. -/
def waitsEvict (x : MEntry) (m : Missed) : Bool :=
  m.why == .eviction && tagCtx m.tok.tag == x.ctx.toNat && tagIp m.tok.tag == x.ip.toNat

/-- The evictions that a bank calls off: the filter falls back (R302, R65), and the tokens that waited for the key enter the row compare
again as those whose record has arrived. -/
def Chan.stopEvict (c : Chan) (t : Nat) (x : MEntry) : Chan :=
  let c := c.filterSub t x.ctx.toNat x.ip.toNat
  c.setTile t { c.tile t with evict := none,
                              miss := (c.tile t).miss.map (fun m => if waitsEvict x m then { m with why := .record } else m) }

/-- PG_SPILLSTAT.NEAR (R309). -/
def Chan.spillNear (c : Chan) : Bool :=
  decide (c.fld F.pgSpillcfgSize * 262144 * 7 ≤ c.fld F.pgSpillstatUsed * 8)

end Sys2Proof.Machine
end

