-- ==== Sys2Proof/Machine/Matching.lean ====
section
/-! DEFINITION. Tokens at their home tile: insertion and match, ready stage, parking, deferral, spills (R70, R162 to R189, R250,
R257, R261, R300 to R309). -/

namespace Sys2Proof.Machine

/-! ## Acceptance (R254, R332) -/

/-- A token of the block is accepted: its queue word is released, its position's outputs are one fewer. -/
def Chan.accept (c : Chan) (a : Acc) : Chan :=
  match a with
  | .none => c
  | .qword q => if isRxQueue q then (c.qRelease q 1).portRelease q else c.qRelease q 1
  | .ord _ _ => c.acceptOrd a

/-! ## Positions and slots (R246 to R261) -/

/-- Fields of an order queue word (R253). -/
def posCtx (w : BitVec 144) : Nat := (w.extractLsb' 120 24).toNat
def posCseq (w : BitVec 144) : Nat := (w.extractLsb' 104 16).toNat
def posState (w : BitVec 144) : Nat := (w.extractLsb' 102 2).toNat
def posSolo (w : BitVec 144) : Bool := w.getLsbD 101
/-- A position word (R253). -/
def posWord (ctx cseq st : Nat) (solo : Bool) : BitVec 144 :=
  BitVec.ofNat 144 ((ctx % 2 ^ 24) <<< 120 + (cseq % 2 ^ 16) <<< 104 + (st % 4) <<< 102 + b2n solo <<< 101)

/-- SEQ[15:0] of a context. -/
def Chan.cseq (c : Chan) (id : Nat) : BitVec 16 := (c.ctx id).seq.truncate 16

/-- Word of position i after HEAD of order queue n. -/
def Chan.posAt (c : Chan) (n i : Nat) : BitVec 144 := c.qItem (768 + n) i
/-- Writes both twins of a position (R329). -/
def Chan.setPos (c : Chan) (n i : Nat) (w : BitVec 144) : Chan :=
  (c.setQWord (c.qAddr (768 + n) (2 * i)) w).setQWord (c.qAddr (768 + n) (2 * i + 1)) w

/-- Positions of an order queue: INFLIGHT (R252). -/
def Chan.ordLen (c : Chan) (n : Nat) : Nat := c.qHeld (768 + n)

/-- The order queue is full (R252). -/
def Chan.ordFull (c : Chan) (n : Nat) : Bool := decide (4096 ≤ c.ordLen n) || !c.qRoom (768 + n)

/-- Places of an order queue that FLOWSETs hold which have started and whose windows have not committed (R248). -/
def Chan.ordHeld (c : Chan) (n : Nat) : Nat :=
  (c.duets.flatMap (fun e => e.2.wins.flatMap (·.firings))).countP (fun f =>
    (illegalFiring f.pkt.instr).isNone && opOf f.pkt.instr == some .flowset
      && decide (2 ≤ c.fld (F.flClassKind (iImm f.pkt.instr % 64))) && c.fld (F.flClassOrdq (iImm f.pkt.instr % 64)) == n)

/-- An order queue has no place for a further context: it is full, or FLOWSETs under way take what is free (R248, R252). -/
def Chan.ordClosed (c : Chan) (n : Nat) : Bool :=
  c.ordFull n || decide (4096 ≤ c.ordLen n + c.ordHeld n)
    || decide (c.qCap (768 + n) < (c.qptr (768 + n)).held + (c.ordHeld n + 1) * c.qUnit (768 + n))

/-- The HELD position of a context: order queue, place after HEAD, sequence number. -/
def Chan.posOf (c : Chan) (id : Nat) : Option (Nat × Nat × BitVec 16) :=
  let cs := (c.cseq id).toNat
  c.fl.ords.findSome? (fun e =>
    (List.range (c.ordLen e.1)).findSome? (fun i =>
      let w := c.posAt e.1 i
      if posCtx w = id ∧ posCseq w = cs ∧ posState w = 0 then some (e.1, i, e.2.head + BitVec.ofNat 16 i) else none))

/-- KIND of a context's class (R246). -/
def Chan.flowKind (c : Chan) (id : Nat) : Nat := c.fld (F.flClassKind (c.ctx id).flow.toNat)

/-- slot(n, key) of R257. -/
def Chan.slotOf (c : Chan) (n : Nat) (key : Word) : Nat :=
  let h := wbits key 0 12 ^^^ wbits key 12 12 ^^^ wbits key 24 12 ^^^ wbits key 36 12 ^^^ wbits key 48 12 ^^^ wbits key 60 4
  (c.fld (F.flClassSbase n) + h % 2 ^ c.fld (F.flClassSsize n)) % 4096

/-- The slot's owner is the context, in its present life. -/
def Chan.owns (c : Chan) (id q : Nat) : Bool := (c.solo q).owner == some (BitVec.ofNat 24 id, c.cseq id)

/-- A SOLO.IN asks for slot q (R257): granted at once, or a waiter of the list. -/
def Chan.askSlot (c : Chan) (t : Nat) (p : FPacket) (q : Nat) : Chan × Option ParkFor :=
  let id := p.ctx.toNat
  let x := c.solo q
  let grants := F.flCntGrants (c.ctx id).flow.toNat
  if c.owns id q then (c.wrapInc grants, none)
  else if x.owner.isNone && x.waiters.isEmpty then
    ((c.setSolo q { x with owner := some (p.ctx, c.cseq id) }).wrapInc grants, none)
  else (c.setSolo q { x with waiters := x.waiters ++ [(t, p.row, p.way, p.ctx, (c.ctx id).flow)] }, some (.slot q))

/-- The Solo cursor passes the position it stands at, place i after HEAD (R261). -/
def Chan.passCursor (c : Chan) (n i : Nat) : Chan :=
  let o := c.ord n
  let w := c.posAt n i
  (c.setPos n i (w ||| ((1 : BitVec 144) <<< 101))).setOrd n { o with cursor := o.cursor + 1 }

/-- What a packet waits for when it is formed (R246): none when it becomes ready at once. -/
def Chan.flowCheck (c : Chan) (t : Nat) (p : FPacket) (key : Opd) : Chan × Option ParkFor :=
  let id := p.ctx.toNat
  let k := c.flowKind id
  if (illegalFiring p.instr).isSome then (c, none)
  else match opOf p.instr with
    | some .soloIn =>
      if k = 0 ∨ k = 2 ∨ key.poison then (c, none)
      else
        let q := c.slotOf (c.ctx id).flow.toNat key.val
        if k = 1 then c.askSlot t p q
        else match c.posOf id with
          | none => c.askSlot t p q
          | some (n, i, m) =>
            if posSolo (c.posAt n i) then c.askSlot t p q
            else if (c.ord n).cursor = m then (c.passCursor n i).askSlot t p q
            else (c, some (.cursor n m))
    | some .promRel | some .ctxend =>
      if k = 2 ∨ k = 3 then
        match c.posOf id with
        | some (n, i, m) => if i = 0 then (c, none) else (c, some (.head n m))
        | none => (c, none)
      else (c, none)
    | _ => (c, none)

/-! ## The ready stage (R180, R181, R184, R250) -/

/-- Pushes a packet to its ready queue, or holds it while the queue is full (R181, R327). -/
def Chan.pushReady (c : Chan) (t : Nat) (p : FPacket) : Chan :=
  let q := 8 * t + p.prio.toNat
  if c.qRoom q then (c.setTile t { c.tile t with held := none }).qPush q (packetWord p)
  else c.setTile t { c.tile t with held := some { pkt := p, passed := true } }

/-- Right operand of a matched entry, the key of a SOLO.IN. -/
def Chan.keyOf (c : Chan) (t : Nat) (p : FPacket) : Opd :=
  match c.entry t (entryNo p.row.toNat p.way.toNat) with
  | some x => ⟨x.val1, x.sb1⟩
  | none => {}

/-- Records of the waiting pool (R250). -/
def poolSize : Nat := 8192

/-- A formed packet: cancelled (R184), parked (R250), pushed, or held. `again` is a packet held before. -/
def Chan.readyStage (c : Chan) (t : Nat) (p : FPacket) (again : Bool := false) : Chan :=
  let id := p.ctx.toNat
  if !c.live id then
    ((c.setTile t { c.tile t with held := none }).freeKey t (entryNo p.row.toNat p.way.toNat)).cancel id
  else
    match c.flowCheck t p (c.keyOf t p) with
    | (d, none) => d.pushReady t p
    | (d, some why) =>
      if c.ms.pool.length < poolSize then
        let d := d.setTile t { d.tile t with held := none }
        { d with ms := { d.ms with
            pool := d.ms.pool ++ [{ tile := t, row := p.row, way := p.way, ctx := p.ctx, word := p.instr, why := why }] } }
      else
        let c := if again then c else c.inc F.flStatPoolfull
        c.setTile t { c.tile t with held := some { pkt := p } }

/-- A packet that the ready stage has held is tried again (R181, R250): one that waits for room in its queue only is not checked a second
time against its flow class. -/
def Chan.retryHeld (c : Chan) (t : Nat) (h : HeldPkt) : Chan :=
  if h.passed && c.live h.pkt.ctx.toNat then c.pushReady t h.pkt else c.readyStage t h.pkt true

/-- The packet of a matched entry, with the instruction word given. -/
def packetOf (w : Word) (x : MEntry) (e : Nat) : FPacket :=
  { instr := w, ctx := x.ctx, ip := x.ip, prio := x.pmin, row := BitVec.ofNat 6 (e / 24), way := BitVec.ofNat 5 (e % 24) }

/-! ## The row compare (R166 to R170) -/

/-- Outcome of a row compare: it waits for the ready stage or the Cut-in queue, it finds no way, or it has been placed. -/
inductive RowOut where
  | blocked
  | full
  | done (c : Chan)

/-- The candidate of a token in its row (R167): the earliest allocated WAIT entry of its key without its PORT. -/
def Chan.candidate (c : Chan) (t row ctx ip port : Nat) : Option (Nat × MEntry) :=
  (sortBy (fun (a b : Nat × MEntry) => decide (a.2.born ≤ b.2.born))
    ((c.waits t).filter (fun v => v.1 / 24 == row && v.2.ctx.toNat == ctx && v.2.ip.toNat == ip && !v.2.got.getLsbD port))).head?

/-- Free ways of a row that a key may use: the escape way only for an elder (R168). -/
def Chan.freeWays (c : Chan) (t row : Nat) (elder : Bool) : List Nat :=
  (List.range (if elder then 24 else 23)).filter (fun w => (c.entry t (entryNo row w)).isNone)

/-- The lower of two priorities. -/
def minPrio (a b : BitVec 3) : BitVec 3 := if a.toNat ≤ b.toNat then a else b

/-- Puts a token's operand into an entry and its extension entry (R165 to R167). -/
def Chan.fill (c : Chan) (t e : Nat) (x : MEntry) (tok : Token) : Chan :=
  let port := tagPort tok.tag
  let sb := sbClean tok.sb
  let y := { x with got := x.got ||| BitVec.ofNat 4 (2 ^ port), pmin := minPrio x.pmin (BitVec.ofNat 3 (tagPrio tok.tag)),
                    filledAt := some c.xclk }
  let y := if port = 0 then { y with val0 := tok.val, sb0 := sb } else if port = 1 then { y with val1 := tok.val, sb1 := sb } else y
  let y := if y.got = y.need then { y with st := .matched } else y
  let c := c.setEntry t e y
  if port = 2 then
    let xe := entryNo (e / 24) x.xway.toNat
    match c.entry t xe with
    | some z => c.setEntry t xe { z with val0 := tok.val, sb0 := sb }
    | none => c
  else c

/-- Allocates an entry, with an extension entry when NEED has bit 2, that no token has filled yet (R166, R168). -/
def Chan.allocKey (c : Chan) (now t row ctx ip need way xway : Nat) : Chan :=
  let x : MEntry := { ctx := BitVec.ofNat 24 ctx, ip := BitVec.ofNat 16 ip, need := BitVec.ofNat 4 need, pmin := 7,
                      xway := BitVec.ofNat 5 xway, born := c.ms.births, at_ := now }
  let c := c.setEntry t (entryNo row way) x
  let c := if xway = 31 then c
    else c.setEntry t (entryNo row xway)
      { ctx := x.ctx, ip := x.ip, st := .extension, born := c.ms.births, at_ := now, xway := 0 }
  let c := { c with ms := { c.ms with births := c.ms.births + 1 } }
  (c.msAdd ctx x.size).msMoved

/-- The ways a key takes: primary and extension way, 31 for none (R168). DESIGN CHOICE (log entry 47): of several free ways the lowest, and
the second lowest for the extension entry. -/
def Chan.keyWays (c : Chan) (t row need : Nat) (elder : Bool) : Option (Nat × Nat) :=
  match c.freeWays t row elder with
  | [] => none
  | [a] => if need.testBit 2 then none else some (a, 31)
  | a :: b :: _ => some (a, if need.testBit 2 then b else 31)

/-- The ready stage takes no further match (R181). -/
def Chan.stageBusy (c : Chan) (t : Nat) : Bool := (c.tile t).held.isSome || (c.tile t).rebuild

/-- The row compare of a token of a LIVE context, with the instruction word w read as it entered the tile (R168, R172, R178). `filter` is
false for a token that comes back from Cut-in (R169, R305). -/
def Chan.rowCompare (c : Chan) (now t : Nat) (tok : Token) (w : Word) (filter : Bool) : RowOut :=
  let ctx := tagCtx tok.tag
  let ip := tagIp tok.tag
  let row := homeRow ctx ip
  let port := tagPort tok.tag
  match c.candidate t row ctx ip port with
  | some (e, x) =>
    let full := x.got ||| BitVec.ofNat 4 (2 ^ port) == x.need
    if full && c.stageBusy t then .blocked
    else
      let d := c.fill t e x tok
      match full, d.entry t e with
      | true, some y => .done (d.readyStage t (packetOf w y e))
      | _, _ => .done d
  | none =>
    if filter && c.maySpill t ctx ip then
      if c.ms.cutq.length < 32 then .done { c with ms := { c.ms with cutq := c.ms.cutq ++ [⟨t, tok, w⟩] } } else .blocked
    else
      let need := needPorts w
      match c.keyWays t row need (c.ctx ctx).elder with
      | none => .full
      | some (way, xway) =>
        let full := need == 2 ^ port
        if full && c.stageBusy t then .blocked
        else
          let e := entryNo row way
          let d := c.allocKey now t row ctx ip need way xway
          match d.entry t e with
          | none => .done d
          | some x =>
            let d := d.fill t e x tok
            match full, d.entry t e with
            | true, some y => .done (d.readyStage t (packetOf w y e))
            | _, _ => .done d

/-! ## Arrival (R70, R71, R83, R171, R175) -/

/-- A discarded token: its counter, CH_STRAY and source 8 (R70). -/
def Chan.stray (c : Chan) (f : Fd) (tok : Token) : Chan :=
  let c := c.inc f
  let c := if c.rd F.chStrayTag.off = 0 then c.wr F.chStrayTag.off tok.tag else c
  c.raise 8

/-- Malformed at its home tile: a reserved KIND or TYPE (R46, R47). -/
def malformed (tok : Token) : Bool := decide (4 ≤ tagKind tok.tag) || decide (8 ≤ sbType tok.sb)

/-- The bank's eviction in flight has the token's key (R302). -/
def Chan.evicting (c : Chan) (t ctx ip : Nat) : Bool :=
  match (c.tile t).evict with
  | none => false
  | some v => match c.entry t v.e with
    | some x => x.ctx.toNat == ctx && x.ip.toNat == ip
    | none => false

/-- DETAIL of cause 0x20 for a token that the home tile discards (R83, R88): the reason is 7 at a FAN extension word, 2 at a reserved
MODE, and otherwise 6. -/
def portDetail (w : Word) : BitVec 32 :=
  illegalDetail (if iOp w = 0xF0 ∧ iMode w = 0 then 7 else if modeReserved (iMode w) then 2 else 6) w

/-- The row of a tile lies in a region that the Shuffle has redirected (R189, R368). DESIGN CHOICE (log entry 54): a region of 256 bytes of a
matching bank holds 8 entries in ascending order of their number, so that row r is regions 3r to 3r + 2, redirected if one of them is. -/
def Chan.rowBorrowed (c : Chan) (t row : Nat) : Bool :=
  let x := tblGet c.sp.shuf (128 + t) {}
  let hit := fun (r : Nat) => decide (3 * row ≤ r) && decide (r < 3 * row + 3)
  ((x.step == 2 || x.step == 3) && hit x.region) || (x.halted && hit x.haltAt) || x.spare.any hit

/-- A token enters the tile's miss buffer; it waits in the arrival register while the buffer is full (R171). -/
def Chan.missTok (c : Chan) (t : Nat) (m : Missed) : RowOut :=
  if (c.tile t).miss.length < 8 then .done (c.setTile t { c.tile t with miss := (c.tile t).miss ++ [m] }) else .blocked

/-- A token whose context's state is known, by the rows of R70 and R83; one of a LIVE context enters the row compare. again is true for
a token that comes from the miss buffer. -/
def Chan.judge (c : Chan) (now t : Nat) (st : CtxSt) (tok : Token) (w : Word) (again : Bool) : RowOut :=
  let id := tagCtx tok.tag
  let ip := tagIp tok.tag
  match st with
  | .free | .dead => .done (c.stray F.chTokstatDeadctx tok)
  | .poisoned => .done (c.stray F.chTokstatPoisonctx tok)
  | .live =>
    if 0xE000 ≤ ip ∧ (c.ctx id).supv = false then .done (c.cause now id 0x23 ip 0)
    else if !portConsumed w (tagPort tok.tag) then .done ((c.inc F.msFirestatPorterr).cause now id 0x20 ip (portDetail w))
    else if c.evicting t id ip then c.missTok t ⟨tok, w, .eviction⟩
    else if !again && c.rowBorrowed t (homeRow id ip) then c.missTok t ⟨tok, w, .shuffle⟩
    else c.rowCompare now t tok w true

/-- A grant that nothing uses goes back: the identifier to the head of the free list, in the slot before the present head, and its weight off
N (R57, R212, R292). -/
def Chan.giveBack (c : Chan) (g : Option Grant) : Chan :=
  match g with
  | none => c
  | some g =>
    let h := (c.cu.freeHead + c.freeSlots - 1) % c.freeSlots
    ({ c with cu := { c.cu with freeFront := g.id.toNat :: c.cu.freeFront, freeHead := h,
                                granted := c.cu.granted - g.weight } }).putFreeSlot h g.id.toNat

/-- The packet of a MATCHED entry no longer names an entry: WAY 31 in its queue word, or its waiting-pool record, its place in the ready
stage and in the dispatch stage are gone (R175). -/
def Chan.forgetPacket (c : Chan) (t row way : Nat) : Chan :=
  let c := (List.range 8).foldl (fun c p =>
    (List.range (c.qHeld (8 * t + p))).foldl (fun c i =>
      let w := c.qItem (8 * t + p) i
      let k := wordPacket w
      if k.row.toNat = row ∧ k.way.toNat = way then
        c.setQWord (c.qAddr (8 * t + p) i) (packetWord { k with way := 31 })
      else c) c) c
  let c := c.duets.foldl (fun (c : Chan) e => match e.2.stage with
    | some st => if st.tile = t ∧ st.pkt.row.toNat = row ∧ st.pkt.way.toNat = way then
        (c.giveBack st.grant).setDuet e.1 { c.duet e.1 with stage := none } else c
    | none => c) c
  let x := c.tile t
  let x := match x.held with
    | some k => if k.pkt.row.toNat = row ∧ k.pkt.way.toNat = way then { x with held := none } else x
    | none => x
  { c.setTile t x with ms := { (c.setTile t x).ms with
      pool := c.ms.pool.filter (fun r => !(r.tile == t && r.row.toNat == row && r.way.toNat == way)) } }

/-- The primary entry of the key that an entry belongs to. -/
def Chan.primaryOf (c : Chan) (t e : Nat) : Option (Nat × MEntry) :=
  match c.entry t e with
  | none => none
  | some x =>
    if x.st = .extension then
      (c.ms.entries.find? (fun v => v.1 / 1536 == t && v.1 % 1536 / 24 == e / 24 && v.2.st != .extension
        && v.2.xway.toNat == e % 24)).map (fun v => (v.1 % 1536, v.2))
    else some (e, x)

/-- Calls off the eviction in flight of an entry. -/
def Chan.stopEvictOf (c : Chan) (t e : Nat) (x : MEntry) : Chan :=
  match (c.tile t).evict with
  | some v => if v.e == e then c.stopEvict t x else c
  | none => c

/-- An uncorrectable error in a way: its key is freed and counts as an orphan; its context is poisoned (R175, R71, R682). -/
def Chan.entryLost (c : Chan) (now t e : Nat) : Chan :=
  match c.primaryOf t e with
  | none => c
  | some (p, x) =>
    let id := x.ctx.toNat
    let d := (c.inc F.msStatUncorr).stopEvictOf t p x
    let d := if x.st == .matched then d.forgetPacket t (p / 24) (p % 24) else d
    let d := d.freeKey t p
    if id == 0 && d.live 0 then d.poisonCtx now 0 else (d.orphan id).poisonCtx now id

/-- The cached record of a context is uncorrectable (R625): a clean one is filled anew, the context of a dirty one is poisoned and killed
(R71). -/
def Chan.recordLost (c : Chan) (now id : Nat) : Chan :=
  match c.cu.cached.find? (fun e => e.1 == id) with
  | none => c
  | some (_, true) => c.poisonCtx now id
  | some (_, false) => if id = 0 then c else { c with cu := { c.cu with cached := c.cu.cached.filter (fun e => e.1 != id) } }

/-- What the row read, or the lookup of the context of number id, finds (R175, R625). -/
def Chan.rowRead (c : Chan) (now t row id : Nat) (f : RowFault) : Chan :=
  match f with
  | .clean => c
  | .record => c.recordLost now id
  | .corrected w => if (c.entry t (entryNo row w.val)).isSome then c.inc F.msStatCorr else c
  | .uncorrectable w => if (c.entry t (entryNo row w.val)).isSome then c.entryLost now t (entryNo row w.val) else c

/-- Tokens of the Cut-in queue (R305). -/
def cutqSize : Nat := 32

/-- The tile works: no rebuild runs, and it is powered (R338, R429). -/
def Chan.tileOn (c : Chan) (t : Nat) : Bool := !(c.tile t).rebuild && c.setRuns (setOf t) && c.domUp 4

/-- The tile takes arrivals from its router: it works, its buffers, the Cut-in queue and the waiting pool have room (R170, R171, R250, R263,
R305). -/
def Chan.takesArrivals (c : Chan) (t : Nat) : Bool :=
  decide ((c.tile t).defer.length < 4) && decide ((c.tile t).miss.length < 8) && decide (c.ms.cutq.length < cutqSize)
    && decide (c.ms.pool.length < poolSize) && c.tileOn t

/-- Defers a token that cannot be placed and starts a demand eviction (R170, R300). -/
def Chan.deferTok (c : Chan) (now t : Nat) (tok : Token) (w : Word) (errs : LineErrs) : Chan :=
  let c := (c.setTile t { c.tile t with defer := (c.tile t).defer ++ [{ tok := tok, word := w }] }).inc F.msStatDefer
  c.demandEvict now t errs

/-- Places a judged token, deferring it where no way is free; none where it must wait. -/
def Chan.place (c : Chan) (now t : Nat) (tok : Token) (w : Word) (errs : LineErrs) (o : RowOut) : Option Chan :=
  match o with
  | .blocked => none
  | .done d => some d
  | .full => if (c.tile t).defer.length < 4 then some (c.deferTok now t tok w errs) else none

/-- A token in the arrival register of tile t, with its word; none while it has to wait there. Its lookup returns the state before a change
that takes effect in this XCLK (R56), so that a token of a context poisoned in it is inserted (R71). -/
def Chan.arrival (c : Chan) (now t : Nat) (tok : Token) (w : Word) (f : RowFault) (errs : LineErrs) : Option Chan :=
  let id := tagCtx tok.tag
  let c := if f = .record ∧ malformed tok then c else c.rowRead now t (homeRow id (tagIp tok.tag)) id f
  if malformed tok then some (c.stray F.chTokstatMalformed tok)
  else if c.ctxLimit ≤ id then some (c.stray F.chTokstatDeadctx tok)
  else if !c.cacheHas id then
    match c.missTok t ⟨tok, w, .record⟩ with
    | .done d => some (d.inc F.msStatMiss)
    | _ => none
  else
    let c := c.cacheTouch id false
    c.place now t tok w errs (c.judge now t (c.seenSt id) tok w false)

/-- TOKEN_ARRIVAL: the token in the arrival register of tile t; e is what its row read finds, errs what an eviction's reads find. -/
def execTokenArrival (k : Ch) (t : Tile) (e : RowFault) (s : State) (errs : LineErrs := []) : Host.Outcome State Fault Refusal :=
  onCh k s (fun _ c =>
    match c.arrived t.val 0 with
    | some { pay := .tok tok, word := w, .. } =>
      if !c.tileOn t.val then c
      else match (c.takeArrived t.val 0).arrival c.xclk t.val tok w e errs with
        | some d => d
        | none => c
    | _ => c)

/-- The record of a context is read from the table (R171, R397): internal-port access. -/
def Chan.fillRecord (c : Chan) (now time id : Nat) (errs : LineErrs) : Chan :=
  if c.cacheHas id then c else ((c.dmTake time).dmLine now errs (c.recordLine id)).cacheTouch id false

/-- CONTEXT_RECORD_FILL (R55, R171, R397): the record of the oldest missed token that can have one arrives; held while the memory does not
take the read (R390, R405). A token that has to wait on stays in the buffer, its record in the cache. -/
def execContextRecordFill (k : Ch) (t : Tile) (errs : LineErrs) (s : State) : Host.Outcome State Fault Refusal :=
  onCh k s (fun dv c =>
    let x := c.tile t.val
    match findIx c.missDue x.miss with
    | none => c
    | some i =>
      match x.miss[i]? with
      | none => c
      | some m =>
        let id := tagCtx m.tok.tag
        if !c.cacheHas id && !c.dmInner [c.recordLine id] then c
        else
          let f := c.fillRecord c.xclk dv.time id errs
          let d := f.setTile t.val { f.tile t.val with miss := dropNth (f.tile t.val).miss i }
          match d.place c.xclk t.val m.tok m.word errs (d.judge c.xclk t.val (d.seenSt id) m.tok m.word true) with
          | some d => d
          | none => f)

/-- A retried token whose context is not LIVE is discarded as an orphan (R170). -/
def Chan.dropRetried (c : Chan) (tok : Token) : Chan := c.orphan (tagCtx tok.tag)

/-- DEFERRED_TOKEN_RETRY (R170): the oldest deferred token of tile t. DESIGN CHOICE (log entry 48): its context's state is read as of a hit,
also where the record has left the cache. -/
def execDeferredTokenRetry (k : Ch) (t : Tile) (s : State) (errs : LineErrs := []) : Host.Outcome State Fault Refusal :=
  onCh k s (fun _ c =>
    let x := c.tile t.val
    match x.defer with
    | [] => c
    | d :: r =>
      let e := c.setTile t.val { x with defer := r }
      if c.seenSt (tagCtx d.tok.tag) != .live then e.dropRetried d.tok
      else if c.evicting t.val (tagCtx d.tok.tag) (tagIp d.tok.tag) then c
      else match e.rowCompare c.xclk t.val d.tok d.word true with
        | .done e => e
        | .blocked => c
        | .full => c.demandEvict c.xclk t.val errs)

/-- READY_PUSH_RETRY (R181): the packet that the ready stage of tile t holds. -/
def execReadyPushRetry (k : Ch) (t : Tile) (s : State) : Host.Outcome State Fault Refusal :=
  onCh k s (fun _ c =>
    match (c.tile t.val).held with
    | none => c
    | some h => if (c.tile t.val).rebuild then c else c.retryHeld t.val h)

/-- PARKED_FIRING_WAKE (R250): the firing parked at an entry whose wait has ended is formed again, checked and pushed. -/
def execParkedFiringWake (k : Ch) (t : Tile) (e : EntryId) (s : State) : Host.Outcome State Fault Refusal :=
  onCh k s (fun _ c =>
    match findIx (fun r => r.tile == t.val && entryNo r.row.toNat r.way.toNat == e.val && r.woken) c.ms.pool with
    | none => c
    | some i =>
      match c.entry t.val e.val, c.ms.pool[i]? with
      | some x, some r =>
        let p := packetOf r.word x e.val
        let d := { c with ms := { c.ms with pool := dropNth c.ms.pool i } }
        if !c.live x.ctx.toNat then (d.freeKey t.val e.val).cancel x.ctx.toNat
        else if c.stageBusy t.val then c
        else d.pushReady t.val p
      | _, _ => c)

end Sys2Proof.Machine
end

