-- ==== Sys2Proof/Machine/QueueOps.lean ====
section
/-! DEFINITION. The queue unit: the queue instructions at the unit, their waiters, and the status words (R117, R332 to R339). -/

namespace Sys2Proof.Machine

/-- The queue that a request of R117 names. -/
def ReqKind.queue : ReqKind → Option Nat
  | .qpush q | .qpop q | .qmark q | .qrewind q | .qrelease q => some q
  | .ld | .st | .cas | .swap | .xadd | .acc | .exc | .acq | .tryacq | .rel | .ldLock => none

/-- The status token's operand (R334): CODE, and HELD after the operation. -/
def statusOpd (code held : Nat) : Opd := mkOpd (BitVec.ofNat 64 (code <<< 56 + held % 2 ^ 14)) 1 false

/-- A word of a software queue (R325). -/
def softWord (o : Opd) : BitVec 144 := (0 : BitVec 72) ++ o.sb ++ o.val
def softOpd (w : BitVec 144) : Opd := ⟨w.extractLsb' 0 64, w.extractLsb' 64 8⟩

/-- The request has a destination for its result. -/
def Reply.hasDest : Reply → Bool
  | .tags none none => false
  | .tags (some _) _ | .tags none (some _) | .regs _ _ _ => true

/-- A QPOP takes the word at RD (R332, R336, R339): it leaves from tile t, poisoned where a half that holds data is lost. With
RETAIN 0 its space is freed once it is accepted, at once where it has no destination. -/
def Chan.popWord (c : Chan) (t q : Nat) (r : Req) (pf : Parity) : Chan :=
  let w := c.qItem q (c.qRead q)
  match c.qParity q pf with
  | (c, lost, _) =>
    let c := if lost then c.qPoisonEvent q else c
    let c := c.qAdvance q
    let o := (softOpd w).orPoison lost
    if c.qRetain q then c.reply t r.reply o o
    else if r.reply.hasDest then c.reply t r.reply o o (.qword q)
    else c.qRelease q 1

/-- A request that a dead party made is dropped, an orphan: of its context, or of a caller that was reset, which has no ORPHANS (R187, R333,
R372, R373). -/
def Chan.dropDead (c : Chan) (w : Who) : Chan :=
  match w with
  | .ctx id _ => c.cancel id.toNat
  | .caller _ _ => c.inc F.msFirestatCancel

/-- A request for which its unit has no waiter record free waits as the oldest entry of the commit buffer it left (R210, R333,
R374; log entry 38). -/
def Chan.backToCb (c : Chan) (r : Req) : Chan :=
  let id := match r.who with | .ctx id _ => id | .caller n _ => BitVec.ofNat 24 (c.fld (F.ccCctxCtx n))
  let e : CEntry := { ent := .req r, ctx := id, ip := r.ip }
  if r.cb < 68 then c.setDuet r.cb { c.duet r.cb with cb := e :: (c.duet r.cb).cb }
  else c.setCaller (r.cb - 68) { c.caller (r.cb - 68) with cb := e :: (c.caller (r.cb - 68)).cb }

/-- Pop-waiter records of a channel (R333). -/
def popRecords : Nat := 256

/-- The oldest waiter of queue q whose party is alive. -/
def Chan.popWaiter (c : Chan) (q : Nat) : Option Nat :=
  findIx (fun w => w.q == q && c.whoLive w.req.who) c.qu.waiters

/-- A pushed word goes to the oldest live waiter (R333). -/
def Chan.serveWaiter (c : Chan) (t q : Nat) (pf : Parity) : Chan :=
  match c.popWaiter q with
  | none => c
  | some i =>
    match c.qu.waiters[i]? with
    | none => c
    | some w => ({ c with qu := { c.qu with waiters := dropNth c.qu.waiters i } }).popWord t q w.req pf

/-- QPUSH at the unit (R334). -/
def Chan.unitPush (c : Chan) (t q : Nat) (r : Req) (pf : Parity) : Chan :=
  if c.qRoom q then
    let c := c.qPush q (softWord r.d0)
    (c.reply t r.reply (statusOpd 0 (c.qptr q).held) (statusOpd 0 (c.qptr q).held)).serveWaiter t q pf
  else c.reply t r.reply (statusOpd 1 (c.qptr q).held) (statusOpd 1 (c.qptr q).held)

/-- QPOP at the unit; none where it would have to wait and every waiter record is in use (R333). -/
def Chan.unitPop (c : Chan) (t q : Nat) (r : Req) (pf : Parity) : Option Chan :=
  if !c.whoLive r.who then some (c.dropDead r.who)
  else if c.qGives q then some (c.popWord t q r pf)
  else if c.qu.waiters.length < popRecords then
    some { c with qu := { c.qu with waiters := c.qu.waiters ++ [⟨q, r⟩] } }
  else none

/-- QMARK, QREWIND and QRELEASE at the unit (R332): with RETAIN 0 they change nothing and answer MODE. A mark takes RD as it was before a read of
the same XCLK, and a rewind leaves no read in it (R335). -/
def Chan.unitMark (c : Chan) (t q : Nat) (r : Req) : Chan :=
  if !c.qRetain q then c.reply t r.reply (statusOpd 3 (c.qptr q).held) (statusOpd 3 (c.qptr q).held)
  else
    let p := c.qptr q
    let c := match r.kind with
      | .qmark _ => c.setQptr q { p with marks := [p.held - p.unread - (c.qNow q).reads * c.qUnit q] }
      | .qrewind _ => c.setQptr q { c.qNow q with unread := p.held - p.marks.headD 0, reads := (c.qNow q).reads + 1 }
      | _ =>
        let c := c.qRelease q (c.qRead q)
        c.setQptr q { c.qptr q with marks := [] }
    c.reply t r.reply (statusOpd 0 (c.qptr q).held) (statusOpd 0 (c.qptr q).held)

/-- A queue instruction at the unit (R334): a queue that it may not address raises cause 0x27. None where it has to wait. -/
def Chan.unitOp (c : Chan) (now t q : Nat) (r : Req) (pf : Parity) : Option Chan :=
  if !(decide (960 ≤ q) && c.qEn q) then some (c.causeFor now r 0x27 (BitVec.ofNat 32 q))
  else match r.kind with
    | .qpush _ => some (c.unitPush t q r pf)
    | .qpop _ => c.unitPop t q r pf
    | _ => some (c.unitMark t q r)

/-- The request waits for the next XCLK: the queue has taken a push, or given an item, in this one (R335). -/
def Chan.qTurnOver (c : Chan) (q : Nat) (r : Req) : Bool :=
  match r.kind with
  | .qpush _ => (c.qNow q).pushed != 0
  | .qpop _ => (c.qNow q).reads != 0 && c.whoLive r.who
  | _ => false

/-- QUEUE_UNIT_OPERATION: the queue instruction delivered to the unit at tile t; pf is what the read's parity finds. -/
def execQueueUnitOperation (k : Ch) (t : Tile) (pf : Parity) (s : State) : Host.Outcome State Fault Refusal :=
  onCh k s (fun _ c =>
    match c.arrived t.val 1 with
    | some { pay := .req r, .. } =>
      match r.kind.queue with
      | none => c
      | some q =>
        if !c.domUp 4 || c.qTurnOver q r then c
        else
          let c := c.takeArrived t.val 1
          (c.unitOp c.xclk t.val q r pf).getD (c.backToCb r)
    | _ => c)

/-- POP_WAITER_REMOVAL (R333): waiter i, whose context has left LIVE. -/
def execPopWaiterRemoval (k : Ch) (i : Nat) (s : State) : Host.Outcome State Fault Refusal :=
  onCh k s (fun _ c =>
    match c.qu.waiters[i]? with
    | none => c
    | some w =>
      if c.whoLive w.req.who then c
      else ({ c with qu := { c.qu with waiters := dropNth c.qu.waiters i } }).dropDead w.req.who)

end Sys2Proof.Machine
end

