-- ==== Sys2Proof/Machine/ScratchOps.lean ====
section
/-! DEFINITION. Loads, stores and atomics at the memory side, the scratchpad banks, and split accesses (R347 to R362, R116). -/

namespace Sys2Proof.Machine

/-! ## Bytes with their poison (R348, R350, R359, R362, R395) -/

/-- Poison of each of n bytes from an address up: that of its word. -/
def Chan.bytePoison (c : Chan) (a n : Nat) : List Bool := (List.range n).map (fun i => c.poisonAt (a + i))

/-- An operand of bytes, little-endian, poisoned where one of them is. -/
def bytesOpd (ty : Nat) (bs : List Byte) (ps : List Bool) : Opd := mkOpd (BitVec.ofNat 64 (bytesVal bs)) ty (ps.any id)

/-- The two results of a load (R115, R356): LD.q gives bytes 0-7 and 8-15, each with its own poison. -/
def loadOpds (r : Req) (bs : List Byte) (ps : List Bool) : Opd × Opd :=
  if r.size = 16 then (bytesOpd r.ty.toNat (bs.take 8) (ps.take 8), bytesOpd r.ty.toNat (bs.drop 8) (ps.drop 8))
  else (bytesOpd r.ty.toNat bs ps, bytesOpd r.ty.toNat bs ps)

/-- The bytes of a store with their poison (R49, R359). -/
def storeBytes (r : Req) : List Byte × List Bool :=
  if r.size = 16 then (valBytes r.d0.val.toNat 8 ++ valBytes r.d1.val.toNat 8,
                       List.replicate 8 r.d0.poison ++ List.replicate 8 r.d1.poison)
  else (valBytes r.d0.val.toNat r.size, List.replicate r.size r.d0.poison)

/-- The poison bit of the word at w after a store of bytes at a (R359): set by a poisoned byte, cleared by eight clean ones. -/
def Chan.storePoison (c : Chan) (a : Nat) (ps : List Bool) (w : Nat) : Chan :=
  let mine := (ps.zipIdx.filter (fun e => (a + e.2) / 8 == w / 8)).map (·.1)
  if mine.any id then c.markWord w true
  else if mine.length = 8 then c.markWord w false
  else c

/-- Writes bytes with their poison. -/
def Chan.writeBytes (c : Chan) (a : Nat) (bs : List Byte) (ps : List Bool) : Chan :=
  let n := (a + bs.length - 1) / 8 - a / 8 + 1
  (List.range n).foldl (fun c i => c.storePoison a ps ((a / 8 + i) * 8)) { c with mem := c.putBytesAt c.mem a bs }

/-- The word after an atomic, and its poison bit (R148, R362). -/
def atomicWord (r : Req) (old : Word) (p : Bool) : Word × Bool :=
  match r.kind with
  | .cas => if old = r.d0.val then (r.d1.val, r.d1.poison) else (old, p)
  | .swap => (r.d0.val, r.d0.poison)
  | .xadd => (old + r.d0.val, p || r.d0.poison)
  | .acc => (accAdd old r.d0.val, p || r.d0.poison)
  | _ => (old, p)

/-- The done token (R115, R116). -/
def doneOpd : Opd := mkOpd 0 1 false

/-- Carries out an atomic and gives its result: the old word, or done for ACC.d. The word stays poisoned where it was
uncorrectable (R360). -/
def Chan.atomicOp (c : Chan) (r : Req) (bad : Bool) : Chan × Opd :=
  let a := r.addr.toNat
  let old := c.wordAt a
  let p := c.poisonAt a
  let n := atomicWord r old p
  ((c.putWord a n.1).markWord a (n.2 || bad), if r.kind = .acc then doneOpd else mkOpd old r.ty.toNat p)

/-- Carries out a load, store or atomic and gives its results; bad is set where the word read was uncorrectable. -/
def Chan.memOp (c : Chan) (r : Req) (bad : Bool) : Chan × Opd × Opd :=
  let a := r.addr.toNat
  match r.kind with
  | .ld =>
    let o := loadOpds r (c.bytesAt a r.size) (c.bytePoison a r.size)
    (c, o.1, o.2)
  | .st => (c.writeBytes a (storeBytes r).1 (storeBytes r).2, doneOpd, doneOpd)
  | _ =>
    let o := c.atomicOp r bad
    (o.1, o.2, o.2)

/-- The words that n bytes at a touch. -/
def wordsOf (a n : Nat) : List Nat := (List.range ((a + n + 7) / 8 - a / 8)).map (fun i => (a / 8 + i) * 8)

/-- The words that a request reads of n bytes at a: a store those that it covers only in part (R358, R360). -/
def Req.readsAt (r : Req) (a n : Nat) : List Nat :=
  match r.kind with
  | .st => (wordsOf a n).filter (fun w => !(decide (a ≤ w) && decide (w + 8 ≤ a + n)))
  | _ => wordsOf a n

/-! ## The banks (R349, R357, R360) -/

/-- The banks and the lock memory take accesses (R349, R363). -/
def Chan.spReady (c : Chan) : Bool := !c.sp.clearing && c.domUp 4 && !(c.dom 4).retention

/-- A word of a HALTED bank is uncorrectable (R645). -/
def Chan.noteSpent (c : Chan) (a : Nat) : Chan :=
  let x := tblGet c.sp.shuf (bankOf a) {}
  if a < scratchSize ∧ x.halted then { c with sp := { c.sp with shuf := tblPut c.sp.shuf (bankOf a) { x with spent := true } {} } } else c

/-- A bank serves a request in this XCLK, which a Shuffle under way does not have (R357). -/
def Chan.useBank (c : Chan) (b : Nat) : Chan :=
  let x := tblGet c.sp.shuf b {}
  if x.step = 0 then c else { c with sp := { c.sp with shuf := tblPut c.sp.shuf b { x with used := true } {} } }

/-- What the code of a word read finds (R360): corrected (false), or uncorrectable. -/
def Chan.spCode (c : Chan) (a : Nat) (e : Option Bool) : Chan :=
  match e with
  | none => c
  | some false => c.inc F.spStatCorr
  | some true =>
    let c := ((c.markWord a true).noteSpent a).inc F.spStatUncorr
    let c := if c.flag F.spErraddrValid then c else (c.setFld F.spErraddrValid 1).setFld F.spErraddrAddr (a / 8 * 8)
    c.raise 9

/-- What the code finds in a word. -/
def wordErr (errs : WordErrs) (w : Nat) : Option Bool := (errs.find? (fun e => e.1 / 8 * 8 == w)).map (·.2)

/-- The code of each word that an access reads, and whether one is uncorrectable (R360). -/
def Chan.spReads (c : Chan) (ws : List Nat) (errs : WordErrs) : Chan × Bool :=
  (ws.foldl (fun c w => c.spCode w (wordErr errs w)) c, ws.any (fun w => wordErr errs w == some true))

/-- The code of what an access of n bytes at a reads. -/
def Chan.spRead (c : Chan) (r : Req) (a n : Nat) (errs : WordErrs) : Chan × Bool := c.spReads (r.readsAt a n) errs

/-! ## Split accesses (R353 to R356) -/

/-- Bytes of the primary part. -/
def primLen (a : Nat) : Nat := 64 - a % 64

/-- Bytes [a, a + n) that a split access under way keeps locked (R354). -/
def Split.locked (x : Split) : List (Nat × Nat) :=
  let a := x.req.addr.toNat
  (if x.stage ≤ 1 then [(a, primLen a)] else [])
    ++ (if x.req.kind = .st ∧ 1 ≤ x.stage then [(a + primLen a, x.req.size - primLen a)] else [])

/-- Two byte ranges meet. -/
def overlap (a n b m : Nat) : Bool := decide (a < b + m) && decide (b < a + n)

/-- A byte of the range is locked. -/
def Chan.spLocked (c : Chan) (a n : Nat) : Bool := c.sp.splits.any (fun x => x.locked.any (fun g => overlap a n g.1 g.2))

/-- The first part of a request at its bank: all of it, or its primary part. -/
def Req.firstLen (r : Req) : Nat := if isSplit r.addr.toNat r.size then primLen r.addr.toNat else r.size

/-- The request cannot be served yet: a byte is locked, or an earlier waiting request touches it (R354, R357). -/
def Chan.spBlocked (c : Chan) (r : Req) (earlier : List (Nat × Req)) : Bool :=
  c.spLocked r.addr.toNat r.firstLen
    || earlier.any (fun q => overlap r.addr.toNat r.size q.2.addr.toNat q.2.size)

/-- A message of split access x goes from tile t to tile u, as a class B packet (R354, R422 to R424): the secondary part, its answer, or
go. -/
def Chan.splitMsg (c : Chan) (x : Split) (t u : Nat) : Chan :=
  c.inject t { pay := .split x.id, cls := true, dkind := 6, dtile := u, nflit := if x.req.kind = .st then 1 else 0 }

/-- The bank of tile t takes a request (R354, R358): it is carried out and answered, or its split begins. -/
def Chan.spServe (c : Chan) (t : Nat) (r : Req) (e : WordErrs) : Chan :=
  let a := r.addr.toNat
  match (c.useBank t).spRead r a r.firstLen e with
  | (c, bad) =>
    if isSplit a r.size then
      let x : Split := { id := c.sp.splitNext, req := r, t1 := t, t2 := bankOf (a + primLen a), data1 := c.bytesAt a (primLen a),
                         poison1 := c.bytePoison a (primLen a) }
      (({ c with sp := { c.sp with splits := c.sp.splits ++ [x], splitNext := x.id + 1 } }).inc F.spStatSplit).splitMsg x t x.t2
    else
      match c.memOp r bad with
      | (c, o0, o1) => c.reply t r.reply o0 o1

/-- The oldest request of tile t that waits and can be served: its index. -/
def Chan.spNext (c : Chan) (t : Nat) : Option Nat :=
  findIx (fun (e : (Nat × Req) × Nat) => e.1.1 == t && !c.spBlocked e.1.2 (c.sp.waiting.take e.2)) c.sp.waiting.zipIdx

/-- A request for a word of the scratchpad. -/
def Chan.spRequest (c : Chan) (r : Req) : Bool := r.kind.queue.isNone && c.range r.addr.toNat == .scratch

/-- SCRATCHPAD_ACCESS: the oldest request that the bank of tile t can serve, with what the code of the words read finds; an
arrived request that cannot be served waits at the bank (R357). -/
def execScratchpadAccess (k : Ch) (t : Tile) (e : WordErrs) (s : State) : Host.Outcome State Fault Refusal :=
  onCh k s (fun _ c =>
    if !c.spReady then c
    else match c.spNext t.val with
      | some i =>
        (match c.sp.waiting[i]? with
         | some q => ({ c with sp := { c.sp with waiting := dropNth c.sp.waiting i } }).spServe t.val q.2 e
         | none => c)
      | none =>
        match c.arrived t.val 1 with
        | some { pay := .req r, .. } =>
          if !c.spRequest r then c
          else
            let c := c.takeArrived t.val 1
            if c.spBlocked r c.sp.waiting then { c with sp := { c.sp with waiting := c.sp.waiting ++ [(t.val, r)] } }
            else c.spServe t.val r e
        | _ => c)

/-- Replaces split access i. -/
def Chan.setSplit (c : Chan) (i : Nat) (x : Split) : Chan := { c with sp := { c.sp with splits := setNth c.sp.splits i x } }
def Chan.dropSplit (c : Chan) (i : Nat) : Chan := { c with sp := { c.sp with splits := dropNth c.sp.splits i } }

/-- A message of split access n has reached its bank (R354). -/
def Chan.splitHere (c : Chan) (n : Nat) : Chan :=
  { c with sp := { c.sp with splits := c.sp.splits.map (fun x => if x.id = n then { x with got := true } else x) } }

/-- Secondary parts that hold a pending register of bank t (R355). -/
def Chan.pendingRegs (c : Chan) (t : Nat) : Nat := c.sp.splits.countP (fun x => x.t2 == t && decide (1 ≤ x.stage) && x.req.kind == .st)

/-- The oldest split access of the list for which p holds, with its place. -/
def Chan.splitFor (c : Chan) (p : Split → Bool) : Option (Nat × Split) :=
  match findIx p c.sp.splits with
  | some i => (c.sp.splits[i]?).map (fun x => (i, x))
  | none => none

/-- Address and length of the secondary part. -/
def Split.second (x : Split) : Nat × Nat := (x.req.addr.toNat + primLen x.req.addr.toNat, x.req.size - primLen x.req.addr.toNat)

/-- SPLIT_SECONDARY_PART (R354, step 3): the oldest secondary part that has reached tile t and whose bytes are not locked; for a store, once
a pending register is free (R355). A load returns its data, a store answers ready. -/
def execSplitSecondaryPart (k : Ch) (t : Tile) (e : WordErrs) (s : State) : Host.Outcome State Fault Refusal :=
  onCh k s (fun _ c =>
    match c.splitFor (fun x => x.t2 == t.val && x.stage == 0 && x.got && !c.spLocked x.second.1 x.second.2
        && !(x.req.kind == .st && decide (4 ≤ c.pendingRegs t.val))) with
    | none => c
    | some (i, x) =>
      let g := x.second
      if !c.spReady then c
      else
        match ((c.useBank t.val).splitMsg x t.val x.t1).spRead x.req g.1 g.2 e with
        | (c, _) =>
          let x := { x with stage := 1, got := false }
          if x.req.kind = .st then c.setSplit i x
          else c.setSplit i { x with data := c.bytesAt g.1 g.2, poison := c.bytePoison g.1 g.2 })

/-- SPLIT_REPLY (R354, step 4, R356): the oldest answer that has reached tile t. A load joins its parts; a store writes its primary part,
sends go and its done token. -/
def execSplitReply (k : Ch) (t : Tile) (s : State) : Host.Outcome State Fault Refusal :=
  onCh k s (fun _ c =>
    match c.splitFor (fun x => x.t1 == t.val && x.stage == 1 && x.got) with
    | none => c
    | some (i, x) =>
      if !c.spReady then c
      else if x.req.kind = .st then
        let a := x.req.addr.toNat
        let b := storeBytes x.req
        ((((c.writeBytes a (b.1.take (primLen a)) (b.2.take (primLen a))).setSplit i { x with stage := 2, got := false }).splitMsg
          x t.val x.t2)).reply t.val x.req.reply doneOpd doneOpd
      else
        let o := loadOpds x.req (x.data1 ++ x.data) (x.poison1 ++ x.poison)
        (c.dropSplit i).reply t.val x.req.reply o.1 o.2)

/-- SPLIT_GO (R354, step 4): the oldest secondary part whose go has reached tile t is written. -/
def execSplitGo (k : Ch) (t : Tile) (s : State) : Host.Outcome State Fault Refusal :=
  onCh k s (fun _ c =>
    match c.splitFor (fun x => x.t2 == t.val && x.stage == 2 && x.got) with
    | none => c
    | some (i, x) =>
      if !c.spReady then c
      else
        let a := x.req.addr.toNat
        let b := storeBytes x.req
        (c.writeBytes (a + primLen a) (b.1.drop (primLen a)) (b.2.drop (primLen a))).dropSplit i)

/-- SCRATCHPAD_CLEAR_COMPLETE (R349): the clearing, whose effect stands from its start, ends. -/
def execScratchpadClearComplete (k : Ch) (s : State) : Host.Outcome State Fault Refusal :=
  onCh k s (fun _ c => { c with sp := { c.sp with clearing := false } })

end Sys2Proof.Machine
end

