-- ==== Sys2Proof/Machine/SteerOps.lean ====
section
/-! DEFINITION. Steering, context, loop and flow instructions (R98 to R113). Effects on contexts, loops and flows are kept
with the firing and take place when its window commits (R204, Commit.lean). -/

namespace Sys2Proof.Machine

/-- An operand passed on, with its TYPE and POISON. -/
def Opd.pass (o : Opd) : Opd := mkOpd o.val o.ty o.poison

/-- Result of COPY (R98, R122). -/
def vCopy (x : In) : Val := toBoth x.l.pass

/-- COPY. -/
def execCopy (k : Ch) (u : Exe) (s : State) : Host.Outcome State Fault Refusal := onCh k s (fire .copy vCopy u 0)

/-- Whether a word is a FAN extension word (R99). -/
def isFanx (w : Word) : Bool := iOp w == 0xF0 && iMode w == 0 && iImm w == 0

/-- The extension words of a FAN (R99). DESIGN CHOICE (log entry 49): a range that passes IP 0xFFFF goes on at IP 0. -/
def fanWords (x : In) : List Word := (List.range (iImm x.w % 8)).map (fun i => x.c.instr (x.ip + 1 + i))

/-- Result of FAN (R99): cause 0x20 with reason 7 when a word in its range is no extension word. -/
def vFan (x : In) : Val :=
  let ws := fanWords x
  if ws.all isFanx then
    { toBoth x.l.pass with more := ws.flatMap (fun w => [(iDest0 w, x.l.pass), (iDest1 w, x.l.pass)]) }
  else causeVal 0x20 (illegalDetail 7 x.w)

/-- FAN. -/
def execFan (k : Ch) (d : DuetId) (s : State) : Host.Outcome State Fault Refusal :=
  onCh k s (fire .fan vFan (.duet d) 0)

/-- Result of SWITCH (R98): Rt controls. -/
def vSwitch (x : In) : Val :=
  ctl [x.r] (if x.r.val ≠ 0 then { r0 := some x.l.pass } else { r1 := some x.l.pass })

/-- SWITCH. -/
def execSwitch (k : Ch) (d : DuetId) (s : State) : Host.Outcome State Fault Refusal :=
  onCh k s (fire .switch vSwitch (.duet d) 0)

/-- Result of GATE (R98, R100): Rt controls, IMM[0] inverts. -/
def vGate (x : In) : Val :=
  ctl [x.r] (if xor (x.r.val != 0) ((iImm x.w).testBit 0) then toBoth x.l.pass else {})

/-- GATE. -/
def execGate (k : Ch) (d : DuetId) (s : State) : Host.Outcome State Fault Refusal :=
  onCh k s (fire .gate vGate (.duet d) 0)

/-- Result of SINK (R98): nothing. -/
def vSink (_ : In) : Val := {}

/-- SINK. -/
def execSink (k : Ch) (d : DuetId) (s : State) : Host.Outcome State Fault Refusal :=
  onCh k s (fire .sink vSink (.duet d) 0)

/-- Result of CTXNEW in the granted identifier (R101, R124). In sequential mode only RD receives it. -/
def vCtxnew (x : In) : Val :=
  match x.grant with
  | none => ctl [if x.seq || iArity x.w == 1 then x.l else x.r] {}
  | some g =>
    let id : Opd := mkOpd (BitVec.ofNat 64 g.id.toNat) 1 false
    if x.seq then ctl [x.l] { r0 := some id, effs := [.ctxnew g x.l.val] }
    else if iArity x.w = 1 then ctl [x.l] { toBoth id with effs := [.ctxnew g x.l.val] }
    else
      let v : Opd := x.l.pass
      let first : List Token :=
        if iDest0 x.w = noDest then [] else [⟨v.sb, v.val, x.outTag (iDest0 x.w) g.id.toNat⟩]
      let second : List Token :=
        if iDest1 x.w = noDest then [] else [⟨mkSb 1 x.l.poison, id.val, x.outTag (iDest1 x.w) x.ctx⟩]
      ctl [x.r] { toks := first ++ second, effs := [.ctxnew g x.r.val] }

/-- A caller's CTXNEW waits for its grant (R58, R487); one that raises a cause needs none (R49, R476). -/
def callerHasGrant (u : Exe) (c : Chan) : Bool :=
  match u with
  | .duet _ => true
  | .caller n => (c.caller n.val).grant.isSome || c.fetchDenied n.val
      || (withImm (c.callerWord n.val) ((c.caller n.val).opd (iRs1 (c.callerWord n.val))) {} {}).1.poison

/-- CTXNEW. -/
def execCtxnew (k : Ch) (u : Exe) (s : State) : Host.Outcome State Fault Refusal :=
  onCh k s (fun dv c => if callerHasGrant u c then fire .ctxnew vCtxnew u 0 dv c else c)

/-- Effect of CTXEND (R60); in context 0 it raises cause 0x24 (R682). -/
def vCtxend (x : In) : Val := if x.ctx = 0 then causeVal 0x24 0 else { effs := [.ctxend x.l.pass] }

/-- CTXEND. -/
def execCtxend (k : Ch) (d : DuetId) (s : State) : Host.Outcome State Fault Refusal :=
  onCh k s (fire .ctxend vCtxend (.duet d) 0)

/-- Effect of CTXKILL (R98, R61): the rights are judged when it takes effect. -/
def vCtxkill (x : In) : Val :=
  ctl [x.l] { effs := [.kill (BitVec.ofNat 24 (wbits x.l.val 0 24)) (BitVec.ofNat 8 (iImm x.w))] }

/-- CTXKILL. -/
def execCtxkill (k : Ch) (u : Exe) (s : State) : Host.Outcome State Fault Refusal := onCh k s (fire .ctxkill vCtxkill u 0)

/-- DETAIL of cause 0x26 (R88). -/
def detail26 (tag : Word) : BitVec 32 := BitVec.ofNat 32 ((tagIp tag) <<< 16 + tagKind tag)

/-- The first case of R105 that refuses a tag. -/
def tagRefused (supv : Bool) (tag : Word) : Option (Nat × BitVec 32) :=
  if tagKind tag = 3 ∧ !supv then some (0x24, BitVec.ofNat 32 (tagCtx tag))
  else if 4 ≤ tagKind tag then some (0x26, detail26 tag)
  else if tagKind tag = 2 ∧ 128 ≤ tagIp tag then some (0x26, detail26 tag)
  else none

/-- As tagRefused, for SEND and for RETURN of ARITY 1, which need KIND 0b000. -/
def tagRefused0 (supv : Bool) (tag : Word) : Option (Nat × BitVec 32) :=
  match tagRefused supv tag with
  | some r => some r
  | none => if tagKind tag ≠ 0 then some (0x26, detail26 tag) else none

/-- A token to a whole tag, its PRIO raised (R43, R102). -/
def In.tokTo (x : In) (o : Opd) (tag : Word) : Token := ⟨o.sb, o.val, raisePrio x.cr.priocap.toNat tag⟩

/-- Result of RETAG (R102, R105). -/
def vRetag (x : In) : Val :=
  ctl [x.r] (
    if x.seq || !(iImm x.w).testBit 0 then
      match tagRefused x.supv x.r.val with
      | some (k, d) => causeVal k d
      | none => { toks := [x.tokTo x.l.pass x.r.val] }
    else
      let dst := fun (d : Nat) => if d = noDest then ([] : List Token)
        else [⟨x.l.pass.sb, x.l.val, x.outTag d (wbits x.r.val 0 24)⟩]
      { toks := dst (iDest0 x.w) ++ dst (iDest1 x.w) })

/-- RETAG. -/
def execRetag (k : Ch) (u : Exe) (s : State) : Host.Outcome State Fault Refusal := onCh k s (fire .retag vRetag u 0)

/-- The link tag of a SEND (R103). -/
def linkTag (x : In) : Word := x.outTag (iDest0 x.w) x.ctx

/-- Result of SEND (R103, R124): the argument to PORT 0b00 and the link tag to PORT 0b01; a caller sends the argument only. -/
def vSend (x : In) : Val :=
  ctl [x.r] (
    match tagRefused0 x.supv x.r.val with
    | some (k, d) => causeVal k d
    | none =>
      if x.seq then { toks := [x.tokTo x.l.pass x.r.val] }
      else { toks := [x.tokTo x.l.pass (setBits x.r.val 6 2 0),
                      x.tokTo (mkOpd (linkTag x) 6 x.l.poison) (setBits x.r.val 6 2 1)] })

/-- SEND. -/
def execSend (k : Ch) (u : Exe) (s : State) : Host.Outcome State Fault Refusal := onCh k s (fire .send vSend u 0)

/-- Result of RETURN (R104, R105): to RET_TAG, or to the tag Rt, with KIND 0b000. -/
def vRetn (x : In) : Val :=
  if iArity x.w = 1 then
    match tagRefused0 x.supv x.cr.retTag with
    | some (k, d) => causeVal k d
    | none => { toks := [x.tokTo x.l.pass (setBits x.cr.retTag 0 3 0)] }
  else
    ctl [x.r] (
      match tagRefused x.supv x.r.val with
      | some (k, d) => causeVal k d
      | none => { toks := [x.tokTo x.l.pass (setBits x.r.val 0 3 0)] })

/-- RETURN. -/
def execRetn (k : Ch) (d : DuetId) (s : State) : Host.Outcome State Fault Refusal :=
  onCh k s (fire .retn vRetn (.duet d) 0)

/-- Result of SIGNAL (R98): the event at commit, and L when ARITY is 1. -/
def vSignal (x : In) : Val :=
  { (if iArity x.w = 1 then toBoth x.l.pass else {}) with effs := [.signal (BitVec.ofNat 8 (iImm x.w))] }

/-- SIGNAL. -/
def execSignal (k : Ch) (u : Exe) (s : State) : Host.Outcome State Fault Refusal := onCh k s (fire .signal vSignal u 0)

/-- Effect of EXC (R98): cause 0x80 + IMM[6:0] with L[31:0] as DETAIL. DESIGN CHOICE (log entry 49): R49 does not say what a poisoned L of an
EXC does; the cause is raised as with any other L, and its exception token is not poisoned. -/
def vExc (x : In) : Val := causeVal (0x80 + iImm x.w % 128) (BitVec.ofNat 32 x.l.val.toNat)

/-- EXC. -/
def execExc (k : Ch) (u : Exe) (s : State) : Host.Outcome State Fault Refusal := onCh k s (fire .exc vExc u 0)

/-! ## Loops (R107 to R111) -/

/-- A loop handle (R107). -/
def loopHandle (e : Nat) (id : CtxId) : Opd := mkOpd (BitVec.ofNat 64 (e <<< 48 + id.toNat)) 6 false
def handleEntry (w : Word) : Nat := wbits w 48 10
def handleCtx (w : Word) : Nat := wbits w 0 24

/-- An OPEN entry (R107). -/
def Chan.loopOpen (c : Chan) (e : Nat) : Bool :=
  match c.loop e with
  | some l => !l.closing
  | none => false

/-- NEXTIT's handle is accepted (R109). -/
def nextitOk (c : Chan) (ctx : Nat) (h : Word) : Bool :=
  match c.loop (handleEntry h) with
  | some l => !l.closing && handleCtx h == ctx && l.newest.toNat == ctx
  | none => false

/-- Result of NEXTIT (R109): the handle of the granted iteration context. -/
def vNextit (x : In) : Val :=
  ctl [x.l] (
    if !nextitOk x.c x.ctx x.l.val then causeVal 0x25 (BitVec.ofNat 32 (handleEntry x.l.val))
    else
      match x.grant with
      | none => {}
      | some g => { toBoth (loopHandle (handleEntry x.l.val) g.id) with effs := [.nextit g (handleEntry x.l.val)] })

/-- NEXTIT. -/
def execNextit (k : Ch) (d : DuetId) (s : State) : Host.Outcome State Fault Refusal :=
  onCh k s (fire .nextit vNextit (.duet d) 0)

/-- Result of LOOPIN (R108): the handle of the granted entry and context. -/
def vLoopin (x : In) : Val :=
  ctl [x.l] (
    match x.grant with
    | none => {}
    | some g => { toBoth (loopHandle (g.loop.getD 0) g.id) with effs := [.loopin g x.l.val] })

/-- LOOPIN. -/
def execLoopin (k : Ch) (d : DuetId) (s : State) : Host.Outcome State Fault Refusal :=
  onCh k s (fire .loopin vLoopin (.duet d) 0)

/-- Effect of LOOPOUT (R110): IMM[0] is FINAL. -/
def vLoopout (x : In) : Val :=
  ctl [x.r] (
    if !(x.c.loopOpen (handleEntry x.r.val) && handleCtx x.r.val == x.ctx) then
      causeVal 0x25 (BitVec.ofNat 32 (handleEntry x.r.val))
    else { effs := [.loopout (handleEntry x.r.val) (if (iImm x.w).testBit 0 then some x.l.pass else none)] })

/-- LOOPOUT. -/
def execLoopout (k : Ch) (d : DuetId) (s : State) : Host.Outcome State Fault Refusal :=
  onCh k s (fire .loopout vLoopout (.duet d) 0)

/-! ## Flow instructions (R113, R246 to R261) -/

/-- FLOWSET passes L and sets FLOW at commit (R113, R248). -/
def vFlowset (x : In) : Val := { toBoth x.l.pass with effs := [.flowset (BitVec.ofNat 6 (iImm x.w))] }

/-- FLOWSET. -/
def execFlowset (k : Ch) (d : DuetId) (s : State) : Host.Outcome State Fault Refusal :=
  onCh k s (fire .flowset vFlowset (.duet d) 0)

/-- SOLO.IN passes L; its slot is held before its packet is pushed (R257). -/
def vSoloIn (x : In) : Val := ctl [x.r] (toBoth x.l.pass)

/-- SOLO.IN. -/
def execSoloIn (k : Ch) (d : DuetId) (s : State) : Host.Outcome State Fault Refusal :=
  onCh k s (fire .soloIn vSoloIn (.duet d) 0)

/-- SOLO.OUT passes L and frees the slot of its key at commit (R258). -/
def vSoloOut (x : In) : Val := ctl [x.r] { toBoth x.l.pass with effs := [.soloOut x.r.val] }

/-- SOLO.OUT. -/
def execSoloOut (k : Ch) (d : DuetId) (s : State) : Host.Outcome State Fault Refusal :=
  onCh k s (fire .soloOut vSoloOut (.duet d) 0)

/-- PROM.REL passes L and releases the position at commit (R252). -/
def vPromRel (x : In) : Val := { toBoth x.l.pass with effs := [.promRel] }

/-- PROM.REL. -/
def execPromRel (k : Ch) (d : DuetId) (s : State) : Host.Outcome State Fault Refusal :=
  onCh k s (fire .promRel vPromRel (.duet d) 0)

/-- A word that is illegal where it is executed raises cause 0x20 with the reason of R88 (R81, R122). -/
def vIllegal (x : In) : Val :=
  match (if x.seq then illegalSeq x.w else illegalFiring x.w) with
  | some r => causeVal 0x20 (illegalDetail r x.w)
  | none => {}

/-- ILLEGAL_INSTRUCTION: the next firing or instruction whose word is illegal. -/
def execIllegalInstruction (k : Ch) (u : Exe) (s : State) : Host.Outcome State Fault Refusal :=
  onCh k s (fun dv c =>
    match u with
    | .duet d => fireDuet c d.val 0 (fun w => (illegalFiring w).isSome) vIllegal
    | .caller n => fireCaller dv c n.val 0 (fun w => (illegalSeq w).isSome) vIllegal)

end Sys2Proof.Machine
end

