-- ==== Sys2Proof/Machine/Contexts.lean ====
section
/-! DEFINITION. What a commit does to contexts, loops and flows, allocations and their throttle, the sweep, and the context unit's
commands (R57 to R66, R73, R101, R107 to R113, R154, R247 to R261, R292 to R299, R681 to R684). -/

namespace Sys2Proof.Machine

/-! ## The throttle (R292 to R296) -/

/-- Contexts in state LIVE. -/
def Chan.liveCount (c : Chan) : Nat := c.cu.tbl.countP (fun e => e.2.st == .live)

/-- Places that open loops may still fill: WIN less LIVE of every entry. -/
def Chan.loopRoom (c : Chan) : Nat := (c.cu.loops.map (fun e => e.2.win - e.2.live)).foldl (· + ·) 0

/-- The throttle count N (R292), with the weights granted and not yet turned into a context or a loop. -/
def Chan.throttle (c : Chan) : Nat := c.liveCount + c.loopRoom + c.cu.granted

/-- A gate admits an allocation of weight k (R293, R294, R296): the elder gate, or the general one. -/
def Chan.gate (c : Chan) (elder : Bool) (k : Nat) : Bool :=
  let m := c.fld F.pgThrMaxlive
  let r := c.fld F.pgThrEldres
  if elder then decide (c.throttle < m) && decide (c.throttle + k ≤ m)
  else !c.flag F.pgThrForce && !(c.flag F.pgThrWmen && c.flag F.msWmstatNow) && !c.spillNear
    && decide (r < m) && decide (c.throttle < m - r) && decide (c.throttle + k ≤ m - r)

/-- An identifier has not been lost with its line of the list (R397). -/
def CtxUnit.held (u : CtxUnit) (i : Nat) : Bool := !u.lost.contains i

/-- Identifiers on the free list (R57): the lost ones are not counted (R397). -/
def Chan.freeIds (c : Chan) : Nat :=
  c.cu.freeFront.countP c.cu.held
    + (c.cu.freeEnd - c.cu.freeNext - c.cu.lost.countP (fun i => decide (c.cu.freeNext ≤ i) && decide (i < c.cu.freeEnd)))
    + c.cu.freed.countP c.cu.held

/-- Slots of the list in use, those of lost identifiers among them. -/
def CtxUnit.listLen (u : CtxUnit) : Nat := u.freeFront.length + (u.freeEnd - u.freeNext) + u.freed.length

/-- The head of the list moves n slots on (R403). -/
def Chan.headOn (c : Chan) (n : Nat) (u : CtxUnit) : Chan := { c with cu := { u with freeHead := (c.cu.freeHead + n) % c.freeSlots } }

/-- Takes the identifier at the head of the free list, past the lost ones: given back ones, then the unused range, then freed ones. -/
def Chan.takeId (c : Chan) : Option (Nat × Chan) :=
  let u := c.cu
  let f := u.freeFront.length
  match findIx u.held u.freeFront with
  | some i => some (u.freeFront.getD i 0, c.headOn (i + 1) { u with freeFront := u.freeFront.drop (i + 1) })
  | none =>
    match (List.range' u.freeNext (u.freeEnd - u.freeNext)).find? u.held with
    | some i => some (i, c.headOn (f + (i + 1 - u.freeNext)) { u with freeFront := [], freeNext := i + 1 })
    | none => match findIx u.held u.freed with
      | some i => some (u.freed.getD i 0, c.headOn (f + (u.freeEnd - u.freeNext) + i + 1)
                    { u with freeFront := [], freeNext := u.freeEnd, freed := u.freed.drop (i + 1) })
      | none => none

/-- A freed identifier joins the tail of the list (R57). -/
def Chan.joinFree (c : Chan) (id : Nat) : Chan :=
  let n := c.cu.listLen
  ({ c with cu := { c.cu with freed := c.cu.freed ++ [id] } }).putFreeSlot ((c.cu.freeHead + n) % c.freeSlots) id

/-- WIN of a loop opened in a context: ITWIN, read as 8 when 0 (R108, R299). -/
def Ctx.win (x : Ctx) : Nat := if x.itwin = 0 then 8 else x.itwin.toNat

/-! ## Creation (R51, R59, R108, R109, R297) -/

/-- A context becomes LIVE with the record x and the next SEQ; its grant is used up. -/
def Chan.create (c : Chan) (g : Grant) (x : Ctx) : Chan :=
  let y := { x with st := .live, seq := c.cu.seqNext, was := (c.ctx g.id.toNat).st, chAt := some c.xclk }
  ({ c with cu := { c.cu with seqNext := c.cu.seqNext + 1, granted := c.cu.granted - g.weight } }).ctxUpd g.id.toNat (fun _ => y)

/-- The record a firing's CTXNEW, LOOPIN or NEXTIT gives its context (R59); an elder's child is an inherited elder. -/
def childOf (p : Ctx) (ret : Word) (lp : Option Nat) : Ctx :=
  { flow := p.flow, tempo := p.tempo, priocap := p.priocap, ring := p.ring, itwin := p.itwin, slot := p.slot, supv := p.supv,
    excTag := p.excTag, rm := p.rm, te := p.te, deadline := p.deadline, retTag := ret, origin := 1, elder := p.elder, loop := lp }

/-- The record a caller's CTXNEW gives (R487), from its CSRs. -/
def callerChild (k : Csrs) (ret : Word) : Ctx :=
  let t := Ctx.ofWord0 k.ctxt
  let priv := k.status.getLsbD 2
  { flow := t.flow, tempo := t.tempo, priocap := t.priocap, itwin := t.itwin, supv := t.supv && priv, excTag := k.ctxexc,
    rm := k.fpcsr.extractLsb' 16 2, te := k.fpcsr.extractLsb' 8 8, retTag := ret, ring := 0xFF,
    origin := if priv then 3 else 1 }

/-! ## Who acts -/

/-- The firing or caller whose effect is applied: its context, instruction and rights, and its tile, for a caller the callers' tile (R63; log
entry 44). -/
structure Actor where
  ctx : Nat
  ip : Nat
  supv : Bool
  caller : Option Nat := none
  tile : Nat := tileCall

/-- A cause of an effect: in the firing's context, or as the caller's exception (R69, R481). -/
def Chan.causeBy (c : Chan) (now : Nat) (a : Actor) (cause : Nat) (detail : BitVec 32) : Chan :=
  match a.caller with
  | none => c.cause now a.ctx cause a.ip detail
  | some n =>
    let x := c.caller n
    c.setCaller n { x with exc := x.exc ++ [{ cause := BitVec.ofNat 8 cause, detail := detail, ip := BitVec.ofNat 16 a.ip,
                                              late := true }] }

/-- Kill rights (R61, R477). -/
def Chan.mayKill (c : Chan) (a : Actor) (id : Nat) : Bool :=
  let t := (c.ctx id).retTag
  a.supv || ((a.caller.isNone || a.ctx != 0) && (id == a.ctx || (tagCtx t == a.ctx && tagDev t == c.devNo)))

/-- The context ended in this XCLK (R63). -/
def Chan.endedNow (c : Chan) (now id : Nat) : Option Ended := c.cu.ends.find? (fun e => e.id == id && e.at_ == now)

/-- A kill takes effect (R61, R62, R63, R682). -/
def Chan.killBy (c : Chan) (now : Nat) (a : Actor) (id status : Nat) : Chan :=
  if c.ctxLimit ≤ id || (!c.live id && (c.endedNow now id).isNone) then c
  else if id == 0 || !c.mayKill a id then c.causeBy now a 0x24 (BitVec.ofNat 32 id)
  else c.killCtx now id status false a.ip a.tile

/-! ## Positions and slots at commit (R247, R248, R252 to R254, R258) -/

/-- Takes a position for a context in the order queue of class n (R247, R252, R261). -/
def Chan.takePosition (c : Chan) (now id n : Nat) : Chan :=
  let o := c.fld (F.flClassOrdq n)
  if c.ordFull o then c
  else
    let x := c.ord o
    let x := if c.ordLen o = 0 then
        { x with cursor := x.head, since := now, limit := c.fld (F.flClassHeadtime n), fired := false }
      else x
    ((c.qPush (768 + o) (posWord id (c.cseq id).toNat 0 false)).setOrd o { x with tail := x.tail + 1 }).wrapInc
      (F.flCntPositions n)

/-- Slots the context owns. -/
def Chan.ownedSlots (c : Chan) (id : Nat) : List Nat :=
  (c.fl.solo.filter (fun e => e.2.owner == some (BitVec.ofNat 24 id, c.cseq id))).map (·.1)

/-- Frees a slot; its next waiter is granted by SOLO_GRANT. -/
def Chan.freeSolo (c : Chan) (q : Nat) : Chan := c.setSolo q { c.solo q with owner := none }

/-- SOLO.OUT at commit (R258). -/
def Chan.soloOut (c : Chan) (id : Nat) (key : Word) : Chan :=
  let k := c.flowKind id
  if k = 0 ∨ k = 2 then c
  else
    let q := c.slotOf (c.ctx id).flow.toNat key
    if c.owns id q then c.freeSolo q else c.inc F.flStatSoloerr

/-- FLOWSET at commit (R248). -/
def Chan.flowset (c : Chan) (now id n : Nat) : Chan :=
  let held := !(c.ownedSlots id).isEmpty || (c.posOf id).isSome
  let c := if held then (((c.ownedSlots id).foldl (fun c q => c.freeSolo q) c).skipPositions id).inc F.flStatFlowerr else c
  let c := c.ctxUpd id (fun x => { x with flow := BitVec.ofNat 6 n })
  let k := c.fld (F.flClassKind n)
  if k = 2 ∨ k = 3 then c.takePosition now id n else c

/-- An effect that releases the context's position. -/
def Eff.releases : Eff → Bool
  | .promRel => true
  | .ctxend _ => true
  | _ => false

/-- The releasing firing's position becomes RELEASING, and n of its tokens are to be accepted (R254). -/
def Chan.releasePos (c : Chan) (id n : Nat) : Chan × Acc :=
  let k := c.flowKind id
  if k = 0 ∨ k = 1 then (c, .none)
  else match c.posOf id with
    | none => (c, .none)
    | some (o, i, m) =>
      let w := c.posAt o i
      let c := c.setPos o i (w ||| ((1 : BitVec 144) <<< 102))
      let x := c.ord o
      (c.setOrd o { x with unacc := tblPut x.unacc m.toNat n 0 }, .ord o m)

/-! ## Ends (R60, R110, R683) -/

/-- Sends the operand of a CTXEND to RET_TAG, with the mark of its position (R60, R254, R683). A RET_TAG of a reserved KIND receives nothing
(R47; log entry 43). -/
def Chan.sendEnd (c : Chan) (now id ip : Nat) (v : Opd) (acc : Acc) : Chan :=
  let t : Token := ⟨v.sb, v.val, (c.ctx id).retTag⟩
  if badKind t.tag then c.accept acc
  else match c.reach t with
  | none =>
    let e := c.curEpoch
    (c.sendRaw t (c.route (tagDev t.tag) e 7) false acc).countEpoch (tagDev t.tag) e
  | some cause => ((c.accept acc).countReach t cause).cause now id cause ip (reachDetail t)

/-- A CTXEND takes effect (R60); where a kill of this XCLK has ended the context its operand is discarded (R63). -/
def Chan.endCtx (c : Chan) (now : Nat) (a : Actor) (v : Opd) (acc : Acc) : Chan :=
  match (c.endedNow now a.ctx).bind (·.rank) with
  | some _ => c.accept acc
  | none =>
    let t : Token := ⟨v.sb, v.val, (c.ctx a.ctx).retTag⟩
    let c := if c.live a.ctx then (c.die now a.ctx).noteEnd { id := a.ctx, at_ := now, word := t, acc := acc } else c
    c.sendEnd now a.ctx a.ip v acc

/-- A LOOPOUT takes effect (R110): with FINAL the exit value is kept; the iteration context ends, but context 0 stays LIVE (R682). The room
that it makes is not visible in this XCLK (R112). -/
def Chan.loopOut (c : Chan) (now : Nat) (a : Actor) (e : Nat) (final : Option Opd) : Chan :=
  let c := match c.loop e, final with
    | some l, some v => c.setLoop e { l with closing := true, exitVal := v }
    | _, _ => c
  if a.ctx = 0 ∨ c.live a.ctx = false then c
  else
    let lp := (c.ctx a.ctx).loop
    let c := c.die now a.ctx
    match lp.bind (fun n => (c.loop n).map (fun l => (n, l))) with
    | some (n, l) => c.setLoop n { l with outAt := now, outs := if l.outAt = now then l.outs + 1 else 1 }
    | none => c

/-- Applies an effect at commit. -/
def Chan.applyEff (c : Chan) (now : Nat) (a : Actor) (csrs : Csrs) (acc : Acc) : Eff → Chan
  | .signal n => c.raise (768 + n.toNat) 1 (match a.caller with | none => a.tile | some _ => unitAt tileCall)
  | .ctxend v => c.endCtx now a v acc
  | .kill id status => c.killBy now a id.toNat status.toNat
  | .ctxnew g ret =>
    c.create g (match a.caller with | none => childOf (c.ctx a.ctx) ret none | some _ => callerChild csrs ret)
  | .loopin g exitTag =>
    let e := g.loop.getD 0
    let x := childOf (c.ctx a.ctx) exitTag (some e)
    (c.create g x).setLoop e { exitTag := exitTag, win := (c.ctx a.ctx).win, live := 1, newest := g.id,
                               ctx := BitVec.ofNat 24 a.ctx, ip := BitVec.ofNat 16 a.ip }
  | .nextit g e =>
    match c.loop e with
    | none => c.giveBack (some g)
    | some l => (c.create g (childOf (c.ctx a.ctx) l.exitTag (some e))).setLoop e
                  { l with newest := g.id, live := l.live + 1 }
  | .loopout e final => c.loopOut now a e final
  | .flowset n => c.flowset now a.ctx n.toNat
  | .soloOut key => c.soloOut a.ctx key
  | .promRel => c

/-! ## Traps (R154, R155, R157) -/

/-- Exception records are on, as a commit of this XCLK sees it: a change of CH_EXCCFG made in it acts from the next (R155). -/
def Chan.excEn (c : Chan) : Bool := c.seenFld F.chExccfgEn != 0

/-- Records of the exception record area (R160). -/
def Chan.excCountMax (c : Chan) : Nat := 2 ^ c.seenFld F.chExccfgSize

/-- A record write with another index: its slot, and DETAIL of its cause word. -/
def TrapRec.place (r : TrapRec) (base i : Nat) : TrapRec :=
  { r with idx := i, req := { r.req with addr := BitVec.ofNat 40 (base + 64 * i),
                                         words := match r.req.words with
                                           | [] => []
                                           | w :: ws => setBits w 0 16 i :: ws } }

/-- Gives the records of a list the indices i, i + 1, ... modulo n. -/
def placeFrom (base n : Nat) : Nat → List TrapRec → List TrapRec
  | _, [] => []
  | i, r :: rs => r.place base (i % n) :: placeFrom base n (i + 1) rs

/-- Adds a record write to those of its XCLK, which take their indices in ascending order of the tile (R155). DESIGN CHOICE (log entry 54): the
tile is the trapping firing's own, also in a duet of role DOUBLE, and firings of one tile go in the order in which they started. -/
def Chan.addTrap (c : Chan) (n : Nat) (r : TrapRec) : Chan :=
  let base := c.fld F.chExcbaseBase * 64
  let same := c.excq.filter (fun q => q.at_ == r.at_)
  let first := match same with | q :: _ => q.idx | [] => r.idx
  let group := same.filter (fun q => decide (q.tile ≤ r.tile)) ++ r :: same.filter (fun q => decide (r.tile < q.tile))
  { c with excq := c.excq.filter (fun q => q.at_ != r.at_) ++ placeFrom base n first group }

/-- DEST0TAG and DEST1TAG. -/
def In.destTag (x : In) (d : Nat) : Word := if d = noDest then noTag else x.outTag d x.ctx

/-- Words 1 to 7 of the exception record, with VALID set; word 0 stands before them once DETAIL is known. -/
def trapWords (x : In) (r : Res) : List Word := [
  BitVec.ofNat 64 (2 ^ 63 + r.flags1.toNat <<< 48 + r.flags0.toNat <<< 40 + (iOp x.w) <<< 32 + (iMode x.w) <<< 28
    + b2n r.rpoison <<< 27 + b2n x.t.poison <<< 26 + b2n x.r.poison <<< 25 + b2n x.l.poison <<< 24 + x.ctx),
  x.l.val, x.r.val, x.t.val, r.result, x.destTag (iDest0 x.w), x.destTag (iDest1 x.w)]

/-- A committed firing has raised a trapped flag (R154, steps 3 to 5); its record is ranked by its own tile (R155; log entry 54). -/
def Chan.trap (c : Chan) (now : Nat) (f : Firing) (r : Res) : Chan :=
  let id := f.pkt.ctx.toNat
  let ip := f.pkt.ip.toNat
  let k := ((trapCause ((r.flags0 ||| r.flags1) &&& (c.ctx id).te)).getD 0x05).toNat
  if (c.ctx id).excTag = noTag ∨ c.excEn = false then c.cause now id k ip 0xFFFFFFFF
  else
    let i := c.fld F.chExcstatWr
    let n := c.excCountMax
    let w0 := BitVec.ofNat 64 (k <<< 56 + (ip % 2 ^ 16) <<< 32)
    let q : Req := { kind := .exc, size := 64, who := .ctx f.pkt.ctx (c.ctx id).seq, ip := f.pkt.ip,
                     words := w0 :: trapWords (firingIn c f ⟨0, 0, 0, 0, 0⟩ 0) r }
    (c.setFld F.chExcstatWr ((i + 1) % n)).addTrap n { req := q, idx := i, tile := f.tile, at_ := now }

/-! ## Commands of the context unit -/

/-- CONTEXT_TABLE_START (R681, R73): a write of CH_CTXCFG that sets EN. The device does not set EN when LIMIT is 0 or the table
does not fit. -/
def Chan.tableFits (c : Chan) : Bool :=
  let l := c.fld F.chCtxcfgLimit
  let b := c.fld F.chCtxbaseBase * 2 ^ 20
  decide (l ≠ 0) && decide (dramBase ≤ b) && decide (b + 68 * (l * 4096) ≤ dramBase + c.dramSize)

/-- Step 1 and the start of step 2 of R681; context 0 is never an elder (R682). DESIGN CHOICE (log entry 54): CH_CTXSTAT.FREE counts the whole
list, LIMIT x 4096 - 1, from here on, though its slots are written only as the list is built. -/
def Chan.startTable (c : Chan) : Chan :=
  { c with cu := { c.cu with tbl := [], cached := [], freeFront := [], freed := [], lost := [], freeNext := 1, freeEnd := c.ctxLimit,
                             freeHead := 0, ends := [], seqNext := 1, building := true, starting := true } }

/-- Step 1 of R681: context 0 becomes LIVE with the record that the table holds, once the memory takes the read (R390, R405); a record in an
uncorrectable line is written back over it (R397, R682). -/
def Chan.startCtx0 (c : Chan) (now : Nat) : Chan :=
  let a := c.ctxAddr 0
  if !c.cu.starting || !c.dmInner [c.recordLine 0] then c
  else
    let x := { c.ctxFromMem a with st := .live, origin := 3, seq := 0, elder := false }
    let d : Chan := { c.dmTouch with cu := { c.cu with tbl := tblPut c.cu.tbl 0 x {}, cached := (0, true) :: c.cu.cached, starting := false } }
    d.dmRead now (c.codes a 64) a 64

/-- A flush (R73): every dirty cached record is written back; FLUSHING reads 1 until the memory has taken them. -/
def Chan.flushCache (c : Chan) : Chan :=
  let c := (c.cu.cached.filter (·.2)).foldl (fun c e => c.ctxWriteBack e.1) c
  { c with cu := { c.cu with cached := c.cu.cached.map (fun e => (e.1, false)), flushing := true } }

/-- A write of CH_CTXCFG (R73, R681): FLUSH starts a flush, EN from 0 to 1 starts the table when no context is LIVE. -/
def Chan.ctxcfgWrite (c : Chan) (off : Nat) (w : Word) (lo hi : Nat) : Chan :=
  let was := c.flag F.chCtxcfgEn
  let d := c.wrFields off w lo hi
  let d := if d.flag F.chCtxcfgEn && !was && !d.tableFits then d.setFld F.chCtxcfgEn 0 else d
  let d := if d.flag F.chCtxcfgEn && !was && decide (d.liveCount = 0) then d.startTable.startCtx0 d.xclk else d
  if decide (hi = 64) && wbit w 63 then d.flushCache else d

/-- CONTEXT_TABLE_START: as CH_CTXCFG is written. -/
def execContextTableStart (k : Ch) (p : Party) (w : Word) (s : State) : Host.Outcome State Fault Refusal :=
  onCh k s (fun _ c => c.regWrite p 0x108 w (fun c => c.ctxcfgWrite 0x108 w 0 64))

/-- The free list as R681 writes it: every identifier from 1 up, in ascending order from its first slot. -/
def Chan.writeFreeList (c : Chan) (now : Nat) : Chan :=
  c.dmTouch.dmPut now (c.freeAddr 0) ((List.range' 1 (c.ctxLimit - 1)).flatMap (fun i => valBytes i 4))

/-- FREE_LIST_BUILT (R681): context 0 is LIVE, the list is written, and allocations may proceed; held while the memory does not take the write
(R390, R398, R405). -/
def execFreeListBuilt (k : Ch) (s : State) : Host.Outcome State Fault Refusal :=
  onCh k s (fun _ c =>
    if c.cu.building && !c.cu.starting && c.dmPort && !c.dmMeets (c.freeAddr 0) (4 * (c.ctxLimit - 1)) then
      ({ c with cu := { c.cu with building := false } } : Chan).writeFreeList c.xclk
    else c)

/-- CONTEXT_CACHE_FLUSH (R73): a write of CH_CTXCFG; its FLUSH bit flushes the cache. -/
def execContextCacheFlush (k : Ch) (p : Party) (w : Word) (s : State) : Host.Outcome State Fault Refusal :=
  onCh k s (fun _ c => c.regWrite p 0x108 w (fun c => c.ctxcfgWrite 0x108 w 0 64))

/-! ## Allocation (R295) -/

/-- Who waits for a context. -/
inductive Asker where
  | duet (d : Nat)
  | ring (r : Nat)
  | caller (n : Nat)
  deriving DecidableEq, Repr

/-- A waiting request: asker, weight, whether a loop entry is needed, the elder's SEQ (none for another), its tile. -/
structure Ask where
  who : Asker
  weight : Nat
  loop : Bool := false
  elder : Option (BitVec 48) := none
  tile : Nat := 0

/-- Loop entries that a grant holds already. -/
def Chan.loopsHeld (c : Chan) : List Nat :=
  (c.duets.flatMap (fun e =>
    (match e.2.stage with | some st => [st.grant] | none => []) ++ e.2.wins.flatMap (fun w => w.firings.map (·.grant)))).filterMap
    (fun g => g.bind (·.loop))

/-- The lowest FREE loop entry. -/
def Chan.freeLoop (c : Chan) : Option Nat :=
  (List.range 1024).find? (fun e => (c.loop e).isNone && !c.loopsHeld.contains e)

/-- The controlling operand of a CTXNEW, LOOPIN or NEXTIT in the stage is poisoned: it fires with cause 0x21 and no grant (R49). -/
def Chan.stagePoison (c : Chan) (st : Staged) : Bool :=
  match c.entry st.tile (entryNo st.pkt.row.toNat st.pkt.way.toNat) with
  | none => false
  | some x =>
    let o := withImm st.pkt.instr ⟨x.val0, x.sb0⟩ ⟨x.val1, x.sb1⟩ {}
    if opOf st.pkt.instr = some .ctxnew ∧ iArity st.pkt.instr = 2 then o.2.1.poison else o.1.poison

/-- Left operand of the staged firing. -/
def Chan.stageLeft (c : Chan) (st : Staged) : Word :=
  match c.entry st.tile (entryNo st.pkt.row.toNat st.pkt.way.toNat) with
  | none => 0
  | some x => (withImm st.pkt.instr ⟨x.val0, x.sb0⟩ ⟨x.val1, x.sb1⟩ {}).1.val

/-- A staged firing does not start before it has a grant: a CTXNEW, LOOPIN or NEXTIT that will create a context (R58, R101,
R108, R109). -/
def Chan.needsGrant (c : Chan) (st : Staged) : Bool :=
  if (illegalFiring st.pkt.instr).isSome || st.grant.isSome || c.stagePoison st then false
  else match opOf st.pkt.instr with
    | some .ctxnew | some .loopin => true
    | some .nextit => nextitOk c st.pkt.ctx.toNat (c.stageLeft st)
    | _ => false

/-- LIVE of a loop entry as a NEXTIT's check in XCLK now sees it: before the LOOPOUTs of that XCLK (R112). -/
def Loop.seenLive (l : Loop) (now : Nat) : Nat := l.live + (if l.outAt = now then l.outs else 0)

/-- NEXTIT has room in its loop's window: LIVE plus pending is below WIN (R109, R112). -/
def Chan.nextitRoom (c : Chan) (st : Staged) : Bool :=
  match c.loop (handleEntry (c.stageLeft st)) with
  | some l => decide (l.seenLive c.xclk + b2n (decide (0 < l.pending)) < l.win)
  | none => true

/-- The request of a duet's dispatch stage. -/
def Chan.duetAsk (c : Chan) (d : Nat) (st : Staged) : Option Ask :=
  let x := c.ctx st.pkt.ctx.toNat
  if !c.needsGrant st || !c.live st.pkt.ctx.toNat then none
  else
    let op := opOf st.pkt.instr
    let a : Ask := { who := .duet d, weight := 1, elder := if x.elder then some x.seq else none, tile := st.tile }
    if op = some .loopin then some { a with weight := x.win, loop := true }
    else if op = some .nextit then (if c.nextitRoom st then some { a with weight := 0 } else none)
    else some a

/-- The request of a caller that stands at a CTXNEW (R487). -/
def Chan.callerAsk (c : Chan) (n : Nat) : Option Ask :=
  let x := c.caller n
  let w := c.callerWord n
  if x.grant.isNone && c.callerReady n && isSeqOp .ctxnew w && !c.fetchDenied n && !(x.opd (iRs1 w)).poison then
    some { who := .caller n, weight := 1, tile := 64 }
  else none

/-- The request of a ring whose fetched item is accepted and has no context yet (R276, R549). -/
def Chan.ringAsk (c : Chan) (r : Nat) : Option Ask :=
  let x := c.ring r
  if x.admitted.isSome && x.grant.isNone && x.fetched.isSome then some { who := .ring r, weight := 1 } else none

def Chan.asks (c : Chan) : List Ask :=
  c.duets.filterMap (fun e => match e.2.stage with | some st => c.duetAsk e.1 st | none => none)
    ++ c.rings.filterMap (fun e => c.ringAsk e.1)
    ++ (List.range 4).filterMap c.callerAsk

/-- The rank of a request (R295): elders by SEQ and tile, then the ring engine, then the other tiles in round robin; smaller is
first. -/
def Chan.askRank (c : Chan) (a : Ask) : Nat × Nat :=
  match a.elder, a.who with
  | some q, _ => (q.toNat, a.tile)
  | none, .ring r => (2 ^ 48, r)
  | none, _ => (2 ^ 48 + 1, (a.tile + 65 - (c.cu.rr + 1) % 65) % 65)

def rankLe (x y : Nat × Nat) : Bool := decide (x.1 < y.1) || (x.1 == y.1 && decide (x.2 ≤ y.2))

/-- The request's gate admits it, or it needs none (R294). -/
def Chan.admits (c : Chan) (a : Ask) : Bool :=
  (a.weight == 0 || c.gate a.elder.isSome a.weight) && (!a.loop || c.freeLoop.isSome)

/-- Gives a grant to its asker. -/
def Chan.giveGrant (c : Chan) (a : Ask) (g : Grant) : Chan :=
  match a.who with
  | .duet d =>
    let x := c.duet d
    c.setDuet d { x with stage := x.stage.map (fun st => { st with grant := some g }) }
  | .ring r => c.setRing r { c.ring r with grant := some g }
  | .caller n => c.setCaller n { c.caller n with grant := some g }

/-- CONTEXT_ALLOCATION (R295): the first request in rank whose gate admits it takes the identifier at the head of the free list, which is
read from GDDR7 (R57); held while the memory does not take the read (R390, R398, R405). errs is what the code finds in the list's line (R397). -/
def execContextAllocation (k : Ch) (s : State) (errs : LineErrs := []) : Host.Outcome State Fault Refusal :=
  onCh k s (fun _ c =>
    if !c.flag F.chCtxcfgEn || c.cu.building || c.cu.listLen == 0 then c
    else match (sortBy (fun a b => rankLe (c.askRank a) (c.askRank b)) c.asks).find? c.admits with
      | none => c
      | some a =>
        if !c.dmInner [c.freeAddr c.cu.freeHead / 64 * 64] then c
        else
        let c := c.dmTouch.dmRead c.xclk errs (c.freeAddr c.cu.freeHead) 4
        match c.takeId with
        | none => c
        | some (id, d) =>
          let lp := if a.loop then c.freeLoop else none
          let d := { d with cu := { d.cu with
            granted := d.cu.granted + a.weight,
            rr := match a.elder, a.who with | none, .duet _ => a.tile | none, .caller _ => 64 | _, _ => d.cu.rr } }
          d.giveGrant a { id := BitVec.ofNat 24 id, loop := lp, weight := a.weight })

/-- The LIVE contexts with a lower SEQ, context 0 apart (R297). -/
def Chan.olderThan (c : Chan) (q : BitVec 48) : Nat :=
  c.cu.tbl.countP (fun e => e.1 != 0 && e.2.st == .live && decide (e.2.seq.toNat < q.toNat))

/-- ELDER_PROMOTION (R297). -/
def execElderPromotion (k : Ch) (id : CtxId) (s : State) : Host.Outcome State Fault Refusal :=
  onCh k s (fun _ c =>
    let x := c.ctx id.toNat
    if id.toNat ≠ 0 ∧ x.st = .live ∧ c.olderThan x.seq < 256 then c.ctxUpd id.toNat (fun x => { x with elder := true }) else c)

/-! ## The sweep (R64 to R66, R308) -/

/-- The DEAD contexts of a pass: up to 16 that no pass has served (R56, R65). -/
def Chan.sweepSet (c : Chan) : List Nat :=
  ((c.cu.tbl.filter (fun e => c.seenSt e.1 == .dead && e.2.st == .dead && !e.2.swept)).map (·.1)).take 16

/-- Removes the WAIT entries of the contexts from a bank, calling off an eviction of one of them. -/
def Chan.sweepBank (c : Chan) (ids : List Nat) : Chan :=
  let gone := c.ms.entries.filter (fun e => e.2.st == .wait && ids.contains e.2.ctx.toNat)
  gone.foldl (fun c e =>
    let t := e.1 / 1536
    let n := e.1 % 1536
    let c := c.stopEvictOf t n e.2
    (c.freeKey t n).orphan e.2.ctx.toNat) c

/-- Removes their tokens from the deferral buffers and the Cut-in queue. -/
def Chan.sweepTokens (c : Chan) (ids : List Nat) : Chan :=
  let hit := fun (t : Token) => ids.contains (tagCtx t.tag)
  let n := (c.ms.tiles.flatMap (fun e => (e.2.defer.map (·.tok)).filter hit)) ++ (c.ms.cutq.map (·.tok)).filter hit
  let c := { c with ms := { c.ms with
    tiles := (c.ms.tiles.map (fun e => (e.1, { e.2 with defer := e.2.defer.filter (fun d => !hit d.tok) }))).filter
      (fun e => e.2 != {}),
    cutq := c.ms.cutq.filter (fun e => !hit e.tok) } }
  n.foldl (fun c t => c.orphan (tagCtx t.tag)) c

/-- Buckets of the spill area that the occupancy map marks. -/
def Chan.usedBuckets (c : Chan) : List Nat :=
  ((c.mem.filter (fun e => decide (c.mapAddr 0 ≤ e.1) && decide (e.1 < c.mapAddr 0 + c.nBuckets / 8))).map (fun e =>
    ((List.range 8).filter (fun i => e.2.getLsbD i)).map (fun i => (e.1 - c.mapAddr 0) * 8 + i))).flatten

/-- A record that the walk frees: of a context of the pass, or a stale one (R308). -/
def Chan.walkFrees (ids : List Nat) (c : Chan) (r : SRec) : Bool := ids.contains r.ctx.toNat || c.stale r

/-- A record of a context of the pass that the walk frees counts as an orphan (R64). -/
def Chan.walkOrphans (c d : Chan) (ids : List Nat) (b : Nat) : Chan :=
  (List.range 8).foldl (fun d i =>
    match c.readRec (c.recAddr b i) with
    | some r => if ids.contains r.ctx.toNat && (c.ctx r.ctx.toNat).seq.truncate 16 == r.cseq
                    && (d.readRec (d.recAddr b i)).isNone then d.orphan r.ctx.toNat else d
    | none => d) d

/-- The lines that the walk reads. -/
def Chan.usedLines (c : Chan) : List Nat := c.bucketLines c.usedBuckets

/-- The sweep's walk of the spill area (R306, R308): frees the records of its contexts and every stale one. -/
def Chan.sweepSpill (c : Chan) (ids : List Nat) (errs : LineErrs) : Chan :=
  c.usedBuckets.foldl (fun c b => c.walkOrphans (c.readBucket c.xclk errs (Chan.walkFrees ids) b) ids b) c

/-- SWEEP_PASS (R65): the pass under way ends, having served its contexts; with none under way one starts. A pass with a walk ends while the
memory takes its accesses (R308, R390, R405). -/
def execSweepPass (k : Ch) (s : State) (errs : LineErrs := []) : Host.Outcome State Fault Refusal :=
  onCh k s (fun _ c =>
    match c.cu.sweep with
    | none =>
      let c := c.settlePoison c.xclk
      if c.sweepSet.isEmpty then c else { c with cu := { c.cu with sweep := some c.sweepSet } }
    | some ids =>
      let d := (c.sweepBank ids).sweepTokens ids
      let walk := ids.any (fun id => (d.ctx id).mscount != 0)
      if walk && !c.dmSecond c.usedLines then c
      else
        let d := if walk then d.dmTouch.sweepSpill ids errs else d
        let d := ids.foldl (fun d id => if (d.ctx id).st = .dead then d.ctxUpd id (fun x => { x with swept := true }) else d) d
        { d with cu := { d.cu with sweep := none } })

/-- QUAR, 0 acting as 1 (R73). -/
def Chan.quarantine (c : Chan) : Nat := max 1 (c.fld F.chCtxcfgQuar) * 8192

/-- CONTEXT_FREE (R57, R66); its write to the free list takes its turn at the internal port. -/
def execContextFree (k : Ch) (id : CtxId) (s : State) : Host.Outcome State Fault Refusal :=
  onCh k s (fun _ c =>
    let x := c.ctx id.toNat
    if x.st = .dead ∧ x.swept ∧ c.uncommitted id.toNat = false ∧ x.diedAt + c.quarantine ≤ c.xclk then
      (c.ctxUpd id.toNat (fun x => x.turn c.xclk .free)).joinFree id.toNat
    else c)

/-- CONTROL_TOKEN (R46, R47, R61, R682): the token delivered to the context unit. -/
def execControlToken (k : Ch) (s : State) : Host.Outcome State Fault Refusal :=
  onCh k s (fun _ c =>
    match c.arrived tileCtx 4 with
    | some { pay := .tok t, acc := a, .. } =>
      let c := (c.takeArrived tileCtx 4).accept a
      if tagIp t.tag ≠ 1 ∨ malformed t then c.stray F.chTokstatMalformed t
      else
        let id := tagCtx t.tag
        if c.ctxLimit ≤ id then c else c.killCtx c.xclk id (wbits t.val 0 8) (sbPoison t.sb) 0 64
    | _ => c)

/-! ## Exception records (R154, R160) -/

/-- The slot of a record is mapped when the write reaches the memory side. -/
def Chan.excMapped (c : Chan) (a : Nat) : Bool :=
  c.range a != .hole && c.range (a + 63) == c.range a && (c.range a == .scratch || c.range a == .dram)

/-- The record write finds its slot free, reading the slot's line or words (R154). -/
def Chan.excReads (c : Chan) (errs : LineErrs) (a : Nat) : Chan :=
  match c.range a with
  | .dram => c.dmTouch.dmRead c.xclk errs a 64
  | .scratch => (c.spReads [a + 8] errs).1
  | _ => c

/-- EXCEPTION_RECORD_WRITE (R154, steps 5 and 6). A write to GDDR7 is held while STATE is RETRAIN or SELFREF. -/
def execExceptionRecordWrite (k : Ch) (s : State) (errs : LineErrs := []) : Host.Outcome State Fault Refusal :=
  onCh k s (fun _ c =>
    match c.excq with
    | [] => c
    | t :: r =>
      let q := t.req
      let a := q.addr.toNat
      if (c.range a = .dram ∧ !c.dmThird (linesOf a 64)) ∨ (c.range a = .scratch ∧ (!c.spReady || c.spLocked a 64)) then c
      else
        let c := ({ c with excq := r } : Chan).excReads errs a
        let ok := c.excMapped a && !wbit (c.wordAt (a + 8)) 63
        let w0 := q.words.headD 0
        let c := if ok then c.putWords a q.words else c.inc F.chExcstatLost
        let c := if ok ∧ c.range a = .dram then c.dmWrote a 64 else c
        let c := if ok ∧ c.range a = .scratch ∧ wordErr errs (a + 8) = some true then c.markWord (a + 8) true else c
        match q.who with
        | .ctx id _ =>
          c.cause c.xclk id.toNat (wbits w0 56 8) q.ip.toNat (if ok then BitVec.ofNat 32 w0.toNat else 0xFFFFFFFF)
        | .caller _ _ => c)

/-- The record area is as R160 requires. -/
def Chan.excFits (c : Chan) : Bool :=
  let n := c.fld F.chExccfgSize
  let a := c.fld F.chExcbaseBase * 64
  decide (4 ≤ n) && decide (n ≤ 16) && (decide (a + 64 * 2 ^ n ≤ scratchSize)
    || (decide (dramBase ≤ a) && decide (a + 64 * 2 ^ n ≤ dramBase + c.dramSize)))

/-- A write of CH_EXCCFG (R160), which a commit of the same XCLK does not see (R155). -/
def Chan.exccfgWrite (c : Chan) (w : Word) (lo hi : Nat) : Chan :=
  let was := c.flag F.chExccfgEn
  let c := c.keepSeen F.chExccfgEn.off
  let d := c.wrFields 0x148 w lo hi
  if d.flag F.chExccfgEn && !was then
    (if d.excFits then d.setFld F.chExcstatWr 0 else d.setFld F.chExccfgEn 0)
  else d

/-- EXCEPTION_RECORDS_ENABLE (R160). -/
def execExceptionRecordsEnable (k : Ch) (p : Party) (w : Word) (s : State) : Host.Outcome State Fault Refusal :=
  onCh k s (fun _ c => c.regWrite p 0x148 w (fun c => c.exccfgWrite w 0 64))

/-! ## Loops (R111) -/

/-- LOOP_EXIT (R111). -/
def execLoopExit (k : Ch) (e : LoopId) (s : State) : Host.Outcome State Fault Refusal :=
  onCh k s (fun _ c =>
    match c.loop e.val with
    | none => c
    | some l =>
      if l.live ≠ 0 ∨ l.pending ≠ 0 then c
      else
        let d := c.dropLoop e.val
        if l.closing then d.sendHeld c.xclk ⟨l.exitVal.sb, l.exitVal.val, l.exitTag⟩ l.ctx.toNat l.ip.toNat else d)

end Sys2Proof.Machine
end

