-- ==== Sys2Proof/Machine/HostWin.lean ====
section
/-! DEFINITION. The host window: translation, the accesses of firings and callers, and its registers (R531 to R535, R570 to R573).
-/

namespace Sys2Proof.Machine

/-- Host address of a channel address in a page (R531). -/
def hostAddr (e : Word) (a : Nat) : Word := setBits e 0 21 (a % 2 ^ 21)

/-- Fields of an entry (R531). -/
def hwNs (e : Word) : Bool := wbit e 4
def hwRo (e : Word) : Bool := wbit e 3
def hwMay (e : Word) (write : Bool) : Bool := wbit e 0 && (if write then wbit e 2 else wbit e 1)

/-- Puts an entry at the head of the cache of 512, the least recently used leaving (R535). -/
def Chan.hwCachePut (c : Chan) (i : Nat) (e : Word) : Chan :=
  { c with hw := { c.hw with cache := ((i, e) :: c.hw.cache.filter (fun x => x.1 != i)).take 512 } }

/-- Reads translation entry i: from the cache, or from the table, where an uncorrectable line or a poisoned word fails (R397, R532,
R535). DESIGN CHOICE (log entry 50): a table that lies outside the usable GDDR7, as its channel's memory is not in service, gives no
entry. -/
def Chan.hwFetch (c : Chan) (i : Nat) (errs : LineErrs) : Chan × Option Word :=
  match c.hw.cache.find? (fun x => x.1 == i) with
  | some x => (c.hwCachePut i x.2, some x.2)
  | none =>
    let a := c.hwEntryAddr i
    let c := c.inc F.chHwstatMiss
    let open_ := c.range a == .dram
    let c := if open_ then c.dmTouch.dmRead c.xclk errs a 8 else c
    if !open_ then (c, none)
    else if c.wordPoison a then (c.inc F.chHwstatTblerr, none)
    else
      let e := c.rdWord a
      (c.hwCachePut i e, some e)

/-- Translates one page (R532): the entry, or none where the access fails. -/
def Chan.hwPageCheck (c : Chan) (i : Nat) (write : Bool) (errs : LineErrs) : Chan × Option Word :=
  if !c.flag F.chHwctlEn then (c, none)
  else match c.hwFetch i errs with
    | (c, some e) => (c, if hwMay e write then some e else none)
    | (c, none) => (c, none)

/-- Translates an access of n bytes at a (R532): the entries of its first and last page. A failure counts in DENIED. -/
def Chan.hwXlate (c : Chan) (a n : Nat) (write : Bool) (errs : LineErrs := []) : Chan × Option (Word × Word) :=
  match c.hwPageCheck (hwPage a) write errs with
  | (c, none) => (c.inc F.chHwstatDenied, none)
  | (c, some e) =>
    if hwPage (a + n - 1) = hwPage a then (c, some (e, e))
    else match c.hwPageCheck (hwPage (a + n - 1)) write errs with
      | (c, none) => (c.inc F.chHwstatDenied, none)
      | (c, some g) => (c, some (e, g))

/-- Bytes of an access of n bytes at a that lie in its first page. -/
def firstPage (a n : Nat) : Nat := min n (2 ^ 21 - a % 2 ^ 21)

def Chan.emit (c : Chan) (o : Out) : Chan := { c with out := c.out ++ [o] }

/-- Posted writes of bytes with their poison, by the entries of their pages (R534). -/
def Chan.hostPut (c : Chan) (a : Nat) (bs : List Byte) (ps : List Bool) (e g : Word) : Chan :=
  let m := firstPage a bs.length
  let c := c.emit (.write (hostAddr e a) (bs.take m) ((ps.take m).any id) (hwNs e) (hwRo e))
  if bs.length ≤ m then c
  else c.emit (.write (hostAddr g (a + m)) (bs.drop m) ((ps.drop m).any id) (hwNs g) (hwRo g))

/-- Read requests for n bytes at a. -/
def Chan.hostGet (c : Chan) (a n id : Nat) (e g : Word) : Chan :=
  let m := firstPage a n
  let c := c.emit (.read (hostAddr e a) m id (hwNs e))
  if n ≤ m then c else c.emit (.read (hostAddr g (a + m)) (n - m) id (hwNs g))

/-- What the codes of the lines find that an access of the ring engine reads its entries from (R397, R532; log entry 52). -/
def Chan.walkCodes (c : Chan) (a n : Nat) : LineErrs := (c.walkLines a n).flatMap (fun l => c.codes l 64)

/-- A write of the ring engine to host memory; false where translation fails. -/
def Chan.hostWrite (c : Chan) (a : Nat) (bs : List Byte) : Chan × Bool :=
  match c.hwXlate a bs.length true (c.walkCodes a bs.length) with
  | (c, none) => (c, false)
  | (c, some (e, g)) => (c.hostPut a bs [] e g, true)

/-- A load or store of the host window is accepted (R533, R534). -/
def Chan.hostAccess (c : Chan) (now : Nat) (r : Req) (errs : LineErrs) : Chan :=
  let a := r.addr.toNat
  match c.hwXlate a r.size (r.kind == .st) errs with
  | (c, none) => c.causeFor now r 0x2D (detail28 a)
  | (c, some (e, g)) =>
    if r.kind = .st then
      (c.hostPut a (storeBytes r).1 (storeBytes r).2 e g).reply (unitAt tileRing) r.reply doneOpd doneOpd
    else
      let id := c.hw.nextId
      ({ c with hw := { c.hw with outst := c.hw.outst ++ [(id, r)], nextId := id + 1 } }).hostGet a r.size id e g

/-- Tags that the channel's function has (R527). DEDUCED (log entry 53): at least 64 for each of the 16 channel functions and 1,024 in all leave
each of them 64. -/
def hostTags : Nat := 64

/-- Tags in use: one for every read request that has not completed. -/
def Chan.tagsUsed (c : Chan) : Nat :=
  (c.hw.outst.map (fun e => 1 + b2n (decide (firstPage e.2.addr.toNat e.2.size < e.2.size)))).foldl (· + ·) 0 + c.hw.reads.length

/-- Tags are free for an access, of up to two requests (R527). -/
def Chan.tagsFree (c : Chan) : Bool := decide (c.tagsUsed + 2 ≤ hostTags)

/-- HOST_WINDOW_ACCESS: the access delivered to the host window unit, with what the codes of its entries' lines find; a load waits for tags. -/
def execHostWindowAccess (k : Ch) (errs : LineErrs) (s : State) : Host.Outcome State Fault Refusal :=
  onCh k s (fun _ c =>
    match c.arrived tileRing 5 with
    | some { pay := .req r, .. } =>
      if c.domUp 5 && c.xlateOpen r.addr.toNat r.size && (r.kind == .st || c.tagsFree) then (c.takeArrived tileRing 5).hostAccess c.xclk r errs else c
    | _ => c)

/-- An access has completed: SYNC clears with the last that it waits for (R535). -/
def Chan.hwDone (c : Chan) (id : Nat) : Chan :=
  let c := { c with hw := { c.hw with outst := c.hw.outst.filter (fun x => x.1 != id), reads := c.hw.reads.filter (fun x => x.1 != id) } }
  match c.hw.sync with
  | none => c
  | some l =>
    let l := l.filter (fun i => i != id)
    if l.isEmpty then ({ c with hw := { c.hw with sync := none } }).setFld F.chHwctlSync 0
    else { c with hw := { c.hw with sync := some l } }

/-- The load with number id returns its bytes, poisoned where its completion reports an error (R534). -/
def Chan.hostReturn (c : Chan) (id : Nat) (d0 d1 : Word) (err : Bool) : Chan :=
  match c.hw.outst.find? (fun x => x.1 == id) with
  | none => c
  | some (_, r) =>
    let n := min r.size 8
    let o0 := mkOpd (BitVec.ofNat 64 (d0.toNat % 2 ^ (8 * n))) r.ty.toNat err
    let o1 := if r.size = 16 then mkOpd d1 r.ty.toNat err else o0
    (c.hwDone id).reply (unitAt tileRing) r.reply o0 o1

/-- An error is reported in the function's AER capability (R527): bit 12 for a completion with an error or poison, bit 14 for a timeout. PRESUMED
(log entry 53): the bits are PCIe's. -/
def Chan.aerNote (c : Chan) (b : Nat) : Chan := { c with hw := { c.hw with aer := c.hw.aer ||| BitVec.ofNat 32 (2 ^ b) } }

/-- HOST_READ_COMPLETION: the completion of load i with its data, err where it reports an error or is poisoned. -/
def execHostReadCompletion (k : Ch) (i : Nat) (d0 : Word) (d1 : Word) (err : Bool) (s : State) :
    Host.Outcome State Fault Refusal :=
  onCh k s (fun _ c => (if err then c.aerNote 12 else c).hostReturn i d0 d1 err)

/-- HOST_COMPLETION_TIMEOUT (R534): load i gets no data; its value is free (log entry 2). -/
def execHostCompletionTimeout (k : Ch) (i : Nat) (s : State) : Host.Outcome State Fault Refusal :=
  onCh k s (fun _ c => (c.aerNote 14).hostReturn i (Config.lostWord c.idx i 0) (Config.lostWord c.idx i 1) true)

/-! ## Registers (R535, R570 to R572) -/

/-- The table lies inside the usable GDDR7 and apart from the other structures of R403 (R570). -/
def Chan.hwTableFits (c : Chan) : Bool :=
  let a := c.hwEntryAddr 0
  decide (dramBase ≤ a) && decide (a + 0x100000 ≤ dramBase + c.dramSize) && !(c.private_.take 2).any (touches a 0x100000)

/-- A write of CH_HWCTL (R535, R570, R571). -/
def Chan.hwctlWrite (c : Chan) (w : Word) (lo hi : Nat) : Chan :=
  let was := c.flag F.chHwctlEn
  let c := c.wrFields 0x188 w lo hi
  let c := if c.flag F.chHwctlEn && !was then
      (if c.hwTableFits then { c with hw := { c.hw with cache := [] } } else c.setFld F.chHwctlEn 0)
    else c
  let c := if inSpan lo hi (0, 1, .wo) && wbit w 0 then { c with hw := { c.hw with cache := [] } } else c
  if inSpan lo hi (1, 1, .w1s) && wbit w 1 then
    (if c.hw.outst.isEmpty && c.hw.reads.isEmpty then c.setFld F.chHwctlSync 0
     else { c with hw := { c.hw with sync := some (c.hw.outst.map (·.1) ++ c.hw.reads.map (·.1)) } })
  else c

/-- HWCTL_ENABLE. -/
def execHwctlEnable (k : Ch) (p : Party) (w : Word) (s : State) : Host.Outcome State Fault Refusal :=
  onCh k s (fun _ c => c.regWrite p 0x188 w (fun c => c.hwctlWrite w 0 64))

/-- SYNC. -/
def execSync (k : Ch) (p : Party) (w : Word) (s : State) : Host.Outcome State Fault Refusal :=
  onCh k s (fun _ c => c.regWrite p 0x188 w (fun c => c.hwctlWrite w 0 64))

/-- INVALL. -/
def execInvall (k : Ch) (p : Party) (w : Word) (s : State) : Host.Outcome State Fault Refusal :=
  onCh k s (fun _ c => c.regWrite p 0x188 w (fun c => c.hwctlWrite w 0 64))

/-- A write of CH_HWTDATA: entry INDEX in GDDR7, its cached copy, then INDEX (R535). A half write leaves the field unchanged
(R657). -/
def Chan.hwtdataWrite (c : Chan) (w : Word) (lo hi : Nat) : Chan :=
  if !inSpan lo hi (0, 64, .rw) then c
  else
    let i := c.fld F.chHwtidxIndex
    let a := c.hwEntryAddr i
    let c := if c.range a = .dram then c.dmTouch.dmPut c.xclk a (valBytes w.toNat 8) else c
    ({ c with hw := { c.hw with cache := c.hw.cache.filter (fun x => x.1 != i) } }).wrapInc F.chHwtidxIndex

/-- HWTDATA_WRITE: held while the memory does not take it (R390). -/
def execHwtdataWrite (k : Ch) (p : Party) (w : Word) (s : State) : Host.Outcome State Fault Refusal :=
  onCh k s (fun _ c => c.regWrite p 0x198 w (fun c => c.hwtdataWrite w 0 64))

/-- Entry INDEX of the table (R572); 0 where no GDDR7 is usable (R390). -/
def Chan.hwtdata (c : Chan) : Word :=
  let a := c.hwEntryAddr (c.fld F.chHwtidxIndex)
  if c.range a = .dram then c.rdWord a else 0

/-- The line of entry INDEX is read (R397, R572). -/
def Chan.hwtRead (c : Chan) : Chan :=
  let a := c.hwEntryAddr (c.fld F.chHwtidxIndex)
  if c.range a = .dram then c.dmTouch.dmRead c.xclk (c.codes a 8) a 8 else c

/-- HWTDATA_READ: held while the memory does not take it (R390). -/
def execHwtdataRead (k : Ch) (p : Party) (s : State) : Host.Outcome State Fault Refusal :=
  onCh k s (fun _ c =>
    if !c.served 0x198 then c.hold { party := p, off := 0x198, w := none }
    else if !c.mayWrite p 0x198 then { c.stir 0x198 with readData := 0 }
    else { (c.stir 0x198).hwtRead with readData := c.hwtdata })

end Sys2Proof.Machine
end

