-- ==== Sys2Proof/Machine/Rings.lean ====
section
/-! DEFINITION. Submission and completion rings, admission, and completions (R266 to R278, R536 to R565, R574 to R580). -/

namespace Sys2Proof.Machine

/-! ## Rings and their records (R536 to R543) -/

def Chan.sqBase (c : Chan) (r : Nat) : Nat := c.fld (F.rgSbaseAddr r) * 4096
def Chan.sqRec (c : Chan) (r : Nat) : Nat := c.fld (F.rgSdbAddr r) * 16
def Chan.sqSize (c : Chan) (r : Nat) : Nat := 2 ^ c.fld (F.rgScfgSize r)
def Chan.cqBase (c : Chan) (r : Nat) : Nat := c.fld (F.rgCbaseAddr r) * 4096
def Chan.cqRec (c : Chan) (r : Nat) : Nat := c.fld (F.rgCdbAddr r) * 16
def Chan.cqSize (c : Chan) (r : Nat) : Nat := 2 ^ c.fld (F.rgCcfgSize r)
/-- Slot of the entry at CI (R536). -/
def Chan.sqSlot (c : Chan) (r : Nat) : Nat := (c.ring r).ci.toNat % c.sqSize r
/-- Completion ring of a submission ring. -/
def Chan.cqOf (c : Chan) (r : Nat) : Nat := c.fld (F.rgScfgCq r)

/-- n bytes at a lie inside the host window. -/
def inHost (a n : Nat) : Bool := decide (hostBase ≤ a) && decide (a + n ≤ hostBase + hostSize)

/-- The ring engine's domain is powered (R587). -/
def Chan.ringsOn (c : Chan) : Bool := c.domUp 5

/-- ACLK periods in a microsecond and in 100 ns (R9). -/
def aclkUs : Nat := 100
def aclk100ns : Nat := 10

/-- The deadline of the accepted item of ring r leaves its list, or stands for its context from now on (R273). -/
def Chan.moveDeadline (c : Chan) (r : Nat) (dst : Option CtxId) : Chan :=
  let one := fun (e : Nat × DlFor) => if e.2 = .ring r then dst.map (fun id => (e.1, DlFor.ctx id)) else some e
  { c with fl := { c.fl with lists := (c.fl.lists.map (fun e => (e.1, e.2.filterMap one))).filter (fun e => !e.2.isEmpty) } }

/-- An accepted item that has no context yet, or a copy that waits for a slot, is dropped: its grant goes back. -/
def Chan.dropFetched (c : Chan) (r : Nat) : Chan :=
  let x := c.ring r
  let c := (c.giveBack x.grant).moveDeadline r none
  c.setRing r { x with fetched := none, grant := none, admitted := none, out := x.out - b2n x.admitted.isSome }

/-- A copy or LOAD that waits for a slot is dropped (R561). -/
def Chan.dropWaitingCopy (c : Chan) (r : Nat) : Chan := if (c.ring r).admitted.isSome then c else c.dropFetched r

/-- A record or descriptor read fails (R563, R565). DEDUCED (log entry 43): a ring that is already DRAINING or ABORTING keeps its state, since
only a disable would clear ERROR and its EN is 0; ERR records the failure. -/
def Chan.ringFail (c : Chan) (r code : Nat) : Chan :=
  let c := c.inc F.chRgstatFetcherr
  let x := c.ring r
  if x.st = .active ∨ x.st = .sleep then
    ((c.setRing r { x with st := .error, err := code, reading := 0 }).dropWaitingCopy r).raise (64 + r)
  else if x.st = .disabled then c
  else c.setRing r { x with err := code }

/-- Word 1 of a doorbell record (R537), and its write. -/
def Chan.writeSdb (c : Chan) (r : Nat) (sleep : Bool) : Chan :=
  let w := b2n sleep <<< 63 + c.fld (F.rgScfgEpoch r) <<< 32 + (c.ring r).ci.toNat
  let c := (c.hostWrite (c.sqRec r + 8) (valBytes w 8)).1
  c.setRing r { c.ring r with sleepW := sleep }

/-- Word 1 of a head record (R538), and its write; a translation failure sets ERROR (R563). -/
def Chan.writeCdb (c : Chan) (q : Nat) (full : Bool) : Chan :=
  let w := b2n full <<< 63 + c.fld (F.rgCcfgEpoch q) <<< 32 + (c.cring q).tail.toNat
  match c.hostWrite (c.cqRec q + 8) (valBytes w 8) with
  | (c, true) => c
  | (c, false) => c.setCring q { c.cring q with error := true }

/-- Issues a read of n bytes at a for the ring engine; false where translation fails. -/
def Chan.engineRead (c : Chan) (a n : Nat) : Chan × Bool :=
  match c.hwXlate a n false (c.walkCodes a n) with
  | (c, none) => (c, false)
  | (c, some (e, g)) =>
    let id := c.hw.nextId
    (({ c with hw := { c.hw with nextId := id + 1 } }).hostGet a n id e g, true)

/-- Issues the read of word 0 of a record, which stays outstanding until it completes (R535, R540); false where translation fails. -/
def Chan.recordRead (c : Chan) (sub : Bool) (r a : Nat) : Chan × Bool :=
  match c.engineRead a 8 with
  | (d, false) => (d, false)
  | (d, true) => ({ d with hw := { d.hw with reads := d.hw.reads ++ [(c.hw.nextId, sub, r)] } }, true)

/-- The read of word 0 of a submission ring's record is issued. -/
def Chan.readSdb (c : Chan) (now r : Nat) : Chan :=
  match c.recordRead true r (c.sqRec r) with
  | (c, false) => c.ringFail r 1
  | (c, true) =>
    c.setRing r { c.ring r with reading := (c.ring r).reading + 1, pollAt := now + max 1 (c.fld (F.rgScfgPoll r)) * aclk100ns }

/-- The read of word 0 of a completion ring's record is issued. -/
def Chan.readCdb (c : Chan) (q : Nat) : Chan :=
  match c.recordRead false q (c.cqRec q) with
  | (c, false) => (c.inc F.chRgstatFetcherr).setCring q { c.cring q with error := true }
  | (c, true) => c.setCring q { c.cring q with reading := (c.cring q).reading + 1 }

/-- RING_POLL (R540); it waits for a tag (R527). -/
def execRingPoll (k : Ch) (r : RingId) (s : State) : Host.Outcome State Fault Refusal :=
  onCh k s (fun dv c =>
    let x := c.ring r.val
    if c.ringsOn ∧ x.st = .active ∧ x.reading = 0 ∧ x.pollAt ≤ dv.time ∧ c.tagsFree = true ∧ c.xlateOpen (c.sqRec r.val) 8 = true then
      c.readSdb dv.time r.val
    else c)

/-- Word 0 of a doorbell record is read (R537, R539). -/
def Chan.takePi (c : Chan) (now r : Nat) (w : Word) : Chan :=
  let pi := BitVec.ofNat 32 (wbits w 0 32)
  let x := { c.ring r with pi := pi, piEpoch := BitVec.ofNat 16 (wbits w 32 16) }
  if wbits w 32 16 ≠ c.fld (F.rgScfgEpoch r) then (c.setRing r x).inc F.chRgstatFetcherr
  else c.setRing r { x with avail := pi, idleSince := if pi = x.avail then x.idleSince else now }

/-- Completions may be issued: TAIL - HEAD is below the size (R553). -/
def Chan.cqRoom (c : Chan) (q : Nat) : Bool :=
  decide (((c.cring q).tail - (c.cring q).head).toNat < c.cqSize q)

/-- Completions of ring q wait for HEAD (R579): decided ones, or words of its queue. -/
def Chan.headWaits (c : Chan) (q : Nat) : Bool :=
  !c.cqRoom q && (!(c.cring q).cpls.isEmpty || decide (0 < (c.qptr (640 + q)).unread))

/-- Word 0 of a head record is read (R538, R539); FULL ends where there is room, else the record is read again after POLL (R579). -/
def Chan.takeHead (c : Chan) (now q : Nat) (w : Word) : Chan :=
  let x := { c.cring q with pollAt := now + c.fld (F.rgCcfgPoll q) * aclk100ns }
  if wbits w 32 16 ≠ c.fld (F.rgCcfgEpoch q) then (c.setCring q x).inc F.chRgstatFetcherr
  else
    let c := c.setCring q { x with head := BitVec.ofNat 32 (wbits w 0 32) }
    if x.full && c.cqRoom q then (c.setCring q { c.cring q with full := false }).writeCdb q false else c

/-- A failed read of a head record (R563). -/
def Chan.headFail (c : Chan) (q : Nat) : Chan :=
  (c.inc F.chRgstatFetcherr).setCring q { c.cring q with error := true, reading := 0 }

/-- The engine reads the head record of a completion ring again while it is FULL, once every POLL x 100 ns (R540, R579). -/
def Chan.headDue (c : Chan) (now q : Nat) : Bool :=
  c.flag (F.rgCcfgEn q) && !(c.cring q).error && (c.cring q).full && decide ((c.cring q).pollAt ≤ now)

/-- The oldest outstanding read of a record, and whether the ring has been disabled or has failed since it was issued. -/
def Chan.readOf (c : Chan) (sub : Bool) (r : Nat) : Option (Nat × Bool) :=
  let l := c.hw.reads.filter (fun e => e.2.1 == sub && e.2.2 == r)
  l.head?.map (fun e => (e.1, decide ((if sub then (c.ring r).reading else (c.cring r).reading) < l.length)))

/-- The read of the record of submission ring r completes with f. -/
def Chan.sdbRead (c : Chan) (now r : Nat) (f : RecRead) : Chan :=
  let c := c.setRing r { c.ring r with reading := (c.ring r).reading - 1 }
  match f with
  | .failed => c.ringFail r 1
  | .ok w => c.takePi now r w

/-- A read of the head record of completion ring q completes with f. -/
def Chan.cdbRead (c : Chan) (now q : Nat) (f : RecRead) : Chan :=
  match f with
  | .failed => c.headFail q
  | .ok w => c.takeHead now q w

/-- RECORD_READ_COMPLETE (R539, R540, R563): the oldest outstanding read of the record; with none, a completion ring that is FULL has its head
record read again. The result of a read issued before the ring was disabled or failed is dropped. -/
def execRecordReadComplete (k : Ch) (x : RecId) (f : RecRead) (s : State) : Host.Outcome State Fault Refusal :=
  onCh k s (fun dv c =>
    if !c.ringsOn then c
    else match x with
      | .submission r =>
        (match c.readOf true r.val with
         | none => c
         | some (id, true) => c.hwDone id
         | some (id, false) => (c.hwDone id).sdbRead dv.time r.val f)
      | .completion q =>
        match c.readOf false q.val with
        | some (id, true) => c.hwDone id
        | some (id, false) =>
          let c := c.hwDone id
          (c.setCring q.val { c.cring q.val with reading := (c.cring q.val).reading - 1 }).cdbRead dv.time q.val f
        | none =>
          if !c.headDue dv.time q.val || !c.xlateOpen (c.cqRec q.val) 16 then c
          else match c.engineRead (c.cqRec q.val) 8 with
            | (c, false) => c.headFail q.val
            | (c, true) => c.cdbRead dv.time q.val f)

/-- RING_IDLE_SLEEP (R540): the engine writes SLEEP or FULL, then reads word 0 again. -/
def execRingIdleSleep (k : Ch) (x : RecId) (f : RecRead) (s : State) : Host.Outcome State Fault Refusal :=
  onCh k s (fun dv c =>
    match x with
    | .submission r =>
      let y := c.ring r.val
      if c.ringsOn ∧ y.st = .active ∧ y.reading = 0 ∧ y.avail = y.ci ∧ y.fetched = none
          ∧ y.idleSince + c.fld (F.rgScfgIdle r.val) * aclkUs ≤ dv.time ∧ c.xlateOpen (c.sqRec r.val) 16 = true then
        match (c.writeSdb r.val true).engineRead (c.sqRec r.val) 8, f with
        | (c, false), _ => c.ringFail r.val 1
        | (c, true), .failed => c.ringFail r.val 1
        | (c, true), .ok w =>
          let c := c.takePi dv.time r.val w
          if (c.ring r.val).avail = (c.ring r.val).ci then c.setRing r.val { c.ring r.val with st := .sleep }
          else c.writeSdb r.val false
      else c
    | .completion q =>
      let y := c.cring q.val
      if c.ringsOn ∧ c.flag (F.rgCcfgEn q.val) ∧ y.error = false ∧ y.full = false ∧ c.headWaits q.val = true
          ∧ c.xlateOpen (c.cqRec q.val) 16 = true then
        let c := (c.setCring q.val { y with full := true }).writeCdb q.val true
        if (c.cring q.val).error then c
        else match c.engineRead (c.cqRec q.val) 8 with
          | (c, false) => c.headFail q.val
          | (c, true) => c.cdbRead dv.time q.val f
      else c)

/-- A kick of a submission ring (R542): with no tag free, its record is read at the next RING_POLL. -/
def Chan.kickRing (c : Chan) (now r : Nat) : Chan :=
  let read := fun (c : Chan) => if c.tagsFree then c.readSdb now r else c.setRing r { c.ring r with pollAt := now }
  match (c.ring r).st with
  | .sleep => read ((c.setRing r { c.ring r with st := .active }).writeSdb r false)
  | .active => read c
  | .disabled | .draining | .aborting | .error => c

/-- A kick of a completion ring: with no tag free, one that is FULL has its record read again at once. -/
def Chan.kickCq (c : Chan) (now q : Nat) : Chan :=
  if !c.flag (F.rgCcfgEn q) || (c.cring q).error then c
  else if !c.tagsFree then c.setCring q { c.cring q with pollAt := now }
  else
    let c := if (c.cring q).full then (c.setCring q { c.cring q with full := false }).writeCdb q false else c
    if (c.cring q).error then c else c.readCdb q

/-- Rings that a KICK word names (R542): ALL in [7], RING in [6:0]. -/
def kicked (w : Word) : List Nat := if wbit w 7 then List.range 128 else [wbits w 0 7]

/-- The records of the kicked rings can be reached now (R390). -/
def Chan.kickOpen (c : Chan) (w : Word) : Bool :=
  (kicked w).all (fun r => c.xlateOpen (if wbit w 8 then c.cqRec r else c.sqRec r) 16)

/-- A KICK word (R542): CQ in [8]. -/
def Chan.kickWord (c : Chan) (now : Nat) (w : Word) : Chan :=
  (kicked w).foldl (fun c r => if wbit w 8 then c.kickCq now r else c.kickRing now r) c

/-- Kicks act in order, up to one that has to wait for the ring engine or for the memory (R390, R542). -/
def Chan.kickAll (now : Nat) : List Word → Chan → Chan
  | [], c => c
  | w :: r, c =>
    if c.ringsOn && c.kickOpen w then kickAll now r (c.kickWord now w)
    else { c with pw := { c.pw with kicks := c.pw.kicks ++ w :: r } }

/-- The kicks that wait. -/
def Chan.serveKicks (c : Chan) (now : Nat) : Chan := Chan.kickAll now c.pw.kicks { c with pw := { c.pw with kicks := [] } }

/-- KICK (R542, R590, R591): it wakes a channel that is not in C0, and waits while the ring engine is off, and in RETRAIN and SELFREF where a
translation entry is to be read (R390). -/
def execKick (k : Ch) (w : Word) (s : State) : Host.Outcome State Fault Refusal :=
  onCh k s (fun dv c =>
    let c := if c.pw.cst = 0 then c else c.askWake
    Chan.kickAll dv.time (c.pw.kicks ++ [w]) { c with pw := { c.pw with kicks := [] } })

/-! ## Descriptors (R544 to R548) -/

def lineWord (l : Line) : Nat → Word
  | 0 => l.w0
  | 1 => l.w1
  | 2 => l.w2
  | 3 => l.w3
  | 4 => l.w4
  | 5 => l.w5
  | 6 => l.w6
  | _ => l.w7

def lineOpc (l : Line) : Nat := wbits l.w0 56 8
def lineFence (l : Line) : Bool := wbit l.w0 49
def lineNarg (l : Line) : Nat := wbits l.w2 0 3

/-- The bits of a descriptor's words that may be set (R544 to R546), by OPC and NARG. Word 2 of a RUN keeps TYPE0 to TYPE3 in
[31:16] (log entry 28). -/
def descMask (opc narg : Nat) : List Nat :=
  let all := 2 ^ 64 - 1
  let head := 0xFF02000000000000
  let arg := fun j => if j < min narg 4 then all else 0
  if opc = 1 then [head + 0xFFFFFFFF, all, 0xFFFFFF07, arg 0, arg 1, arg 2, arg 3, 0]
  else if opc = 2 ∨ opc = 3 then [head, 0xFFFFFFFFFF, 0xFFFFFFFFFF, 0xFFFFFFFF, 0, 0, 0, 0]
  else if opc = 4 then [head, 0xFFFFFFFFFF, 0xFFFFFFFF, 0, 0, 0, 0, 0]
  else [head, 0, 0, 0, 0, 0, 0, 0]

/-- An argument of a RUN has a reserved TYPE, of which the device makes no token (R40, R47). -/
def badType (l : Line) : Bool := (List.range (min (lineNarg l) 4)).any (fun j => decide (8 ≤ wbits l.w2 (4 * j + 16) 4))

/-- DETAIL of BADDESC (R548, R554), the lowest that holds. DESIGN CHOICE (log entry 43): a reserved TYPE counts as a reserved bit. -/
def lineBad (l : Line) : Option Nat :=
  let o := lineOpc l
  if o = 0 ∨ 6 ≤ o then some 1
  else if (List.range 8).any (fun i => (lineWord l i).toNat &&& ((descMask o (lineNarg l)).getD i 0) != (lineWord l i).toNat) then some 2
  else if o = 1 ∧ badType l then some 2
  else if o = 1 ∧ ((lineNarg l) = 0 ∨ 5 ≤ (lineNarg l)) then some 3
  else if (o = 2 ∨ o = 3) ∧ wbits l.w3 0 32 = 0 then some 4
  else if o = 4 ∧ wbits l.w2 0 32 = 0 then some 4
  else none

/-- A completion decided for entry CI of ring r is not issued yet: nothing behind it is decided (R547). -/
def Chan.ciPending (c : Chan) (r : Nat) : Bool := c.crings.any (fun e => e.2.cpls.any (fun x => x.sq == r && x.bumpCi))

/-- The ring engine fetches the entry at CI (R547). -/
def Chan.mayFetch (c : Chan) (r : Nat) : Bool :=
  let x := c.ring r
  let p := c.qptr (512 + r)
  c.ringsOn && x.st == .active && x.avail != x.ci && x.fetched.isNone && !c.ciPending r && c.qEn (512 + r)
    && decide (p.held + 4 ≤ c.qCap (512 + r))

/-- Decides a completion of ring r, for its completion ring. -/
def Chan.decide_ (c : Chan) (r : Nat) (x : Cpl) : Chan :=
  let q := c.cqOf r
  c.setCring q { c.cring q with cpls := (c.cring q).cpls ++ [x] }

/-- Decides the completion of the entry at CI, with which CI will advance (R547, R548, R275). -/
def Chan.finishEntry (c : Chan) (r status detail : Nat) : Chan :=
  (c.setRing r { c.ring r with busy := (c.ring r).busy + 1 }).decide_ r
    { status := BitVec.ofNat 8 status, detail := BitVec.ofNat 32 detail, sq := r, slot := BitVec.ofNat 16 (c.sqSlot r),
      bumpCi := true }

/-- The fetch of the entry at CI returns (R547, R548, R563): an entry of the kinds named, once its FENCE holds, completes at
once where it is bad, and otherwise goes on. -/
def Chan.onEntry (c : Chan) (r : Nat) (f : Fetched) (isOp : Nat → Bool) (go : Chan → Line → Chan) : Chan :=
  if !c.mayFetch r || !c.xlateOpen (c.sqBase r + 64 * c.sqSlot r) 64 then c
  else match c.engineRead (c.sqBase r + 64 * c.sqSlot r) 64, f with
    | (d, false), _ => d.ringFail r 2
    | (d, true), .failed => d.ringFail r 2
    | (d, true), .ok l =>
      if !isOp (lineOpc l) then c
      else if lineFence l && ((c.ring r).out != 0 || (c.ring r).busy != 0) then c
      else match lineBad l with
        | some n => (d.inc F.chRgstatBaddesc).finishEntry r 0x30 n
        | none => go d l

/-- NOP (R547). -/
def execNop (k : Ch) (r : RingId) (f : Fetched) (s : State) : Host.Outcome State Fault Refusal :=
  onCh k s (fun _ c => c.onEntry r.val f (fun o => o == 5) (fun c _ => c.finishEntry r.val 0 0))

/-- BADDESC (R548): an entry with a reserved OPC. -/
def execBaddesc (k : Ch) (r : RingId) (f : Fetched) (s : State) : Host.Outcome State Fault Refusal :=
  onCh k s (fun _ c => c.onEntry r.val f (fun o => o == 0 || decide (6 ≤ o)) (fun c _ => c))

/-- The entry waits for a copy slot with its ring held (R550). -/
def Chan.holdEntry (c : Chan) (r : Nat) (l : Line) : Chan := c.setRing r { c.ring r with fetched := some l }

/-- COPYIN (R546, R550, R558): the entry waits for a copy slot. -/
def execCopyin (k : Ch) (r : RingId) (f : Fetched) (s : State) : Host.Outcome State Fault Refusal :=
  onCh k s (fun _ c => c.onEntry r.val f (fun o => o == 2) (fun c l => c.holdEntry r.val l))

/-- COPYOUT (R546, R550, R558). -/
def execCopyout (k : Ch) (r : RingId) (f : Fetched) (s : State) : Host.Outcome State Fault Refusal :=
  onCh k s (fun _ c => c.onEntry r.val f (fun o => o == 3) (fun c l => c.holdEntry r.val l))

/-- LOAD (R546, R550, R568). -/
def execLoad (k : Ch) (r : RingId) (f : Fetched) (s : State) : Host.Outcome State Fault Refusal :=
  onCh k s (fun _ c => c.onEntry r.val f (fun o => o == 4) (fun c l => c.holdEntry r.val l))

/-! ## Admission (R266 to R277) -/

/-- Cost of x on curve k (R268); none out of range. -/
def Chan.cost (c : Chan) (k x : Nat) : List Nat → Option Nat
  | [] => none
  | i :: r =>
    let j := 8 * k + i
    if c.fld (F.adCurveCost j) = 0xFFFFFFFF then none
    else if x ≤ c.fld (F.adCurveXmax j) then some (c.fld (F.adCurveCost j))
    else c.cost k x r

/-- Deadlines of the outstanding guaranteed items of level q, in admission order (R273). -/
def Chan.deadlines (c : Chan) (q : Nat) : List Nat := (tblGet c.fl.lists q []).map (·.1)

/-- F[q] (R273): TIME while the lists of every level from 0 to q are empty. -/
def Chan.finishAt (c : Chan) (now q : Nat) : Nat :=
  if (List.range (q + 1)).all (fun i => (c.deadlines i).isEmpty) then now else tblGet c.fl.f q 0

/-- margin[q] (R273). -/
def Chan.margin (c : Chan) (q : Nat) : Nat :=
  let mhz := max 1 (c.fld F.adCfgMinmhz)
  (((List.range 16).filter (fun i => c.flag (F.adTcfgEn i) && c.flag (F.adTcfgGuar i) && c.fld (F.adTcfgLevel i) == q)).map
    (fun i => c.fld (F.adTfixFixed i)
      + ((c.fld (F.adTcfgRewn i) * 272 + c.fld (F.adTcfgStandn i) * 2864) * 100 + mhz - 1) / mhz)).foldl max 0

/-- A decision of R274. -/
inductive Decision where
  | decline (reason : Nat)
  | best
  | accept (deadline cost drain : Nat)
  deriving DecidableEq, Repr

/-- Whether level q can take t more (R274): no deadline to meet, or F[q] stays within its margin. -/
def Chan.levelFits (c : Chan) (now level bound t q : Nat) : Bool :=
  let edl := match (c.deadlines q).min? with
    | some d => some d
    | none => if q = level then some (now + bound) else none
  match edl with
  | none => true
  | some e => decide (max (c.finishAt now q) now + t + c.margin q ≤ e)

/-- The admission decision (R274) for tempo class tc, cost argument x and flow class n. -/
def Chan.admission (c : Chan) (now tc x n : Nat) : Decision :=
  let guar := c.flag (F.adTcfgGuar tc)
  if !c.flag F.adCfgEn || !c.flag (F.adTcfgEn tc) then (if guar then .decline 1 else .best)
  else if !guar then .best
  else match c.cost (c.fld (F.adTcfgCurve tc)) x (List.range 8) with
    | none => .decline 2
    | some k =>
      let level := c.fld (F.adTcfgLevel tc)
      let kind := c.fld (F.flClassKind n)
      if c.freeIds = 0 ∨ c.gate false 1 = false ∨ ((kind = 2 ∨ kind = 3) ∧ c.ordClosed (c.fld (F.flClassOrdq n)))
          ∨ 1024 ≤ (c.deadlines level).length then .decline 3
      else
        let t := (k * c.fld F.adCfgCostclk + 255) / 256
        let bound := c.fld (F.adTcfgBound tc)
        if (List.range 8).all (fun q => decide (q < level) || c.levelFits now level bound t q) then
          .accept (now + bound) k t
        else .decline 4

/-- F[q] of every level from the item's down moves (R274). -/
def Chan.addDrain (c : Chan) (now level t : Nat) : Chan :=
  let f := (List.range 8).map (fun q => if q < level then tblGet c.fl.f q 0 else max (c.finishAt now q) now + t)
  { c with fl := { c.fl with f := (f.zipIdx).foldl (fun m e => tblPut m e.2 e.1 0) c.fl.f } }

/-- The counter of a decline reason (R290). -/
def declineFld (reason : Nat) : Fd :=
  match reason with | 1 => F.adStatDisabled | 2 => F.adStatRange | 3 => F.adStatResource | _ => F.adStatCapacity

/-- The item of ring r is accepted, and waits for its context (R274, R276). -/
def Chan.acceptItem (c : Chan) (r : Nat) (l : Line) (a : Adm) : Chan :=
  (c.setRing r { c.ring r with fetched := some l, admitted := some a, out := (c.ring r).out + 1 }).inc (F.adTcntAccept a.tc)

/-- A deadline is appended to the list of level q (R274). -/
def Chan.addDeadline (c : Chan) (q deadline : Nat) (x : DlFor) : Chan :=
  { c with fl := { c.fl with lists := tblPut c.fl.lists q (tblGet c.fl.lists q [] ++ [(deadline, x)]) [] } }

/-- The decision on a fetched RUN (R274 to R276). -/
def Chan.decideRun (c : Chan) (now r : Nat) (l : Line) : Chan :=
  let tc := c.fld (F.rgSctxTempo r)
  let level := c.fld (F.adTcfgLevel tc)
  match c.admission now tc (wbits l.w0 0 32) (c.fld (F.rgSctxFlow r)) with
  | .decline n => ((c.inc (declineFld n)).inc (F.adTcntDecline tc)).finishEntry r n 0
  | .best => c.acceptItem r l { tc := tc }
  | .accept dl k t =>
    ((c.addDrain now level t).addDeadline level dl (.ring r)).acceptItem r l
      { deadline := dl, cost := BitVec.ofNat 32 k, guar := true, tc := tc }

/-- ADMISSION_DECISION. -/
def execAdmissionDecision (k : Ch) (r : RingId) (f : Fetched) (s : State) : Host.Outcome State Fault Refusal :=
  onCh k s (fun dv c => c.onEntry r.val f (fun o => o == 1) (fun c l => c.decideRun dv.time r.val l))

/-- A write of AD_CFG would leave EN 1 under a forbidden configuration (R2, R271). -/
def Chan.adForbidden (c : Chan) : Bool :=
  let cls := (List.range 16).filter (fun i => c.flag (F.adTcfgEn i))
  let guar := cls.filter (fun i => c.flag (F.adTcfgGuar i))
  let best := cls.filter (fun i => !c.flag (F.adTcfgGuar i))
  c.fld F.adCfgCostclk == 0 || c.fld F.adCfgMinmhz == 0
    || decide ((if Config.isE20 then 2000 else 1800) < c.fld F.adCfgMinmhz)
    || guar.any (fun i => c.fld (F.adTcfgBound i) == 0 || decide (2 ^ 31 ≤ c.fld (F.adTcfgBound i)))
    || guar.any (fun i => guar.any (fun j => c.fld (F.adTcfgLevel i) == c.fld (F.adTcfgLevel j)
                                             && c.fld (F.adTcfgBound i) != c.fld (F.adTcfgBound j)))
    || best.any (fun i => guar.any (fun j => decide (c.fld (F.adTcfgLevel i) ≤ c.fld (F.adTcfgLevel j))))

/-- A write of AD_CFG (R271): ignored as a whole where it would leave EN 1 under one of them. -/
def Chan.adCfgWriteOp (c : Chan) (w : Word) (lo hi : Nat) : Chan :=
  let d := c.wrFields 0x5600 w lo hi
  if d.flag F.adCfgEn && d.adForbidden then c else d

/-- AD_CFG_WRITE. -/
def execAdCfgWrite (k : Ch) (p : Party) (w : Word) (s : State) : Host.Outcome State Fault Refusal :=
  onCh k s (fun _ c => c.regWrite p 0x5600 w (fun c => c.adCfgWriteOp w 0 64))

/-! ## Items (R547, R549) -/

/-- Argument token j of an item (R549). -/
def Chan.argToken (c : Chan) (r id : Nat) (l : Line) (j : Nat) : Token :=
  let level := c.fld (F.adTcfgLevel (c.fld (F.rgSctxTempo r)))
  ⟨mkSb (wbits l.w2 (4 * j + 16) 4) false, lineWord l (3 + j),
   mkTag c.devNo (wbits l.w1 (16 * j) 16) id (wbits l.w2 (2 * j + 8) 2) level 0⟩

/-- The record of an item's context (R549); TE[7] is 0 (R152). -/
def Chan.itemCtx (c : Chan) (r id deadline : Nat) (cost : BitVec 32) : Ctx :=
  let tc := c.fld (F.rgSctxTempo r)
  let level := c.fld (F.adTcfgLevel tc)
  { flow := BitVec.ofNat 6 (c.fld (F.rgSctxFlow r)), tempo := BitVec.ofNat 4 tc, priocap := BitVec.ofNat 3 level,
    ring := BitVec.ofNat 8 r, origin := 0, itwin := BitVec.ofNat 4 (c.fld (F.rgSctxItwin r)), supv := c.flag (F.rgSctxSupv r),
    slot := BitVec.ofNat 16 (c.sqSlot r), retTag := mkTag c.devNo (c.cqOf r) id 0 level 2, excTag := c.rd (F.rgSexcExc r).off,
    rm := BitVec.ofNat 2 (c.fld (F.rgSctxRm r)), te := BitVec.ofNat 8 (c.fld (F.rgSctxTe r) % 128),
    deadline := BitVec.ofNat 32 deadline, cost := cost }

/-- The flow class of a ring has room for a position, or takes none (R252, R276). -/
def Chan.positionRoom (c : Chan) (n : Nat) : Bool :=
  let kind := c.fld (F.flClassKind n)
  !(kind == 2 || kind == 3) || !c.ordClosed (c.fld (F.flClassOrdq n))

/-- The accepted item of ring r starts with its grant (R547, R549): context, position, tokens and CI in one XCLK. -/
def Chan.startItem (c : Chan) (now r : Nat) (l : Line) (g : Grant) (a : Adm) : Chan :=
  let id := g.id.toNat
  let n := c.fld (F.rgSctxFlow r)
  let kind := c.fld (F.flClassKind n)
  let slot := BitVec.ofNat 16 (c.sqSlot r)
  let toks := (List.range (min (lineNarg l) 4)).map (c.argToken r id l)
  let c := c.create g (c.itemCtx r id a.deadline a.cost)
  let c := if kind = 2 ∨ kind = 3 then c.takePosition now id n else c
  let c := toks.foldl (fun c t => c.qPush (512 + r) (tokWord t 0)) c
  let c := c.moveDeadline r (some g.id)
  let x := c.ring r
  c.setRing r { x with fetched := none, admitted := none, grant := none, ci := x.ci + 1, items := x.items ++ [⟨g.id, slot, a.guar, a.tc, (c.ctx id).seq⟩],
                       toks := x.toks ++ (List.range (min (lineNarg l) 4)).map (fun j => ⟨slot, g.id, j⟩) }

/-- RUN: the accepted item that has its grant. -/
def execRun (k : Ch) (r : RingId) (s : State) : Host.Outcome State Fault Refusal :=
  onCh k s (fun _ c =>
    let x := c.ring r.val
    match x.fetched, x.admitted, x.grant with
    | some l, some a, some g =>
      if c.ringsOn && c.positionRoom (c.fld (F.rgSctxFlow r.val)) then c.startItem c.xclk r.val l g a else c
    | _, _, _ => c)

/-- RING_INJECTION (R332, R336, R337): the oldest token of ring queue 512 + r leaves for the network; a lost word waits for its
regeneration. -/
def execRingInjection (k : Ch) (r : RingId) (pf : Parity) (s : State) : Host.Outcome State Fault Refusal :=
  onCh k s (fun _ c =>
    let q := 512 + r.val
    let x := c.ring r.val
    if !c.ringsOn || x.badHead || !c.qGives q || !c.injectRoom (unitAt tileRing) false 1 then c
    else
      let t := wordTok (c.qItem q (c.qRead q))
      match c.qParity q pf with
      | (c, _, true) => c.setRing r.val { x with badHead := true }
      | (c, _, false) =>
        ((c.qAdvance q).setRing r.val { x with toks := x.toks.drop 1 }).sendRaw t .home false (.qword q) (unitAt tileRing))

/-- RING_TOKEN_REGENERATION (R337): the descriptor of the failed word is fetched again and the token written back in place. -/
def execRingTokenRegeneration (k : Ch) (r : RingId) (f : Fetched) (s : State) : Host.Outcome State Fault Refusal :=
  onCh k s (fun _ c =>
    let q := 512 + r.val
    let x := c.ring r.val
    match x.badHead, x.toks with
    | true, t :: _ =>
      let a := c.sqBase r.val + 64 * t.slot.toNat
      if !c.ringsOn || !c.xlateOpen a 64 then c
      else match c.engineRead a 64, f with
        | (c, false), _ => c.ringFail r.val 2
        | (c, true), .failed => c.ringFail r.val 2
        | (c, true), .ok l =>
          ((c.setQWord (c.qAddr q (c.qRead q)) (tokWord (c.argToken r.val t.ctx.toNat l t.arg) 0)).setRing r.val
            { c.ring r.val with badHead := false }).inc F.chQstatRegen
    | _, _ => c)

/-! ## Completions (R551 to R555) -/

/-- A status word that waits for room in completion queue 640 + q enters it (R551). -/
def Chan.pushWaiting (c : Chan) (q : Nat) : Chan :=
  match (c.cring q).waitPush with
  | [] => c
  | w :: r => if c.qRoom (640 + q) then (c.qPush (640 + q) w).setCring q { c.cring q with waitPush := r } else c

/-- The word at the head of a completion queue is taken and its space freed (R332). -/
def Chan.dropWord (c : Chan) (q : Nat) : Chan := ((c.qAdvance (640 + q)).qRelease (640 + q) 1).pushWaiting q

/-- The item's context is LIVE, in the life that the item has given it (R51, R273). -/
def Chan.itemLive (c : Chan) (i : Item) : Bool := c.live i.ctx.toNat && (c.ctx i.ctx.toNat).seq == i.seq

/-- The item of a context in its ring. -/
def Chan.itemOf (c : Chan) (r id : Nat) : Option Item := (c.ring r).items.find? (fun i => i.ctx.toNat == id)

/-- The completion of a token's context, when it may have one (R555); the late indication is a guaranteed item's (R277). -/
def Chan.cplOf (c : Chan) (q : Nat) (w : BitVec 144) : Option Cpl :=
  let t := wordTok w
  let id := tagCtx t.tag
  let x := c.ctx id
  let r := x.ring.toNat
  if id < c.ctxLimit ∧ x.st = .dead ∧ x.origin = 0 ∧ r < 128 ∧ c.cqOf r = q then
    let killed := wordHi w % 2 = 1
    some { result := t.val, detail := if killed then BitVec.ofNat 32 (wbits t.val 0 8) else 0, cflags := x.flags,
           ctx := BitVec.ofNat 24 id, deadline := x.deadline, status := if killed then 0x10 else 0,
           guar := match c.itemOf r id with | some i => if i.guar then some (BitVec.ofNat 4 i.tc) else none | none => none, rpoison := sbPoison t.sb, sq := r,
           slot := x.slot, item := true }
  else none

/-- The context is POISONED: its automatic kill is under way (R71). -/
def Chan.poisoned (c : Chan) (id : Nat) : Bool := (c.ctx id).st == .poisoned

/-- COMPLETION_TOKEN (R336, R339, R555, R556): the word at the head of completion queue 640 + r. A completion that cannot be
issued waits in its queue, and so does the word of a context whose kill has yet to make it DEAD (R71; log entry 45). -/
def execCompletionToken (k : Ch) (r : RingId) (pf : Parity) (s : State) : Host.Outcome State Fault Refusal :=
  onCh k s (fun _ c =>
    let q := r.val
    if !c.ringsOn || !c.qGives (640 + q) then c
    else
      let w := c.qItem (640 + q) (c.qRead (640 + q))
      if c.poisoned (tagCtx (wordTok w).tag) then c else
      let ready := c.flag (F.rgCcfgEn q) && !(c.cring q).error && (c.cring q).cpls.isEmpty && c.cqRoom q
      match c.cplOf q w with
      | none =>
        (match c.qParity (640 + q) pf with
         | (c, _, lost) => ((if lost then c.qPoisonEvent (640 + q) else c).dropWord q).inc F.chRgstatStray)
      | some x =>
        if !ready then c
        else match c.qParity (640 + q) pf with
          | (c, _, lost) =>
            let c := (if lost then c.qPoisonEvent (640 + q) else c).dropWord q
            c.setCring q { c.cring q with cpls := (c.cring q).cpls ++ [{ x with rpoison := x.rpoison || lost }] })

/-- The late indication of R277. -/
def isLate (time : Nat) (x : Cpl) : Bool :=
  x.guar.isSome && (let d := (BitVec.ofNat 32 time - x.deadline).toNat; decide (1 ≤ d) && decide (d < 2 ^ 31))

/-- Words 0 to 3 of a completion (R552) written at TAIL. -/
def Cpl.words (x : Cpl) (time phase : Nat) : List Word := [
  x.result,
  BitVec.ofNat 64 (x.detail.toNat <<< 32 + x.cflags.toNat <<< 24 + x.ctx.toNat),
  BitVec.ofNat 64 (x.deadline.toNat <<< 32 + time % 2 ^ 32),
  BitVec.ofNat 64 (phase <<< 63 + b2n (isLate time x) <<< 62 + b2n x.rpoison <<< 61 + x.status.toNat <<< 48 + x.sq <<< 40
    + x.slot.toNat)]

/-- What the issue of a completion does to its ring and context (R547, R555). -/
def Chan.cplDone (c : Chan) (time : Nat) (x : Cpl) : Chan :=
  let y := c.ring x.sq
  let y := { y with ci := if x.bumpCi then y.ci + 1 else y.ci, busy := if x.item then y.busy else y.busy - 1,
                    out := if x.item then y.out - 1 else y.out,
                    items := if x.item then y.items.filter (fun i => i.ctx != x.ctx) else y.items }
  let c := c.setRing x.sq y
  let c := if x.item then c.ctxUpd x.ctx.toNat (fun z => { z with ring := 0xFF }) else c
  match x.guar with
  | some tc => if isLate time x then c.inc (F.adTstatLate tc.toNat) else c
  | none => c

/-- COMPLETION_WRITE (R552, R553, R563, R565): the oldest completion of ring r, as two posted writes; errs is what the
codes of the translation entries' lines find. -/
def execCompletionWrite (k : Ch) (r : RingId) (errs : LineErrs) (s : State) : Host.Outcome State Fault Refusal :=
  onCh k s (fun dv c =>
    let q := r.val
    let y := c.cring q
    match y.cpls with
    | [] => c
    | x :: more =>
      if !c.ringsOn || !c.flag (F.rgCcfgEn q) || y.error || !c.cqRoom q then c
      else
        let n := y.tail.toNat
        let a := c.cqBase q + 32 * (n % c.cqSize q)
        if !c.xlateOpen a 32 then c else
        match c.hwXlate a 32 true errs with
        | (c, none) => c.setCring q { y with error := true }
        | (c, some (e, g)) =>
          let ws := x.words dv.time (1 - n / c.cqSize q % 2)
          let c := c.hostPut a ((ws.take 3).flatMap (fun w => valBytes w.toNat 8)) [] e g
          let c := c.hostPut (a + 24) ((ws.drop 3).flatMap (fun w => valBytes w.toNat 8)) [] e g
          let c := (c.setCring q { y with cpls := more, tail := y.tail + 1 }).cplDone dv.time x
          if c.flag (F.rgCcfgIrq q) then c.raise (192 + q) else c)

/-! ## Enable, disable and abort (R560 to R565) -/

/-- SIZE is in range and the ring and its record lie inside the host window (R536). -/
def Chan.sqFits (c : Chan) (r : Nat) : Bool :=
  let n := c.fld (F.rgScfgSize r)
  decide (6 ≤ n) && decide (n ≤ 16) && inHost (c.sqBase r) (64 * 2 ^ n) && inHost (c.sqRec r) 16
def Chan.cqFits (c : Chan) (q : Nat) : Bool :=
  let n := c.fld (F.rgCcfgSize q)
  decide (6 ≤ n) && decide (n ≤ 16) && inHost (c.cqBase q) (32 * 2 ^ n) && inHost (c.cqRec q) 16

/-- The unread tokens of ring queue 512 + r are discarded (R562). -/
def Chan.dropRingToks (c : Chan) (r : Nat) : Chan :=
  let q := 512 + r
  let p := c.qptr q
  let cap := max 1 (c.qCap q)
  ((c.setQptr q { p with wr := (p.wr + cap - p.unread % cap) % cap, held := p.held - p.unread, unread := 0 }).qMark q).setRing r
    { c.ring r with toks := [], badHead := false }

/-- ABORT (R562). -/
def Chan.abortRing (c : Chan) (now r : Nat) : Chan :=
  if (c.ring r).st = .disabled then c
  else
    let c := (c.dropFetched r).dropRingToks r
    let ids := ((c.ring r).items.filter c.itemLive).map (fun i => i.ctx.toNat)
    let c := c.setRing r { c.ring r with st := .aborting }
    let c := { c with copies := c.copies.map (fun (e : Nat × Copy) => (e.1, if e.2.ring = r then { e.2 with abort := true } else e.2)) }
    ids.foldl (fun c id => c.killCtx now id 0xE2) c

/-- A write of RG_SCFGr (R536, R560 to R562, R575): a write of EN 1 in a state that is neither DISABLED nor enabled is ignored.
-/
def Chan.scfgWrite (c : Chan) (dv : Dev) (r : Nat) (w : Word) (lo hi : Nat) : Chan :=
  let was := c.flag (F.rgScfgEn r)
  let d := c.wrFields (F.rgScfgEn r).off w lo hi
  let en := d.flag (F.rgScfgEn r)
  let st := (c.ring r).st
  let cmd := if inSpan lo hi (52, 4, .wo) then wbits w 52 4 else 0
  let d :=
    if en && !was then
      (if st ≠ .disabled then c
       else if d.sqFits r then
         d.setRing r { d.ring r with
           st := .active, err := 0, ci := 0, avail := 0, reading := 0, sleepW := false, idleSince := dv.time, pollAt := dv.time }
       else d.setFld (F.rgScfgEn r) 0)
    else if was && !en then
      (if st = .active ∨ st = .sleep ∨ st = .error then
         (d.setRing r { d.ring r with st := .draining, reading := 0 }).dropWaitingCopy r
       else d)
    else d
  if cmd = 1 then d.abortRing c.xclk r else d

/-- RING_ENABLE. -/
def execRingEnable (k : Ch) (p : Party) (r : RingId) (w : Word) (s : State) : Host.Outcome State Fault Refusal :=
  onCh k s (fun dv c => c.regWrite p (F.rgScfgEn r.val).off w (fun c => c.scfgWrite dv r.val w 0 64))

/-- RING_DISABLE. -/
def execRingDisable (k : Ch) (p : Party) (r : RingId) (w : Word) (s : State) : Host.Outcome State Fault Refusal :=
  onCh k s (fun dv c => c.regWrite p (F.rgScfgEn r.val).off w (fun c => c.scfgWrite dv r.val w 0 64))

/-- ABORT. -/
def execAbort (k : Ch) (p : Party) (r : RingId) (w : Word) (s : State) : Host.Outcome State Fault Refusal :=
  onCh k s (fun dv c => c.regWrite p (F.rgScfgEn r.val).off w (fun c => c.scfgWrite dv r.val w 0 64))

/-- The completion answers the entry at CI of ring r. -/
def Cpl.atCi (y : Cpl) (r : Nat) : Bool := y.sq == r && y.bumpCi

/-- RING_DRAINED (R561, R562, R565). Entries from CI onwards receive no completion. -/
def execRingDrained (k : Ch) (r : RingId) (s : State) : Host.Outcome State Fault Refusal :=
  onCh k s (fun _ c =>
    let x := c.ring r.val
    if (x.st = .draining ∨ x.st = .aborting) ∧ x.out = 0 ∧ c.copies.all (fun e => e.2.ring != r.val) then
      let n := (c.crings.map (fun e => e.2.cpls.countP (fun y => y.atCi r.val))).foldl (· + ·) 0
      let c := { c with crings := (c.crings.map (fun (e : Nat × CRing) =>
        (e.1, { e.2 with cpls := e.2.cpls.filter (fun y => !y.atCi r.val) }))).filter (fun e => e.2 != ({} : CRing)) }
      (c.setRing r.val { x with st := .disabled, busy := x.busy - n }).raise (64 + r.val)
    else c)

/-- A write of RG_CCFGc (R536, R563, R564, R579). -/
def Chan.ccfgWrite (c : Chan) (q : Nat) (w : Word) (lo hi : Nat) : Chan :=
  let was := c.flag (F.rgCcfgEn q)
  let d := c.wrFields (F.rgCcfgEn q).off w lo hi
  let en := d.flag (F.rgCcfgEn q)
  if en && !was then
    (if d.cqFits q then d.setCring q { d.cring q with head := 0, tail := 0, full := false, error := false, reading := 0 }
     else d.setFld (F.rgCcfgEn q) 0)
  else if was && !en then
    (if (List.range 128).all (fun r => c.cqOf r != q || (c.ring r).st == .disabled) then
       d.setCring q { d.cring q with full := false, error := false, reading := 0 }
     else c)
  else d

/-- COMPLETION_RING_ENABLE. -/
def execCompletionRingEnable (k : Ch) (p : Party) (r : RingId) (w : Word) (s : State) : Host.Outcome State Fault Refusal :=
  onCh k s (fun _ c => c.regWrite p (F.rgCcfgEn r.val).off w (fun c => c.ccfgWrite r.val w 0 64))

/-! ## Registers that show the rings (R577 to R580) -/

def ringStCode : RingSt → Nat
  | .disabled => 0
  | .active => 1
  | .sleep => 2
  | .draining => 3
  | .aborting => 4
  | .error => 5

def Ring.stat (x : Ring) : Word :=
  BitVec.ofNat 64 ((ringStCode x.st) <<< 61 + x.err <<< 56 + (x.out % 2 ^ 24) <<< 32 + x.ci.toNat)
def Ring.spi (x : Ring) : Word := BitVec.ofNat 64 (x.piEpoch.toNat <<< 32 + x.pi.toNat)
def CRing.stat (x : CRing) : Word := BitVec.ofNat 64 (x.head.toNat <<< 32 + x.tail.toNat)

end Sys2Proof.Machine
end

