-- ==== Sys2Proof/Machine/Copies.lean ====
section
/-! DEFINITION. Host copies and program loading (R550, R557 to R559, R562, R567, R568). -/

namespace Sys2Proof.Machine

/-- Channel bytes [a, a + n) may be copied (R557): populated scratchpad or usable GDDR7, outside the structures. -/
def Chan.copyable (c : Chan) (a n : Nat) : Bool :=
  (decide (a + n ≤ scratchSize) || (decide (dramBase ≤ a) && decide (a + n ≤ dramBase + c.dramSize)))
    && !c.private_.any (touches a n)

/-- The entry that a copy slot takes (R546). -/
def copyOf (r : Nat) (slot : BitVec 16) (l : Line) : Copy :=
  let load := lineOpc l = 4
  { kind := if lineOpc l = 2 then .copyin else if lineOpc l = 3 then .copyout else .load, ring := r, slot := slot,
    host := BitVec.ofNat 40 (wbits l.w1 0 40), chan := if load then 0 else BitVec.ofNat 40 (wbits l.w2 0 40),
    len := if load then wbits l.w2 0 32 else wbits l.w3 0 32 }

/-- DETAIL of BADADDR (R554, R557), none for a copy that may start. -/
def Chan.copyBad (c : Chan) (x : Copy) : Option Nat :=
  if x.kind ≠ .load ∧ c.copyable x.chan.toNat x.len = false then some 1
  else if inHost x.host.toNat x.len = false then some 2
  else none

/-- A copy leaves its slot and its completion is decided (R559). -/
def Chan.endCopy (c : Chan) (i : Nat) (x : Copy) (status detail : Nat) : Chan :=
  ({ c with copies := tblDel c.copies i }).decide_ x.ring
    { status := BitVec.ofNat 8 status, detail := BitVec.ofNat 32 detail, sq := x.ring, slot := x.slot }

/-- The ring next in round robin that waits for a copy slot (R550). -/
def Chan.copyNext (c : Chan) : Option Nat :=
  ((List.range 128).map (fun i => (c.copyRr + 1 + i) % 128)).find? (fun r =>
    (c.ring r).fetched.isSome && (c.ring r).admitted.isNone)

/-- COPY_SLOT_GRANT (R547, R550, R557): CI advances as the slot takes the entry. -/
def execCopySlotGrant (k : Ch) (s : State) : Host.Outcome State Fault Refusal :=
  onCh k s (fun _ c =>
    match c.copyNext, (List.range 8).find? (fun i => (tblFind c.copies i).isNone) with
    | some r, some i =>
      let x := c.ring r
      (match x.fetched with
       | none => c
       | some l =>
         if !c.ringsOn then c
         else
           let y := copyOf r (BitVec.ofNat 16 (c.sqSlot r)) l
           let d := c.setRing r { x with fetched := none, ci := x.ci + 1, busy := x.busy + 1 }
           let d := { d with copyRr := r, copies := tblIns d.copies i y }
           match d.copyBad y with
           | some n => d.endCopy i y 0x31 n
           | none => d)
    | _, _ => c)

/-! ## Parts (R558, R559) -/

/-- Bytes of a part at host window address a with n bytes to go: at most 512, within a 4 KiB boundary, which a 2 MiB page keeps.
-/
def partLen (a n : Nat) : Nat := min (min 512 n) (4096 - a % 4096)

/-- The channel bytes of a part can be accessed now: the arrays take accesses and no byte is locked (R349, R354, R390, R398). -/
def Chan.partReady (c : Chan) (a n : Nat) : Bool :=
  if a < scratchSize then c.spReady && !c.spLocked a n else c.dmThird (linesOf a n)

/-- The bytes of a part are read, with what their codes find (R360, R397). -/
def Chan.partRead (c : Chan) (time a n : Nat) (errs : LineErrs) : Chan :=
  if a < scratchSize then (c.spReads (wordsOf a n) errs).1 else (c.dmTake time).dmRead c.xclk errs a n

/-- A part is written: words and lines that it covers only in part are read first (R358, R360, R400). -/
def Chan.partWrite (c : Chan) (time a : Nat) (bs : List Byte) (p : Bool) (errs : LineErrs) : Chan :=
  let n := bs.length
  let ps := List.replicate n p
  if a < scratchSize then
    ((c.spReads ((wordsOf a n).filter (fun w => !(decide (a ≤ w) && decide (w + 8 ≤ a + n)))) errs).1).writeBytes a bs ps
  else (((c.dmTake time).dmMerge c.xclk errs a n).writeBytes a bs ps).dmWrote a n

/-- Translates a part's page; false where it fails, counted (R532, R558). -/
def Chan.partXlate (c : Chan) (a n : Nat) (write : Bool) (errs : LineErrs) : Chan × Option Word :=
  match c.hwXlate a n write errs with
  | (c, none) => (c.inc F.chRgstatCopyfail, none)
  | (c, some (e, _)) => (c, some e)

/-- A copy after a part of n bytes: complete, or with n more bytes done. -/
def Chan.partDone (c : Chan) (i : Nat) (x : Copy) (n : Nat) (poison : Option Nat) : Chan :=
  let p := if x.poisonAt.isSome then x.poisonAt else poison
  if x.done + n < x.len then { c with copies := tblIns c.copies i { x with done := x.done + n, poisonAt := p } }
  else match p with
    | some o => c.endCopy i x 0x22 o
    | none => c.endCopy i x 0 0

/-- A part of a COPYIN (R558, R559). -/
def Chan.copyinPart (c : Chan) (time i : Nat) (x : Copy) (part : Part) : Chan :=
  let a := x.host.toNat + x.done
  let n := partLen a (x.len - x.done)
  let t := x.chan.toNat + x.done
  if !c.partReady t n || !c.xlateOpen a n then c
  else match c.partXlate a n false part.errs with
    | (c, none) => c.endCopy i x 0x20 x.done
    | (d, some e) =>
      if part.err then ((d.hostGet a n d.hw.nextId e e).inc F.chRgstatCopyfail).endCopy i x 0x21 x.done
      else if part.data.length ≠ n then c
      else
        let d := d.hostGet a n d.hw.nextId e e
        (d.partWrite time t part.data part.poison part.errs).partDone i x n (if part.poison then some x.done else none)

/-- A part of a COPYOUT (R558, R559): the EP bit is set where a word read is poisoned. -/
def Chan.copyoutPart (c : Chan) (time i : Nat) (x : Copy) (part : Part) : Chan :=
  let a := x.host.toNat + x.done
  let n := partLen a (x.len - x.done)
  let t := x.chan.toNat + x.done
  if !c.partReady t n || !c.xlateOpen a n then c
  else match c.partXlate a n true part.errs with
    | (c, none) => c.endCopy i x 0x20 x.done
    | (c, some e) =>
      let c := c.partRead time t n part.errs
      let ps := c.bytePoison t n
      (c.hostPut a (c.bytesAt t n) ps e e).partDone i x n ((findIx id ps).map (fun j => x.done + j))

/-! ## Program images (R567, R568) -/

/-- CRC-32 of IEEE 802.3: one bit, one byte, and a list of bytes. -/
def crcBit (x : BitVec 32) : BitVec 32 := if x.getLsbD 0 then (x >>> 1) ^^^ 0xEDB88320 else x >>> 1
def crcByte (x : BitVec 32) (b : Byte) : BitVec 32 :=
  let y := x ^^^ b.zeroExtend 32
  crcBit (crcBit (crcBit (crcBit (crcBit (crcBit (crcBit (crcBit y)))))))
def crc32 (bs : List Byte) : BitVec 32 := ~~~(bs.foldl crcByte (BitVec.allOnes 32))

/-- n bytes of an image at an offset, little-endian; bytes it does not have are 0. -/
def imgNat (img : List Byte) (off n : Nat) : Nat := bytesVal ((img.drop off).take n)

/-- A section of an image (R567). -/
structure Section where
  kind : Nat
  dest : Nat
  len : Nat
  offset : Nat
  deriving DecidableEq, Repr

def imgNsec (img : List Byte) : Nat := imgNat img 6 2
def imgTotal (img : List Byte) : Nat := imgNat img 8 4
def imgSection (img : List Byte) (i : Nat) : Section :=
  let o := 64 + 32 * i
  { kind := imgNat img o 1, dest := imgNat img (o + 8) 8 % 2 ^ 40, len := imgNat img (o + 16) 4, offset := imgNat img (o + 24) 4 }
def imgSections (img : List Byte) : List Section := (List.range (imgNsec img)).map (imgSection img)

/-- Usable GDDR7 in MiB, as CH_PARAM reports it (R665). -/
def Chan.dramMib (c : Chan) : Nat := c.dramSize / 2 ^ 20

/-- A section that R567 allows in an image of TOTAL bytes. -/
def Chan.secOk (c : Chan) (total : Nat) (x : Section) : Bool :=
  (if x.kind = 1 then decide (progBase ≤ x.dest) && decide (x.dest < progBase + 0x80000) && decide (x.dest + x.len ≤ progBase + 0x80000) && x.dest % 8 == 0
      && x.len % 8 == 0
   else if x.kind = 2 ∨ x.kind = 3 then c.copyable x.dest x.len
   else false)
  && (x.kind == 3 || decide (x.offset + x.len ≤ total))

/-- Two sections of the list write a common byte. -/
def secsOverlap : List Section → Bool
  | [] => false
  | x :: r => r.any (fun y => overlap x.dest x.len y.dest y.len && decide (0 < x.len) && decide (0 < y.len)) || secsOverlap r

/-- The channel address of instruction 0xE000, from which the steward's region goes (R478). -/
def stewardBase : Nat := progBase + 0x70000

/-- A CODE section that reaches the steward's region. -/
def secSteward (x : Section) : Bool := x.kind == 1 && decide (0 < x.len) && decide (stewardBase < x.dest + x.len)

/-- Status and DETAIL of the first pass (R568), none for an image that may be written. -/
def Chan.imgCheck (c : Chan) (img : List Byte) (imglen : Nat) : Option (Nat × Nat) :=
  let total := imgTotal img
  let secs := imgSections img
  if imgNat img 0 4 ≠ 0x4D494A54 ∨ imgNat img 4 2 ≠ 1 then some (0x40, 1)
  else if imglen < total then some (0x40, 2)
  else if crc32 ((img.take total).drop 64) ≠ BitVec.ofNat 32 (imgNat img 12 4) then some (0x40, 3)
  else if imgNat img 16 2 ≠ 64 ∨ 6144 < imgNat img 18 2 ∨ c.dramMib < imgNat img 20 4 then some (0x40, 4)
  else if imgNsec img = 0 ∨ 64 < imgNsec img ∨ total < 64 + 32 * imgNsec img ∨ secs.any (fun x => !c.secOk total x) then
    some (0x40, 5)
  else if secsOverlap secs then some (0x40, 6)
  else if c.flag F.ccStewRun then (findIx secSteward secs).map (fun i => (0x41, i))
  else none

/-- Bytes the first pass reads: the header's TOTAL once it is known, within IMGLEN. -/
def loadExtent (x : Copy) : Nat := if x.image.length < 64 then x.len else min x.len (max 64 (imgTotal x.image))

/-- Writes one byte of the program store view (R21). -/
def Chan.progPutByte (c : Chan) (a : Nat) (b : Byte) : Chan :=
  let i := (a - progBase) / 8
  c.putInstr i (setBits (c.instr i) (8 * (a % 8)) 8 b.toNat)

def Chan.progPut (c : Chan) (a : Nat) : List Byte → Chan
  | [] => c
  | b :: r => (c.progPutByte a b).progPut (a + 1) r

/-- The LOAD goes on with the section's next bytes, the next section, or its completion. -/
def Chan.loadNext (c : Chan) (i : Nat) (x : Copy) (sec : Section) (n : Nat) : Chan :=
  if x.done + n < sec.len then { c with copies := tblIns c.copies i { x with done := x.done + n } }
  else if x.sec + 1 < imgNsec x.image then { c with copies := tblIns c.copies i { x with sec := x.sec + 1, done := 0 } }
  else c.endCopy i x 0 0

/-- A part of the first pass of a LOAD: reads on, and checks the image at its end. Poison counts as a failed read (log entry 28). -/
def Chan.loadCheckPart (c : Chan) (i : Nat) (x : Copy) (part : Part) : Chan :=
  let a := x.host.toNat + x.done
  let n := partLen a (loadExtent x - x.done)
  if !c.xlateOpen a n then c else
  match c.partXlate a n false part.errs with
  | (c, none) => c.endCopy i x 0x20 x.done
  | (d, some e) =>
    if part.err || part.poison then ((d.hostGet a n d.hw.nextId e e).inc F.chRgstatCopyfail).endCopy i x 0x21 x.done
    else if part.data.length ≠ n then c
    else
      let d := d.hostGet a n d.hw.nextId e e
      let y := { x with image := x.image ++ part.data, done := x.done + n }
      if y.done < loadExtent y then { d with copies := tblIns d.copies i y }
      else match d.imgCheck y.image y.len with
        | some (st, n) => (if st = 0x41 then d.inc F.ccCntPsrefuse else d).endCopy i y st n
        | none => { d with copies := tblIns d.copies i { y with second := true, done := 0, sec := 0 } }

/-- A part of the second pass (R568): the next bytes of the section are read again and written; a ZERO section reads nothing. A CODE section
that reaches the steward's region is refused while CC_STEW.RUN is 1, also where RUN was set after the first pass (R478). -/
def Chan.loadWritePart (c : Chan) (time i : Nat) (x : Copy) (part : Part) : Chan :=
  let sec := imgSection x.image x.sec
  let t := sec.dest + x.done
  let off := sec.offset + x.done
  if c.flag F.ccStewRun && secSteward sec then (c.inc F.ccCntPsrefuse).endCopy i x 0x41 x.sec
  else if sec.len = 0 then c.loadNext i x sec 0
  else if sec.kind = 3 then
    let n := min 512 (sec.len - x.done)
    if !c.partReady t n then c
    else (c.partWrite time t (List.replicate n 0) false part.errs).loadNext i x sec n
  else
    let a := x.host.toNat + off
    let n := partLen a (sec.len - x.done)
    if (sec.kind = 2 ∧ c.partReady t n = false) ∨ (sec.kind = 1 ∧ c.progClearing) ∨ c.xlateOpen a n = false then c
    else match c.partXlate a n false part.errs with
      | (c, none) => c.endCopy i x 0x20 off
      | (d, some e) =>
        if part.err || part.poison then ((d.hostGet a n d.hw.nextId e e).inc F.chRgstatCopyfail).endCopy i x 0x21 off
        else if part.data.length ≠ n then c
        else
          let d := d.hostGet a n d.hw.nextId e e
          let d := if sec.kind = 1 then d.progPut t part.data else d.partWrite time t part.data false part.errs
          d.loadNext i x sec n

/-- The first offset that a copy has not written (R554): for a LOAD, in the image. -/
def Copy.firstLeft (x : Copy) : Nat :=
  match x.kind with
  | .copyin | .copyout => x.done
  | .load => if x.second then (imgSection x.image x.sec).offset + x.done else 0

/-- COPY_PART_COMPLETE (R558, R562): the next part of the copy in slot i, with what the host side gives it; an aborted copy
stops. -/
def execCopyPartComplete (k : Ch) (i : CopyId) (part : Part) (s : State) : Host.Outcome State Fault Refusal :=
  if !part.wf then .fault .illFormed
  else onCh k s (fun dv c =>
    match tblFind c.copies i.val with
    | none => c
    | some x =>
      if !c.ringsOn then c
      else if x.abort then c.endCopy i.val x 0x23 x.firstLeft
      else match x.kind with
        | .copyin => c.copyinPart dv.time i.val x part
        | .copyout => c.copyoutPart dv.time i.val x part
        | .load => if x.second then c.loadWritePart dv.time i.val x part else c.loadCheckPart i.val x part)

end Sys2Proof.Machine
end

