-- ==== Sys2Proof/Machine/PowerOps.lean ====
section
/-! DEFINITION. Power domains and their sequencing programs as every unit sees them: whether a domain takes a packet, what a packet
at its boundary does, and how a program starts and is abandoned (R429, R430, R593 to R596). -/

namespace Sys2Proof.Machine

/-- OP, PNR, A and B of a step word (R593). -/
def stepOp (w : Word) : Nat := wbits w 56 8
def stepPnr (w : Word) : Bool := wbit w 55
def stepA (w : Word) : Nat := wbits w 32 16
def stepB (w : Word) : Nat := wbits w 0 32

/-- Step i of the table. -/
def Chan.seqWord (c : Chan) (i : Nat) : Word := c.rd (0x1400 + 8 * (i % 128))

/-- The inverse of a step, none where the table gives none (R594). -/
def stepInverse (op : Nat) : Option (BitVec 8) :=
  [none, some 2, some 1, some 4, some 3, some 6, some 5, some 8, some 7, some 10, some 9, none, none, none, some 15, some 14,
   none].getD op none

/-- The program running in a domain. -/
def Chan.prog? (c : Chan) (d : Nat) : Option Prog := tblFind c.pw.progs d
def Chan.setProg (c : Chan) (d : Nat) (x : Prog) : Chan := { c with pw := { c.pw with progs := tblIns c.pw.progs d x } }
def Chan.endProg (c : Chan) (d : Nat) : Chan := { c with pw := { c.pw with progs := tblDel c.pw.progs d } }

/-- A domain takes packets: it runs, and no program of it is under way (R430, R595). -/
def Chan.domOpen (c : Chan) (d : Nat) : Bool := c.domUp d && (c.prog? d).isNone

/-- A transition to a deeper C-state is given up: the channel goes back to C0 (R588, R595; log entry 33). -/
def Chan.giveUp (c : Chan) : Chan := if c.pw.cst < c.pw.goal ∧ !c.pw.tripped then { c with pw := { c.pw with goal := 0 } } else c

/-- Abandons the program of a domain (R595): the inverses of its completed steps, latest first, without the step of no return;
ABANDON rises once they are done. A transition that it belongs to is given up; C2 goes on without FABRIC's (R587). -/
def Chan.abandon (c : Chan) (d : Nat) : Chan :=
  let c := if d = 7 ∧ c.pw.goal < 3 then c else c.giveUp
  match c.prog? d with
  | none => c
  | some g =>
    match g.undo with
    | some _ => c
    | none =>
      let inv := g.done.filterMap (fun w => if stepPnr w then none else stepInverse (stepOp w))
      let c := { c with pw := { c.pw with abandon := c.pw.abandon + (if inv.isEmpty then 1 else 0) } }
      if inv.isEmpty then c.endProg d else c.setProg d { g with undo := some inv }

/-- A program whose present step has a reserved OP ends as an abandoned one (R594). -/
def Chan.checkStep (c : Chan) (d : Nat) : Chan :=
  match c.prog? d with
  | none => c
  | some g => if g.undo.isNone && decide (0x10 < stepOp (c.seqWord g.pc)) then c.abandon d else c

/-- Starts the down or up program of a domain at TIME now (R596). -/
def Chan.startProg (c : Chan) (now d : Nat) (up : Bool) (noDrain : Bool := false) : Chan :=
  if (c.prog? d).isSome then c
  else
    let pc := if up then c.fld (F.pwrDomUp d) else c.fld (F.pwrDomDown d)
    let c := if up then c else c.setDom d { c.dom d with saved := false }
    (c.setProg d { up := up, pc := pc, since := now, noDrain := noDrain }).checkStep d

/-- A packet waits at the boundary of a domain (R429, R430): a power-down before its point of no return is abandoned, but
for a trip's (R601), and the domain is asked to wake. -/
def Chan.reachDom (c : Chan) (d : Nat) : Chan :=
  let c := match c.prog? d with
    | some g => if !g.up && !g.pnr && !c.pw.tripped then c.abandon d else c
    | none => c
  { c with pw := { c.pw with wakeDoms := if c.pw.wakeDoms.contains d then c.pw.wakeDoms else c.pw.wakeDoms ++ [d] } }

/-- Every fabric port is in SLEEP or DOWN (R587). -/
def Chan.portsAsleep (c : Chan) : Bool :=
  (List.range 6).all (fun p => (c.port p).st == 0 || (c.port p).st == 6)

/-- In C2 the FABRIC domain goes off once every port is in SLEEP or DOWN (R587). -/
def Chan.fabricDown (c : Chan) (now : Nat) : Chan :=
  if 2 ≤ c.pw.cst ∧ c.portsAsleep ∧ c.domUp 7 then c.startProg now 7 false else c

end Sys2Proof.Machine
end

