-- ==== Sys2Proof/Machine/Events.lean ====
section
/-! DEFINITION. The event controllers of a channel and of the device: messages, selection, delivery, doorbells, MSI-X, GPIO
(R497 to R526, R566, R622). -/

namespace Sys2Proof.Machine

/-! ## Raises (R498 to R500, R509) -/

/-- COUNT after n more raises, and whether the sum exceeded 255 (R500). -/
def addCount (count n : Nat) : Nat × Bool := (min 255 (count + max 1 n), decide (255 < count + max 1 n))

/-- A message reaches the event controller of a channel (R498, R500, R509, R518). -/
def Chan.takeMsg (c : Chan) (m : EvMsg) : Chan :=
  if !m.allowed then c.inc F.evStatRefused
  else
    let c := if (m.src = 9 ∨ m.src = 13 ∨ m.src = 15) ∧ (c.caller 0).enabled = false then c.raiseDev (0x20 + c.idx) else c
    if !c.flag (F.evSrcEn m.src) then c
    else
      let x := c.evSt m.src
      let (n, sat) := addCount x.count m.count
      let c := if sat then { c with ev := { c.ev with sat := c.ev.sat ++ [m.src] } } else c
      c.setCount m.src n (x.gain c.cclk (max 1 m.count))

/-- A message reaches the device event controller (R518, R519). -/
def Dev.takeMsg (d : Dev) (m : EvMsg) : Dev :=
  if !m.allowed then d.inc F.deStatRefused
  else
    let q := m.src % 256
    let d := if d.flag (F.deSrcAlert q) then d.setFld (F.deSrcAlertseen q) 1 else d
    if !d.flag (F.deSrcEn q) then d
    else
      let x := d.ev.src q
      let (n, sat) := addCount x.count m.count
      let u := d.ev.setSrc q { x.gain d.cclk (max 1 m.count) with count := n }
      { d with ev := if sat then { u with sat := u.sat ++ [q] } else u }

/-- The first channel that has raised a device source. -/
def devRaiser : Tbl Chan → Option (Nat × Chan)
  | [] => none
  | (k, c) :: r => if c.devEv.isEmpty then devRaiser r else some (k, c)

/-- The port of a controller takes one message in a CCLK (R499). -/
def EvUnit.portFree (u : EvUnit) (now : Nat) : Bool := u.takenAt != some now

/-- DOORBELL_MESSAGE: the oldest message at a controller. The device's takes its own messages first, then those of the channels
in ascending order (log entry 32). -/
def execDoorbellMessage (x : EvCtl) (s : State) : Host.Outcome State Fault Refusal :=
  match x with
  | .chan k => onCh k s (fun _ c =>
      match c.ev.msgs with
      | [] => c
      | m :: r =>
        if !c.domOpen 5 then c.reachDom 5
        else if !c.ev.portFree c.cclk then c
        else ({ c with ev := { c.ev with msgs := r, takenAt := some c.cclk } } : Chan).takeMsg m)
  | .dev =>
    let d := s.dev
    let took : EvUnit := { d.ev with takenAt := some d.cclk }
    if !d.ev.portFree d.cclk then .next s
    else match d.ev.msgs with
    | m :: r => .next { s with dev := Dev.takeMsg { d with ev := { took with msgs := r } } m }
    | [] =>
      match devRaiser s.chans with
      | none => .next s
      | some (k, c) =>
        .next (({ s with dev := Dev.takeMsg { d with ev := took } { src := c.devEv.headD 0 } } : State).setChan k
          { c with devEv := c.devEv.drop 1 })

/-- The sources a party may raise on a channel (R498; the service core as a supervisor, log entry 32). -/
def mayRaise (p : Party) (src : Nat) : Bool :=
  match p with
  | .host => decide (512 ≤ src) && decide (src < 768)
  | .service | .supv | .firing => decide (64 ≤ src)

/-- The message of a doorbell word (R497). -/
def doorbellMsg (w : Word) (allowed : Bool) : EvMsg := { src := wbits w 0 10, count := wbits w 24 8, allowed := allowed }

/-- A doorbell message sent by software. -/
def Chan.doorbell (c : Chan) (p : Party) (w : Word) : Chan :=
  { c with ev := { c.ev with msgs := c.ev.msgs ++ [doorbellMsg w (mayRaise p (wbits w 0 10))] } }

/-- EV_DOORBELL_WRITE: the host's through the mirror of BAR2, which READY does not gate; another party's through EV_DOORBELL
(R497, R498, R524; log entry 32). The write wakes a sleeping channel (R590). -/
def execEvDoorbellWrite (k : Ch) (p : Party) (w : Word) (s : State) : Host.Outcome State Fault Refusal :=
  onCh k s (fun _ c => (if c.pw.cst = 0 then c else c.askWake).doorbell p w)

/-- The sources a party may raise on the device (R518). -/
def mayRaiseDev (p : Party) (src : Nat) : Bool :=
  match p with
  | .host => decide (0x80 ≤ src) && decide (src < 0x100)
  | .service => (decide (0x80 ≤ src) && decide (src < 0x100)) || src == 0x32 || src == 0x33 || src == 0x34
  | .supv | .firing => false

/-- ALERT_N is low (R519, R601): a source with ALERT 1 and MASK 0 has ALERTSEEN 1, or a trip drives it. -/
def Dev.alertLow (d : Dev) : Bool :=
  d.tripAlert || (List.range 256).any (fun q => d.flag (F.deSrcAlert q) && !d.flag (F.deSrcMask q) && d.flag (F.deSrcAlertseen q))

/-- A write to DE_DOORBELL. -/
def Dev.doorbell (d : Dev) (p : Party) (w : Word) : Dev :=
  { d with ev := { d.ev with msgs := d.ev.msgs ++ [doorbellMsg w (mayRaiseDev p (wbits w 0 10))] } }

/-- DE_DOORBELL_WRITE; ignored in recovery mode (R662). -/
def execDeDoorbellWrite (p : Party) (w : Word) (s : State) : Host.Outcome State Fault Refusal :=
  onDev s (fun d => if d.recovery then d else d.doorbell p w)

/-! ## Selection (R505 to R508) -/

/-- The first of a round-robin set after caller `last` that was an enabled target at the end of the CCLK before (R505, R506). -/
def Chan.roundTarget (c : Chan) (tset last : Nat) : Option Nat :=
  ((List.range 4).map (fun i => (last + 1 + i) % 4)).find? (fun n => tset.testBit n && c.ev.tgts.contains n)

/-- The target R505 gives a source. -/
def Chan.evTarget (c : Chan) (q : Nat) : Option EvTarget :=
  match c.fld (F.evSrcRoute q) with
  | 0 => if c.ev.tgts.contains (c.fld (F.evSrcTarget q)) then some (.caller (c.fld (F.evSrcTarget q))) else none
  | 1 => (c.roundTarget (c.fld (F.evSrcTset q)) (c.evSt q).last.toNat).map EvTarget.caller
  | 2 => some (.vector (c.fld (F.evSrcVec q)))
  | _ => none

/-- A target is idle (R508): a caller in WAITEV with an empty inbox. -/
def Chan.idleTarget (c : Chan) (t : EvTarget) : Bool :=
  match t with
  | .caller n => (c.caller n).st == .waitev && (c.caller n).inbox.isEmpty
  | _ => false

/-- What EN, COUNT, INFLIGHT and INBOX say of a source in CCLK now, by their values at the end of the CCLK before (R506). -/
def EvUnit.open_ (u : EvUnit) (now q : Nat) (en : Bool) : Bool :=
  let x := u.before q
  (u.src q).enBefore now en && decide (0 < x.count) && x.inflight == 0 && !x.inbox && decide ((u.src q).from_ ≤ now)

/-- A source is eligible (R506); MASK and the route as this CCLK has them (R510, R511). -/
def Chan.eligible (c : Chan) (now q : Nat) : Bool :=
  c.ev.open_ now q (c.flag (F.evSrcEn q)) && !c.flag (F.evSrcMask q)
    && (match c.evTarget q with
        | none => false
        | some t => decide ((c.ev.before q).hold ≤ now) || c.idleTarget t)

/-- The source selected in a CCLK (R507): the lowest of 0-63, or the next of 64 to top - 1 after the last; even CCLK prefer the
first, odd ones the second. -/
def pickSource (now last top : Nat) (e : Nat → Bool) : Option Nat :=
  let low := (List.range (min 64 top)).find? e
  let n := top - 64
  let high := ((List.range n).map (fun i => 64 + (last + 1 - 64 + i) % n)).find? e
  if now % 2 = 0 then (match low with | some q => some q | none => high)
  else (match high with | some q => some q | none => low)

/-- COUNT, as the CCLK before left it, moves into the delivery; a raise of this CCLK stays (R500, R510, CCLK d). -/
def Chan.selectSource (c : Chan) (now q : Nat) (t : EvTarget) : Chan :=
  let x := c.evSt q
  let b := c.ev.before q
  let c := if now < b.hold then c.inc F.evStatBypass else c
  let c := c.setEvSt q { x with count := x.left now, inflight := 1 }
  { c with ev := { c.ev with
    sat := c.ev.sat.filter (fun y => y != q),
    deliv := c.ev.deliv ++ [{ src := q, count := b.count, fast := c.flag (F.evSrcClass q), target := t,
                              roundRobin := c.fld (F.evSrcRoute q) == 1, at_ := now }],
    selAt := some now,
    lastSel := if 64 ≤ q then q else c.ev.lastSel } }

/-- The service core restarts (R641). -/
def Dev.restarting (d : Dev) : Bool := decide (d.time < d.svc.restartEnd)

/-- The service core takes events: EVTGT.EN 1, and it does not restart (R504, R518, R641). -/
def Dev.svcEnabled (d : Dev) : Bool := d.svc.evtgt.getLsbD 0 && !d.restarting

/-- The service core is idle (R508, R518). DESIGN CHOICE (log entry 32): its firmware waits for events whenever its inbox is empty. -/
def Dev.svcIdle (d : Dev) : Bool := d.svcEnabled && d.svc.inbox.isEmpty

/-- A device source is eligible: each route that is set has a target (R506, R518); the service core alone has the bypass of R508. -/
def Dev.eligible (d : Dev) (now q : Nat) : Bool :=
  d.ev.open_ now q (d.flag (F.deSrcEn q)) && !d.flag (F.deSrcMask q)
    && (d.flag (F.deSrcSvc q) || d.flag (F.deSrcHost q)) && (!d.flag (F.deSrcSvc q) || d.ev.tgts.contains 0)
    && (decide ((d.ev.before q).hold ≤ now) || (!d.flag (F.deSrcHost q) && d.svcIdle))

def Dev.selectSource (d : Dev) (q : Nat) : Dev :=
  let x := d.ev.src q
  let b := d.ev.before q
  let d := if d.cclk < b.hold then d.inc F.deStatBypass else d
  let mk (t : EvTarget) : Deliv := { src := q, count := b.count, fast := d.flag (F.deSrcClass q), target := t, at_ := d.cclk }
  let l := (if d.flag (F.deSrcSvc q) then [mk .service] else [])
    ++ (if d.flag (F.deSrcHost q) then [mk (.vector (d.fld (F.deSrcVec q) % 64))] else [])
  let u := d.ev.setSrc q { x with count := x.left d.cclk, inflight := l.length }
  { d with ev := { u with sat := u.sat.filter (fun y => y != q), deliv := u.deliv ++ l, selAt := some d.cclk, lastSel := if 64 ≤ q then q else u.lastSel } }

/-- The service firmware takes the entries of its inbox that it sees, while its EVTGT.MASK is 0 (R516): each is released, and its source's
hold starts (R508, R513; log entry 32). -/
def Dev.serviceTakes (d : Dev) : Dev :=
  if d.restarting || d.svc.evtgt.getLsbD 1 then d
  else
    let d1 := (d.svc.inbox.filter (fun e => !e.fresh)).foldl (fun (d : Dev) (e : InEntry) =>
      let x := d.ev.src e.src
      { d with ev := d.ev.setSrc e.src { x with inbox := false, hold := d.cclk + 64 * d.fld (F.deSrcModiv e.src) } }) d
    { d1 with svc := { d.svc with inbox := d.svc.inbox.filter (fun e => e.fresh) } }

/-- EVPEND of the service core (R517, R518). -/
def Dev.svcEvpend (d : Dev) : Word :=
  match headEntry d.svc.inbox with
  | none => 0
  | some e => BitVec.ofNat 64 (d.svc.inbox.length <<< 16 + b2n e.fast <<< 15 + e.src % 1024)

/-- EVENT_SELECTION: at most one source of a controller in a CCLK (R507). -/
def execEventSelection (x : EvCtl) (s : State) : Host.Outcome State Fault Refusal :=
  match x with
  | .chan k => onCh k s (fun _ c =>
      if !c.domUp 5 || c.ev.selAt == some c.cclk then c
      else match pickSource c.cclk c.ev.lastSel 1024 (c.eligible c.cclk) with
      | none => c
      | some q =>
        match c.evTarget q with
        | none => c
        | some t => c.selectSource c.cclk q t)
  | .dev => onDev s (fun d =>
      let d := d.serviceTakes
      if d.ev.selAt == some d.cclk then d
      else match pickSource d.cclk d.ev.lastSel 256 (d.eligible d.cclk) with
      | none => d
      | some q => d.selectSource q)

/-! ## Landing (R510 to R513, R516, R566) -/

/-- The vector of a function. -/
def MsixFn.vec (x : MsixFn) (v : Nat) : Msix := tblGet x.vecs v {}
def MsixFn.setVec (x : MsixFn) (v : Nat) (m : Msix) : MsixFn := { x with vecs := tblPut x.vecs v m {} }

/-- An event handed to a vector: its message, or its PBA bit while the vector or the function is masked (R566). -/
def MsixFn.hand (x : MsixFn) (v : Nat) : MsixFn × List Out :=
  let m := x.vec v
  if m.mask || x.fmask then ({ x with pba := if x.pba.contains v then x.pba else x.pba ++ [v] }, [])
  else (x, [.msix v m.addr m.data])

/-- The mask of a vector clears: with its PBA bit set, one message is sent (R566). -/
def MsixFn.unmask (x : MsixFn) (v : Nat) : MsixFn × List Out :=
  let m := x.vec v
  let x := x.setVec v { m with mask := false }
  if x.pba.contains v && !x.fmask then
    ({ x with pba := x.pba.filter (fun u => u != v) }, [.msix v m.addr m.data])
  else (x, [])

/-- A landing wakes the caller (R512, R516): WAITEV looks again, WAIT ends while EVTGT.MASK is 1. -/
def Caller.wakeBy (x : Caller) : Caller :=
  if x.st = .waitev then { x with st := .running, wait := { woke := x.evMask } }
  else if x.st = .waiting ∧ x.evMask then { x with st := .running, wait := {} }
  else x

/-- The delivery lands with a caller, which sees it in the next CCLK, or bounces: its count returns in the next CCLK (R510). -/
def Chan.landCaller (c : Chan) (m : Deliv) (n : Nat) : Chan :=
  let t := c.caller n
  if t.enabled && decide (t.inbox.length < 16) then
    let x := c.evSt m.src
    let c := c.setEvSt m.src { x with inflight := 0, inbox := true, last := if m.roundRobin then BitVec.ofNat 2 n else x.last }
    let c := c.setCaller n { t with inbox := t.inbox ++ [{ src := m.src, count := m.count, fast := m.fast, fresh := true }] }
    let c := c.wrapInc F.evDelivDeliveries
    if c.pw.cst = 0 then c else c.askWake
  else
    let c := c.setEvSt m.src { c.evSt m.src with inflight := 0 }
    { c with ev := { c.ev with backs := c.ev.backs ++ [m] } }

/-- The delivery is handed to a vector of the channel's function; its hold starts (R508, R566). -/
def Chan.landVector (c : Chan) (now : Nat) (m : Deliv) (v : Nat) : Chan :=
  let x := c.evSt m.src
  let h := c.msix.hand v
  let c := { c with msix := h.1, out := c.out ++ h.2 }
  (c.setEvSt m.src { x with inflight := 0, hold := now + 64 * c.fld (F.evSrcModiv m.src) }).wrapInc F.evDelivDeliveries

/-- A device delivery lands: at the service core, or at a vector of PF0; a bounce returns its count (R510, R518). -/
def Dev.land (d : Dev) (m : Deliv) : Dev :=
  let x := d.ev.src m.src
  match m.target with
  | .vector v =>
    let h := d.msix.hand v
    { d with msix := h.1, out := d.out ++ h.2,
             ev := d.ev.setSrc m.src { x with inflight := x.inflight - 1, hold := d.cclk + 64 * d.fld (F.deSrcModiv m.src) } }
  | _ =>
    if d.svcEnabled && decide (d.svc.inbox.length < 16) then
      { d with ev := d.ev.setSrc m.src { x with inflight := x.inflight - 1, inbox := true },
               svc := { d.svc with inbox := d.svc.inbox ++ [{ src := m.src, count := m.count, fast := m.fast, fresh := true }] } }
    else
      let u := d.ev.setSrc m.src { x with inflight := x.inflight - 1 }
      { d with ev := { u with backs := u.backs ++ [m] } }

/-! ### A CCLK begins (R500, R506, R510) -/

/-- What the selections of the CCLK that begins judge by. -/
def EvUnit.snap (u : EvUnit) (tgts : List Nat) : EvUnit := { u with was := u.srcs, tgts := tgts, backs := [], sat := [] }

/-- A count returns to its source, which may be selected from the next CCLK (R510). -/
def Chan.giveCount (c : Chan) (m : Deliv) : Chan :=
  let x := c.evSt m.src
  (c.setCount m.src (min 255 (x.count + m.count)) { x with from_ := c.cclk + 1 }).inc F.evStatBounced

/-- A landed entry becomes visible, and wakes its caller (R510, R512). -/
def Chan.showInbox (c : Chan) (n : Nat) : Chan :=
  let x := c.caller n
  if x.inbox.any (fun e => e.fresh) then
    c.setCaller n (Caller.wakeBy { x with inbox := x.inbox.map (fun (e : InEntry) => { e with fresh := false }) })
  else c

/-- A CCLK of a channel begins: the raises of the last one that met a COUNT of 255 are counted, the values that its selection judges by are
kept, bounced counts return, and landed entries are visible. -/
def Chan.evEdge (c : Chan) : Chan :=
  let u := c.ev
  let c := u.sat.foldl (fun c _ => c.inc F.evStatSaturated) c
  let c := { c with ev := c.ev.snap ((List.range 4).filter (fun n => (c.caller n).enabled)) }
  let c := u.backs.foldl Chan.giveCount c
  (List.range 4).foldl Chan.showInbox c

/-- A CCLK of the device event controller begins in every second period. -/
def Dev.evEdge (d : Dev) : Dev :=
  if d.xclk % 2 = 0 then
    let u := d.ev
    let d := u.sat.foldl (fun (d : Dev) _ => d.inc F.deStatSaturated) d
    let d := { d with ev := d.ev.snap (if d.svcEnabled then [0] else []) }
    let d := u.backs.foldl (fun (d : Dev) m =>
      let x := d.ev.src m.src
      ({ d with ev := d.ev.setSrc m.src { x with count := min 255 (x.count + m.count), from_ := d.cclk + 1 } } : Dev).inc F.deStatBounced) d
    { d with svc := { d.svc with inbox := d.svc.inbox.map (fun (e : InEntry) => { e with fresh := false }) } }
  else d

/-- A delivery has come through its transfer: it was selected four CCLK ago (R510). -/
def Deliv.due (m : Deliv) (now : Nat) : Bool := decide (m.at_ + 4 ≤ now)

/-- DELIVERY_LANDING: the oldest delivery on its way. -/
def execDeliveryLanding (x : EvCtl) (s : State) : Host.Outcome State Fault Refusal :=
  match x with
  | .chan k => onCh k s (fun _ c =>
      match c.ev.deliv with
      | [] => c
      | m :: r =>
        if !c.domOpen 5 then c.reachDom 5
        else if !m.due c.cclk then c
        else
          let c := { c with ev := { c.ev with deliv := r } }
          match m.target with
          | .caller n => c.landCaller m n
          | .vector v => c.landVector c.cclk m v
          | .service => c)
  | .dev => onDev s (fun d =>
      match d.ev.deliv with
      | [] => d
      | m :: r => if m.due d.cclk then Dev.land { d with ev := { d.ev with deliv := r } } m else d)

/-- MODERATION_HOLD_EXPIRY: the hold of a source is over. -/
def execModerationHoldExpiry (x : EvCtl) (q : SrcId) (s : State) : Host.Outcome State Fault Refusal :=
  if !srcWf x q then .fault .illFormed
  else match x with
  | .chan k => onCh k s (fun _ c =>
      if (c.evSt q.val).hold ≤ c.cclk then c.setEvSt q.val { c.evSt q.val with hold := 0 } else c)
  | .dev => onDev s (fun d =>
      if (d.ev.src q.val).hold ≤ d.cclk then { d with ev := d.ev.setSrc q.val { d.ev.src q.val with hold := 0 } } else d)

/-! ## Registers of sources (R520, R525) -/

/-- A write to EV_SRCs: its fields, then CLEAR (R520). -/
def Chan.evSrcWrite (c : Chan) (q : Nat) (w : Word) (lo hi : Nat) : Chan :=
  let c := c.setEvSt q ((c.evSt q).keepEn c.cclk (c.flag (F.evSrcEn q)))
  let c := c.wrFields (F.evSrcEn q).off w lo hi
  if lo = 0 ∧ wbit w 8 then c.setEvSt q ((c.evSt q).clear c.cclk) else c

/-- A write to DE_SRCs: its fields, then CLEAR (R525). -/
def Dev.deSrcWrite (d : Dev) (q : Nat) (w : Word) (lo hi : Nat) : Dev :=
  let d := { d with ev := d.ev.setSrc q ((d.ev.src q).keepEn d.cclk (d.flag (F.deSrcEn q))) }
  let d := d.wrFields (F.deSrcEn q).off w lo hi
  if lo = 0 ∧ wbit w 8 then { d with ev := d.ev.setSrc q ((d.ev.src q).clear d.cclk) } else d

/-- EV_SRC_CLEAR. -/
def execEvSrcClear (x : EvCtl) (p : Party) (q : SrcId) (w : Word) (s : State) : Host.Outcome State Fault Refusal :=
  if !srcWf x q then .fault .illFormed
  else match x with
  | .chan k => onCh k s (fun _ c => c.regWrite p (F.evSrcEn q.val).off w (fun c => c.evSrcWrite q.val w 0 64))
  | .dev => onDev s (fun d => if d.recovery then d else d.deSrcWrite q.val w 0 64)

/-- Clears the mask of a vector of a channel's function. -/
def Chan.unmaskVec (c : Chan) (v : Nat) : Chan :=
  let h := c.msix.unmask v
  { c with msix := h.1, out := c.out ++ h.2 }

def Dev.unmaskVec (d : Dev) (v : Nat) : Dev :=
  let h := d.msix.unmask v
  { d with msix := h.1, out := d.out ++ h.2 }

/-- Offset of the Vector Control word of an MSI-X vector, and of the half of it that holds the mask (R528, PCIe). -/
def msixCtl (v : Nat) : Nat := 0xE0008 + 16 * v

/-- The mask of the function is written (R566): as it clears, each vector that is not masked sends the message that its PBA bit holds. -/
def MsixFn.setFmask (x : MsixFn) (on : Bool) : MsixFn × List Out :=
  let x := { x with fmask := on }
  if on then (x, [])
  else
    let go := x.pba.filter (fun v => !(x.vec v).mask)
    ({ x with pba := x.pba.filter (fun v => (x.vec v).mask) }, go.map (fun v => .msix v (x.vec v).addr (x.vec v).data))

def Chan.fmaskWrite (c : Chan) (on : Bool) : Chan :=
  { c with msix := (c.msix.setFmask on).1, out := c.out ++ (c.msix.setFmask on).2 }
def Dev.fmaskWrite (d : Dev) (on : Bool) : Dev :=
  { d with msix := (d.msix.setFmask on).1, out := d.out ++ (d.msix.setFmask on).2 }

/-- MSIX_MASK_CLEAR: host software clears the mask of a vector; the table lies in BAR0 (R528, R591, R605). With another operand it writes the
function mask, which lies in the configuration space of the function (R527, R566; log entry 53). -/
def execMsixMaskClear (fn : FnId) (v : VecId) (s : State) (m : MaskOp := .vector) : Host.Outcome State Fault Refusal :=
  if !vecWf fn v then .fault .illFormed
  else if h : fn.val = 0 then onDev s (fun d => match m with
    | .vector => if d.recovery then d else d.unmaskVec v.val
    | .functionClear => d.fmaskWrite false
    | .functionSet => d.fmaskWrite true)
  else onCh ⟨fn.val - 1, by omega⟩ s (fun _ c => match m with
    | .functionClear => c.fmaskWrite false
    | .functionSet => c.fmaskWrite true
    | .vector =>
    if !c.served (msixCtl v.val) then c.hold { party := .host, off := msixCtl v.val, lo := 32, hi := 64, w := some 0 }
    else if !c.mayWrite .host (msixCtl v.val) then c
    else c.unmaskVec v.val)

/-- GPIO_EDGE (R518, R622): a new level on pin g; the edges TH_GPIO selects raise source 0x40 + g. -/
def execGpioEdge (g : GpioId) (lvl : Bool) (s : State) : Host.Outcome State Fault Refusal :=
  onDev s (fun d =>
    let was := d.gpio.getLsbD g.val
    let sel := wbits (d.rd F.thGpioEdge0.off) (2 * g.val) 2
    let d := { d with gpio := if lvl then d.gpio ||| BitVec.ofNat 16 (2 ^ g.val) else d.gpio &&& ~~~(BitVec.ofNat 16 (2 ^ g.val)) }
    if (lvl && !was && sel.testBit 0) || (!lvl && was && sel.testBit 1) then d.raise (0x40 + g.val) else d)

end Sys2Proof.Machine
end

