-- ==== Sys2Proof/Machine/Fabric.lean ====
section
/-! DEFINITION. The on-chip network and the fabric ports: hops between routers, gate tiles, frames, replay, the link state machine
and Bow (R420 to R470). -/

namespace Sys2Proof.Machine

/-! ## Routers (R420 to R430) -/

/-- Output of router r towards tile d: 0 E, 1 W, 2 S, 3 N, 4 its own L or G port (R425). -/
def hopOut (r d : Nat) : Nat :=
  let dx := (d % 8 + 8 - r % 8) % 8
  let dy := (d / 8 + 8 - r / 8) % 8
  if dx ≠ 0 then (if dx ≤ 4 then 0 else 1) else if dy ≠ 0 then (if dy ≤ 4 then 2 else 3) else 4

/-- The router at the other end of an output (R420). -/
def hopTile (r o : Nat) : Nat :=
  let x := r % 8
  let y := r / 8
  match o with
  | 0 => 8 * y + (x + 1) % 8
  | 1 => 8 * y + (x + 7) % 8
  | 2 => 8 * ((y + 1) % 8) + x
  | _ => 8 * ((y + 7) % 8) + x

/-- The input at which a flit sent through output o arrives. -/
def hopIn (o : Nat) : Nat := [1, 0, 3, 2].getD o 4

/-- The link of output o joins coordinates 7 and 0 (R424). -/
def hopWraps (r o : Nat) : Bool :=
  match o with
  | 0 => r % 8 == 7
  | 1 => r % 8 == 0
  | 2 => r / 8 == 7
  | _ => r / 8 == 0

/-- DL after a hop from input inp through output o (R424): 0 on the turn from X to Y, 1 across the wrap link. -/
def hopDl (r inp o : Nat) (dl : Bool) : Bool := hopWraps r o || (dl && !(decide (2 ≤ o) && decide (inp < 2)))

/-- The port whose gate tile a tile is. -/
def gatePort (t : Nat) : Nat := ((List.range 6).find? (fun p => gateTile p == t)).getD 0

/-! ### Flits (R422, R423) -/

/-- A CRC of n bits over the len low bits of v, the highest first, with a generator, from the value x. DESIGN CHOICE (log entry 50): the
order of the bits, and the initial value 0 of CHECK. -/
def crcOver (n gen v : Nat) : Nat → Nat → Nat
  | 0, x => x
  | len + 1, x =>
    match x.testBit (n - 1) != v.testBit len with
    | true => crcOver n gen v len (x * 2 % 2 ^ n ^^^ gen)
    | false => crcOver n gen v len (x * 2 % 2 ^ n)

/-- HEADER of a packet's flit with left flits to follow (R423). -/
def NPkt.header (p : NPkt) (left : Nat) : Nat :=
  b2n p.epoch <<< 15 + b2n p.cls <<< 14 + b2n p.dl <<< 13 + (p.dkind % 8) <<< 10 + (p.dtile % 64) <<< 4 + (left % 4) <<< 2 + p.fvc.toNat

/-- A flit (R422): CHECK, HEADER and PAYLOAD. -/
def flitBits (header payload : Nat) : BitVec 160 :=
  let v := (header % 2 ^ 16) <<< 136 + payload % 2 ^ 136
  BitVec.ofNat 160 (crcOver 8 0x07 v 152 0 <<< 152 + v)

/-- A token as 136 bits (R37). -/
def tokBits (t : Token) : Nat := (t.sb ++ t.val ++ t.tag).toNat

/-- The flit of a token (R422); the payload of other packets has the layout of the receiving unit, which the spec does not give. -/
def NPkt.tokenFlit (p : NPkt) : Option (BitVec 160) :=
  match p.pay with
  | .tok t => some (flitBits (p.header 0) (tokBits t))
  | _ => none

/-- The receiving router's test of CHECK (R428). -/
def flitGood (f : BitVec 160) : Bool := flitBits (f.extractLsb' 136 16).toNat (f.extractLsb' 0 136).toNat == f

/-! ### Leaving the network (R423, R429, R430) -/

/-- The domains that have to be open for a packet to leave the network at tile t for a unit (R429); in C1 to C4 the whole channel
has to wake, but for the ring engine (R587) and the GDDR7 controller's input. -/
def deliveryDoms (t dkind : Nat) : List Nat :=
  match dkind with
  | 0 => [setOf t]
  | 1 | 6 => [setOf t, 4]
  | _ => [5]

/-- A packet for the GDDR7 controller, which is held at the controller's input (R429). -/
def toDram (t dkind : Nat) : Bool := dkind == 5 && t == tileDram

def Chan.mayDeliver (c : Chan) (t dkind : Nat) : Bool :=
  (dkind == 2 || toDram t dkind || c.pw.cst == 0) && (deliveryDoms t dkind).all (fun d => c.domOpen d)

/-- A packet held at the boundary of its destination (R429): its domains are asked to wake. -/
def Chan.holdAt (c : Chan) (t dkind : Nat) : Chan :=
  ((deliveryDoms t dkind).filter (fun d => !c.domOpen d || c.pw.cst != 0)).foldl Chan.reachDom c

/-- A packet has reached the GDDR7 controller's input: it gives up a power-down of the memory, or asks it to wake (R429, R430). -/
def Chan.wakeDram (c : Chan) : Chan := if c.domOpen 6 && c.dmState != 4 && c.pw.cst == 0 then c else c.reachDom 6

/-- The receiver of a packet at its tile has room for it (R427). -/
def Chan.recvRoom (c : Chan) (p : NPkt) : Bool :=
  match p.dkind, p.pay with
  | 3, .tok _ => c.qRoom (txQueue (gatePort p.dtile) p.fvc.toNat)
  | 2, .tok tok => malformed tok || c.qRoom (640 + tagIp tok.tag % 128)
  | 0, _ => (c.arrived p.dtile 0).isNone && c.takesArrivals p.dtile
  | 6, _ => true
  | _, .event _ => true
  | n, _ => (c.arrived p.dtile n).isNone

/-- A packet is taken to a unit of its tile. -/
def Chan.putArrived (c : Chan) (p : NPkt) : Chan :=
  { c with net := { c.net with arrive := tblIns c.net.arrive (p.dtile * 8 + p.dkind) p } }

/-- A port has traffic: its idle time starts again (R449). -/
def Chan.portBusy (c : Chan) (now p : Nat) : Chan := c.setPort p { c.port p with idleSince := now }

/-- Hands a packet over at its tile: to the arrival register of its home tile, where its instruction word is read (R178) and the token is
accepted (R254, R332); to the transmit queue of a gate (R440); to completion queue 640 + r of the ring engine (R45; a token of reserved TYPE
is malformed, R47); to the split access it belongs to (R354); to the doorbell port of the event controller, behind the messages that wait there (R497, R499); or
to its unit. -/
def Chan.deliver (c : Chan) (now : Nat) (p : NPkt) : Chan :=
  match p.dkind, p.pay with
  | 0, .tok tok => (c.putArrived { p with word := c.instr (tagIp tok.tag), acc := .none }).accept p.acc
  | 3, .tok tok =>
    let port := gatePort p.dtile
    let c := c.qPush (txQueue port p.fvc.toNat) (tokWord tok (fabricHi p.epoch p.ap.toNat (p.fvc.toNat % 2)))
    let x := c.port port
    (c.setPort port { x with txAcc := tblPut x.txAcc p.fvc.toNat (tblGet x.txAcc p.fvc.toNat [] ++ [p.acc]) [] }).portBusy now port
  | 2, .tok tok =>
    if malformed tok then (c.stray F.chTokstatMalformed tok).accept p.acc
    else (c.qPush (640 + tagIp tok.tag % 128) (tokWord tok 0)).accept p.acc
  | 6, .split n => c.splitHere n
  | _, .event m => { c with ev := { c.ev with msgs := c.ev.msgs ++ [m] } }
  | _, _ => if toDram p.dtile p.dkind then (c.putArrived p).wakeDram else c.putArrived p

/-! ### Hops (R424 to R428) -/

/-- Consecutive failures of a link, by router and output (R428). -/
def linkKey (r o : Nat) : Nat := r * 6 + o
def Chan.linkFails (c : Chan) (l : Nat) : Nat := tblGet c.net.fails l 0
def Chan.setFails (c : Chan) (l n : Nat) : Chan := { c with net := { c.net with fails := tblPut c.net.fails l n 0 } }

/-- The output that a packet at router r wants: 0 E, 1 W, 2 S, 3 N, 4 L, 5 G. -/
def outOf (r : Nat) (p : NPkt) : Nat := if hopOut r p.dtile = 4 then (if p.dkind = 3 then 5 else 4) else hopOut r p.dtile

/-- The buffer in which a packet stands after a hop from input inp of router r (R424). -/
def hopBuf (r inp : Nat) (p : NPkt) : Nat :=
  let o := outOf r p
  bufKey (hopTile r o) (hopIn o) (2 * b2n p.cls + b2n (hopDl r inp o p.dl))

/-- The head packet p of input inp of router r can leave: the next buffer, or its receiver, has room for all of it (R427). -/
def Chan.canSend (c : Chan) (r inp : Nat) (p : NPkt) : Bool :=
  if 4 ≤ outOf r p then c.mayDeliver p.dtile p.dkind && c.recvRoom p else c.bufRoom (hopBuf r inp p) (p.nflit + 1)

/-- The head packet of input i (input x 4 + virtual channel) of router r, where it wants output o. -/
def Chan.headFor (c : Chan) (r o i : Nat) : Option NPkt :=
  match c.buf (r * 24 + i) with
  | [] => none
  | p :: _ => if outOf r p = o then some p else none

/-- The input that output o of router r serves next (R427): one whose packet has failed keeps the output, otherwise the next in turn whose
packet can leave. -/
def Chan.grantOut (c : Chan) (r o : Nat) : Option Nat :=
  match (List.range 24).find? (fun i => (c.headFor r o i).any (fun p => p.failed)) with
  | some i => some i
  | none =>
    ((List.range 24).map (fun i => (tblGet c.net.rr (linkKey r o) 23 + 1 + i) % 24)).find? (fun i =>
      (c.headFor r o i).any (fun p => c.canSend r (i / 4) p))

/-- The input of a router that a packet stands in is served now. -/
def Chan.served? (c : Chan) (rx : Rx) (p : NPkt) : Bool :=
  c.canSend rx.r.val rx.inp.val p && c.grantOut rx.r.val (outOf rx.r.val p) == some (rx.inp.val * 4 + rx.vc.val)

/-- The head packet p of an input buffer of router r is sent: one hop, or out of the network at its tile. ok tells whether its
flits pass CHECK at the receiving router, and the buffer's own code (R424, R428, R625). -/
def Chan.sendHead (c : Chan) (now : Nat) (rx : Rx) (p : NPkt) (ok : Bool) : Chan :=
  let r := rx.r.val
  let k := bufKey r rx.inp.val rx.vc.val
  let o := outOf r p
  let c := { c with net := { c.net with rr := tblPut c.net.rr (linkKey r o) (rx.inp.val * 4 + rx.vc.val) 23 } }
  if 4 ≤ o then (c.popBuf k).deliver now p
  else if ok then
    let c := (c.popBuf k).setFails (linkKey r o) 0
    let n := hopBuf r rx.inp.val p
    c.setBuf n (c.buf n ++ [{ p with dl := hopDl r rx.inp.val o p.dl, failed := false }])
  else
    let n := c.linkFails (linkKey r o) + 1
    let c := (c.setBuf k ({ p with failed := true } :: (c.buf k).drop 1)).setFails (linkKey r o) n
    if n = 16 then c.raise 23 else c

/-- FLIT_RECEIVE (R425 to R429): the head packet of an input buffer is sent for the first time, or waits at the boundary of a domain that
sleeps. -/
def execFlitReceive (k : Ch) (rx : Rx) (ok : Bool) (s : State) : Host.Outcome State Fault Refusal :=
  onCh k s (fun dv c =>
    match c.buf (bufKey rx.r.val rx.inp.val rx.vc.val) with
    | [] => c
    | p :: _ =>
      if p.failed || !c.domUp 5 then c
      else if decide (4 ≤ outOf rx.r.val p) && !c.mayDeliver p.dtile p.dkind then c.holdAt p.dtile p.dkind
      else if c.served? rx p then c.sendHead dv.time rx p ok
      else c)

/-- FLIT_RESEND (R428): a packet whose last send failed is sent again; the resend is counted. -/
def execFlitResend (k : Ch) (rx : Rx) (ok : Bool) (s : State) : Host.Outcome State Fault Refusal :=
  onCh k s (fun dv c =>
    match c.buf (bufKey rx.r.val rx.inp.val rx.vc.val) with
    | [] => c
    | p :: _ => if !p.failed || !c.domUp 5 || !c.served? rx p then c else (c.inc F.ntStatLinkretry).sendHead dv.time rx p ok)

/-! ## Tokens out of a receive queue (R431 to R435, R454) -/

/-- A packet is offered to the G port at the gate tile of a port. -/
def Chan.injectGate (c : Chan) (p : Nat) (x : NPkt) : Chan := c.offerPkt (bufKey (gateTile p) 5 0) true x

/-- Room for a token at the G port of a gate. -/
def Chan.gateRoom (c : Chan) (p : Nat) : Bool :=
  (c.offer (bufKey (gateTile p) 5 0) true).isEmpty && c.bufRoom (bufKey (gateTile p) 5 0) 1

/-- A token that finds no route at a gate (R434). -/
def Chan.transitLoss (c : Chan) (t : Token) : Chan :=
  ((c.inc F.ntStatTransit).first F.ntUnrtagTag t.tag.toNat).raise 497

/-- Routes a token of epoch e that arrived on port ap from the gate tile of port p (R431 to R434). -/
def Chan.routeOn (c : Chan) (p : Nat) (t : Token) (e ap adl : Nat) (acc : Acc) (accept : Chan → Acc → Chan) : Chan :=
  let dev := tagDev t.tag
  let r := c.route dev e ap
  let c := c.countEpoch dev e
  match r with
  | .home => c.injectGate p { localPkt t acc with epoch := e == 1, fvc := BitVec.ofNat 2 ((if tagKind t.tag = 0 then 0 else 2) + adl) }
  | .port q => c.injectGate p (c.gatePkt t q (c.routeEpoch e) ap adl acc)
  | .none => accept (c.transitLoss t) acc

/-- Bits a lost half of a queue word reads as (R339; log entry 2). -/
def loseHalves (k a : Nat) (l0 l1 : Bool) (w : BitVec 144) : BitVec 144 :=
  (if l1 then Config.lostHalf k a 1 else w.extractLsb' 72 72) ++ (if l0 then Config.lostHalf k a 0 else w.extractLsb' 0 72)

/-- The frame of the first unread word of receive queue j: walks the frames over the words read and not released (R337). -/
def frameOf (j : Nat) : Nat → List (BitVec 8 × List Nat) → Option (BitVec 8 × Nat)
  | _, [] => none
  | n, (s, l) :: r => if n < l.getD j 0 then some (s, l.getD j 0 - n) else frameOf j (n - l.getD j 0) r

/-- Puts a control frame in line. -/
def Port.ctl_ (x : Port) (code arg : BitVec 8) : Port := { x with ctl := x.ctl ++ [(code, arg)] }

/-- RECEIVE_QUEUE_ROUTE: the head of receive queue j of port p leaves it; a failed read asks for its frame again (R337). A token with a
reserved KIND or TYPE is malformed (R47). -/
def execReceiveQueueRoute (k : Ch) (p : PortId) (j : Vc) (pf : Parity) (s : State) : Host.Outcome State Fault Refusal :=
  onCh k s (fun _ c =>
    let q := rxQueue p.val j.val
    let x := c.port p.val
    if !c.domUp 5 || !c.qGives q || (tblFind x.refetch j.val).isSome
        || !c.gateRoom p.val then c
    else
      let (c, _, lost) := c.qParity q pf
      if lost then
        match frameOf j.val (c.qRead q) x.rxFrames with
        | none => c
        | some (sq, n) => c.setPort p.val (Port.ctl_ { x with refetch := tblIns x.refetch j.val (sq, n) } 7 sq)
      else
        let w := c.qItem q (c.qRead q)
        if malformed (wordTok w) then (((c.qAdvance q).stray F.chTokstatMalformed (wordTok w)).accept (.qword q)).epochCheck
        else ((c.qAdvance q).routeOn p.val (wordTok w) (b2n (wordEpoch w)) p.val (wordDl w) (.qword q) Chan.accept).epochCheck)

/-! ## Frames out (R438 to R443, R449, R450) -/

/-- Words waiting in the transmit queues of a port. -/
def Chan.txHeld (c : Chan) (p : Nat) : Nat := ((List.range 4).map (fun j => c.qHeld (txQueue p j))).foldl (· + ·) 0
def Chan.rxHeld (c : Chan) (p : Nat) : Nat := ((List.range 4).map (fun j => c.qHeld (rxQueue p j))).foldl (· + ·) 0

/-- Transmit queues, receive queues and replay buffer are empty (R449). -/
def Chan.portIdle (c : Chan) (p : Nat) : Bool := c.txHeld p == 0 && c.rxHeld p == 0 && (c.port p).replay.isEmpty

/-- The virtual channel that fills the next slot: the next in turn with a word and a credit (log entry 31). -/
def Chan.nextVc (c : Chan) (p : Nat) : Option Nat :=
  let x := c.port p
  ((List.range 4).map (fun i => (x.lastVc + 1 + i) % 4)).find? (fun j =>
    decide (0 < c.qSeenItems (txQueue p j)) && decide (0 < tblGet x.credits j 0))

/-- The parity that a read of a queue word finds, by word number. -/
def parityAt (errs : QErrs) (a : Nat) : Parity := ((errs.find? (fun e => e.1 == a)).map (·.2)).getD ⟨false, false, false, false⟩

/-- Item i of a transmit queue is read (R336): one that both twins have lost goes on with POISON (R339), as a token that may be emitted
(R47). -/
def Chan.readTx (c : Chan) (q i : Nat) (errs : QErrs) : Chan × BitVec 144 :=
  let a := c.qAddr q (i * c.qUnit q)
  let pf := parityAt errs a
  match c.qParity q pf with
  | (c, l0, lost) =>
    if lost then
      let w := loseHalves c.idx a l0 (pf.a1 && pf.b1) (c.qItem q i) ||| ((8 : BitVec 144) <<< 128)
      (c.qPoisonEvent q, tokWord (tokEmitted (wordTok w)) (wordHi w))
    else (c, c.qItem q i)

/-- Takes one word of a transmit queue into a slot; its frame enters the replay buffer in the same ACLK, so that it is accepted
(R332). -/
def Chan.takeSlot (c : Chan) (p j : Nat) (errs : QErrs) : Chan × Slot :=
  let q := txQueue p j
  match c.readTx q 0 errs with
  | (c, w) =>
    let x := c.port p
    let accs := tblGet x.txAcc j []
    let c := c.setPort p { x with lastVc := j, credits := tblPut x.credits j (tblGet x.credits j 0 - 1) 0,
                                  txAcc := tblPut x.txAcc j (accs.drop 1) [] }
    (((c.qAdvance q).qRelease q 1).accept (accs.headD .none), ⟨wordTok w, BitVec.ofNat 2 j, wordEpoch w⟩)

/-- Fills up to n slots. -/
def Chan.fillSlots (c : Chan) (p : Nat) (errs : QErrs) : Nat → Chan × List Slot
  | 0 => (c, [])
  | n + 1 =>
    match c.nextVc p with
    | none => (c, [])
    | some j =>
      let (c, sl) := c.takeSlot p j errs
      let (c, r) := Chan.fillSlots c p errs n
      (c, sl :: r)

/-- The credits a frame returns, once they are enabled (R446): up to 7 of the lowest virtual channel that has some (R439, R442). -/
def Chan.takeCredits (c : Chan) (p : Nat) : Chan × BitVec 2 × BitVec 3 :=
  let x := c.port p
  match (List.range 4).find? (fun j => x.dataOn && decide (0 < tblGet x.giveBack j 0)) with
  | none => (c, 0, 0)
  | some j =>
    let n := min 7 (tblGet x.giveBack j 0)
    (c.setPort p { x with giveBack := tblPut x.giveBack j (tblGet x.giveBack j 0 - n) 0 }, BitVec.ofNat 2 j, BitVec.ofNat 3 n)

/-- FHDR (R439): NSLOT and SLOTDESC are those of the slots used. -/
def frameHeader (ftype seq ack crvc crcnt : Nat) (slots : List Slot) : Nat :=
  ftype <<< 45 + seq <<< 37 + ack <<< 29 + crvc <<< 27 + crcnt <<< 24 + slots.length <<< 21
    + ((slots.zipIdx).map (fun e => (2 * e.1.vc.toNat + b2n e.1.epoch) <<< (3 * e.2))).foldl (· + ·) 0

/-- SLOTS of a frame with tokens: slot i at 136 x i (R438). -/
def slotBits (slots : List Slot) : Nat := ((slots.zipIdx).map (fun e => tokBits e.1.tok <<< (136 * e.2))).foldl (· + ·) 0

/-- Words 0 to 5 of a Bow in its slot area (R451). -/
def bowWords (b : Bow) : List Nat := [
  b.serial.toNat,
  b.dev.toNat <<< 48 + b.plane.toNat <<< 44 + b.port.toNat <<< 40 + b.cap.toNat,
  b.digest.toNat,
  b.rcvd.toNat <<< 56 + b.ackd.toNat <<< 48 + b2n b.seqValid <<< 47 + b2n b.pvalid <<< 46 + b.nxm1.toNat <<< 40 + b.nym1.toNat <<< 32
    + b.nzm1.toNat <<< 24,
  b.rxcap3.toNat <<< 42 + b.rxcap2.toNat <<< 28 + b.rxcap1.toNat <<< 14 + b.rxcap0.toNat,
  b2n b.got]

/-- Header and slot area of a frame (R439, R451). ACK of a Bow is its ACKD, the same number (log entry 50). -/
def FrameOut.parts : FrameOut → Nat × Nat
  | .data seq ack v n slots => (frameHeader 0 seq.toNat ack.toNat v.toNat n.toNat slots, slotBits slots)
  | .ctl code arg ack v n => (frameHeader 1 0 ack.toNat v.toNat n.toNat [], arg.toNat <<< 8 + code.toNat)
  | .bow b => (frameHeader 2 0 b.ackd.toNat 0 0 [], (((bowWords b).zipIdx).map (fun e => e.1 <<< (64 * e.2))).foldl (· + ·) 0)
  | .redata seq ack slots => (frameHeader 3 seq.toNat ack.toNat 0 0 slots, slotBits slots)

/-- The 1,024 bits of a frame (R438): CRC-24 over the rest, the slots, and the header. -/
def FrameOut.bits (f : FrameOut) : BitVec 1024 :=
  let v := f.parts.2 <<< 48 + f.parts.1
  BitVec.ofNat 1024 (crcOver 24 0x864CFB v 1000 (2 ^ 24 - 1) <<< 1000 + v)

def Chan.sendFrame (c : Chan) (p : Nat) (f : FrameOut) : Chan := { c with out := c.out ++ [.frame p f f.bits] }

/-- Sends a CONTROL frame. -/
def Chan.sendCtl (c : Chan) (p : Nat) (code arg : BitVec 8) : Chan :=
  let (c, v, n) := c.takeCredits p
  c.sendFrame p (.ctl code arg (c.port p).rxAck v n)

/-- The control frame in line that is due: a SLEEPREQ or SLEEPACK gives way to a token that has come meanwhile, on either side (R430, R449). -/
def Chan.ctlDue (c : Chan) (p : Nat) : Option ((BitVec 8 × BitVec 8) × List (BitVec 8 × BitVec 8)) :=
  match (c.port p).ctl with
  | [] => none
  | (code, arg) :: r =>
    if c.portIdle p then some ((code, arg), r)
    else if code = 2 then some ((0, 0), r)
    else if code = 3 then some ((4, 0), r)
    else some ((code, arg), r)

/-- Sends a control frame in line, with what its sending does: SLEEPREQ and SLEEPACK are points of no return (R430), SLEEPACK
raises IDLE (R449), DRAINDONE is sent once (R450). -/
def Chan.sendDue (c : Chan) (p : Nat) (code arg : BitVec 8) : Chan :=
  let x := c.port p
  let c := c.setPort p { x with
    sleepSent := x.sleepSent || code == 2 || code == 3,
    pulses := if code = 3 then x.pulses ||| (1 <<< 10) else x.pulses,
    drainSent := x.drainSent || code == 6 }
  c.sendCtl p code arg

/-- A new DATA frame, when a token can go: DATA is enabled (R446), a sleeping handshake holds it (R430), and 255 frames are the most
(R441). -/
def Chan.dataFrame (c : Chan) (now p : Nat) (errs : QErrs) : Option Chan :=
  let x := c.port p
  if !x.dataOn || x.sleepSent || decide (255 ≤ x.replay.length) || (c.nextVc p).isNone then none
  else
    let (c, slots) := (c.portBusy now p).fillSlots p errs 7
    let (c, v, n) := c.takeCredits p
    let x := c.port p
    let f : TxFrame := { seq := x.txSeq, slots := slots, crvc := v, crcnt := n }
    let c := c.setPort p { x with replay := x.replay ++ [f], txSeq := x.txSeq + 1, ackAt := if x.replay.isEmpty then now else x.ackAt }
    some ((c.sendFrame p (.data f.seq (c.port p).rxAck v n slots)).epochCheck)

/-- The frame of the replay buffer with a SEQ. -/
def Port.frame (x : Port) (sq : BitVec 8) : Option TxFrame := x.replay.find? (fun f => f.seq == sq)

/-- FRAME_TRANSMIT (R438 to R443, R446, R449, R450): the frame that goes next in ACTIVE or DRAIN; errs is what the reads of the transmit queues
find. Control frames in line go first, then
re-sent frames, then REDATA, then new tokens, then IDLE (log entry 31). -/
def execFrameTransmit (k : Ch) (p : PortId) (errs : QErrs) (s : State) : Host.Outcome State Fault Refusal :=
  onCh k s (fun dv c =>
    let x := c.port p.val
    if (x.st ≠ 4 ∧ x.st ≠ 5) ∨ c.domUp 7 = false then c
    else match c.ctlDue p.val with
    | some ((code, arg), r) => (c.setPort p.val { x with ctl := r }).sendDue p.val code arg
    | none =>
      match (if x.dataOn then x.resend else []) with
      | sq :: r =>
        let c := c.setPort p.val { x with resend := r }
        match x.frame sq with
        | some f => c.sendFrame p.val (.data f.seq x.rxAck f.crvc f.crcnt f.slots)
        | none => c.sendCtl p.val 0 0
      | [] =>
        match (if x.dataOn then x.redata else []) with
        | sq :: r =>
          let c := c.setPort p.val { x with redata := r }
          match x.frame sq with
          | some f => (c.inc (F.fbLossRefetch p.val)).sendFrame p.val (.redata f.seq x.rxAck f.slots)
          | none => c.sendCtl p.val 0 0
        | [] =>
          match c.dataFrame dv.time p.val errs with
          | some c => c
          | none =>
            if x.st = 5 ∧ x.drainSent = false ∧ c.txHeld p.val = 0 ∧ x.replay = [] then c.sendDue p.val 6 0
            else c.sendCtl p.val 0 0)

/-! ## Frames in (R437, R439 to R442) -/

/-- Counts what the codewords and the CRC of a received frame show (R437, R441, R466). -/
def Chan.countCheck (c : Chan) (p : Nat) (chk : FrameCheck) : Chan :=
  let c := c.addSat (F.fbErrFeccorr p) chk.fixed
  if chk.bad then c.inc (F.fbErrFecuncorr p) else if chk.crc then c else c.inc (F.fbErrCrcerr p)

def FrameGood (chk : FrameCheck) : Bool := chk.crc && !chk.bad

/-- The port takes frames: ACTIVE or DRAIN, with its domain on (R444). -/
def Chan.takesFrames (c : Chan) (p : Nat) : Bool := ((c.port p).st == 4 || (c.port p).st == 5) && c.domUp 7

/-- The port hears the partner's frames: in BOW, ACTIVE or DRAIN, with its domain on (R444). -/
def Chan.hears (c : Chan) (p : Nat) : Bool := ((c.port p).st == 3 || (c.port p).st == 4 || (c.port p).st == 5) && c.domUp 7

/-- What a frame that comes before the port is ACTIVE leaves: its codewords and CRC count (R466). -/
def Chan.heard (c : Chan) (p : Nat) (chk : FrameCheck) : Chan := if c.hears p then c.countCheck p chk else c

/-- One NAK for each expected SEQ (R441). -/
def Chan.sendNak (c : Chan) (p : Nat) : Chan :=
  let x := c.port p
  if x.nakSent then c else c.setPort p { Port.ctl_ x 1 x.rxSeq with nakSent := true }

/-- Asks again for the frames a REFETCH is outstanding for (log entry 31). -/
def Port.askAgain (x : Port) : Port := x.refetch.foldl (fun x e => Port.ctl_ x 7 e.2.1) x

/-- A frame that fails its codeword or its CRC is discarded (R437, R441). -/
def Chan.badFrame (c : Chan) (p : Nat) : Chan := c.sendNak p

/-- Frames acknowledged by a SEQ: those up to it, where it lies in the replay buffer (R441). -/
def ackCount (x : Port) (a : BitVec 8) : Nat :=
  match x.replay with
  | [] => 0
  | f :: _ => if (a - f.seq).toNat < x.replay.length then (a - f.seq).toNat + 1 else 0

/-- Frees the replay slots that an ACK releases (R441, R453). -/
def Chan.portAck (c : Chan) (now p : Nat) (a : BitVec 8) : Chan :=
  let x := c.port p
  let n := ackCount x a
  if n = 0 then c
  else c.setPort p { x with replay := x.replay.drop n, ackAt := now,
                            resend := x.resend.filter (fun sq => (x.replay.drop n).any (fun f => f.seq == sq)) }

/-- What the header of a good frame does: its ACK and the credits it returns (R439, R442). -/
def Chan.header (c : Chan) (now p : Nat) (a : BitVec 8) (v : BitVec 2) (n : BitVec 3) : Chan :=
  let c := c.portAck now p a
  let x := c.port p
  c.setPort p { x with credits := tblPut x.credits v.toNat (tblGet x.credits v.toNat 0 + n.toNat) 0 }

/-- A received token: the reserved SIDEBAND bits are ignored (R39). -/
def tokReceived (t : Token) : Token := { t with sb := sbClean t.sb }

/-- Pushes the tokens of a frame to their receive queues (R440). -/
def Chan.pushSlots (c : Chan) (p : Nat) (l : List Slot) : Chan :=
  l.foldl (fun c (sl : Slot) =>
    c.qPush (rxQueue p sl.vc.toNat) (tokWord (tokReceived sl.tok) (fabricHi sl.epoch p (sl.vc.toNat % 2)))) c

/-- Tokens of each virtual channel in a frame. -/
def slotCounts (l : List Slot) : List Nat := (List.range 4).map (fun j => (l.filter (fun (sl : Slot) => sl.vc.toNat == j)).length)

/-- The receive queues have room for a frame, as the sender's credits ensure (R442). -/
def Chan.slotsFit (c : Chan) (p : Nat) (l : List Slot) : Bool :=
  (List.range 4).all (fun j =>
    let n := (slotCounts l).getD j 0
    n == 0 || (c.qEn (rxQueue p j) && decide ((c.qptr (rxQueue p j)).held + n ≤ c.qCap (rxQueue p j))))

/-- DATA_FRAME_RECEIVE. -/
def execDataFrameReceive (k : Ch) (p : PortId) (fr : Frame) (ok : FrameCheck) (s : State) : Host.Outcome State Fault Refusal :=
  if !fr.wf then .fault .illFormed
  else onCh k s (fun dv c =>
    if !c.takesFrames p.val then c.heard p.val ok
    else
      let c := c.countCheck p.val ok
      if !FrameGood ok then c.badFrame p.val
      else if fr.seq ≠ (c.port p.val).rxSeq ∨ c.slotsFit p.val fr.slots = false then c.sendNak p.val
      else
        let c := ((c.header dv.time p.val fr.ack fr.crvc fr.crcnt).portBusy dv.time p.val).pushSlots p.val fr.slots
        let x := c.port p.val
        c.setPort p.val (Port.settle { x with
          rxSeq := x.rxSeq + 1, nakSent := false, rxFrames := x.rxFrames ++ [(fr.seq, slotCounts fr.slots)] }))

/-- The words that outstanding REFETCHes take from a REDATA frame (R337): each the first unread word of its queue. -/
def Chan.takeRedata (c : Chan) (p : Nat) (fr : Frame) : Chan :=
  (c.port p).refetch.foldl (fun c e =>
    if e.2.1 ≠ fr.seq then c
    else
      let q := rxQueue p e.1
      let mine := fr.slots.filter (fun (sl : Slot) => sl.vc.toNat == e.1)
      match mine[mine.length - e.2.2]? with
      | none => c
      | some sl =>
        let x := c.port p
        (c.setQWord (c.qAddr q (c.qRead q)) (tokWord (tokReceived sl.tok) (fabricHi sl.epoch p (e.1 % 2)))).setPort p
          { x with refetch := tblDel x.refetch e.1 }) c

/-- REDATA_FRAME_RECEIVE: the words asked for, and nothing else (R441). -/
def execRedataFrameReceive (k : Ch) (p : PortId) (fr : Frame) (ok : FrameCheck) (s : State) : Host.Outcome State Fault Refusal :=
  if !fr.wf then .fault .illFormed
  else onCh k s (fun _ c =>
    if !c.takesFrames p.val then c.heard p.val ok
    else
      let c := c.countCheck p.val ok
      if !FrameGood ok then
        let c := c.badFrame p.val
        c.setPort p.val (c.port p.val).askAgain
      else c.takeRedata p.val fr)

/-- A received CONTROL frame: its codeword, its header, and what its code does. -/
def Chan.control (c : Chan) (now p : Nat) (h : Hdr) (f : Chan → Chan) : Chan :=
  if !c.takesFrames p then c.heard p h.chk
  else
    let c := c.countCheck p h.chk
    if !FrameGood h.chk then c.badFrame p else f (c.header now p h.ack h.crvc h.crcnt)

/-- Sets a pulse event of a port (R445). -/
def Chan.pulse (c : Chan) (p e : Nat) : Chan :=
  let x := c.port p
  c.setPort p { x with pulses := x.pulses ||| BitVec.ofNat 32 (2 ^ e) }

/-- A replay from the oldest unacknowledged frame; more than ERRMAX in 1 ms raise ERRLIMIT (R441, R455). -/
def Chan.replayPort (c : Chan) (now p : Nat) : Chan :=
  let x := c.port p
  if x.replay.isEmpty then c
  else
    let l := now :: x.replays.filter (fun t => decide (now < t + 100000))
    let c := (c.setPort p { x with resend := x.replay.map (fun f => f.seq), replays := l, ackAt := now }).inc (F.fbErrReplay p)
    if c.flag (F.fbPcfgErrmax p) = true ∧ c.fld (F.fbPcfgErrmax p) < l.length then
      ((c.pulse p 14).setPort p { (c.pulse p 14).port p with replays := [] }).raise (448 + 8 * p + 2)
    else c

/-- CONTROL_IDLE. -/
def execControlIdle (k : Ch) (p : PortId) (h : Hdr) (s : State) : Host.Outcome State Fault Refusal :=
  onCh k s (fun dv c => c.control dv.time p.val h id)

/-- NAK (R439, R441): the sender goes back to its oldest unacknowledged frame, as R441 lays down; the argument names the frame that the
partner expects, which lies among those sent again. -/
def execNak (k : Ch) (p : PortId) (h : Hdr) (_arg : BitVec 8) (s : State) : Host.Outcome State Fault Refusal :=
  onCh k s (fun dv c => c.control dv.time p.val h (fun c => c.replayPort dv.time p.val))

/-- A port may sleep: SLEEPEN 1, ACTIVE, and empty for IDLET µs (R449). -/
def Chan.maySleep (c : Chan) (now p : Nat) : Bool :=
  let x := c.port p
  c.flag (F.fbPcfgSleepen p) && x.st == 4 && c.portIdle p && decide (x.idleSince + 100 * c.fld (F.fbPcfgIdlet p) ≤ now)

/-- SLEEPREQ: answered SLEEPACK by a port in the same condition, SLEEPNAK otherwise. -/
def execSleepreq (k : Ch) (p : PortId) (h : Hdr) (s : State) : Host.Outcome State Fault Refusal :=
  onCh k s (fun dv c => c.control dv.time p.val h (fun c =>
    c.setPort p.val (Port.ctl_ (c.port p.val) (if c.maySleep dv.time p.val then 3 else 4) 0)))

/-- SLEEPACK: IDLE at the initiator. -/
def execSleepack (k : Ch) (p : PortId) (h : Hdr) (s : State) : Host.Outcome State Fault Refusal :=
  onCh k s (fun dv c => c.control dv.time p.val h (fun c => if (c.port p.val).sleepSent then c.pulse p.val 10 else c))

/-- SLEEPNAK: the handshake ends, and its idle time starts again. -/
def execSleepnak (k : Ch) (p : PortId) (h : Hdr) (s : State) : Host.Outcome State Fault Refusal :=
  onCh k s (fun dv c => c.control dv.time p.val h (fun c =>
    c.setPort p.val { c.port p.val with sleepSent := false, idleSince := dv.time }))

/-- DRAINREQ: PDRAIN. -/
def execDrainreq (k : Ch) (p : PortId) (h : Hdr) (s : State) : Host.Outcome State Fault Refusal :=
  onCh k s (fun dv c => c.control dv.time p.val h (fun c => c.pulse p.val 12))

/-- DRAINDONE, the partner's part of the event of that name. -/
def execDraindone (k : Ch) (p : PortId) (h : Hdr) (s : State) : Host.Outcome State Fault Refusal :=
  onCh k s (fun dv c => c.control dv.time p.val h (fun c => c.setPort p.val { c.port p.val with drainDone := true }))

/-- REFETCH: the frame is sent again as REDATA, while the replay buffer holds it. -/
def execRefetch (k : Ch) (p : PortId) (h : Hdr) (arg : BitVec 8) (s : State) : Host.Outcome State Fault Refusal :=
  onCh k s (fun dv c => c.control dv.time p.val h (fun c =>
    let x := c.port p.val
    if (x.frame arg).isSome then c.setPort p.val { x with redata := x.redata ++ [arg] } else c))

/-- RESERVED_FRAME_RECEIVE (R439): FTYPE 4 to 7, or CONTROL with a code above 7; one that fails its codeword or CRC is a failed frame as any
other (R441). -/
def execReservedFrameReceive (k : Ch) (p : PortId) (ftype : BitVec 3) (code : BitVec 8) (s : State) (chk : FrameCheck := frameGood) :
    Host.Outcome State Fault Refusal :=
  onCh k s (fun _ c =>
    if (c.takesFrames p.val || (c.port p.val).st == 3) && (decide (4 ≤ ftype.toNat) || (ftype == 1 && decide (8 ≤ code.toNat))) then
      let d := c.countCheck p.val chk
      if FrameGood chk then d.inc (F.fbErrCrcerr p.val) else if c.takesFrames p.val then d.badFrame p.val else d
    else c)

/-- REPLAY_TIMEOUT (R441): REPLAYT × 10 ns without an advance of ACK; REPLAYT below 50 acts as 50 (R461). -/
def execReplayTimeout (k : Ch) (p : PortId) (s : State) : Host.Outcome State Fault Refusal :=
  onCh k s (fun dv c =>
    if c.takesFrames p.val ∧ (c.port p.val).ackAt + max 50 (c.fld (F.fbPcfgReplayt p.val)) ≤ dv.time then
      c.replayPort dv.time p.val
    else c)

/-- SLEEP_IDLE_TIMEOUT: SLEEPREQ, once in a handshake. -/
def execSleepIdleTimeout (k : Ch) (p : PortId) (s : State) : Host.Outcome State Fault Refusal :=
  onCh k s (fun dv c =>
    let x := c.port p.val
    if c.maySleep dv.time p.val && !x.sleepSent && !x.ctl.any (fun e => e.1 == 2) then c.setPort p.val (Port.ctl_ x 2 0) else c)

/-! ## Link state machine (R444 to R448) -/

/-- An event is pending at a port (R445). -/
def Chan.pending (c : Chan) (p e : Nat) : Bool :=
  let x := c.port p
  if e = 3 then x.sigDet
  else if e = 4 then x.sigLoss
  else if e = 11 then decide (0 < c.txHeld p) || x.wakeCmd
  else if e = 13 then c.txHeld p == 0 && x.replay.isEmpty && x.drainDone
  else if e ≤ 14 then x.pulses.getLsbD e
  else false

/-- The entry that a port takes (R447). -/
def Chan.lsmEntry (c : Chan) (p : Nat) : Option Nat :=
  (List.range 32).find? (fun i =>
    c.flag (F.fbLsmValid i) && (c.fld (F.fbLsmFrom i) == 7 || c.fld (F.fbLsmFrom i) == (c.port p).st.toNat)
      && c.pending p (c.fld (F.fbLsmEvent i)))

/-- The first n items of a transmit queue are read in order. -/
def Chan.readAllTx (c : Chan) (q : Nat) (errs : QErrs) (n : Nat) : Chan × List (BitVec 144) :=
  (List.range n).foldl (fun (a : Chan × List (BitVec 144)) i => ((a.1.readTx q i errs).1, a.2 ++ [(a.1.readTx q i errs).2])) (c, [])

/-- REROUTE (R454): every token of the transmit queues is routed again under the current epoch. -/
def Chan.rerouteQueue (c : Chan) (p j : Nat) (errs : QErrs) : Chan :=
  let q := txQueue p j
  match c.readAllTx q errs (c.qHeld q) with
  | (c, ws) =>
    let accs := tblGet (c.port p).txAcc j []
    let c := (c.qRelease q ws.length).setPort p { c.port p with txAcc := tblDel (c.port p).txAcc j }
    let c := (ws.zip (List.range ws.length)).foldl (fun c (e : BitVec 144 × Nat) =>
      (c.inc (F.fbLossRerouted p)).routeOn p (wordTok e.1) c.curEpoch (wordPort e.1) (wordDl e.1)
        (accs.getD e.2 .none) Chan.accept) c
    c.setQptr q { c.qptr q with unread := (c.qptr q).held }

def Chan.reroute (c : Chan) (p : Nat) (errs : QErrs) : Chan :=
  let n := c.txHeld p
  let c := (List.range 4).foldl (fun c j => c.rerouteQueue p j errs) c
  (if 0 < n then c.raise (452 + 8 * p) else c).epochCheck

/-- One action of a table entry (R446). -/
def Chan.lsmAction (c : Chan) (p : Nat) (errs : QErrs) (a : Nat) : Chan :=
  let x := c.port p
  match a with
  | 0 => c.setPort p { x with txIdle := true }
  | 1 => c.setPort p { x with training := true, txIdle := false, serdesOff := false }
  | 2 => c.setPort p { x with got := false, bowDue := true }
  | 3 => c.setPort p { x with avail := true, dataOn := true }
  | 4 => c.setPort p { x with avail := false }
  | 5 => c.reroute p errs
  | 6 => c.raise (448 + 8 * p)
  | _ => c.setPort p { x with serdesOff := true, txIdle := true }

/-- The actions set in a mask, in ascending order (R446). -/
def Chan.lsmActions (c : Chan) (p mask : Nat) (errs : QErrs) : Chan :=
  (List.range 8).foldl (fun c a => if mask.testBit a then c.lsmAction p errs a else c) c

/-- What entering a state does: DRAINREQ in DRAIN, REFETCHes asked again in ACTIVE, and what ends with the state left. -/
def Port.enter (x : Port) (now to_ : Nat) : Port :=
  let x := if x.st.toNat = to_ then x
    else { x with pulses := 0, sleepSent := false, wakeCmd := false, training := false }
  let x := { x with st := BitVec.ofNat 3 to_ }
  if to_ = 4 then
    ({ x with drainDone := false, drainSent := false, idleSince := now, ackAt := now, nakSent := false,
              seqValid := true } : Port).askAgain
  else if to_ = 5 then Port.ctl_ { x with drainSent := false } 5 0
  else { x with ctl := [], redata := [], dataOn := false }

/-- A port takes an entry: state, event, actions, timer (R447). -/
def Chan.lsmTake (c : Chan) (now p i : Nat) (errs : QErrs) : Chan :=
  let e := c.fld (F.fbLsmEvent i)
  let to_ := if c.fld (F.fbLsmTo i) = 7 then 0 else c.fld (F.fbLsmTo i)
  let t := c.fld (F.fbLsmTimer i)
  let x := c.port p
  let x := Port.enter { x with pulses := x.pulses &&& ~~~(BitVec.ofNat 32 (2 ^ e)) } now to_
  let c := c.setPort p { x with timer := if t = 0 then none else some (now + 100 * t) }
  let c := (c.setFld (F.fbPstatEntry p) i).wrapInc (F.fbPstatTrans p)
  (c.lsmActions p (c.fld (F.fbLsmActions i)) errs).fabricDown now

/-- LSM_TRANSITION. A FABRIC domain that is off is asked to wake first (R596). errs is what REROUTE's reads of the transmit queues find. -/
def execLsmTransition (k : Ch) (p : PortId) (s : State) (errs : QErrs := []) : Host.Outcome State Fault Refusal :=
  onCh k s (fun dv c =>
    match c.lsmEntry p.val with
    | none => c
    | some i => if c.domOpen 7 then c.lsmTake dv.time p.val i errs else c.reachDom 7)

/-- LANE_TRAINING_COMPLETE: TRAINOK or TRAINFAIL. -/
def execLaneTrainingComplete (k : Ch) (p : PortId) (ok : Bool) (s : State) : Host.Outcome State Fault Refusal :=
  onCh k s (fun _ c =>
    let x := c.port p.val
    if x.training then (c.setPort p.val { x with training := false }).pulse p.val (if ok then 5 else 6) else c)

/-- SIGDET: the level of the event; a listener that sees the partner wakes a sleeping channel (R590). -/
def execSigdet (k : Ch) (p : PortId) (ok : Bool) (s : State) : Host.Outcome State Fault Refusal :=
  onCh k s (fun _ c =>
    let c := c.setPort p.val { c.port p.val with sigDet := ok }
    if ok ∧ c.pw.cst ≠ 0 then c.askWake else c)

/-- SIGLOSS: the level of the event. -/
def execSigloss (k : Ch) (p : PortId) (ok : Bool) (s : State) : Host.Outcome State Fault Refusal :=
  onCh k s (fun _ c => c.setPort p.val { c.port p.val with sigLoss := ok })

/-- STATE_TIMER_EXPIRY: TIMEOUT. -/
def execStateTimerExpiry (k : Ch) (p : PortId) (s : State) : Host.Outcome State Fault Refusal :=
  onCh k s (fun dv c =>
    match (c.port p.val).timer with
    | none => c
    | some t => if t ≤ dv.time then (c.setPort p.val { c.port p.val with timer := none }).pulse p.val 9 else c)

/-! ## Bow (R451 to R453) -/

/-- Free words of receive queue j (R451). -/
def Chan.rxFree (c : Chan) (p j : Nat) : BitVec 14 :=
  BitVec.ofNat 14 (if c.qEn (rxQueue p j) then c.qCap (rxQueue p j) - (c.qptr (rxQueue p j)).held else 0)

/-- The Bow a port sends (R451). -/
def Chan.ownBow (c : Chan) (p : Nat) : Bow :=
  let x := c.port p
  { chk := frameGood, serial := Config.serial, dev := BitVec.ofNat 16 c.devNo, plane := BitVec.ofNat 4 c.idx,
    port := BitVec.ofNat 4 p, cap := 0x014C0000, digest := c.rd 0x20900, rcvd := x.rxSeq - 1, ackd := x.rxAck,
    seqValid := x.seqValid, pvalid := c.flag F.chPlaneValid, nxm1 := BitVec.ofNat 6 (c.fld F.chPlaneNxm1),
    nym1 := BitVec.ofNat 5 (c.fld F.chPlaneNym1), nzm1 := BitVec.ofNat 5 (c.fld F.chPlaneNzm1),
    rxcap0 := c.rxFree p 0, rxcap1 := c.rxFree p 1, rxcap2 := c.rxFree p 2, rxcap3 := c.rxFree p 3, got := x.got }

/-- BOW_SEND: one on entry and one at the first Bow that passes, which may be under way as the port becomes ACTIVE; another every
10 µs in BOW. -/
def execBowSend (k : Ch) (p : PortId) (s : State) : Host.Outcome State Fault Refusal :=
  onCh k s (fun dv c =>
    let x := c.port p.val
    if c.domUp 7 ∧ ((x.st = 3 ∧ (x.bowDue ∨ x.bowAt + 1000 ≤ dv.time)) ∨ (x.st = 4 ∧ x.bowDue)) then
      (c.setPort p.val { x with bowDue := false, bowAt := dv.time, giveBack := [] }).sendFrame p.val (.bow (c.ownBow p.val))
    else c)

/-- Coordinate of the neighbour in a dimension of n positions: + for an even port (R34). -/
def stepCoord (x n : Nat) (plus : Bool) : Nat := if plus then (x + 1) % n else (x + n - 1) % n

/-- Device number of the neighbour through port p (R34). -/
def Chan.neighbour (c : Chan) (p : Nat) : Nat :=
  let own := c.devNo
  let x := bitsOf own 10 6
  let y := bitsOf own 5 5
  let z := bitsOf own 0 5
  let x := if p / 2 = 0 then stepCoord x (c.seenFld F.chPlaneNxm1 + 1) (p % 2 == 0) else x
  let y := if p / 2 = 1 then stepCoord y (c.seenFld F.chPlaneNym1 + 1) (p % 2 == 0) else y
  let z := if p / 2 = 2 then stepCoord z (c.seenFld F.chPlaneNzm1 + 1) (p % 2 == 0) else z
  x * 1024 + y * 32 + z

/-- The first check of R452 that a Bow fails, 0 for none. -/
def Chan.bowReason (c : Chan) (p : Nat) (b : Bow) : Nat :=
  let x := c.port p
  let both := b.pvalid && c.flag F.chPlaneValid
  if b.plane.toNat ≠ c.idx then 1
  else if b.port.toNat ≠ (if p % 2 = 0 then p + 1 else p - 1) then 2
  else if c.flag (F.fbPcfgChkcoord p) ∧ both ∧ b.dev.toNat ≠ c.neighbour p then 3
  else if both ∧ (b.nxm1.toNat ≠ c.fld F.chPlaneNxm1 ∨ b.nym1.toNat ≠ c.fld F.chPlaneNym1 ∨ b.nzm1.toNat ≠ c.fld F.chPlaneNzm1) then 4
  else if c.flag (F.fbPcfgChkdig p) ∧ b.digest ≠ c.rd (F.fbExpdigDigest p).off then 5
  else if b.cap.extractLsb' 24 8 ≠ 1 ∨ b.cap.extractLsb' 20 4 ≠ 4 then 6
  else if b.serial = Config.serial then 7
  else if x.replay ≠ [] ∧ (x.peer ≠ some b.serial ∨ b.seqValid = false) then 8
  else 0

/-- Credits of a virtual channel on entering ACTIVE (R442). -/
def startCredits (b : Bow) (l : List TxFrame) (j : Nat) : Nat :=
  [b.rxcap0.toNat, b.rxcap1.toNat, b.rxcap2.toNat, b.rxcap3.toNat].getD j 0
    - (l.map (fun f => (slotCounts f.slots).getD j 0)).foldl (· + ·) 0

/-- What BOWOK settles (R442, R453): frames up to ACKD are released, those after RCVD go again, credits start, and with an empty
replay buffer numbering goes on from RCVD (log entry 31). -/
def Chan.bowOk (c : Chan) (now p : Nat) (b : Bow) : Chan :=
  let c := if b.seqValid then c.portAck now p b.ackd else c
  let x := c.port p
  let again := x.replay.drop (ackCount x b.rcvd)
  c.setPort p { x with
    peer := some b.serial, resend := again.map (fun f => f.seq),
    txSeq := if x.replay.isEmpty then b.rcvd + 1 else x.txSeq,
    credits := (List.range 4).foldl (fun t j => tblPut t j (startCredits b again j) 0) [] }

/-- BOW_FRAME_RECEIVE: the partner's fields are kept; in state BOW the checks of R452 are made. DESIGN CHOICE (log entry 31): a Bow that arrives
once the port is ACTIVE is not judged again. -/
def execBowFrameReceive (k : Ch) (p : PortId) (b : Bow) (s : State) : Host.Outcome State Fault Refusal :=
  onCh k s (fun dv c =>
    if ((c.port p.val).st ≠ 3 ∧ c.takesFrames p.val = false) ∨ c.domUp 7 = false then c
    else
      let c := c.countCheck p.val b.chk
      if !FrameGood b.chk then (if c.takesFrames p.val then c.badFrame p.val else c)
      else
        let c := ((c.wr (F.fbPeersnSerial p.val).off b.serial).wr (F.fbPeerdigDigest p.val).off b.digest).wr (F.fbPeerDev p.val).off
          (BitVec.ofNat 64 (b.dev.toNat <<< 48 + b.plane.toNat <<< 44 + b.port.toNat <<< 40 + b.cap.toNat))
        if (c.port p.val).st ≠ 3 then c else
        match c.bowReason p.val b with
        | 0 =>
          let x := c.port p.val
          let c := c.setPort p.val { x with got := true, bowDue := x.bowDue || !x.got }
          if b.got then (c.bowOk dv.time p.val b).pulse p.val 7 else c
        | r => ((c.setFld (F.fbPstatBowfail p.val) r).pulse p.val 8).raise (449 + 8 * p.val))

/-! ## Commands of a port, and the epoch (R436, R453, R460) -/

/-- DISCARD (R453): in DOWN or DETECT every replay slot is freed. -/
def Chan.discardPort (c : Chan) (p : Nat) : Chan :=
  let x := c.port p
  if x.st ≠ 0 ∧ x.st ≠ 1 then c
  else
    let toks := (x.replay.map (fun f => f.slots)).flatten
    let c := (c.setPort p { x with replay := [], resend := [], redata := [] }).addSat (F.fbLossDoubt p) toks.length
    let c := match toks with
      | [] => c
      | sl :: _ => c.first (F.fbDoubttagTag p) sl.tok.tag.toNat
    c.raise (451 + 8 * p)

/-- A write to FB_PCTLp: a change of EN, then CMD (R460). -/
def Chan.pctlWrite (c : Chan) (p : Nat) (w : Word) (lo hi : Nat) : Chan :=
  let was := c.flag (F.fbPctlEn p)
  let c := c.wrFields (F.fbPctlEn p).off w lo hi
  let c := if c.flag (F.fbPctlEn p) = was then c else c.pulse p (if was then 1 else 0)
  if lo ≠ 0 then c
  else match wbits w 0 4 with
    | 1 => c.pulse p 2
    | 2 => c.setPort p { c.port p with wakeCmd := true }
    | 3 => c.discardPort p
    | _ => c

/-- PORT_ENABLE. -/
def execPortEnable (k : Ch) (p : Party) (q : PortId) (w : Word) (s : State) : Host.Outcome State Fault Refusal :=
  onCh k s (fun _ c => c.regWrite p (F.fbPctlEn q.val).off w (fun c => c.pctlWrite q.val w 0 64))

/-- PORT_DISABLE. -/
def execPortDisable (k : Ch) (p : Party) (q : PortId) (w : Word) (s : State) : Host.Outcome State Fault Refusal :=
  onCh k s (fun _ c => c.regWrite p (F.fbPctlEn q.val).off w (fun c => c.pctlWrite q.val w 0 64))

/-- FORCEDOWN. -/
def execForcedown (k : Ch) (p : Party) (q : PortId) (w : Word) (s : State) : Host.Outcome State Fault Refusal :=
  onCh k s (fun _ c => c.regWrite p (F.fbPctlEn q.val).off w (fun c => c.pctlWrite q.val w 0 64))

/-- WAKE. -/
def execWake (k : Ch) (p : Party) (q : PortId) (w : Word) (s : State) : Host.Outcome State Fault Refusal :=
  onCh k s (fun _ c => c.regWrite p (F.fbPctlEn q.val).off w (fun c => c.pctlWrite q.val w 0 64))

/-- DISCARD. -/
def execDiscard (k : Ch) (p : Party) (q : PortId) (w : Word) (s : State) : Host.Outcome State Fault Refusal :=
  onCh k s (fun _ c => c.regWrite p (F.fbPctlEn q.val).off w (fun c => c.pctlWrite q.val w 0 64))

/-- A write to NT_EPOCH (R436): the VALID bits first, a clear of the current copy's ignored; then CUR, one that names a copy with
VALID 0 ignored. Tokens routed in the XCLK of the write still carry the old epoch (R435). -/
def Chan.epochWrite (c : Chan) (w : Word) (hi : Nat) : Chan :=
  if hi < 64 then c
  else
    let cur := c.fld F.ntEpochCur
    let c := c.keepSeen F.ntEpochCur.off
    let c := if wbit w 61 || cur ≠ 0 then c.setFld F.ntEpochValid0 (wbits w 61 1) else c
    let c := if wbit w 62 || cur ≠ 1 then c.setFld F.ntEpochValid1 (wbits w 62 1) else c
    let e := wbits w 63 1
    if e ≠ cur ∧ c.epochValid e then
      let c := c.setFld F.ntEpochCur e
      ({ c with net := { c.net with flip := true } } : Chan).epochCheck
    else c

/-- NT_EPOCH_WRITE. -/
def execNtEpochWrite (k : Ch) (p : Party) (w : Word) (s : State) : Host.Outcome State Fault Refusal :=
  onCh k s (fun _ c => c.regWrite p 0x1C000 w (fun c => c.epochWrite w 64))

end Sys2Proof.Machine
end

