-- ==== Sys2Proof/Machine/Gddr7.lean ====
section
/-! DEFINITION. The GDDR7 controller: requests, training, temperature, scrub and row repair (R389 to R419, R686). -/

namespace Sys2Proof.Machine

/-! ## Requests (R390, R398 to R401) -/

/-- GDDR7_REQUEST_ACCEPT: the request delivered to the controller, one in an MCLK (R398); held while the memory trains or is in self-refresh,
unmapped outside the usable range. -/
def execGddr7RequestAccept (k : Ch) (s : State) : Host.Outcome State Fault Refusal :=
  onCh k s (fun dv c =>
    match c.arrived tileDram 5 with
    | some { pay := .req r, .. } =>
      let a := r.addr.toNat
      if !c.domUp 6 then c
      else if c.range a ≠ .dram ∨ c.range (a + r.size - 1) ≠ .dram then
        ((c.takeArrived tileDram 5).countCause 0x28).causeFor c.xclk r 0x28 (detail28 a)
      else if c.dmOpen = false ∨ dmQueue ≤ c.dm.acc.length then c
      else
        let c := (c.takeArrived tileDram 5).dmTake dv.time
        { c with dm := { c.dm with acc := c.dm.acc ++ [{ req := r, at_ := c.dm.mclk }] } }
    | _ => c)

/-- A request touches a line that an earlier one touches (R398). -/
def sameLine (r q : Req) : Bool := lineMeet r.addr.toNat r.size q.addr.toNat q.size

/-- Carries out an accepted request (R359, R362, R397 to R400): a load or an atomic reads its lines, a store those that it covers in part; what
is written stands in the write buffer. -/
def Chan.dmServe (c : Chan) (r : Req) (errs : LineErrs) : Chan :=
  let a := r.addr.toNat
  let c := if r.kind = .st then c.dmMerge c.xclk errs a r.size else c.dmRead c.xclk errs a r.size
  match c.memOp r false with
  | (c, o0, o1) => (if r.kind = .ld then c else c.dmWrote a r.size).reply (unitAt tileDram) r.reply o0 o1

/-- Accepted request i may be carried out: no earlier one touches a line of it, and where one has waited 2,048 MCLK it is such a one; a load or
an atomic that has not waits for fills, Cut-in and walks (R398, R401). -/
def Chan.dmMay (c : Chan) (i : Nat) (q : Acpt) : Bool :=
  !(c.dm.acc.take i).any (fun p => sameLine q.req p.req)
    && (c.dmAged q || (!c.dm.acc.any (fun p => c.dmAged p) && (q.req.kind == .st || c.dmFree)))

/-- The memory is placed in reset: its contents and mode registers are lost (R686). -/
def Chan.dmLose (c : Chan) : Chan :=
  { c with
    mem := c.mem.filter (fun e => decide (e.1 < dramBase)), poison := c.poison.filter (fun a => decide (a < dramBase)),
    dm := { c.dm with acc := [], inq := [], wbuf := [], checks := [], checkMem := [], train := none, ended := none, modes := [], saved := false, scrubLine := 0,
                      rowCorr := [], rowBad := [], powerDown := false, selfRefresh := false, stopDue := false } }

/-- The controller stops: the memory is lost, and STATE is IDLE (R686). -/
def Chan.dmStop (c : Chan) : Chan := c.dmLose.setFld F.dmTrstatState 0

/-- A controller that is to stop does so once it is READY and its accepted requests are finished (R686). -/
def Chan.dmStopIf (c : Chan) : Chan := if c.dm.stopDue ∧ c.dmState = 2 ∧ c.dm.acc = [] then c.dmStop else c

/-- GDDR7_REQUEST_COMPLETE: accepted request i, with what the codes of its lines find. -/
def execGddr7RequestComplete (k : Ch) (i : Nat) (errs : LineErrs) (s : State) : Host.Outcome State Fault Refusal :=
  onCh k s (fun dv c =>
    match c.dm.acc[i]? with
    | none => c
    | some q =>
      if c.dmState ≠ 2 ∨ c.dmMay i q = false then c
      else (({ c with dm := { c.dm with acc := dropNth c.dm.acc i, idleSince := dv.time } } : Chan).dmServe q.req errs).dmStopIf)

/-- GDDR7_POWER_DOWN (R410, R587): 1 µs without a request, in C1 or C2. -/
def execGddr7PowerDown (k : Ch) (s : State) : Host.Outcome State Fault Refusal :=
  onCh k s (fun dv c =>
    if (c.pw.cst = 1 ∨ c.pw.cst = 2) ∧ c.dm.acc = [] ∧ c.dm.inq = [] ∧ (c.arrived tileDram 5).isNone ∧ c.dm.touched = false ∧ c.dm.idleSince + 100 ≤ dv.time ∧ c.domUp 6 then
      { c with dm := { c.dm with powerDown := true } }
    else c)

/-! ## Enable and disable (R392, R686) -/

/-- A training program starts at a step (R405, R406). -/
def Chan.trainStart (c : Chan) (time : Nat) (periodic : Bool) : Chan :=
  let ws := (List.range 256).map (fun i => c.rd (F.dmTrstepOp i).off)
  let st := if periodic then c.fld F.dmTrcfgPer else c.fld F.dmTrcfgStart
  { c with dm := { c.dm with train := some { modes0 := c.dm.modes, saved0 := c.dm.saved, step := st, periodic := periodic, words := ws,
                                             since := time, stepAt := time }, ended := none } }

/-- EN is written 0 (R686): a program that runs ends after its present step, and a memory that is READY stops once its accepted requests are
finished; in SELFREF it waits for the wake. -/
def Chan.dmDisable (c : Chan) : Chan :=
  match c.dm.train with
  | some t => { c with dm := { c.dm with train := some { t with stop := true } } }
  | none =>
    if c.dmState = 2 ∨ c.dmState = 4 then ({ c with dm := { c.dm with stopDue := true } }).dmStopIf else c.dmStop

/-- A write of DM_CFG (R392, R411, R686). -/
def Chan.dmCfgWriteOp (c : Chan) (dv : Dev) (w : Word) (lo hi : Nat) : Chan :=
  let was := c.flag F.dmCfgEn
  let d := c.wrFields 0x1A000 w lo hi
  if d.flag F.dmCfgEn && !was then
    (if [24, 28, 32, 36].contains (d.fld F.dmCfgRate) && decide (d.fld F.dmCfgDens ≤ 2) then
       (d.dmLose.setFld F.dmTrstatState 1).trainStart dv.time false
     else d.setFld F.dmCfgEn 0)
  else if was && !d.flag F.dmCfgEn then d.dmDisable
  else d

/-- DM_ENABLE. -/
def execDmEnable (k : Ch) (p : Party) (w : Word) (s : State) : Host.Outcome State Fault Refusal :=
  onCh k s (fun dv c => c.regWrite p 0x1A000 w (fun c => c.dmCfgWriteOp dv w 0 64))

/-- DM_DISABLE. -/
def execDmDisable (k : Ch) (p : Party) (w : Word) (s : State) : Host.Outcome State Fault Refusal :=
  onCh k s (fun dv c => c.regWrite p 0x1A000 w (fun c => c.dmCfgWriteOp dv w 0 64))

/-! ## Training (R405, R406) -/

/-- The word of the present step. -/
def Training.word (t : Training) : Word := t.words.getD t.step 0
def Training.op (t : Training) : Nat := wbits t.word 56 8
def Training.a (t : Training) : Nat := wbits t.word 48 8
def Training.b (t : Training) : Nat := wbits t.word 32 16
def Training.c (t : Training) : Nat := wbits t.word 0 32

/-- The program ends with a failure: a periodic one leaves the settings before it in place (R406). -/
def Chan.trainLost (c : Chan) (t : Training) : Chan :=
  { c with dm := { c.dm with train := none, ended := some (.failure t.periodic t.since),
                             modes := if t.periodic then t.modes0 else c.dm.modes, saved := if t.periodic then t.saved0 else c.dm.saved } }

/-- The present step fails (R406, R413): its program restarts, up to RETRY times; a reserved step fails at once. Fuel bounds the
restarts. -/
def Chan.trainFail (c : Chan) (time : Nat) (t : Training) : Nat → Chan
  | 0 => c
  | n + 1 =>
    let c := c.setFld F.dmTrstatFailstep t.step
    if c.fld F.dmTrcfgRetry ≤ t.fails then c.trainLost t
    else
      let t := { t with fails := t.fails + 1, step := if t.periodic then c.fld F.dmTrcfgPer else c.fld F.dmTrcfgStart, stepAt := time }
      if 0x0C < t.op then c.trainFail time t n else { c with dm := { c.dm with train := some t } }

/-- The present step ends: well, and the next one begins, or badly; a program that is to stop ends with it (R686). -/
def Chan.trainNext (c : Chan) (time : Nat) (t : Training) (ok : Bool) : Chan :=
  if t.stop then c.dmStop
  else if ok then
    let t := { t with step := (t.step + 1) % 256, stepAt := time }
    if 0x0C < t.op then c.trainFail time t 17 else { c with dm := { c.dm with train := some t } }
  else c.trainFail time t 17

/-- Memory devices fitted: one, or two in a clamshell pair (R411). -/
def Chan.dmDevs (c : Chan) : List Nat := if c.flag F.dmCfgTopo then [0, 1] else [0]

/-- What a mode register of a device reads as. -/
def Chan.modeReg (c : Chan) (d a : Nat) : Nat := ((tblFind c.dm.modes (d * 256 + a)).getD (Config.modeReg c.idx (d * 256 + a))).toNat

/-- The devices that B[1:0] of an MRW step selects; none makes the step fail (R406). -/
def Chan.mrwDevs (c : Chan) (t : Training) : Option (List Nat) :=
  let sel := t.b % 4
  if sel = 3 ∨ (sel = 2 ∧ c.flag F.dmCfgTopo = false) then none else some (if sel = 0 then c.dmDevs else [sel - 1])

/-- MRW writes its mode register. -/
def Chan.mrw (c : Chan) (t : Training) (devs : List Nat) : Chan :=
  { c with dm := { c.dm with modes := devs.foldl (fun m d => tblIns m (d * 256 + t.a) (BitVec.ofNat 16 (t.c % 2 ^ 16))) c.dm.modes } }

/-- What the step of a program does, and whether it passes (R406); ok is what the memory answers to it. -/
def Chan.doStep (c : Chan) (t : Training) (ok : Bool) : Chan × Bool :=
  match t.op with
  | 0x01 => (match c.mrwDevs t with | none => (c, false) | some ds => (c.mrw t ds, true))
  | 0x02 => (c, c.dmDevs.all (fun d => (c.modeReg d t.a &&& t.b) == (t.c &&& t.b)))
  | 0x03 => (c, true)
  | 0x04 | 0x05 | 0x06 | 0x07 | 0x08 | 0x09 => (c, ok)
  | 0x0A => ({ c with dm := { c.dm with saved := true } }, true)
  | 0x0B => (c, ok && c.dm.saved)
  | 0x0C =>
    let row : RowId := ⟨t.a.testBit 4, Fin.ofNat 16 t.a, BitVec.ofNat 18 t.c⟩
    (if ok then { c with dm := { c.dm with hard := c.dm.hard ++ [row] } } else c, ok)
  | _ => (c, false)

/-- The program ends with success (R406). -/
def Chan.trainDone (c : Chan) (t : Training) : Chan :=
  if t.stop then c.dmStop else { c with dm := { c.dm with train := none, ended := some (.success t.periodic t.since) } }

/-- A command of a training step acts when that step is the present one; a program whose first step is reserved fails. -/
def Chan.onStep (c : Chan) (time op : Nat) (go : Training → Chan → Chan) : Chan :=
  match c.dm.train with
  | none => c
  | some t => if 0x0C < t.op then c.trainNext time t false else if t.op = op then go t c else c

/-- The present step, where it is the step op, is carried out, and the program goes on. -/
def Chan.stepBy (c : Chan) (time op : Nat) (ok : Bool) : Chan :=
  c.onStep time op (fun t c => (c.doStep t ok).1.trainNext time t (c.doStep t ok).2)

/-- TRAIN_END. -/
def execTrainEnd (k : Ch) (s : State) : Host.Outcome State Fault Refusal :=
  onCh k s (fun dv c => c.onStep dv.time 0x00 (fun t c => c.trainDone t))

/-- MRW (R406). -/
def execMrw (k : Ch) (s : State) : Host.Outcome State Fault Refusal := onCh k s (fun dv c => c.stepBy dv.time 0x01 true)

/-- CHECK (R406). -/
def execCheck (k : Ch) (s : State) : Host.Outcome State Fault Refusal := onCh k s (fun dv c => c.stepBy dv.time 0x02 true)

/-- WAIT (R406): it ends once C ns have passed since it began. -/
def execTrainWait (k : Ch) (s : State) : Host.Outcome State Fault Refusal :=
  onCh k s (fun dv c => c.onStep dv.time 0x03 (fun t c =>
    if t.stepAt + (t.c + 9) / 10 ≤ dv.time then c.stepBy dv.time 0x03 true else c))

/-- ZQ (R406), with its outcome. -/
def execZq (k : Ch) (ok : Bool) (s : State) : Host.Outcome State Fault Refusal := onCh k s (fun dv c => c.stepBy dv.time 0x04 ok)

/-- WCK (R406). -/
def execWck (k : Ch) (ok : Bool) (s : State) : Host.Outcome State Fault Refusal := onCh k s (fun dv c => c.stepBy dv.time 0x05 ok)

/-- RDTRAIN (R406). -/
def execRdtrain (k : Ch) (ok : Bool) (s : State) : Host.Outcome State Fault Refusal := onCh k s (fun dv c => c.stepBy dv.time 0x06 ok)

/-- WRTRAIN (R406). -/
def execWrtrain (k : Ch) (ok : Bool) (s : State) : Host.Outcome State Fault Refusal := onCh k s (fun dv c => c.stepBy dv.time 0x07 ok)

/-- VREF (R406). -/
def execVref (k : Ch) (ok : Bool) (s : State) : Host.Outcome State Fault Refusal := onCh k s (fun dv c => c.stepBy dv.time 0x08 ok)

/-- LEVELS (R406). -/
def execLevels (k : Ch) (ok : Bool) (s : State) : Host.Outcome State Fault Refusal := onCh k s (fun dv c => c.stepBy dv.time 0x09 ok)

/-- SAVE (R406). -/
def execTrainSave (k : Ch) (s : State) : Host.Outcome State Fault Refusal := onCh k s (fun dv c => c.stepBy dv.time 0x0A true)

/-- DELTA (R406): it fails where a pin needs more than A steps, or with no reference saved. -/
def execDelta (k : Ch) (ok : Bool) (s : State) : Host.Outcome State Fault Refusal := onCh k s (fun dv c => c.stepBy dv.time 0x0B ok)

/-- HPPR (R406). -/
def execHppr (k : Ch) (ok : Bool) (s : State) : Host.Outcome State Fault Refusal := onCh k s (fun dv c => c.stepBy dv.time 0x0C ok)

/-- A periodic program is due (R405): its period has passed, or the memory's temperature has moved. -/
def Chan.trainDue (c : Chan) (time : Nat) : Bool :=
  (c.fld F.dmTrcfgPeriod != 0 && decide (c.dm.lastTrain + c.fld F.dmTrcfgPeriod * 100000 ≤ time))
    || decide (c.fld F.dmTrcfgTdelta ≤ 2 * ((BitVec.ofNat 8 (c.fld F.dmRefTemp)).toInt - c.dm.trainTemp.toInt).natAbs)

/-- The write buffer is drained. -/
def Chan.drainBuf (c : Chan) : Chan := { c with dm := { c.dm with wbuf := [] } }

/-- PERIODIC_TRAINING (R405): once the accepted requests are finished, and with the write buffer drained. -/
def execPeriodicTraining (k : Ch) (s : State) : Host.Outcome State Fault Refusal :=
  onCh k s (fun dv c =>
    if c.dmState = 2 ∧ c.dm.acc = [] ∧ c.trainDue dv.time then (c.drainBuf.setFld F.dmTrstatState 3).trainStart dv.time true else c)

/-- The length of a periodic program in units of 10 ns (R413). -/
def trainLen (now since : Nat) : Nat := min 0xFFFF (now - since)

/-- The memory is in service with the temperature at hand (R405). -/
def Chan.trained (c : Chan) (time : Nat) : Chan :=
  { c.setFld F.dmTrstatState 2 with
    dm := { c.dm with ended := none, lastTrain := time, trainTemp := BitVec.ofNat 8 (c.fld F.dmRefTemp), selfRefresh := false } }

/-- What the outcome of a program leads to (R392, R406, R686). -/
def Chan.trainOver (c : Chan) (time : Nat) : Chan :=
  match c.dm.ended with
  | none => c
  | some (.success false _) => c.trained time
  | some (.failure false _) =>
    (({ c with dm := { c.dm with ended := none } }).setFld F.dmCfgEn 0).setFld F.dmTrstatState 5 |>.raise 20
  | some (.success true t) => (((c.wrapInc F.dmTrstatRetrains).setFld F.dmTrstatLastlen (trainLen time t)).trained time).dmStopIf
  | some (.failure true t) =>
    ((((c.wrapInc F.dmTrstatRetrains).setFld F.dmTrstatLastlen (trainLen time t)).trained time).raise 20).dmStopIf

/-- TRAINING_PROGRAM_COMPLETE. -/
def execTrainingProgramComplete (k : Ch) (s : State) : Host.Outcome State Fault Refusal :=
  onCh k s (fun dv c => c.trainOver dv.time)

/-- A whole program as one course (R606, step 8): the memory does not carry out the steps of bad. Fuel bounds its steps. -/
def Chan.runProgram (c : Chan) (time : Nat) (bad : Nat → Bool) : Nat → Chan
  | 0 => c
  | n + 1 =>
    match c.dm.train with
    | none => c
    | some t =>
      if 0x0C < t.op then (c.trainNext time t false).runProgram time bad n
      else if t.op = 0 then c.trainDone t
      else ((c.doStep t (!bad t.step)).1.trainNext time t (c.doStep t (!bad t.step)).2).runProgram time bad n

/-- Steps that a start-up program can take with its restarts. -/
def programFuel : Nat := 256 * 16

/-! ## Refresh, scrub and repair (R402, R407 to R409) -/

/-- REFRESH (R407): a per-bank refresh, which changes nothing that the channel sees. -/
def execRefresh (k : Ch) (_b : DramBank) (s : State) : Host.Outcome State Fault Refusal := onCh k s (fun _ c => c)

/-- The refresh multiplier for a temperature (R407, R414). -/
def Chan.refMult (c : Chan) (temp : BitVec 8) : Nat :=
  if (BitVec.ofNat 8 (c.fld F.dmRefT2)).toInt < temp.toInt then 2
  else if (BitVec.ofNat 8 (c.fld F.dmRefT1)).toInt < temp.toInt then 1 else 0

/-- MEMORY_TEMPERATURE_READ (R407). -/
def execMemoryTemperatureRead (k : Ch) (temp : BitVec 8) (s : State) : Host.Outcome State Fault Refusal :=
  onCh k s (fun _ c =>
    if c.dmState = 2 then (c.setFld F.dmRefTemp temp.toNat).setFld F.dmRefMult (c.refMult temp) else c)

/-- Corrected lines found in a row in this pass. -/
def rowCount (l : List (RowId × Nat)) (r : RowId) : Nat := match l.find? (fun e => e.1 == r) with | some e => e.2 | none => 0

/-- A scrub finds a corrected line in a row (R409). -/
def Chan.rowCorrected (c : Chan) (r : RowId) : Chan :=
  let n := rowCount c.dm.rowCorr r + 1
  let c := { c with dm := { c.dm with rowCorr := (r, n) :: c.dm.rowCorr.filter (fun e => e.1 != r) } }
  if max 1 (c.fld F.dmPprThresh) ≤ n then c.rowCandidate r else c

/-- A scrub pass finds an uncorrectable line in a row: the service firmware counts the passes that did (R645). -/
def Chan.rowUncorr (c : Chan) (r : RowId) : Chan :=
  let pass := c.fld F.dmScrubPasses
  match c.dm.rowUnc.find? (fun e => e.1 == r) with
  | none => { c with dm := { c.dm with rowUnc := c.dm.rowUnc ++ [(r, pass, 1)] } }
  | some e =>
    if e.2.1 = pass then c
    else { c with dm := { c.dm with rowUnc := (r, pass, e.2.2 + 1) :: c.dm.rowUnc.filter (fun e => e.1 != r) } }

/-- An uncorrectable line found by scrub: as R397 says, counted in SCRUBUNCORR (R408). -/
def Chan.scrubUncorr (c : Chan) (now a : Nat) : Chan :=
  let c := c.rowUncorr (c.rowId a)
  let n := c.fld F.dmEccstatUncorr
  ((((c.dmUncorr a).setFld F.dmEccstatUncorr n).inc F.dmEccstatScrubuncorr).lineLost now a).rowCandidate (c.rowId a)

/-- The scrub moves to the next line; after the last, a pass is complete (R408). -/
def Chan.scrubNext (c : Chan) : Chan :=
  if c.dm.scrubLine + 1 < c.dramSize / 64 then { c with dm := { c.dm with scrubLine := c.dm.scrubLine + 1 } }
  else ({ c with dm := { c.dm with scrubLine := 0, rowCorr := [] } }).wrapInc F.dmScrubPasses

/-- ACLK periods in an hour (R9). -/
def aclkHour : Nat := 3600 * 100000000

/-- The scrub may read its next line (R401, R408): it is enabled, no request, no access of the internal port, no line of the write buffer and
no request at the controller's input waits, and a new pass starts no sooner than PERIOD hours after the pass before, where 0 acts as 1 (R415). -/
def Chan.scrubDue (c : Chan) (time : Nat) : Bool :=
  c.flag F.dmScrubEn && c.dmOpen && c.dmFree && c.dm.inq.isEmpty && c.dm.acc.isEmpty && c.dm.wbuf.isEmpty && (c.arrived tileDram 5).isNone
    && (c.dm.scrubLine != 0 || decide (c.dm.scrubAt ≤ time))

/-- A pass starts with its first line. -/
def Chan.scrubStart (c : Chan) (time : Nat) : Chan :=
  if c.dm.scrubLine = 0 then { c with dm := { c.dm with scrubAt := time + max 1 (c.fld F.dmScrubPeriod) * aclkHour } } else c

/-- PATROL_SCRUB_READ (R408): the next line, with what its code finds. -/
def execPatrolScrubRead (k : Ch) (e : Ecc) (s : State) : Host.Outcome State Fault Refusal :=
  onCh k s (fun dv c =>
    let a := dramBase + 64 * c.dm.scrubLine
    if !c.scrubDue dv.time then c
    else
      let c := (c.scrubStart dv.time).dmTake dv.time
      let c := match e with
        | .clean => c.checkUse a false
        | .corrected => ((c.checkUse a true).inc F.dmEccstatScrubcorr).rowCorrected (c.rowId a)
        | .uncorrectable => c.scrubUncorr c.xclk a
      c.scrubNext)

/-- ROW_REPAIR (R409): a candidate row; ok while soft repair resources are left. The copy to the holding buffer, the repair and the copy back
are one step, so that no access meets the row meanwhile. -/
def execRowRepair (k : Ch) (row : RowId) (ok : Bool) (s : State) : Host.Outcome State Fault Refusal :=
  onCh k s (fun _ c =>
    if !c.dm.rowBad.contains row || !c.flag F.dmPprSoften || c.dmState != 2 then c
    else
      let c := { c with dm := { c.dm with rowBad := c.dm.rowBad.filter (fun r => r != row) } }
      let c := if ok then
          ((({ c with dm := { c.dm with repaired := c.dm.repaired ++ [row] } }.setFld F.dmPprBank row.bank.val).setFld F.dmPprDev (b2n row.dev)).setFld F.dmPprRow row.row.toNat).inc F.dmPprUsed
        else c.setFld F.dmPprExhausted 1
      c.raise 22)

end Sys2Proof.Machine
end

