-- ==== Sys2Proof/Machine/Shuffle.lean ====
section
/-! DEFINITION. The Shuffle of every array (R363 to R368, R386 to R388, R648). The contents of the scratchpad's regions and copies are cells of
memory (Chan.spots). DESIGN CHOICE (log entry 46): the words of the other arrays are held once, in their unit's own state, since every write survives
the restore (R366, R368); their Shuffle has its steps, its copies in use and its XCLK alone. -/

namespace Sys2Proof.Machine

/-- The number of an array among the 384 of a channel. -/
def arrKey : Arr → Nat
  | .scratch b => b.val
  | .lock g => 64 + g.val
  | .matching t => 128 + t.val
  | .prog s b => 192 + 32 * s.val + b.val
  | .queue b => 320 + b.val

/-- Regions of 256 bytes of an array (R364, R368): of a scratchpad bank, a lock group, a matching bank, a program store bank
and a queue bank. -/
def arrRegions : Arr → Nat
  | .scratch _ => 384
  | .lock _ => 2
  | .matching _ => 192
  | .prog _ _ => 64
  | .queue _ => 45

/-- Regions of the array with a number (R364, R368). -/
def keyRegions (i : Nat) : Nat := if i < 64 then 384 else if i < 128 then 2 else if i < 192 then 192 else if i < 320 then 64 else 45

def Chan.shuf (c : Chan) (a : Arr) : Shuf := tblGet c.sp.shuf (arrKey a) {}
def Chan.setShuf (c : Chan) (a : Arr) (x : Shuf) : Chan := { c with sp := { c.sp with shuf := tblPut c.sp.shuf (arrKey a) x {} } }

/-- MEM is powered and not in retention (R363, R364). -/
def Chan.memAwake (c : Chan) : Bool := c.domUp 4 && !(c.dom 4).retention

/-- A region that the repair copy serves is not borrowed again (R367): the next one is, and a pass ends where there is none (R387). -/
def Shuf.skip (x : Shuf) (n : Nat) : Shuf :=
  if x.spare = some x.next then
    (if x.next + 1 = n then { x with next := 0, passes := x.passes + 1 } else { x with next := x.next + 1 })
  else x

/-- The Shuffle of the array has finished with its region: a pass ends with the last one (R387). -/
def Shuf.done (x : Shuf) (n : Nat) : Shuf :=
  let last := x.region + 1 = n
  ({ x with step := 0, prog := 0, next := if last then 0 else x.region + 1, passes := if last then x.passes + 1 else x.passes } : Shuf).skip n

/-- The Shuffle of an array ends what it has borrowed (R363, R366): the region is restored, and the next one is the region after the last one
tested, which REGION then shows (R388). -/
def Shuf.restore (x : Shuf) (n : Nat) : Shuf :=
  if x.step = 0 then x else if x.step = 3 then x.done n else { x with step := 0, prog := 0, next := x.region, region := x.prev }

/-! ## Contents of a scratchpad region (R365 to R367) -/

/-- Beat i of region r of scratchpad bank b goes from the region to the saved copy, or back. -/
def Chan.copyBeat (c : Chan) (b r i : Nat) (back : Bool) : Chan :=
  let a := regionAddr b r (16 * i)
  let s := savedAddr b (16 * i)
  if back then c.moveCells s a 16 else c.moveCells a s 16

/-- All of a region's contents go from the saved copy back to it, or from one copy or place to another. -/
def Chan.restoreAll (c : Chan) (b r : Nat) : Chan := (List.range 16).foldl (fun c i => c.copyBeat b r i true) c

/-- The array's borrowing is ended at once: what the saved copy holds of its region goes back (R363, R366). -/
def Chan.shufEnd (c : Chan) (k : Nat) : Chan :=
  let x := tblGet c.sp.shuf k {}
  let c := if k < 64 ∧ 2 ≤ x.step.toNat then c.restoreAll k x.region else c
  { c with sp := { c.sp with shuf := tblPut c.sp.shuf k (x.restore (keyRegions k)) {} } }

/-- Background XCLK of a step (R365). -/
def stepBeats (s : BitVec 2) : Nat := if s = 2 then 320 else 16

/-- An XCLK of the bank that the Shuffle has: the next beat of its step. -/
def Chan.shufBeat (c : Chan) (k : Nat) (x : Shuf) : Chan :=
  if stepBeats x.step ≤ x.prog then c
  else
    let c := if 64 ≤ k then c
      else if x.step = 1 then c.copyBeat k x.region x.prog false
      else if x.step = 3 then c.copyBeat k x.region x.prog true
      else c
    { c with sp := { c.sp with shuf := tblPut c.sp.shuf k { x with prog := x.prog + 1, used := false, denied := false } {} } }

/-- The Shuffle at the end of an XCLK: it has the XCLK where the bank served no request in it, or after one that it went without (R357). -/
def Chan.shufXclk (c : Chan) (k : Nat) : Chan :=
  let x := tblGet c.sp.shuf k {}
  if x.step = 0 ∨ !c.memAwake then c
  else if x.used ∧ !x.denied then
    { c with sp := { c.sp with shuf := tblPut c.sp.shuf k { x with used := false, denied := true } {} } }
  else c.shufBeat k x

/-- PERIOD in ACLK periods: a value below 100 ms acts as 100 (R386). -/
def Chan.shufPeriod (c : Chan) : Nat := max 100 (c.fld F.spShufPeriod) * 100000

/-- MEM is on its way down: the Shuffle borrows no region (R363). -/
def Chan.memGoing (c : Chan) : Bool := match tblFind c.pw.progs 4 with | some g => !g.up && g.undo.isNone | none => false

/-- SHUFFLE_REGION_START (R364, R365, R386): the array borrows its next region, one in each PERIOD / regions; the copy step begins. -/
def execShuffleRegionStart (k : Ch) (a : Arr) (s : State) : Host.Outcome State Fault Refusal :=
  onCh k s (fun dv c =>
    let x := c.shuf a
    if c.flag F.spShufEn ∧ c.memAwake ∧ !c.memGoing ∧ x.step = 0 ∧ x.halted = false ∧ x.dueAt ≤ dv.time then
      c.setShuf a { x with step := 1, prog := 0, region := x.next, prev := x.region, dueAt := dv.time + c.shufPeriod / arrRegions a }
    else c)

/-- SHUFFLE_COPY_COMPLETE (R365): every beat has been copied. -/
def execShuffleCopyComplete (k : Ch) (a : Arr) (s : State) : Host.Outcome State Fault Refusal :=
  onCh k s (fun _ c =>
    let x := c.shuf a
    if x.step = 1 ∧ 16 ≤ x.prog ∧ c.memAwake then c.setShuf a { x with step := 2, prog := 0 } else c)

/-- A region is found faulty (R367): the repair copy serves it, or the array's Shuffle halts with it in the saved copy. -/
def Shuf.fault (x : Shuf) (n : Nat) : Shuf :=
  match x.spare with
  | none => ({ x with spare := some x.region } : Shuf).done n
  | some _ => { x with step := 0, prog := 0, halted := true, haltAt := x.region }

/-- The contents of a faulty region stay where its accesses find them: with no copy in use yet they move from place p to the repair copy
(R367). -/
def Chan.toRepair (c : Chan) (a : Arr) (p : Nat → Nat) : Chan :=
  match a with
  | .scratch b =>
    if (c.shuf a).spare.isSome then c
    else (List.range 16).foldl (fun c i => c.moveCells (p (16 * i)) (repairAddr b.val (16 * i)) 16) c
  | _ => c

/-- The saved copy of an array, as the place of byte i of the borrowed region. -/
def arrSaved : Arr → Nat → Nat
  | .scratch b, i => savedAddr b.val i
  | _, i => i

/-- SHUFFLE_TEST_COMPLETE (R365, R367): the operations are over; bad where one found a fault. -/
def execShuffleTestComplete (k : Ch) (a : Arr) (bad : Bool) (s : State) : Host.Outcome State Fault Refusal :=
  onCh k s (fun _ c =>
    let x := c.shuf a
    if x.step = 2 ∧ 320 ≤ x.prog ∧ c.memAwake then
      if bad then (((c.toRepair a (arrSaved a)).setShuf a (x.fault (arrRegions a))).inc F.spShufstatFaults).raise 18
      else c.setShuf a { x with step := 3, prog := 0 }
    else c)

/-- SHUFFLE_RESTORE_COMPLETE (R365): every beat has been restored, and the redirect is removed. -/
def execShuffleRestoreComplete (k : Ch) (a : Arr) (s : State) : Host.Outcome State Fault Refusal :=
  onCh k s (fun _ c =>
    let x := c.shuf a
    if x.step = 3 ∧ 16 ≤ x.prog ∧ c.memAwake then c.setShuf a (x.done (arrRegions a)) else c)

/-- A write of SP_SHUFREPn (R648): a borrowing under way in the bank is ended first; the service firmware counts a region for which
no copy is left (R645). -/
def Chan.shufRepair (c : Chan) (p : Party) (b : Tile) (w : Word) : Chan :=
  let x := c.shuf (.scratch b)
  let r := wbits w 0 9
  if p ≠ .service ∨ wbit w 63 = false ∨ 384 ≤ r then c
  else if x.halted then c.setShuf (.scratch b) { x with spent := true }
  else
    let c := c.shufEnd b.val
    let x := c.shuf (.scratch b)
    match x.spare with
    | none => (c.toRepair (.scratch b) (regionAddr b.val r)).setShuf (.scratch b) (({ x with spare := some r } : Shuf).skip 384)
    | some q =>
      if q = r then c
      else ((List.range 16).foldl (fun c i => c.copyBeat b.val r i false) c).setShuf (.scratch b)
        { x with region := r, halted := true, haltAt := r }

/-- SHUFREP_GO. -/
def execShufrepGo (k : Ch) (p : Party) (b : Tile) (w : Word) (s : State) : Host.Outcome State Fault Refusal :=
  onCh k s (fun _ c => c.regWrite p (0x19400 + 8 * b.val) w (fun c => c.shufRepair p b w))

/-- PASSES (R387): passes that every array has completed. -/
def Chan.shufPasses (c : Chan) : Nat :=
  ((List.range 384).map (fun i => (tblGet c.sp.shuf i {}).passes)).min?.getD 0 % 2 ^ 32

/-- SP_SHUFBANKn (R388). -/
def Chan.shufBank (c : Chan) (b : Nat) : Word :=
  let x := tblGet c.sp.shuf b {}
  BitVec.ofNat 64 (x.step.toNat <<< 62 + x.region <<< 48 + b2n x.spare.isSome <<< 47 + (x.spare.getD 0) <<< 32
    + b2n x.halted <<< 31)

end Sys2Proof.Machine
end

