-- ==== Sys2Proof/Machine/CallerOps.lean ====
section
/-! DEFINITION. The caller-only instructions, exception and interrupt entry, waits and results of a caller (R125, R473, R480
to R489, R513 to R517). -/

namespace Sys2Proof.Machine

/-! ## Executing -/

/-- Caller n executes its next instruction when it is op: cause 0x23 where the fetch is denied, else go. -/
def seqStep (dv : Dev) (c : Chan) (n : Nat) (op : Op) (srcs : Word → List Nat) (go : Caller → In → Chan) : Chan :=
  let w := c.callerWord n
  if !c.callerFree n (srcs w) || !isSeqOp op w then c
  else if c.fetchDenied n then c.setCaller n ((c.caller n).except 0x23 0)
  else go (c.caller n) (callerIn c n 0 (Chan.callerSamples dv c n).1)

/-- A caller that starts a window of its own with the instruction at hand (R234). -/
def Caller.boundary (x : Caller) : Caller := { x with wins := closeNewest x.wins }

/-- Effect of BR.cc (R125): a poisoned operand decides control (R49). -/
def seqBrCc (dv : Dev) (c : Chan) (n : Nat) : Chan :=
  seqStep dv c n .brCc srcRegs (fun x i =>
    if i.l.poison || i.r.poison then c.setCaller n (x.except 0x21 0)
    else
      let j := callerIn c n 0 i.smp true
      let way := fun (i : In) => intCond (iOp i.w % 16) i.l.val i.r.val
      callerFinish dv c n x i {} (if way i then iTarget i.w else i.ip + 1) (apart := way i != way j))

/-- BR.cc. -/
def execBrCc (k : Ch) (n : CallerId) (s : State) : Host.Outcome State Fault Refusal :=
  onCh k s (fun dv c => seqBrCc dv c n.val)

/-- JMP (R125). -/
def execJmp (k : Ch) (n : CallerId) (s : State) : Host.Outcome State Fault Refusal :=
  onCh k s (fun dv c =>
    seqStep dv c n.val .jmp (fun _ => []) (fun x i => callerFinish dv c n.val x i {} (iTarget i.w)))

/-- CALL (R125): IP + 1 to RD. -/
def execCall (k : Ch) (n : CallerId) (s : State) : Host.Outcome State Fault Refusal :=
  onCh k s (fun dv c =>
    seqStep dv c n.val .call (fun _ => []) (fun x i =>
      callerFinish dv c n.val x i { r0 := some (mkOpd (BitVec.ofNat 64 ((i.ip + 1) % 2 ^ 16)) 1 false) } (iTarget i.w)))

/-- RET (R125): to RS1[15:0]. -/
def execRet (k : Ch) (n : CallerId) (s : State) : Host.Outcome State Fault Refusal :=
  onCh k s (fun dv c =>
    seqStep dv c n.val .ret srcRegs (fun x i =>
      if i.l.poison then c.setCaller n.val (x.except 0x21 0)
      else callerFinish dv c n.val x i {} (wbits i.l.val 0 16)
        (apart := wbits i.l.val 0 16 != wbits (callerIn c n.val 0 i.smp true).l.val 0 16)))

/-! ## Waiting -/

/-- The CCLK at which a limit of RS1 CCLK passes; 0 is no limit (R488, R514). -/
def Chan.waitLimit (c : Chan) (v : Word) : Option Nat := if v = 0 then none else some (c.cclk + v.toNat)

/-- Effect of WAIT (R488). -/
def seqWait (dv : Dev) (c : Chan) (n : Nat) : Chan :=
  seqStep dv c n .wait (fun w => if (iImm w).testBit 1 then [iRs1 w] else []) (fun x i =>
    let lim := (iImm i.w).testBit 1
    let rq := (iImm i.w).testBit 0
    if lim && i.l.poison then c.setCaller n (x.except 0x21 0)
    else callerFinish dv c n x.boundary i {} (i.ip + 1) (fun y =>
      if (!lim && !rq) || (rq && y.reqs.isEmpty) then y
      else { y with st := .waiting, wait := { reqs := rq, until_ := if lim then c.waitLimit i.l.val else none } }))

/-- WAIT. -/
def execWait (k : Ch) (n : CallerId) (s : State) : Host.Outcome State Fault Refusal :=
  onCh k s (fun dv c => seqWait dv c n.val)

/-- Result word of a WAITEV that takes an entry (R514). -/
def evWord (e : InEntry) : Word := BitVec.ofNat 64 (b2n e.fast <<< 24 + (e.count % 256) <<< 16 + e.src % 1024)
/-- WAKEONLY and TIMEOUT alone (R514, R516). -/
def evWakeOnly : Word := BitVec.ofNat 64 (2 ^ 63)
def evTimeout : Word := BitVec.ofNat 64 (2 ^ 62)

/-- WAITEV returns with a word in RD, as an instruction of a window of its own (R234, R514). -/
def waitevReturn (dv : Dev) (c : Chan) (n : Nat) (x : Caller) (i : In) (v : Word) (took : Option InEntry) : Chan :=
  callerFinish dv c n x.boundary i { r0 := some (mkOpd v 1 false) } (i.ip + 1) (fun y =>
    { y with st := .running, wait := {},
             inbox := match took with | some e => markTaken e (.waitev y.wseq) y.inbox | none => y.inbox })

/-- Effect of WAITEV (R514, R516). A FAST entry that is due as an interrupt is taken at the boundary before it (R515). -/
def seqWaitev (dv : Dev) (c : Chan) (n : Nat) : Chan :=
  seqStep dv c n .waitev (fun w => if (iImm w).testBit 0 && !(iImm w).testBit 1 then [iRs1 w] else []) (fun x i =>
    let lim := (iImm i.w).testBit 0 && !(iImm i.w).testBit 1
    if lim && i.l.poison then c.setCaller n (x.except 0x21 0)
    else if x.interrupt.isSome then c.setCaller n x.boundary
    else
      let take := if x.evMask then none else headEntry x.ready
      match take with
      | some e => waitevReturn dv c n x i (evWord e) (some e)
      | none =>
        if x.evMask && x.wait.woke then waitevReturn dv c n x i evWakeOnly none
        else if (iImm i.w).testBit 1 then waitevReturn dv c n x i evTimeout none
        else c.setCaller n { x.boundary with
               st := .waitev, wait := { until_ := if lim then c.waitLimit i.l.val else none, rd := iRd i.w } })

/-- WAITEV. -/
def execWaitev (k : Ch) (n : CallerId) (s : State) : Host.Outcome State Fault Refusal :=
  onCh k s (fun dv c => seqWaitev dv c n.val)

/-- WAIT_TIME_LIMIT (R488, R514): the limit of a WAIT or WAITEV has passed; the caller asks a channel in C1 or C2 to wake (R581; log entry 33). -/
def execWaitTimeLimit (k : Ch) (n : CallerId) (s : State) : Host.Outcome State Fault Refusal :=
  onCh k s (fun dv c =>
    let x := c.caller n.val
    match x.wait.until_ with
    | none => c
    | some e =>
      let awake := fun (c : Chan) => if c.pw.cst = 0 then c else c.askWake
      if c.cclk < e then c
      else if x.st = .waiting then awake (c.setCaller n.val { x with st := .running, wait := {} })
      else if x.st = .waitev then awake (waitevReturn dv c n.val x (callerIn c n.val 0 default) evTimeout none)
      else c)

/-- FENCE (R489): complete once no earlier access of the classes named is outstanding. -/
def execFence (k : Ch) (n : CallerId) (s : State) : Host.Outcome State Fault Refusal :=
  onCh k s (fun dv c =>
    seqStep dv c n.val .fence (fun _ => []) (fun x i =>
      if x.reqs.any (fun q => decide (q.cls < 4) && (iImm i.w).testBit q.cls) then c
      else callerFinish dv c n.val x i {} (i.ip + 1)))

/-! ## Control and status registers (R486, R517) -/

/-- Access of a party to a CSR. -/
inductive CsrAcc where
  | none | denied | ro | rw
  deriving DecidableEq, Repr

/-- The columns User and Supervisor of R486 and R517; none for a number not listed. NREGk is listed in the fast bank only. -/
def csrAccess (supv fast : Bool) (a : Nat) : CsrAcc :=
  if a = 0x000 ∨ a = 0x002 ∨ a = 0x006 ∨ a = 0x007 then (if supv then .rw else .ro)
  else if a = 0x001 ∨ a = 0x003 ∨ a = 0x004 then (if supv then .rw else .denied)
  else if a = 0x005 ∨ a = 0x040 then .rw
  else if a = 0x008 ∨ a = 0x041 then .ro
  else if 0x100 ≤ a ∧ a < 0x120 then (if !supv then .denied else if fast then .rw else .none)
  else .none

/-- EVPEND (R517). -/
def Caller.evPend (x : Caller) : Word :=
  match headEntry x.inbox with
  | none => 0
  | some e => BitVec.ofNat 64 (x.inbox.length <<< 16 + b2n e.fast <<< 15 + e.src % 1024)

/-- What CSRRD reads. -/
def csrRead (n : Nat) (x : Caller) (a : Nat) : Reg :=
  if 0x100 ≤ a ∧ a < 0x120 then x.bankReg false (a - 0x100)
  else (match a with
    | 0x000 => x.csrs.status.zeroExtend 64
    | 0x001 => x.csrs.epc.zeroExtend 64
    | 0x002 => x.csrs.ecause
    | 0x003 => x.csrs.eval
    | 0x004 => x.csrs.vec.zeroExtend 64
    | 0x005 => x.csrs.fpcsr.zeroExtend 64
    | 0x006 => x.csrs.ctxt
    | 0x007 => x.csrs.ctxexc
    | 0x008 => BitVec.ofNat 64 (n + (x.phys.getD 7) <<< 4)
    | 0x040 => x.csrs.evtgt.zeroExtend 64
    | 0x041 => x.evPend
    | _ => 0, false)

/-- Bits of FPCSR that exist: RM, TE and FLAGS (R51, R486). -/
def fpcsrMask : BitVec 18 := 0x37F7F

/-- What CSRWR writes. -/
def csrWrite (x : Caller) (a : Nat) (v : Reg) : Caller :=
  if 0x100 ≤ a ∧ a < 0x120 then x.bankResult false (a - 0x100) v
  else { x with csrs :=
    match a with
    | 0x000 => { x.csrs with status := v.1.truncate 6 }
    | 0x001 => { x.csrs with epc := v.1.truncate 16 }
    | 0x002 => { x.csrs with ecause := v.1 }
    | 0x003 => { x.csrs with eval := v.1 }
    | 0x004 => { x.csrs with vec := v.1.truncate 16 }
    | 0x005 => { x.csrs with fpcsr := v.1.truncate 18 &&& fpcsrMask }
    | 0x006 => { x.csrs with ctxt := v.1 }
    | 0x007 => { x.csrs with ctxexc := v.1 }
    | 0x040 => { x.csrs with evtgt := v.1.truncate 2 }
    | _ => x.csrs }

/-- The CSR that an instruction names (R486). -/
def csrNo (w : Word) : Nat := iImm w % 4096

/-- CSRRD of NREGk reads a register that an earlier request has yet to write (R473, R486). -/
def nregBusy (x : Caller) (a : Nat) : Bool :=
  decide (0x101 ≤ a) && decide (a < 0x120) && x.reqs.any (fun q => !q.fast && (q.rd == a - 0x100 || q.rd2 == some (a - 0x100)))

/-- Effect of CSRRD. -/
def seqCsrrd (dv : Dev) (c : Chan) (n : Nat) : Chan :=
  seqStep dv c n .csrrd (fun _ => []) (fun x i =>
    match csrAccess x.priv x.fastBank (csrNo i.w) with
    | .none => c.setCaller n (x.except 0x20 (illegalDetail 4 i.w))
    | .denied => c.setCaller n (x.except 0x2C 0)
    | .ro | .rw =>
      let v := csrRead n x (csrNo i.w)
      if nregBusy x (csrNo i.w) then c
      else
        let vf := if 0x100 ≤ csrNo i.w then (tblFind x.follow (followKey false (csrNo i.w - 0x100))).getD v else v
        callerFinish dv c n x i { r0 := some (mkOpd v.1 1 v.2) } (i.ip + 1) (vf := { r0 := some (mkOpd vf.1 1 vf.2) }))

/-- CSRRD. -/
def execCsrrd (k : Ch) (n : CallerId) (s : State) : Host.Outcome State Fault Refusal :=
  onCh k s (fun dv c => seqCsrrd dv c n.val)

/-- Effect of CSRWR: a window of its own, so that it holds for the next instruction (R234, R486). Only NREGk takes POISON. DESIGN CHOICE (log
entry 55): where the Follow would write another value its window fails, as the CSRs themselves are no part of a signature. -/
def seqCsrwr (dv : Dev) (c : Chan) (n : Nat) : Chan :=
  seqStep dv c n .csrwr srcRegs (fun x i =>
    match csrAccess x.priv x.fastBank (csrNo i.w) with
    | .none | .ro => c.setCaller n (x.except 0x20 (illegalDetail 4 i.w))
    | .denied => c.setCaller n (x.except 0x2C 0)
    | .rw =>
      let v : Reg := (i.l.val, i.l.poison)
      if v.2 && decide (csrNo i.w < 0x100) then c.setCaller n (x.except 0x21 0)
      else callerFinish dv c n x.boundary i {} (i.ip + 1) (fun y => (csrWrite y (csrNo i.w) v).boundary)
        (apart := (callerIn c n 0 i.smp true).l.val != i.l.val))

/-- CSRWR. -/
def execCsrwr (k : Ch) (n : CallerId) (s : State) : Host.Outcome State Fault Refusal :=
  onCh k s (fun dv c => seqCsrwr dv c n.val)

/-! ## Exceptions (R481 to R485) -/

/-- STATUS with BANK, PRIV and IE saved in PBANK, PPRIV and PIE, then 1, 1 and 0 (R482). -/
def enterStatus (st : BitVec 6) : BitVec 6 :=
  BitVec.ofNat 6 (b2n (st.getLsbD 4) <<< 5 + 1 <<< 4 + b2n (st.getLsbD 2) <<< 3 + 1 <<< 2 + b2n (st.getLsbD 0) <<< 1)

/-- STATUS with BANK, PRIV and IE from PBANK, PPRIV and PIE, which become 0 as in the worked example (R483; log entry 22). -/
def leaveStatus (st : BitVec 6) : BitVec 6 :=
  BitVec.ofNat 6 (b2n (st.getLsbD 5) <<< 4 + b2n (st.getLsbD 3) <<< 2 + b2n (st.getLsbD 1))

/-- The cause word of R69. -/
def causeWord (cause ip : Nat) (detail : BitVec 32) : Word :=
  BitVec.ofNat 64 (cause <<< 56 + (ip % 2 ^ 16) <<< 32 + detail.toNat)

/-- Exception entry (R482): the registers it saves into, STATUS, and the handler's address. -/
def Caller.enter (x : Caller) (cause ip : Nat) (detail : BitVec 32) (eval : Word) : Caller :=
  { x with st := .running, wait := {},
           csrs := { x.csrs with epc := BitVec.ofNat 16 ip, ecause := causeWord cause ip detail, eval := eval,
                                 status := enterStatus x.csrs.status, ip := x.csrs.vec } }

/-- RFE restores IP, BANK, PRIV and IE (R483). -/
def Caller.leave (x : Caller) : Caller :=
  { x with csrs := { x.csrs with ip := x.csrs.epc, status := leaveStatus x.csrs.status } }

/-- The caller stands at a window boundary at which it may enter a handler. -/
def Caller.atBoundary (x : Caller) : Bool :=
  x.wins.isEmpty && !x.halting && !x.retire && x.standIn.isNone
    && (x.st == .running || x.st == .waiting || x.st == .waitev)

/-- RFE: cause 0x2C at user privilege (R481, R483). -/
def execRfe (k : Ch) (n : CallerId) (s : State) : Host.Outcome State Fault Refusal :=
  onCh k s (fun dv c =>
    seqStep dv c n.val .rfe (fun _ => []) (fun x i =>
      if !x.priv then c.setCaller n.val (x.except 0x2C 0)
      else callerFinish dv c n.val x.boundary i {} (i.ip + 1) Caller.leave))

/-- A double exception (R484): FAULTED, with the cause word in DCAUSE and the inbox returned (R513). -/
def Chan.doubleFault (c : Chan) (n : Nat) (e : PendExc) : Chan :=
  let x := c.caller n
  let c := (c.setCaller n { x with st := .faulted, exc := [], wait := {},
                                   dcause := causeWord e.cause.toNat e.ip.toNat e.detail }).returnInbox n
  let c := c.raise 24
  if n = 0 then c.raiseDev c.idx else c

/-- CALLER_EXCEPTION_ENTRY (R481, R482, R484): the oldest exception due, once every window has committed. Another precise
exception is forgotten with the instruction that raised it. An unmapped access is counted here, once (R352). -/
def execCallerExceptionEntry (k : Ch) (n : CallerId) (s : State) : Host.Outcome State Fault Refusal :=
  onCh k s (fun _ c =>
    let x := c.caller n.val
    match x.exc with
    | [] => c
    | e :: r =>
      if !x.atBoundary then c
      else
        let x := { x with csrs := { x.csrs with fpcsr := x.csrs.fpcsr ||| e.flags.zeroExtend 18 },
                          exc := r.filter (fun q => q.late) }
        let c := (if e.late then c else c.countCause e.cause.toNat).setCaller n.val x
        if x.fastBank then c.doubleFault n.val e
        else (c.setCaller n.val (x.enter e.cause.toNat e.ip.toNat e.detail e.eval)).inc F.ccCntExc)

/-- EVENT_INTERRUPT (R485, R515): a FAST entry is taken at a boundary, when no exception is due. -/
def execEventInterrupt (k : Ch) (n : CallerId) (s : State) : Host.Outcome State Fault Refusal :=
  onCh k s (fun _ c =>
    let x := c.caller n.val
    match x.interrupt with
    | none => c
    | some e =>
      if !x.atBoundary || !x.exc.isEmpty then c
      else
        let y := x.enter 0x30 x.csrs.ip.toNat (BitVec.ofNat 32 (e.count <<< 16 + e.src)) 0
        (c.setCaller n.val { y with inbox := markTaken e .handler y.inbox }).inc F.ccCntEvents)

/-! ## Results (R124, R473) -/

/-- Writes a request's results into a bank pair, where no later instruction has written the register. DESIGN CHOICE (log entry 54): with RD2
equal to RD the second word stays. -/
def putResult (o : OutReq) (d0 d1 : Opd) (normal fast : Tbl Reg) : Tbl Reg × Tbl Reg :=
  let x : Caller := { normal := normal, fast := fast }
  let x := if o.over1 then x else x.setBankReg o.fast o.rd (d0.val, d0.poison)
  let x := match o.rd2 with
    | some r => if o.over2 then x else x.setBankReg o.fast r (d1.val, d1.poison)
    | none => x
  (x.normal, x.fast)

/-- A checkpoint taken while the request was outstanding receives its result as well (R235). -/
def Ckpt.arrive (k : Ckpt) (id : Nat) (d0 d1 : Opd) : Ckpt :=
  match k.reqs.find? (fun o => o.id == id) with
  | none => k
  | some o =>
    let b := putResult o d0 d1 k.normal k.fast
    { k with normal := b.1, fast := b.2, reqs := k.reqs.filter (fun (o : OutReq) => o.id != id) }

/-- A result reaches its register, and ends a WAIT for requests (R124, R488). -/
def Caller.arrive (x : Caller) (id : Nat) (d0 d1 : Opd) : Caller :=
  let x := { x with wins := x.wins.map (fun (w : Win) => { w with ckpt := w.ckpt.map (fun (k : Ckpt) => k.arrive id d0 d1) }) }
  match x.reqs.find? (fun o => o.id == id) with
  | none => x
  | some o =>
    let b := putResult o d0 d1 x.normal x.fast
    let x := { x with normal := b.1, fast := b.2, reqs := x.reqs.filter (fun (o : OutReq) => o.id != id) }
    let x := if o.over1 then x else x.sameReg o.fast o.rd
    let x := match o.rd2 with | some r => if o.over2 then x else x.sameReg o.fast r | none => x
    if x.st = .waiting ∧ x.wait.reqs ∧ x.reqs = [] then { x with st := .running, wait := {} } else x

/-- CALLER_RESULT_ARRIVAL: a result packet at the callers' tile. -/
def execCallerResultArrival (k : Ch) (n : CallerId) (s : State) : Host.Outcome State Fault Refusal :=
  onCh k s (fun _ c =>
    match c.arrived tileCall 5 with
    | some { pay := .result m gen id d0 d1, acc := a, .. } =>
      if m ≠ n.val then c
      else
        let c := (c.takeArrived tileCall 5).accept a
        let x := c.caller m
        if x.gen = gen then c.setCaller m (x.arrive id d0 d1) else c
    | _ => c)

end Sys2Proof.Machine
end

