-- ==== Sys2Proof/Machine/LockOps.lean ====
section
/-! DEFINITION. The lock units (R369 to R377). -/

namespace Sys2Proof.Machine

/-- STATE of a lock word (R370). -/
def lockFree : BitVec 2 := 0
def lockHeld : BitVec 2 := 1
def lockAbandoned : BitVec 2 := 2

/-- The lock word as LD.d returns it (R370). -/
def Lock.word (x : Lock) : Word :=
  BitVec.ofNat 64 (x.st.toNat <<< 62 + b2n (!x.waiters.isEmpty) <<< 61 + b2n x.hkind <<< 60 + x.hseq.toNat <<< 40
    + x.holder.toNat <<< 16 + x.gen.toNat)

/-- The lock word is marked poisoned (R348, R360, R626): what the unit answers from it carries POISON. -/
def Chan.lockBad (c : Chan) (i : Nat) : Bool := c.wordPoison (lockBase + 8 * i)

/-- The requester may use group g (R371). -/
def Chan.lockRights (c : Chan) (r : Req) (g : Nat) : Bool :=
  r.supv || (match r.who with
    | .ctx id _ => wbit (c.rd (F.lkFlowFlows g).off) (c.ctx id.toNat).flow.toNat
    | .caller _ _ => c.flag (F.lkModeCallers g))

/-- The lock is HELD by the requester (R372). -/
def Lock.heldBy (x : Lock) (w : Who) : Bool :=
  x.st == lockHeld && (match w with
    | .ctx id seq => !x.hkind && x.holder == id && x.hseq == seq.truncate 16
    | .caller n _ => x.hkind && x.holder.toNat == n)

/-- The party named is the last holder, HELD or ABANDONED. -/
def Lock.holderIs (x : Lock) (w : Who) : Bool := ({ x with st := lockHeld }).heldBy w

/-- A grant to a party (R372, R373, R375): HOLDER, HSEQ, GEN, its VALUE 1, and the event of a grant to a caller. -/
def Chan.lockGrant (c : Chan) (i : Nat) (w : Who) (rep : Reply) : Chan :=
  let x := c.lock i
  let y := match w with
    | .ctx id seq => { x with st := lockHeld, hkind := false, holder := id, hseq := seq.truncate 16, gen := x.gen + 1, hgen := 0 }
    | .caller n gen => { x with st := lockHeld, hkind := true, holder := BitVec.ofNat 24 n, hseq := 0, gen := x.gen + 1, hgen := gen }
  let c := (c.setLock i y).reply (i / 64) rep (mkOpd 1 1 (c.lockBad i)) (mkOpd 1 1 (c.lockBad i))
  match w with
  | .ctx _ _ => c
  | .caller _ _ =>
    let src := c.fld (F.lkModeEvsrc (i / 64))
    if c.flag (F.lkModeWake (i / 64)) ∧ 64 ≤ src then c.raise src else c

/-- The lock becomes FREE: HOLDER and HSEQ read 0 (R370). -/
def Lock.freed (x : Lock) : Lock := { x with st := lockFree, hkind := false, holder := 0, hseq := 0, hgen := 0, due := false }

/-- A grant that is due: waiters that are no longer alive are removed, and the oldest live one is granted (R373, R377). -/
def Chan.grantDue (c : Chan) (i : Nat) : List LWait → Chan
  | [] => c.setLock i { (c.lock i).freed with waiters := [] }
  | w :: r =>
    if c.whoLive w.who then (c.setLock i { c.lock i with due := false, waiters := r }).lockGrant i w.who w.reply
    else (c.dropDead w.who).grantDue i r

/-- A release (R373): FREE with no waiter, otherwise still HELD with a grant due. -/
def Chan.lockRelease (c : Chan) (i : Nat) : Chan :=
  let x := c.lock i
  if x.waiters.isEmpty then c.setLock i x.freed else c.setLock i { x with st := lockHeld, due := true }

/-- Waiter records in use (R374). -/
def Chan.lockWaiters (c : Chan) : Nat := (c.locks.map (fun e => e.2.waiters.length)).foldl (· + ·) 0

/-- Lock waiter records of a channel (R374). -/
def lockRecords : Nat := 4096

/-- Answers a lock instruction with a value; a done token is never poisoned. -/
def Chan.lockAnswer (c : Chan) (i : Nat) (r : Req) (v : Word) : Chan :=
  let p := r.kind != .rel && c.lockBad i
  c.reply (i / 64) r.reply (mkOpd v 1 p) (mkOpd v 1 p)

/-- REL at the unit (R372), whatever the state of its context (R377). -/
def Chan.unitRel (c : Chan) (i : Nat) (r : Req) : Chan :=
  let x := c.lock i
  if x.st = lockFree then (c.inc F.lkStatIdlerel).lockAnswer i r 0
  else
    let c := if x.holderIs r.who then c else c.inc F.lkStatForeign
    (c.lockRelease i).lockAnswer i r 0

/-- ACQ and TRYACQ at the unit (R372, R374): none where an ACQ must wait and no record is free. -/
def Chan.unitAcq (c : Chan) (i : Nat) (r : Req) (try_ : Bool) : Option Chan :=
  let x := c.lock i
  if !c.whoLive r.who then some (c.dropDead r.who)
  else if x.heldBy r.who then some (c.lockAnswer i r 1)
  else if x.st = lockFree ∧ (try_ = false ∨ x.waiters = []) then some (c.lockGrant i r.who r.reply)
  else if try_ then some (c.lockAnswer i r 0)
  else if c.lockWaiters < lockRecords then some (c.setLock i { x with waiters := x.waiters ++ [⟨r.who, r.reply⟩] })
  else none

/-- A request of the lock unit (R369). -/
def ReqKind.isLock : ReqKind → Bool
  | .acq | .tryacq | .rel | .ldLock => true
  | .ld | .st | .cas | .swap | .xadd | .acc | .exc | .qpush _ | .qpop _ | .qmark _ | .qrewind _ | .qrelease _ => false

/-- A request at its lock unit (R371, R372), a due grant being made first (R377). None where it has to wait. -/
def Chan.unitLock (c : Chan) (now : Nat) (r : Req) : Option Chan :=
  let i := lockIx r.addr.toNat
  let c := if (c.lock i).due then c.grantDue i (c.lock i).waiters else c
  if !c.lockRights r (i / 64) then some ((c.inc F.lkStatDenied).causeFor now r 0x2A (BitVec.ofNat 32 i))
  else match r.kind with
    | .ldLock => some (c.reply (i / 64) r.reply (mkOpd (c.lock i).word 6 (c.lockBad i)) (mkOpd (c.lock i).word 6 (c.lockBad i)))
    | .rel => some (c.unitRel i r)
    | .acq => c.unitAcq i r false
    | _ => c.unitAcq i r true

/-- What the code of a lock word finds as a request reads it (R360, R625). -/
def Chan.lockCode (c : Chan) (i : Nat) (e : Ecc) : Chan :=
  match e with
  | .clean => c
  | .corrected => c.spCode (lockBase + 8 * i) (some false)
  | .uncorrectable => c.spCode (lockBase + 8 * i) (some true)

/-- LOCK_UNIT_REQUEST: the lock request delivered at tile t; e is what the code of its word finds. -/
def execLockUnitRequest (k : Ch) (t : Tile) (s : State) (e : Ecc := .clean) : Host.Outcome State Fault Refusal :=
  onCh k s (fun _ c =>
    match c.arrived t.val 1 with
    | some { pay := .req r, .. } =>
      if !r.kind.isLock || !c.spReady then c
      else
        let c := (c.takeArrived t.val 1).lockCode (lockIx r.addr.toNat) e
        (c.unitLock c.xclk r).getD (c.backToCb r)
    | _ => c)

/-- LOCK_GRANT (R373). -/
def execLockGrant (k : Ch) (i : LockId) (s : State) : Host.Outcome State Fault Refusal :=
  onCh k s (fun _ c =>
    let x := c.lock i.val
    if x.due && c.spReady then c.grantDue i.val x.waiters else c)

/-- The holder of a HELD lock is gone (R376). -/
def Chan.holderGone (c : Chan) (x : Lock) : Bool :=
  if x.hkind then decide ((c.caller x.holder.toNat).gen ≠ x.hgen)
  else !(c.live x.holder.toNat && (c.ctx x.holder.toNat).seq.truncate 16 == x.hseq)

/-- LOCK_ABANDON (R376). -/
def execLockAbandon (k : Ch) (i : LockId) (s : State) : Host.Outcome State Fault Refusal :=
  onCh k s (fun _ c =>
    let x := c.lock i.val
    if x.st = lockHeld ∧ x.due = false ∧ c.holderGone x ∧ c.spReady then
      let c := (c.setLock i.val { x with st := lockAbandoned }).inc F.lkStatAbandon
      let c := if c.flag F.lkAbandValid then c else (c.setFld F.lkAbandValid 1).setFld F.lkAbandIndex i.val
      c.raise 19
    else c)

/-- The lock and place of waiter i, counting through the locks in ascending order. -/
def waiterAt : Tbl Lock → Nat → Option (Nat × Nat)
  | [], _ => none
  | (l, x) :: r, i => if i < x.waiters.length then some (l, i) else waiterAt r (i - x.waiters.length)

/-- LOCK_WAITER_REMOVAL (R374): waiter i, whose context has left LIVE. -/
def execLockWaiterRemoval (k : Ch) (i : Nat) (s : State) : Host.Outcome State Fault Refusal :=
  onCh k s (fun _ c =>
    match waiterAt c.locks i with
    | none => c
    | some (l, j) =>
      match (c.lock l).waiters[j]? with
      | none => c
      | some w =>
        if c.whoLive w.who then c
        else (c.setLock l { c.lock l with waiters := dropNth (c.lock l).waiters j }).dropDead w.who)

end Sys2Proof.Machine
end

