-- ==== Sys2Proof/Machine/Duets.lean ====
section
/-! DEFINITION. Dispatch, windows, comparison, commit, rewind and drain of the duets and callers (R182 to R187, R196 to R224, R234,
R235, R338). -/

namespace Sys2Proof.Machine

/-! ## Roles (R245) -/

def Chan.role (c : Chan) (d : Nat) : Nat := c.fld (F.lfDuetRole d)
def roleServing : Nat := 0
def roleDouble : Nat := 1
def roleSpare : Nat := 2
def roleTesting : Nat := 3
def roleRetired : Nat := 4
/-- 0x3F: no tile (R245). -/
def noTile : Nat := 0x3F

/-- The tiles a duet serves. -/
def Chan.tilesOf (c : Chan) (d : Nat) : List Nat :=
  if c.role d = roleServing then [c.fld (F.lfDuetServes d)]
  else if c.role d = roleDouble then [c.fld (F.lfDuetServes d), c.fld (F.lfDuetServes2 d)]
  else []

/-- Set of a duet (R245). -/
def duetSet (d : Nat) : Nat := if d < 64 then d / 16 else d - 64

/-- Tile whose router port takes the duet's commits: the one it serves, else its own. -/
def Chan.portTile (c : Chan) (d : Nat) : Nat := (c.tilesOf d).headD (if d < 64 then d else 16 * (d - 64))

/-- The duet can work: it serves a tile, no stand-in of it runs, its tiles' queues are not being rebuilt, and its set is
powered. -/
def Chan.duetOn (c : Chan) (d : Nat) : Bool :=
  !(c.tilesOf d).isEmpty && (c.duet d).standIn.isNone && !(c.tilesOf d).any (fun t => (c.tile t).rebuild)
    && c.setRuns (duetSet d) && c.domUp 4

/-- UNCOM and REPLAY of LF_DUETn follow the duet. -/
def Chan.putDuet (c : Chan) (d : Nat) (x : Duet) : Chan :=
  ((c.setDuet d x).setFld (F.lfDuetReplay d) (b2n x.replay)).setFld (F.lfDuetUncom d) x.wins.length

/-! ## Ready queues of a tile (R203, R331) -/

def tileQueues (t : Nat) : List Nat := (List.range 8).map (fun p => 8 * t + p)

/-- Records the marks of a window that opens (R203, R331); the first one, a replay attempt among them, takes the place of a mark kept since a
rewind. -/
def Chan.markQueues (c : Chan) (first : Bool) (ts : List Nat) : Chan :=
  (ts.flatMap tileQueues).foldl (fun c q =>
    let p := c.qptr q
    c.setQptr q { p with marks := (if first then [] else p.marks) ++ [c.qRead q] }) c

/-- Sets the read positions back to the oldest marks, which stay; the marks of a later window are dropped (R212, R331). -/
def Chan.rewindQueues (c : Chan) (ts : List Nat) : Chan :=
  (ts.flatMap tileQueues).foldl (fun c q =>
    match (c.qptr q).marks with
    | [] => c
    | m :: _ =>
      let c := c.qRewindTo q m
      c.setQptr q { c.qptr q with marks := [m] }) c

/-- Bit 0 of a packet word, reserved in R180: the model's mark that the firing was removed at dispatch and counted (R185). -/
def removedMark : BitVec 144 := 1

/-- Frees what the released words of a ready queue name, and releases them (R176, R203, R331): up to the next window's mark, or to
RD. -/
def Chan.releaseQueue (c : Chan) (q : Nat) : Chan :=
  let p := c.qptr q
  let n := match p.marks with
    | _ :: m :: _ => m
    | _ => c.qRead q
  let t := q / 8
  let c := (List.range n).foldl (fun c i =>
    let k := wordPacket (c.qItem q i)
    if k.way = 31 then c else c.freeKey t (entryNo k.row.toNat k.way.toNat)) c
  let c := c.qRelease q n
  c.setQptr q { c.qptr q with marks := (c.qptr q).marks.drop 1 }

def Chan.releaseQueues (c : Chan) (ts : List Nat) : Chan := (ts.flatMap tileQueues).foldl (fun c q => c.releaseQueue q) c

/-! ## Limits of a window (R200, R202) -/

/-- The largest latency of an instruction (R92, R95, R97, R98, R118, R120). -/
def maxLatency (w : Word) : Nat :=
  match opOf w with
  | some .mul | some .mulh | some .mulhu => 3
  | some .div | some .divu | some .rem | some .remu => 38
  | some .fadd | some .fsub | some .fmul | some .fma => 4
  | some .fdiv => if iOp w < 0x40 then 16 else 11
  | some .fsqrt => if iOp w < 0x40 then 18 else 12
  | some .fmin | some .fmax | some .fcmpCc => 2
  | some .fcvt | some .icvt => 3
  | some .faddC | some .fsubC | some .cmulC => 4
  | some .cmacC => 5
  | some .fan => 1 + fanExt w
  | some .ctxnew | some .nextit | some .loopin => 2
  | some .time | some .poll | some .rand => 2
  | _ => 1

/-- A program that switches the duet's set off is under way (R200, R594). -/
def Chan.setGoesDown (c : Chan) (d : Nat) : Bool :=
  match tblFind c.pw.progs (duetSet d) with
  | some p => !p.up && p.undo.isNone
  | none => false

/-- A boundary close is pending for a window (R200): a stand-in or retirement, a tile to connect, a power-down of the set, or a change of
LF_WIN.LEN or LF_CTL.TEST. -/
def Chan.boundaryDue (c : Chan) (d : Nat) (w : Win) : Bool :=
  let x := c.duet d
  x.retire || x.cmpBad || !x.joins.isEmpty || c.setGoesDown d || w.len.toNat != c.fld F.lfWinLen || w.test != c.flag F.lfCtlTest

/-- The open window takes the staged firing (R200). -/
def Chan.windowTakes (c : Chan) (now d : Nat) (w : Win) (instr : Word) : Bool :=
  !w.closed && !c.boundaryDue d w && decide (w.firings.length < winLen w.len.toNat)
    && decide (winEntries w + maxEntries instr ≤ 96) && decide (now + maxLatency instr ≤ w.openAt + 255)
    && decide (now ≤ w.lastAt + 2)

/-- The newest window, if it is open. -/
def openWin (ws : List Win) : Option Win :=
  match ws.getLast? with
  | some w => if w.closed then none else some w
  | none => none

/-! ## Injection (R244) -/

/-- The marks at which a duet stands: the words of its tiles' ready queues at which their read positions point (R203, R331). -/
def Chan.marksOf (c : Chan) (d : Nat) : List Nat :=
  ((c.tilesOf d).flatMap tileQueues).map (fun q => c.qAddr q (c.qRead q * c.qUnit q))

/-- The injection that acts in the window ws that a duet opens: the armed one, with ARM cleared, or one with REPEAT that has acted at the same
marks. -/
def Chan.takeInj (c : Chan) (d : Nat) (x : Duet) (ws : BitVec 32) : Chan × Duet × BitVec 4 :=
  if c.flag F.lfInjArm ∧ c.fld F.lfInjDuet = d then
    let k := BitVec.ofNat 4 (c.fld F.lfInjKind)
    (c.setFld F.lfInjArm 0, { x with injAgain := if c.flag F.lfInjRepeat then k else 0, injAt := ws, injMarks := c.marksOf d }, k)
  else if x.injAgain ≠ 0 ∧ x.injMarks = c.marksOf d then (c, { x with injAt := ws }, x.injAgain)
  else (c, x, 0)

/-! ## Opening a window (R199, R203, R218) -/

/-- Opens a window of a duet: WSEQ, samples, marks, injection. fs is the Follow's own sample of the normal regime. DESIGN CHOICE (log entry
49): a reset of WSEQ to 0 stands for the window before the first, whose WSEQ is 1. -/
def Chan.openDuet (c : Chan) (dv : Dev) (d : Nat) (fs : Sample) : Chan :=
  let x := c.duet d
  let ws := x.again.getD (x.wseq + 1)
  let (c, x, inj) := c.takeInj d x ws
  let sm := Chan.sampleNow dv c
  let single := x.replay || c.flag F.lfCtlTest
  let w : Win := {
    wseq := ws, sl := if inj = 5 then { sm with time := sm.time ^^^ 1 } else sm, sf := if single then sm else fs,
    single := single, len := BitVec.ofNat 2 (c.fld F.lfWinLen), test := c.flag F.lfCtlTest, openAt := c.xclk,
    lastAt := c.xclk, dlBad := inj == 3, inj := inj }
  let c := if inj = 3 then c.inc F.lfCntDlpar else c
  (c.markQueues x.wins.isEmpty (c.tilesOf d)).putDuet d { x with wseq := ws, again := none, wins := x.wins ++ [w] }

/-- A duet may open a further window: at most one other is uncommitted, nothing forbids it, and no replay has to be opened first
(R202, R212, R223). -/
def Duet.mayOpen (x : Duet) : Bool := decide (x.wins.length < 2) && !x.cmpBad && !x.retire && x.again.isNone

/-! ## Selection and start (R175, R182 to R185, R331) -/

/-- Levels of a tile that hold a packet (R182, R327, R335). -/
def Chan.levels (c : Chan) (t : Nat) : List Nat :=
  (List.range 8).filter (fun p => c.qEn (8 * t + p) && decide (0 < c.qSeenItems (8 * t + p)))

/-- The level selected at a tile, and whether it is by the starving rule (R182). -/
def Chan.selectLevel (c : Chan) (t : Nat) : Option (Nat × Bool) :=
  match (c.levels t).find? (fun p => decide (4096 ≤ tblGet c.qu.waits (8 * t + p) 0)) with
  | some p => some (p, true)
  | none => (c.levels t).head?.map (fun p => (p, false))

/-- A tile is being handed over to a retested duet, which leaves it without firings meanwhile (R227, R233). -/
def Chan.handed (c : Chan) (t : Nat) : Bool :=
  c.duets.any (fun e => match e.2.standIn with | some si => si.handOver == some t | none => false)

/-- The tiles of a duet in the order in which it looks for a packet (R231). -/
def Chan.turnTiles (c : Chan) (d : Nat) : List Nat :=
  (if (c.duet d).turn then (c.tilesOf d).reverse else c.tilesOf d).filter (fun t => !c.handed t)

/-- wait[p] of a level returns to 0 (R182). -/
def Chan.clearWait (c : Chan) (q : Nat) : Chan := { c with qu := { c.qu with waits := tblPut c.qu.waits q 0 0 } }

/-- The NEXTITs of a list of firings are pending no longer (R109, R212). -/
def Chan.dropPending (c : Chan) (fs : List Firing) : Chan :=
  fs.foldl (fun c f =>
    if (illegalFiring f.pkt.instr).isNone && opOf f.pkt.instr == some .nextit then
      let e := handleEntry (withImm f.pkt.instr f.l f.r f.t).1.val
      match c.loop e with
      | some l => if f.grant.isSome then c.setLoop e { l with pending := l.pending - 1 } else c
      | none => c
    else c) c

/-- The flush of a rewind or stand-in (R212, R226): every uncommitted window is discarded with what it held, the dispatch stage and the units
are cleared, and the read positions of the tiles go back to the oldest marks. -/
def Chan.flushDuet (c : Chan) (d : Nat) : Chan :=
  let x := c.duet d
  let fs := x.wins.flatMap (·.firings)
  let c := c.dropPending fs
  let c := fs.foldl (fun c f => c.giveBack f.grant) c
  let c := match x.stage with | some st => c.giveBack st.grant | none => c
  let again := match x.wins with | w :: _ => some w.wseq | [] => x.again
  (c.rewindQueues (c.tilesOf d)).putDuet d { x with
    wins := [], stage := none, replay := true, again := again, divFree := 0, fdivFree := 0, cplxFree := 0, fanFree := 0 }

/-- The duet that serves a tile. -/
def Chan.serverOf (c : Chan) (t : Nat) : Option Nat := (List.range 68).find? (fun d => (c.tilesOf d).contains t)

/-- A failed read of a ready queue starts a rebuild of the tile's queues (R338, steps 1 and 2). -/
def Chan.startRebuild (c : Chan) (d t : Nat) : Chan :=
  let c := ((c.flushDuet d).raise 17).inc F.chQstatRebuild
  let c := (tileQueues t).foldl (fun c q => c.qEmpty q) c
  c.setTile t { c.tile t with rebuild := true }

/-- A packet is taken off a ready queue without being started: it is read, and released with its window (R185, R201). -/
def Chan.skipPacket (c : Chan) (q : Nat) : Chan := c.qAdvance q

/-- Marks the word at RD as removed and counted. -/
def Chan.markRemoved (c : Chan) (q : Nat) : Chan :=
  let a := c.qAddr q (c.qRead q)
  c.setQWord a (c.qWord a ||| removedMark)

/-- Selects a packet into the dispatch stage; e is what the bank's operand read finds. A queue gives one packet in an XCLK (R335). -/
def Chan.selectPacket (c : Chan) (d : Nat) (pf : Parity) (e : Ecc) : Chan :=
  match (c.turnTiles d).findSome? (fun t => (c.selectLevel t).map (fun p => (t, p))) with
  | none => c
  | some (t, p, starve) =>
    let q := 8 * t + p
    if (c.qNow q).reads ≠ 0 then c
    else
    let c := c.clearWait q
    let (c, _, lost) := c.qParity q { pf with b0 := false, b1 := false }
    if lost then c.startRebuild d t
    else
      let w := c.qItem q (c.qRead q)
      let k := wordPacket w
      let n := entryNo k.row.toNat k.way.toNat
      if k.way = 31 then c.skipPacket q
      else if !c.live k.ctx.toNat then
        (if (w &&& removedMark) = 0 then (c.markRemoved q).cancel k.ctx.toNat else c).skipPacket q
      else match e with
        | .uncorrectable => (c.entryLost c.xclk t n).skipPacket q
        | .corrected => (c.inc F.msStatCorr).putDuet d { c.duet d with stage := some { pkt := k, tile := t, starve := starve } }
        | .clean => c.putDuet d { c.duet d with stage := some { pkt := k, tile := t, starve := starve } }

/-- Operands of a matched entry (R165). -/
def Chan.operands (c : Chan) (t : Nat) (k : FPacket) : Opd × Opd × Opd :=
  match c.entry t (entryNo k.row.toNat k.way.toNat) with
  | none => ({}, {}, {})
  | some x =>
    let z := match c.entry t (entryNo k.row.toNat x.xway.toNat) with
      | some z => if x.xway = 31 then {} else (⟨z.val0, z.sb0⟩ : Opd)
      | none => {}
    (⟨x.val0, x.sb0⟩, ⟨x.val1, x.sb1⟩, z)

/-- A FLOWSET that names a class of KIND 2 or 3 whose order queue is full does not fire (R248): it takes its place as it starts (log entry
55). -/
def Chan.flowsetWaits (c : Chan) (k : FPacket) : Bool :=
  if (illegalFiring k.instr).isSome || opOf k.instr != some .flowset then false
  else
    let n := iImm k.instr % 64
    decide (2 ≤ c.fld (F.flClassKind n)) && c.ordClosed (c.fld (F.flClassOrdq n))

/-- The unit of R120 that an instruction occupies is taken: the divider, the FDIV and FSQRT unit, the complex issue slot, or the decoder by an
earlier FAN (R183). -/
def Duet.unitBusy (x : Duet) (now : Nat) (w : Word) : Bool :=
  decide (now < x.fanFree) || (match opOf w with
    | some .div | some .divu | some .rem | some .remu => decide (now < x.divFree)
    | some .fdiv | some .fsqrt => decide (now < x.fdivFree)
    | some .cmulC | some .cmacC => decide (now < x.cplxFree)
    | _ => false)

/-- Significant bits of a number (R92). -/
def sigBits (n : Nat) : Nat := if n = 0 then 0 else Nat.log2 n + 1

/-- XCLK that a division of l by r takes (R92, R130). -/
def divTime (signed : Bool) (l r : Word) : Nat :=
  if r = 0 then 6 else 6 + (sigBits (if signed then l.toInt.natAbs else l.toNat) + 1) / 2

/-- A firing that starts, with the operands l and r, occupies its unit (R120). -/
def Duet.takeUnit (x : Duet) (now : Nat) (w l r : Word) : Duet :=
  match opOf w with
  | some .div | some .rem => { x with divFree := now + divTime true l r }
  | some .divu | some .remu => { x with divFree := now + divTime false l r }
  | some .fdiv | some .fsqrt => { x with fdivFree := now + maxLatency w }
  | some .cmulC | some .cmacC => { x with cplxFree := now + 2 }
  | some .fan => { x with fanFree := now + 1 + fanExt w }
  | _ => x

/-- The staged firing starts in the newest window (R109, R196, R331); dl is a parity error of its delay-line stage (R224). -/
def Chan.startFiring (c : Chan) (d : Nat) (st : Staged) (dl : Bool) : Chan :=
  let q := 8 * st.tile + st.pkt.prio.toNat
  let o := c.operands st.tile st.pkt
  let f : Firing := { pkt := st.pkt, tile := st.tile, l := o.1, r := o.2.1, t := o.2.2, grant := st.grant }
  let c := if st.starve then c.inc F.msFirestatStarve else c
  let c := if dl then c.inc F.lfCntDlpar else c
  let c := if opOf st.pkt.instr = some .nextit ∧ st.grant.isSome then
      let e := handleEntry (withImm st.pkt.instr f.l f.r f.t).1.val
      match c.loop e with
      | some l => c.setLoop e { l with pending := l.pending + 1 }
      | none => c
    else c
  let x := c.duet d
  let ws := match x.wins.reverse with
    | [] => []
    | w :: r => r.reverse ++ [{ w with firings := w.firings ++ [f], lastAt := c.xclk, dlBad := w.dlBad || dl }]
  let turn := c.role d == roleDouble && !x.turn
  let p := withImm st.pkt.instr f.l f.r f.t
  (c.qAdvance q).putDuet d ({ x with wins := ws, stage := none, turn := turn }.takeUnit c.xclk st.pkt.instr p.1.val p.2.1.val)

/-- A staged firing does not fire yet (R58, R109, R112, R183, R202, R248, R335): it waits for its grant, its loop's window, its unit, an order
queue, its ready queue, or room in the commit buffer. -/
def Chan.mustWait (c : Chan) (x : Duet) (st : Staged) : Bool :=
  c.needsGrant st || (st.grant.isSome && opOf st.pkt.instr == some .nextit && !c.nextitRoom st)
    || (illegalFiring st.pkt.instr).isNone && x.unitBusy c.xclk st.pkt.instr
    || c.flowsetWaits st.pkt || decide ((c.qNow (8 * st.tile + st.pkt.prio.toNat)).reads ≠ 0) || decide (cbSize < cbUsed x.cb x.wins + maxEntries st.pkt.instr)

/-- The packet in the dispatch stage starts, opening a window where none is open (R183, R200, R202); it waits there otherwise. A
packet whose context has left LIVE is removed (R185). -/
def Chan.tryStart (c : Chan) (dv : Dev) (d : Nat) (fs : Sample) (dl : Bool) : Chan :=
  let x := c.duet d
  match x.stage with
  | none => c
  | some st =>
    let q := 8 * st.tile + st.pkt.prio.toNat
    if !c.live st.pkt.ctx.toNat then
      let c := (c.giveBack st.grant).putDuet d { x with stage := none }
      ((c.markRemoved q).cancel st.pkt.ctx.toNat).skipPacket q
    else if c.mustWait x st then c
    else match openWin x.wins with
      | some w => if c.windowTakes c.xclk d w st.pkt.instr then c.startFiring d st dl else c
      | none => if x.mayOpen then (c.openDuet dv d fs).startFiring d st dl else c

/-- DISPATCH_SELECT: a packet is selected where the dispatch stage is free, and the staged one starts if it may. -/
def execDispatchSelect (k : Ch) (d : DuetId) (fs : Sample) (pf : Parity) (e : Ecc) (dl : Bool) (s : State) :
    Host.Outcome State Fault Refusal :=
  onCh k s (fun dv c =>
    if !c.duetOn d.val then c
    else
      let c := if (c.duet d.val).stage.isNone then c.selectPacket d.val pf e else c
      c.tryStart dv d.val fs dl)

/-- A firing of a window has not been executed yet. -/
def Win.busy (w : Win) : Bool := w.firings.any (fun f => f.lead.isNone)

/-- REPLAY_OPEN (R212): the replay attempt opens with the failed window's WSEQ; a caller's with its restored state. -/
def execReplayOpen (k : Ch) (u : Exe) (fs : Sample) (s : State) : Host.Outcome State Fault Refusal :=
  onCh k s (fun dv c =>
    match u with
    | .duet d =>
      let x := c.duet d.val
      if c.duetOn d.val && x.replay && x.again.isSome && x.wins.isEmpty && !x.cmpBad && !x.retire then
        c.openDuet dv d.val fs
      else c
    | .caller n =>
      let x := c.caller n.val
      if x.replay && x.again.isSome && x.wins.isEmpty then
        match c.callerWindow dv n.val x with
        | some x => c.setCaller n.val x
        | none => c
      else c)

/-! ## The signature (R205 to R207) -/

/-- misr_step of R206. -/
def misrStep (s d : Word) : Word := (s <<< 1) ^^^ (if s.getLsbD 63 then 0x1B else 0) ^^^ d

/-- The image of a request or effect entry in the signature: the spec gives these layouts to the chapters of the units, which do
not fix them (log entry 25). -/
opaque Config.reqImage : Req → BitVec 192
opaque Config.effImage : Res → BitVec 192

/-- An entry's 192 bits. -/
def entImage : Ent → BitVec 192
  | .tok t => BitVec.ofNat 192 (t.sb.toNat * 2 ^ 128 + t.val.toNat * 2 ^ 64 + t.tag.toNat)
  | .req r => Config.reqImage r
  | .eff => 0

/-- Entries of a firing in the order of R206. -/
def Res.images (r : Res) : List (BitVec 192) := r.ents.map entImage ++ (if r.hasEff then [Config.effImage r] else [])

/-- The firing word (R205). -/
def firingWord (p : FPacket) (r : Res) : Word :=
  BitVec.ofNat 64 (p.ip.toNat <<< 48 + p.ctx.toNat <<< 24 + p.prio.toNat <<< 21
    + ((r.flags0 ||| r.flags1).toNat % 128) <<< 14 + (r.count % 32) <<< 9 + (b2n r.trap) <<< 8 + iOp p.instr)

/-- Folds an entry. -/
def foldImage (s : Word) (e : BitVec 192) : Word :=
  misrStep (misrStep (misrStep s (e.extractLsb' 0 64)) (e.extractLsb' 64 64)) (e.extractLsb' 128 64)

/-- The firing word and the entries of each firing of a window, as one unit has them. -/
abbrev Folds := List (Word × List (BitVec 192))

/-- Signature of a window from what one unit folds (R206). -/
def signature (wseq : BitVec 32) (fs : Folds) : Word :=
  fs.foldl (fun s f => f.2.foldl foldImage (misrStep s f.1)) (wseq.zeroExtend 64)

def Win.leadRes (w : Win) : List (FPacket × Res) := w.firings.map (fun f => (f.pkt, f.lead.getD {}))
def Win.followRes (w : Win) : List (FPacket × Res) := w.firings.map (fun f => (f.pkt, f.follow.getD {}))

/-- What a unit with these results folds. -/
def foldsOf (l : List (FPacket × Res)) : Folds := l.map (fun f => (firingWord f.1 f.2, f.2.images))

/-- Injection 2 flips bit 0 of the Follow's first entry, when the window has one (R244). -/
def flipFirst : Folds → Folds
  | [] => []
  | (h, []) :: r => (h, []) :: flipFirst r
  | (h, e :: es) :: r => (h, (e ^^^ 1) :: es) :: r

/-- What the Follow folds. -/
def Win.followFolds (w : Win) : Folds := if w.inj = 2 then flipFirst (foldsOf w.followRes) else foldsOf w.followRes

/-- Whether SL and SF agree (R208), each with the bits that the fault or injection 1 flips in it. Units with the same results have the same
signature; units that have gone different ways have not (log entry 55). -/
def Win.agree (w : Win) (cf : CmpFault) : Bool :=
  let x := cf.slx ^^^ cf.sfx ^^^ (if w.inj = 1 then 1 else 0)
  if w.split then false
  else if w.leadRes = w.followRes ∧ w.inj ≠ 2 then x == 0
  else (signature w.wseq (foldsOf w.leadRes) ^^^ signature w.wseq w.followFolds ^^^ x) == 0

/-- Results of comparators A and B on their two wires (R222). -/
def Win.wires (w : Win) (cf : CmpFault) : BitVec 2 × BitVec 2 :=
  let m : BitVec 2 := if w.agree cf then 1 else 2
  let a := cf.aOut.getD m
  (if w.inj = 4 then a ^^^ 3 else a, cf.bOut.getD m)

/-- Only a match on both wires, and no delay-line error, commits (R222, R224). -/
def Win.matched (w : Win) (cf : CmpFault) : Bool := w.wires cf == (1, 1) && !w.dlBad && !cf.dlpar

/-! ## Closing (R200, R234) -/

/-- A condition under which the Lead starts no further firing in the open window holds. -/
def Chan.closeDue (c : Chan) (now d : Nat) (w : Win) : Bool :=
  decide (w.lastAt + 2 < now) || c.boundaryDue d w || decide (winLen w.len.toNat ≤ w.firings.length)
    || decide (w.openAt + 255 ≤ now) || (match (c.duet d).stage with
      | some st => !c.windowTakes now d w st.pkt.instr
      | none => false)

/-- A stand-in's start, by its cause (R226); see Standin.lean for what completes it. -/
def Chan.freeSpare (c : Chan) (g : Nat) : Option Nat :=
  ((List.range 16).map (fun i => 16 * g + i) ++ [64 + g]).find? (fun d =>
    c.role d == roleSpare && !c.duets.any (fun e => match e.2.standIn with | some si => si.spare == d | none => false))

/-- LF_LAST (R243). -/
def Chan.lfLast (c : Chan) (failed taker reason tile time : Nat) : Chan :=
  c.wr F.lfLastValid.off (BitVec.ofNat 64 (2 ^ 63 + failed <<< 56 + taker <<< 49 + reason <<< 46 + tile <<< 40
    + min time (2 ^ 32 - 1)))

/-- A duet takes role RETIRED with a cause, serving no tile (R225, R228, R245). -/
def Chan.retireDuet (c : Chan) (d cause : Nat) : Chan :=
  let c := (((c.setFld (F.lfDuetRole d) roleRetired).setFld (F.lfDuetCause d) cause).setFld (F.lfDuetServes d) noTile).setFld
    (F.lfDuetServes2 d) noTile
  c.putDuet d { cb := (c.duet d).cb }

/-- Distance of two tile indices. -/
def tileGap (a b : Nat) : Nat := if a ≤ b then b - a else a - b

/-- The partner of R230 for tile t: the SERVING duet of its set whose tile is nearest, the lower on a tie. DESIGN CHOICE (log entry 54): one
with a stand-in under way, or with a tile still to join, is passed over. -/
def Chan.partnerOf (c : Chan) (d t : Nat) : Option Nat :=
  (sortBy (fun a b => decide (tileGap t (c.fld (F.lfDuetServes a)) < tileGap t (c.fld (F.lfDuetServes b)))
      || (tileGap t (c.fld (F.lfDuetServes a)) == tileGap t (c.fld (F.lfDuetServes b))
          && decide (c.fld (F.lfDuetServes a) ≤ c.fld (F.lfDuetServes b))))
    ((List.range 68).filter (fun e => e != d && duetSet e == setOf t && c.role e == roleServing && (c.duet e).standIn.isNone
      && (c.duet e).joins.isEmpty))).head?

/-- The crossbar connects a tile to its partner e, whose uncommitted windows get marks on the tile's queues (R230, R243). DESIGN CHOICE (log
entry 54): the first turn of the DOUBLE duet is that of its SERVES (R231). -/
def Chan.connect (c : Chan) (now e : Nat) (j : Join) : Chan :=
  let c := (c.setFld (F.lfDuetRole e) roleDouble).setFld (F.lfDuetServes2 e) j.tile
  let x := c.duet e
  let c := (tileQueues j.tile).foldl (fun c q => c.setQptr q { c.qptr q with marks := x.wins.map (fun _ => c.qRead q) }) c
  let c := c.setDuet e { x with turn := false }
  ((c.lfLast j.from_ e j.cause j.tile (now - j.since)).inc F.lfCnt2Retire).raise 13

/-- A duet without an open window takes the tiles that wait for its boundary (R200, R230). -/
def Chan.joinDue (c : Chan) (now e : Nat) : Chan :=
  let x := c.duet e
  if (openWin x.wins).isSome then c
  else x.joins.foldl (fun c j => c.connect now e j) (c.setDuet e { x with joins := [] })

/-- Tile t goes to a partner at the partner's window boundary, or stays dark (R230, R232). -/
def Chan.giveTile (c : Chan) (now d t cause since : Nat) : Chan :=
  match c.partnerOf d t with
  | none => ((c.lfLast d 0x7F 5 t 0).inc F.lfCnt2Retire).raise 13
  | some e =>
    let x := c.duet e
    (c.setDuet e { x with joins := x.joins ++ [{ tile := t, from_ := d, cause := cause, since := since }] }).joinDue now e

/-- Retirement with no spare (R230, R232): the duet is retired and each tile it served is given away. -/
def Chan.retireNoSpare (c : Chan) (now d cause since : Nat) : Chan :=
  let ts := (c.tilesOf d).filter (fun t => !c.handed t)
  ts.foldl (fun c t => c.giveTile now d t cause since) (c.retireDuet d cause)

/-- A stand-in of duet d starts (R225, R226): the flush, and the spare of its set with the lowest index; with none, R230. -/
def Chan.startStandIn (c : Chan) (now d cause : Nat) : Chan :=
  let c := (c.flushDuet d).joinDue now d
  match c.freeSpare (duetSet d) with
  | none => c.retireNoSpare now d cause now
  | some sp =>
    let c := c.setDuet sp { c.duet sp with testing := false }
    c.setDuet d { c.duet d with standIn := some { cause := BitVec.ofNat 3 cause, since := now, spare := sp }, retire := false,
                                cmpBad := false, injAgain := 0 }

/-- WINDOW_CLOSE (R200, R234). A RETIRE that waits for the boundary takes effect (R225). -/
def execWindowClose (k : Ch) (u : Exe) (s : State) : Host.Outcome State Fault Refusal :=
  onCh k s (fun _ c =>
    match u with
    | .duet d =>
      let x := c.duet d.val
      match openWin x.wins with
      | none => c
      | some w =>
        if w.busy || !c.closeDue c.xclk d.val w then c
        else
          let c := (c.setDuet d.val { x with wins := closeNewest x.wins }).joinDue c.xclk d.val
          if x.retire then c.startStandIn c.xclk d.val 3 else c
    | .caller n =>
      let x := c.caller n.val
      match openWin x.wins with
      | none => c
      | some w =>
        if c.callerOpen w && x.st == .running && x.exc.isEmpty && !x.halting && !x.retire && !x.cmpBad then c
        else c.setCaller n.val x.boundary)

/-! ## Commit (R209, R186, R187, R254) -/

/-- Output tokens of a firing that will be sent. -/
def tokCount (es : List Ent) : Nat := es.countP (fun e => match e with | .tok _ => true | .req _ | .eff => false)

/-- The committed entries of a firing, its tokens with the mark of the position it releases, its effect entry last (R204, R206). -/
def commitEnts (f : Firing) (acc : Acc) (r : Res) (es : List Ent) : List CEntry :=
  (es ++ (if r.hasEff then [Ent.eff] else [])).map (fun e =>
    { ent := e, ctx := f.pkt.ctx, ip := f.pkt.ip, acc := match e with | .tok _ => acc | .req _ | .eff => .none })

/-- Loops of which a firing of a committing window, whose context is LIVE, is a LOOPOUT with FINAL (R109). -/
def finalsOf (live : Nat → Bool) (fs : List Firing) : List Nat :=
  (fs.filter (fun f => live f.pkt.ctx.toNat && (f.lead.getD {}).cause.isNone && !(f.lead.getD {}).trap)).flatMap (fun f =>
    (f.lead.getD {}).effs.filterMap (fun e => match e with | .loopout n (some _) => some n | _ => none))

/-- A NEXTIT finds its entry no longer OPEN when it commits: a LOOPOUT with FINAL of the same commit counts as having come first (R109). -/
def Chan.nextitLost (c : Chan) (finals : List Nat) (r : Res) : Option Nat :=
  r.effs.findSome? (fun e => match e with
    | .nextit _ l => if c.loopOpen l && !finals.contains l then none else some l
    | _ => none)

/-- ORs the raised flags into FLAGS (R150). -/
def Chan.orFlags (c : Chan) (id : Nat) (f : BitVec 8) : Chan :=
  if f = 0 then c else c.ctxUpd id (fun x => { x with flags := x.flags ||| f })

/-- A firing of a committing window whose context is LIVE: flags, cause or trap, effects and entries. -/
def Chan.commitFiring (c : Chan) (now : Nat) (finals : List Nat) (f : Firing) (r : Res) : Chan × List CEntry :=
  let id := f.pkt.ctx.toNat
  let ip := f.pkt.ip.toNat
  let c := c.orFlags id (r.flags0 ||| r.flags1)
  match r.cause with
  | some (k, d) => (((c.giveBack f.grant).countCause k.toNat).cause now id k.toNat ip d, commitEnts f .none r [])
  | none =>
    if r.trap then ((c.giveBack f.grant).trap now f r, commitEnts f .none r [])
    else match c.nextitLost finals r with
      | some e => ((c.giveBack f.grant).cause now id 0x25 ip (BitVec.ofNat 32 e), commitEnts f .none r [])
      | none =>
        let n := tokCount r.ents + (if r.effs.any (fun e => match e with | .ctxend _ => true | _ => false) then 1 else 0)
        let rel := if r.effs.any Eff.releases then c.releasePos id n else (c, .none)
        let a : Actor := { ctx := id, ip := ip, supv := (c.ctx id).supv, tile := f.tile }
        (r.effs.foldl (fun c e => c.applyEff now a {} rel.2 e) rel.1, commitEnts f rel.2 r r.ents)

/-- A kill that a firing carries. -/
def Eff.isKill : Eff → Bool
  | .kill _ _ => true
  | _ => false

/-- A firing whose context is not LIVE is discarded (R186, R187). Where the context left LIVE in this XCLK, the kills that the firing carries
take effect as those of two windows that commit in one XCLK do (log entry 51). -/
def Chan.dropFiring (c : Chan) (now : Nat) (f : Firing) : Chan :=
  let id := f.pkt.ctx.toNat
  let c := (c.giveBack f.grant).cancel id
  let r := f.lead.getD {}
  if c.seenSt id = .live ∧ r.cause = none ∧ r.trap = false then
    let a : Actor := { ctx := id, ip := f.pkt.ip.toNat, supv := (c.ctx id).supv, tile := f.tile }
    (r.effs.filter Eff.isKill).foldl (fun c e => c.applyEff now a {} .none e) c
  else c

/-- Notes a firing that has committed in this XCLK (R186). -/
def Chan.noteDone (c : Chan) (x : Done) : Chan := { c with done := c.done.filter (fun y => y.at_ == x.at_) ++ [x] }

/-- The firings of a committing window, in order (R186: LIVE as the window found it). -/
def commitAll (live : Nat → Bool) (now d : Nat) (wseq : BitVec 32) (finals : List Nat) : List Firing → Chan → Chan × List CEntry
  | [], c => (c, [])
  | f :: r, c =>
    let id := f.pkt.ctx.toNat
    let q := f.lead.getD {}
    let new := (q.flags0 ||| q.flags1) &&& ~~~(c.ctx id).flags
    let one : Chan × List CEntry := if live id then
        match c.commitFiring now finals f q with
        | (c, es) => (c.noteDone { duet := d, wseq := wseq, at_ := now, f := f, raised := new }, es)
      else (c.dropFiring now f, [])
    let rest := commitAll live now d wseq finals r (one.1.dropPending [f])
    (rest.1, one.2 ++ rest.2)

/-- Marks the noted firings whose context their own window has ended (R186): live tells which were LIVE before it. -/
def Chan.markOwn (c : Chan) (live : Nat → Bool) (d : Nat) (wseq : BitVec 32) : Chan :=
  { c with done := c.done.map (fun x => if x.duet = d ∧ x.wseq = wseq then
      { x with own := live x.f.pkt.ctx.toNat && !c.live x.f.pkt.ctx.toNat } else x) }

/-- The oldest window of a duet commits (R209). -/
def Chan.commitDuet (c : Chan) (now d : Nat) (w : Win) : Chan :=
  let done := commitAll c.live now d w.wseq (finalsOf c.live w.firings) w.firings c
  let ents := done.2.map (fun e => { e with at_ := some now })
  let c := done.1.markOwn c.live d w.wseq
  let c := c.releaseQueues (c.tilesOf d)
  let x := c.duet d
  let c := { c with ms := { c.ms with stall := 0, commitAt := some c.xclk } }
  let inj := if x.injAt = w.wseq + 1 then x.injAgain else 0
  let c := c.putDuet d { x with wins := x.wins.drop 1, cb := x.cb ++ ents, attempts := 0, replay := false, injAgain := inj }
  let c := c.wrapInc F.lfCommitsWindows
  if x.cmpBad ∧ (x.wins.drop 1).isEmpty then c.startStandIn now d 2 else c

/-! ## The end of an XCLK in which windows have committed (R109, R186) -/

/-- An allocation by a firing that is withdrawn is undone: the context is FREE, its identifier at the head of the list. -/
def Chan.uncreate (c : Chan) (g : Grant) : Chan :=
  (c.ctxUpd g.id.toNat (fun x => x.turn c.xclk .free)).giveBack (some { g with weight := 0 })

/-- Takes back an effect of a withdrawn firing: what it created, its loop entry, its event. -/
def Chan.undoEff (c : Chan) (x : Done) : Eff → Chan
  | .ctxnew g _ => c.uncreate g
  | .loopin g _ => (c.uncreate g).dropLoop (g.loop.getD 0)
  | .nextit g e =>
    match c.loop e with
    | some l => (c.uncreate g).setLoop e { l with newest := x.f.pkt.ctx, live := l.live - 1 }
    | none => c.uncreate g
  | .signal n => c.unsay (768 + n.toNat)
  | _ => c

/-- A committed firing is withdrawn in its XCLK: its tokens and requests leave the commit buffer, where they have waited (R210), its record
write is dropped, what it created is undone. -/
def Chan.withdraw (c : Chan) (x : Done) : Chan :=
  let du := c.duet x.duet
  let mine := fun (e : CEntry) => e.at_ == some x.at_ && e.ctx == x.f.pkt.ctx && e.ip == x.f.pkt.ip
  let own := fun (t : TrapRec) => t.at_ == x.at_ && t.req.ip == x.f.pkt.ip
    && (match t.req.who with | .ctx id _ => id == x.f.pkt.ctx | .caller _ _ => false)
  let c := (du.cb.filter mine).foldl (fun c e => c.accept e.acc) c
  let c := c.setDuet x.duet { c.duet x.duet with cb := du.cb.filter (fun e => !mine e) }
  let c := { c with excq := c.excq.filter (fun t => !own t) }
  ((x.f.lead.getD {}).effs).foldl (fun c e => c.undoEff x e) c

/-- Bits of FLAGS that only withdrawn firings of a context have set are taken back (R150, R186). -/
def Chan.unflag (c : Chan) (id : Nat) (gone kept : BitVec 8) : Chan :=
  if gone &&& ~~~kept = 0 then c else c.ctxUpd id (fun x => { x with flags := x.flags &&& ~~~(gone &&& ~~~kept) })

/-- The context of a firing left LIVE in the XCLK of its commit, and not by its own window (R186). -/
def Chan.endedBeside (c : Chan) (x : Done) : Bool :=
  c.seenSt x.f.pkt.ctx.toNat == .live && !c.live x.f.pkt.ctx.toNat && !x.own

/-- The loop that a NEXTIT has gone on with, where a LOOPOUT with FINAL of another window has closed it in the same XCLK (R109). -/
def Chan.closedBeside (c : Chan) (x : Done) : Option Nat :=
  (x.f.lead.getD {}).effs.findSome? (fun e => match e with
    | .nextit _ l => if c.loopOpen l then none else some l
    | _ => none)

/-- A firing that committed in this XCLK, as its end finds it: its outputs, flags and requests are discarded where another window or unit ended
its context in the same XCLK (R186, R187); a NEXTIT creates nothing where its loop has been closed (R109). -/
def Chan.settleOne (c : Chan) (l : List Done) (x : Done) : Chan :=
  let id := x.f.pkt.ctx.toNat
  if c.endedBeside x then
    let kept := (l.filter (fun y => y.f.pkt.ctx == x.f.pkt.ctx && y.own)).foldl (fun a y =>
      a ||| (y.f.lead.getD {}).flags0 ||| (y.f.lead.getD {}).flags1) 0
    ((c.withdraw x).unflag id x.raised kept).cancel id
  else match c.closedBeside x with
    | some e => (c.withdraw x).cause c.xclk id 0x25 x.f.pkt.ip.toNat (BitVec.ofNat 32 e)
    | none => c

/-- The commits of the XCLK that ends are settled. -/
def Chan.settleDone (c : Chan) : Chan :=
  let l := c.done.filter (fun x => x.at_ == c.xclk)
  { l.foldl (fun c x => c.settleOne l x) c with done := [] }

/-- A window fails (R212, R217, R223, R225): the rewind, or a stand-in at the third failure, with a bad comparator, or where a RETIRE waits. -/
def Chan.failDuet (c : Chan) (now d : Nat) : Chan :=
  let x := c.duet d
  let n := x.attempts + 1
  let c := c.setDuet d { x with attempts := n }
  if x.cmpBad then c.startStandIn now d 2
  else if 3 ≤ n then c.startStandIn now d 1
  else if x.retire then c.startStandIn now d 3
  else (c.flushDuet d).joinDue now d

/-- Counts of a comparison that is no match (R215, R221, R222). DESIGN CHOICE (log entry 54): REWIND counts the third failure too, which starts a
stand-in in place of a rewind (R217, R240). -/
def Chan.countFail (c : Chan) (w : Win) (cf : CmpFault) : Chan :=
  let r := w.wires cf
  let c := c.inc F.lfCntRewind
  let c := if r = (1, 1) ∨ r = (2, 2) then c else c.inc F.lfCntChkerr
  if !w.agree cf && w.sl != w.sf then c.inc F.lfCntAsync else c

/-! ## Callers' windows (R234, R235, R479, R492) -/

/-- Releases the inbox entries that a window's instructions took (R513). -/
def Chan.releaseTaken (c : Chan) (n : Nat) (w : Win) : Chan :=
  let x := c.caller n
  let l := x.released w
  let c := c.setCaller n { x with inbox := x.inbox.filter (fun e => !l.contains e) }
  l.foldl (fun c e => c.release c.cclk e.src) c

/-- A caller in HALTED or FAULTED starts at START, in the normal bank, with IE 0 and the privilege of PRIV (R479). -/
def Chan.startCaller (c : Chan) (n : Nat) : Chan :=
  let x := c.caller n
  if x.st = .halted ∨ x.st = .faulted then
    c.setCaller n { x with
      st := .running, exc := [], wait := {},
      csrs := { x.csrs with
        ip := BitVec.ofNat 16 (c.fld (F.ccCallStart n)),
        status := (x.csrs.status &&& 0x2A) ||| (if c.flag (F.ccCallPriv n) then 0x04 else 0) } }
  else c

/-- A caller that is to halt and has no uncommitted window takes HALTED, and its inbox returns (R479, R513). It starts again when
RUN has been written 1 meanwhile (log entry 24). -/
def Chan.haltIfDue (c : Chan) (n : Nat) : Chan :=
  let x := c.caller n
  if x.halting ∧ x.wins = [] then
    let c := (c.setCaller n { x with st := .halted, halting := false, wait := {}, exc := [] }).returnInbox n
    if c.flag (F.ccCallRun n) then c.startCaller n else c
  else c

/-- The oldest window of a caller commits; each instruction acts with the CSRs and the privilege with which it executed (R477, R487). -/
def Chan.commitCaller (c : Chan) (n : Nat) (w : Win) : Chan :=
  let c := w.firings.foldl (fun c f =>
    let r := f.lead.getD {}
    let a : Actor := { ctx := f.pkt.ctx.toNat, ip := f.pkt.ip.toNat, supv := f.csrs.status.getLsbD 2, caller := some n }
    r.effs.foldl (fun c e => c.applyEff c.xclk a f.csrs .none e) c) c
  let c := c.releaseTaken n w
  let x := c.caller n
  let ents := w.firings.flatMap (fun f => commitEnts f .none (f.lead.getD {}) (f.lead.getD {}).ents)
  let rest := x.wins.drop 1
  let ip := match rest with
    | v :: _ => (match v.ckpt with | some k => k.csrs.ip | none => x.csrs.ip)
    | [] => x.csrs.ip
  let c := { c with ms := { c.ms with stall := 0, commitAt := some c.xclk } }
  let c := c.setCaller n { x with wins := rest, cb := x.cb ++ ents, attempts := 0, replay := false, ipDone := ip }
  (c.wrapInc F.lfCommitsWindows).haltIfDue n

/-- A caller's rewind restores the checkpoint of the failed window and forgets what was made since (R212, R235). -/
def Chan.rewindCaller (c : Chan) (n : Nat) (w : Win) : Chan :=
  let x := c.caller n
  let c := (x.wins.flatMap (·.firings)).foldl (fun c f => c.giveBack f.grant) c
  let c := c.giveBack x.grant
  let k := w.ckpt.getD x.ckpt
  c.setCaller n { x with
    csrs := k.csrs, normal := k.normal, fast := k.fast, follow := [], reqs := k.reqs, wins := [], grant := none, st := .running, wait := {},
    exc := x.exc.filter (·.late), replay := true, again := some w.wseq,
    inbox := x.inbox.map (fun (e : InEntry) => match e.taken with
      | .waitev _ => { e with taken := .nobody }
      | _ => e) }

/-- Physical duet REWIND count of a caller (R494). -/
def Chan.countCallerRewind (c : Chan) (n : Nat) : Chan :=
  match (c.caller n).phys with
  | some m => c.inc (F.ccPhysRewind m)
  | none => c

/-! ## Stand-ins of callers (R236, R490) -/

/-- The physical duet in role SPARE that no stand-in has taken. -/
def Chan.freePhys (c : Chan) : Option Nat :=
  (List.range 5).find? (fun m => c.fld (F.ccPhysRole m) == roleSpare && !c.callers.any (fun e => e.2.standIn == some m))

/-- A physical caller duet is retired with a cause. -/
def Chan.retirePhys (c : Chan) (m cause : Nat) : Chan :=
  ((c.setFld (F.ccPhysRole m) roleRetired).setFld (F.ccPhysCause m) cause).setFld (F.ccPhysServes m) 7

/-- A reset of a caller's execution (R475, R479): windows and checkpoint discarded, both banks cleared, its waiters and its locks
are no longer its own. -/
def Chan.clearCaller (c : Chan) (n : Nat) : Chan :=
  let x := c.caller n
  let c := (x.wins.flatMap (·.firings)).foldl (fun c f => c.giveBack f.grant) c
  let c := c.giveBack x.grant
  let mine := fun (w : Who) => match w with | .caller m _ => m == n | .ctx _ _ => false
  let c := { c with
    qu := { c.qu with waiters := c.qu.waiters.filter (fun w => !mine w.req.who) },
    locks := c.locks.map (fun (e : Nat × Lock) => (e.1, { e.2 with waiters := e.2.waiters.filter (fun w => !mine w.who) })) }
  let k := match x.wins with
    | w :: _ => (match w.ckpt with | some k => k.csrs | none => x.csrs)
    | [] => x.csrs
  c.setCaller n { x with csrs := k, normal := [], fast := [], follow := [], cmpBad := false, wins := [], reqs := [], grant := none, exc := [], wait := {},
                         gen := x.gen + 1, halting := false, retire := false, attempts := 0, replay := false, again := none }

/-- A caller becomes LOST (R490, R513). -/
def Chan.loseCaller (c : Chan) (n : Nat) : Chan :=
  let c := c.clearCaller n
  let x := c.caller n
  ((c.setCaller n { x with st := .lost, phys := none, standIn := none }).returnInbox n).inc F.ccCntLost

/-- CL0 is served by a physical duet taken from another caller: it restarts at CC_STEW.RESTART (R490). -/
def Chan.restartSteward (c : Chan) (m : Nat) : Chan :=
  let c := c.clearCaller 0
  let x := c.caller 0
  let c := (c.setFld (F.ccPhysRole m) roleServing).setFld (F.ccPhysServes m) 0
  (c.setCaller 0 { x with
    st := .running, phys := some m, standIn := none,
    csrs := { x.csrs with ip := BitVec.ofNat 16 (c.fld F.ccStewRestart),
                          status := (x.csrs.status &&& 0x2A) ||| 0x04 } }).returnInbox 0

/-- The lowest-numbered caller among CL1 to CL3 that is not LOST. -/
def Chan.victimCaller (c : Chan) : Option Nat := [1, 2, 3].find? (fun n => (c.caller n).st != .lost)

/-- A caller's duet fails with no SPARE left (R490). -/
def Chan.noSparePhys (c : Chan) (n cause : Nat) : Chan :=
  let c := match (c.caller n).phys with | some m => c.retirePhys m cause | none => c
  if n ≠ 0 then (c.loseCaller n).raise 26
  else match c.victimCaller with
    | some v =>
      let m := (c.caller v).phys
      let c := (c.loseCaller v).raise 26
      let c := c.raiseDev (0x10 + c.idx)
      match m with
      | some m => c.restartSteward m
      | none => c.loseCaller 0
    | none => (c.loseCaller 0).raiseDev (0x10 + c.idx)

/-- A stand-in of caller n starts (R490): by the SPARE duet, or the outcomes with none. Its windows are discarded to the oldest
checkpoint. -/
def Chan.startCallerStandIn (c : Chan) (n cause : Nat) : Chan :=
  match c.freePhys with
  | none => c.noSparePhys n cause
  | some m =>
    let c := match (c.caller n).wins with
      | w :: _ => c.rewindCaller n w
      | [] => c
    c.setCaller n { c.caller n with standIn := some m, standCause := cause, retire := false, cmpBad := false, attempts := 0,
                                       follow := [] }

/-- The comparators of a unit compare two signatures in this XCLK, for a caller in this CCLK, in place of a test pair (R223, R234). -/
def Chan.comparing (c : Chan) (u : Exe) : Chan :=
  match u with
  | .duet d =>
    let x := c.duet d.val
    if x.cmpAt = some c.xclk then c else c.setDuet d.val { x with cmpAt := some c.xclk, compares := x.compares + 1 }
  | .caller n =>
    let x := c.caller n.val
    if x.cmpAt = some c.cclk then c else c.setCaller n.val { x with cmpAt := some c.cclk, compares := x.compares + 1 }

/-- Test pair n of a comparator (R223): none for equal words, else the bit in which the two words differ. DESIGN CHOICE (log entry 54): the
first pair is equal, and the first bit is bit 0. -/
def testPairAt (n : Nat) : Option Nat := if n % 2 = 0 then none else some (n / 2 % 64)

/-- The test pair that the comparators of a unit take in an XCLK, for a caller a CCLK, without a comparison (R223, R234). -/
def Chan.testPair (c : Chan) (u : Exe) : Option Nat :=
  match u with
  | .duet d => testPairAt (c.xclk - (c.duet d.val).compares)
  | .caller n => testPairAt (c.cclk - (c.caller n.val).compares)

/-- WINDOW_COMPARE (R208, R209, R212, R217, R221 to R224): the oldest window, closed, commits or fails. -/
def execWindowCompare (k : Ch) (u : Exe) (cf : CmpFault) (s : State) : Host.Outcome State Fault Refusal :=
  onCh k s (fun _ c =>
    match u with
    | .duet d =>
      match (c.duet d.val).wins with
      | [] => c
      | w :: _ =>
        if !w.closed || w.busy then c
        else
          let c := (if cf.dlpar then c.inc F.lfCntDlpar else c).comparing u
          if w.matched cf then c.commitDuet c.xclk d.val w
          else ((c.countFail w cf).inc (F.lfDuetRewind d.val)).failDuet c.xclk d.val
    | .caller n =>
      match (c.caller n.val).wins with
      | [] => c
      | w :: _ =>
        if !w.closed then c
        else
          let c := (if cf.dlpar then c.inc F.lfCntDlpar else c).comparing u
          if w.matched cf then
            let c := c.commitCaller n.val w
            if (c.caller n.val).wins ≠ [] then c
            else if (c.caller n.val).cmpBad then c.startCallerStandIn n.val 2
            else if (c.caller n.val).retire then c.startCallerStandIn n.val 3 else c
          else
            let c := (c.countFail w cf).countCallerRewind n.val
            let x := c.caller n.val
            let c := c.setCaller n.val { x with attempts := x.attempts + 1 }
            if x.cmpBad then c.startCallerStandIn n.val 2
            else if 3 ≤ x.attempts + 1 then c.startCallerStandIn n.val 1 else c.rewindCaller n.val w)

/-! ## Drain (R67, R210, R211, R433) -/

/-- What a check refuses is raised in the firing's context, or as the caller's exception. -/
def Chan.drainCause (c : Chan) (u : Exe) (e : CEntry) (cause : Nat) (d : BitVec 32) : Chan :=
  match u with
  | .duet _ => c.cause c.xclk e.ctx.toNat cause e.ip.toNat d
  | .caller n => c.causeBy c.xclk { ctx := e.ctx.toNat, ip := e.ip.toNat, supv := false, caller := some n.val } cause d

/-- The request would wait at its unit, and no waiter record is free: its entry stays in the commit buffer (R333, R374). -/
def Chan.noWaitRecord (c : Chan) (r : Req) : Bool :=
  match r.kind with
  | .qpop q => (c.unitOp 0 0 q r ⟨false, false, false, false⟩).isNone
  | .acq => (c.unitLock 0 r).isNone
  | _ => false

/-- Sends a committed entry from a tile's router port; none while it has to wait. The action of an effect entry took place at the commit. -/
def Chan.drainEntry (c : Chan) (u : Exe) (tile : Nat) (e : CEntry) : Option Chan :=
  match e.ent with
  | .eff => some c
  | .tok t =>
    match c.reach t with
    | some cause => some (((c.accept e.acc).countReach t cause).drainCause u e cause (reachDetail t))
    | none =>
      if c.injectRoom tile false 1 then
        let ep := c.curEpoch
        some ((c.sendRaw t (c.route (tagDev t.tag) ep 7) false e.acc tile).countEpoch (tagDev t.tag) ep)
      else none
  | .req q =>
    let q := { q with cb := match u with | .duet d => d.val | .caller n => 68 + n.val }
    if c.injectRoom tile false (reqFlits q + 1) && !c.noWaitRecord q then some (c.inject tile (c.reqPkt q)) else none

/-- Takes the head entry of the commit buffer of a unit. -/
def Chan.dropEntryOf (c : Chan) (u : Exe) : Chan :=
  match u with
  | .duet d => c.setDuet d.val { c.duet d.val with cb := (c.duet d.val).cb.drop 1 }
  | .caller n => c.setCaller n.val { c.caller n.val with cb := (c.caller n.val).cb.drop 1 }

/-- COMMIT_BUFFER_DRAIN (R210, R211): the head entry of the commit buffer, with what its code finds; it drains from the XCLK after its commit on
(log entry 51). -/
def execCommitBufferDrain (k : Ch) (u : Exe) (e : Ecc) (s : State) : Host.Outcome State Fault Refusal :=
  onCh k s (fun _ c =>
    let cb := match u with | .duet d => (c.duet d.val).cb | .caller n => (c.caller n.val).cb
    let tile := match u with | .duet d => c.portTile d.val | .caller _ => unitAt tileCall
    match cb with
    | [] => c
    | x :: _ =>
      if x.at_ = some c.xclk then c
      else match e with
      | .uncorrectable =>
        (((c.dropEntryOf u).accept x.acc).inc F.lfCnt2Cbuncorr).poisonCtx c.xclk x.ctx.toNat
      | .corrected => (((c.dropEntryOf u).inc F.lfCnt2Cbcorr).drainEntry u tile x).getD c
      | .clean => ((c.dropEntryOf u).drainEntry u tile x).getD c)

end Sys2Proof.Machine
end

