-- ==== Sys2Proof/Machine/Standin.lean ====
section
/-! DEFINITION. Stand-ins, self-tests and retirement of duets and callers, the LF registers' commands, the rebuild of ready queues, and
the control of callers (R223 to R233, R236 to R245, R338, R479, R490). -/

namespace Sys2Proof.Machine

/-! ## Stand-ins of duets -/

/-- Duet sp takes role SERVING for tile t, in replay mode (R226, R228). -/
def Chan.takeTile (c : Chan) (sp t : Nat) (wseq : BitVec 32) (again : Option (BitVec 32)) : Chan :=
  let c := ((c.setFld (F.lfDuetRole sp) roleServing).setFld (F.lfDuetServes sp) t).setFld (F.lfDuetServes2 sp) noTile
  c.putDuet sp { cb := (c.duet sp).cb, wseq := wseq, again := again, replay := true }

/-- Step 5 of a stand-in (R228); a second tile of a duet in role DOUBLE goes to a partner (R230). A tile that is being handed over stays with
the duet that takes it (R233). -/
def Chan.standInDone (c : Chan) (now d : Nat) (si : StandIn) : Chan :=
  let x := c.duet d
  match (c.tilesOf d).filter (fun t => !c.handed t) with
  | [] => c.retireDuet d si.cause.toNat
  | t :: r =>
    let k := si.cause.toNat
    let c := (c.retireDuet d k).takeTile si.spare t x.wseq x.again
    let c := ((c.lfLast d si.spare k t (now - si.since)).inc F.lfCnt2Standin).raise 12
    r.foldl (fun c t => c.giveTile now d t k si.since) c

/-- The lowest DOUBLE-served or dark tile of a set (R233): a tile of a DOUBLE duet, or one that no duet serves and none is to take. DESIGN
CHOICE (log entry 54): while a tile of a DOUBLE duet is being handed over its other tile is not, so that a second SPARE stays SPARE. -/
def Chan.needyTile (c : Chan) (g : Nat) : Option Nat :=
  ((List.range 16).map (fun i => 16 * g + i)).find? (fun t =>
    !c.handed t && !c.duets.any (fun e => e.2.joins.any (fun j => j.tile == t)) && (match c.serverOf t with
    | none => true
    | some e => c.role e == roleDouble && !(c.tilesOf e).any c.handed))

/-- A hand-over of tile t to the retested duet sp begins (R233): the flush of the duet that serves it. -/
def Chan.startHandOver (c : Chan) (now sp t : Nat) : Chan :=
  let c := match c.serverOf t with | some e => c.flushDuet e | none => c
  c.setDuet sp { c.duet sp with standIn := some { cause := 6, since := now, spare := sp, handOver := some t } }

/-- The duet that served tile t keeps its other tile alone. -/
def Chan.leaveTile (c : Chan) (e t : Nat) : Chan :=
  match (c.tilesOf e).filter (fun u => u != t) with
  | u :: _ => ((c.setFld (F.lfDuetRole e) roleServing).setFld (F.lfDuetServes e) u).setFld (F.lfDuetServes2 e) noTile
  | [] => ((c.setFld (F.lfDuetRole e) roleSpare).setFld (F.lfDuetServes e) noTile).setFld (F.lfDuetServes2 e) noTile

/-- The end of a hand-over (R233): the tile leaves its DOUBLE duet and goes to the retested one. DESIGN CHOICE (log entry 49): that duet
starts with WSEQ 0. -/
def Chan.handOverDone (c : Chan) (now sp t since : Nat) : Chan :=
  let c := match c.serverOf t with
    | some e => c.leaveTile e t
    | none => c
  let c := c.takeTile sp t 0 none
  ((c.lfLast 0x7F sp 6 t (now - since)).inc F.lfCnt2Standin).raise 12

/-- The stand-in or hand-over of duet d ends, with the outcome of the spare's self-test (R226 to R230, R233); a hand-over has none. -/
def Chan.standInOver (c : Chan) (now d : Nat) (si : StandIn) (pass : Bool) : Chan :=
  match si.handOver with
  | some t => (c.setDuet d { c.duet d with standIn := none }).handOverDone now d t si.since
  | none => if pass then c.standInDone now d si else (c.retireDuet si.spare 4).retireNoSpare now d si.cause.toNat si.since

/-- STAND_IN_COMPLETE: the spare of duet d's stand-in has finished its self-test. -/
def execStandInComplete (k : Ch) (d : DuetId) (pass : Bool) (s : State) : Host.Outcome State Fault Refusal :=
  onCh k s (fun _ c =>
    match (c.duet d.val).standIn with
    | none => c
    | some si => c.standInOver c.xclk d.val si pass)

/-- A wrong result of a duet's comparator on a test pair (R223, R225). -/
def Chan.duetTestFails (c : Chan) (d : Nat) : Chan :=
  if (c.tilesOf d).isEmpty || (c.duet d).standIn.isSome || (c.duet d).cmpBad || (c.duet d).cmpAt == some c.xclk then c
  else
    let c := (c.setDuet d { c.duet d with cmpBad := true }).raise 14
    if (c.duet d).wins.isEmpty then c.startStandIn c.xclk d 2 else c

/-- A wrong result of a caller's comparator on a test pair (R223, R234, R490): its open window closes, and a stand-in starts once no window is
uncommitted. -/
def Chan.callerTestFails (c : Chan) (n : Nat) : Chan :=
  let x := c.caller n
  if x.phys.isNone || x.standIn.isSome || x.cmpBad || x.cmpAt == some c.cclk then c
  else
    let c := (c.setCaller n { x with cmpBad := true, wins := closeNewest x.wins }).raise 14
    if x.wins.isEmpty then c.startCallerStandIn n 2 else c

/-- COMPARATOR_TEST_FAILURE (R223): a wrong result on the test pair of an XCLK without a comparison raises source 14, and starts a stand-in
once no window is uncommitted. -/
def execComparatorTestFailure (k : Ch) (u : Exe) (s : State) : Host.Outcome State Fault Refusal :=
  onCh k s (fun _ c => match u with | .duet d => c.duetTestFails d.val | .caller n => c.callerTestFails n.val)

/-- A duet is named by a stand-in as its taker. -/
def Chan.taken (c : Chan) (sp : Nat) : Bool :=
  c.duets.any (fun e => match e.2.standIn with | some si => si.spare == sp | none => false)

/-- A write of LF_CTL (R229, R239). -/
def Chan.lfCtlWrite (c : Chan) (w : Word) (lo hi : Nat) : Chan :=
  let c := c.wrFields 0x2008 w lo hi
  if decide (lo = 0) && wbit w 1 then
    (List.range 68).foldl (fun c d =>
      if c.role d = roleSpare ∧ c.taken d = false then c.setDuet d { c.duet d with testing := true } else c) c
  else c

/-- SPARETEST. -/
def execSparetest (k : Ch) (p : Party) (w : Word) (s : State) : Host.Outcome State Fault Refusal :=
  onCh k s (fun _ c => c.regWrite p 0x2008 w (fun c => c.lfCtlWrite w 0 64))

/-- SPARE_SELF_TEST_COMPLETE (R229): the test of the lowest SPARE of set g that runs one. -/
def execSpareSelfTestComplete (k : Ch) (g : SetId) (pass : Bool) (s : State) : Host.Outcome State Fault Refusal :=
  onCh k s (fun _ c =>
    match (List.range 68).find? (fun d => duetSet d == g.val && c.role d == roleSpare && (c.duet d).testing) with
    | none => c
    | some d =>
      if pass then c.setDuet d { c.duet d with testing := false }
      else (c.retireDuet d 4).lfLast d 0x7F 4 0 0)

/-- A RETIRE of a SPARE that a stand-in or a hand-over has taken (R225): it takes role RETIRED all the same. DESIGN CHOICE (log entry 54): the
stand-in goes on under R230, as where the spare's self-test fails; a hand-over leaves its tile as it was. -/
def Chan.retireTaken (c : Chan) (now d : Nat) : Chan :=
  match c.duets.find? (fun e => e.1 != d && (match e.2.standIn with | some si => si.spare == d | none => false)) with
  | some e =>
    match e.2.standIn with
    | some si => ((c.retireDuet d 3).lfLast d 0x7F 3 0 0).retireNoSpare now e.1 si.cause.toNat si.since
    | none => c
  | none => (c.retireDuet d 3).lfLast d 0x7F 3 0 0

/-- A write of CMD to LF_DUETn (R225, R233). -/
def Chan.duetCmd (c : Chan) (now d cmd : Nat) : Chan :=
  let r := c.role d
  if cmd = 1 ∧ r = roleRetired then c.setFld (F.lfDuetRole d) roleTesting
  else if cmd = 2 ∧ (r = roleServing ∨ r = roleDouble) ∧ (c.duet d).standIn.isNone then
    (if (openWin (c.duet d).wins).isSome then c.setDuet d { c.duet d with retire := true } else c.startStandIn now d 3)
  else if cmd = 2 ∧ r = roleSpare then c.retireTaken now d
  else c

/-- DUET_RETEST: a write to LF_DUETn. -/
def execDuetRetest (k : Ch) (p : Party) (d : DuetId) (w : Word) (s : State) : Host.Outcome State Fault Refusal :=
  onCh k s (fun _ c => c.regWrite p (0x2100 + 8 * d.val) w (fun c => c.duetCmd c.xclk d.val (wbits w 0 4)))

/-- DUET_RETIRE: a write to LF_DUETn. -/
def execDuetRetire (k : Ch) (p : Party) (d : DuetId) (w : Word) (s : State) : Host.Outcome State Fault Refusal :=
  onCh k s (fun _ c => c.regWrite p (0x2100 + 8 * d.val) w (fun c => c.duetCmd c.xclk d.val (wbits w 0 4)))

/-- RETEST_COMPLETE (R233): SPARE, with the hand-over of a needy tile of its set begun at once, or RETIRED with cause 4. -/
def execRetestComplete (k : Ch) (d : DuetId) (pass : Bool) (s : State) : Host.Outcome State Fault Refusal :=
  onCh k s (fun _ c =>
    if c.role d.val ≠ roleTesting then c
    else if !pass then (c.setFld (F.lfDuetRole d.val) roleRetired).setFld (F.lfDuetCause d.val) 4
    else
      let c := c.setFld (F.lfDuetRole d.val) roleSpare
      match c.needyTile (duetSet d.val) with
      | none => c
      | some t => c.startHandOver c.xclk d.val t)

/-- LF_INJ_ARM (R244). -/
def execLfInjArm (k : Ch) (p : Party) (w : Word) (s : State) : Host.Outcome State Fault Refusal :=
  onCh k s (fun _ c => c.regWrite p 0x2030 w (fun c => c.wrFields 0x2030 w))

/-- LF_WIN_WRITE (R200, R238): open windows of another length close at a boundary. -/
def execLfWinWrite (k : Ch) (p : Party) (w : Word) (s : State) : Host.Outcome State Fault Refusal :=
  onCh k s (fun _ c => c.regWrite p 0x2000 w (fun c => c.wrFields 0x2000 w))

/-! ## Rebuild (R338) -/

/-- A MATCHED primary entry that no record of the pool and no held packet names. -/
def Chan.rebuilt (c : Chan) (t e : Nat) (x : MEntry) : Bool :=
  x.st == .matched
    && !c.ms.pool.any (fun r => r.tile == t && entryNo r.row.toNat r.way.toNat == e)
    && (match (c.tile t).held with | some h => entryNo h.pkt.row.toNat h.pkt.way.toNat != e | none => true)

/-- READY_QUEUE_REBUILD (R338, step 3): packets of the bank's matched entries, in ascending entry number, checked under R184. -/
def execReadyQueueRebuild (k : Ch) (t : Tile) (s : State) : Host.Outcome State Fault Refusal :=
  onCh k s (fun _ c =>
    let x := c.tile t.val
    if !x.rebuild || x.scanned then c
    else
      let es := (c.ms.entries.filter (fun e => e.1 / 1536 == t.val)).map (fun e => (e.1 % 1536, e.2))
      let c := es.foldl (fun c e =>
        if !c.rebuilt t.val e.1 e.2 then c
        else if !c.live e.2.ctx.toNat then (c.freeKey t.val e.1).cancel e.2.ctx.toNat
        else
          let p := packetOf (c.instr e.2.ip.toNat) e.2 e.1
          c.qPush (8 * t.val + p.prio.toNat) (packetWord p)) c
      c.setTile t.val { c.tile t.val with scanned := true })

/-- REBUILD_COMPLETE (R338, step 4). -/
def execRebuildComplete (k : Ch) (t : Tile) (s : State) : Host.Outcome State Fault Refusal :=
  onCh k s (fun _ c =>
    let x := c.tile t.val
    if x.rebuild && x.scanned then c.setTile t.val { x with rebuild := false, scanned := false } else c)

/-! ## Control of callers (R479) -/

/-- HALT, or RUN from 1 to 0: the caller halts at its next window boundary. -/
def Chan.haltCaller (c : Chan) (n : Nat) : Chan :=
  let x := c.caller n
  if x.st = .running ∨ x.st = .waiting ∨ x.st = .waitev then
    (c.setCaller n { x with halting := true, wins := closeNewest x.wins }).haltIfDue n
  else c

/-- RESET (R475, R479, R513). -/
def Chan.resetCaller (c : Chan) (n : Nat) : Chan :=
  let lost := (c.caller n).st = .lost
  let c := c.clearCaller n
  (c.setCaller n { c.caller n with st := if lost then .lost else .halted }).returnInbox n

/-- A write of CC_CALLn; host software's write to CC_CALL0 is ignored while the steward runs. -/
def Chan.callWrite (c : Chan) (p : Party) (n : Nat) (w : Word) (lo hi : Nat) : Chan :=
  if p = .host ∧ n = 0 ∧ c.flag F.ccStewRun then c
  else
    let was := c.flag (F.ccCallRun n)
    let d := c.wrFields (0x30000 + 32 * n) w lo hi
    let cmd := if lo = 0 then wbits w 16 4 else 0
    let d := if cmd = 1 then d.setFld (F.ccCallRun n) 0 else d
    let d := if cmd = 2 then d.resetCaller n else d
    let run := d.flag (F.ccCallRun n)
    if cmd = 1 ∨ (was ∧ !run) then d.haltCaller n
    else if run ∧ !was then d.startCaller n
    else d

/-- CALLER_RUN: a write of CC_CALLn. -/
def execCallerRun (k : Ch) (p : Party) (n : CallerId) (w : Word) (s : State) : Host.Outcome State Fault Refusal :=
  onCh k s (fun _ c => c.regWrite p (0x30000 + 32 * n.val) w (fun c => c.callWrite p n.val w 0 64))

/-- CALLER_STOP: a write of CC_CALLn. -/
def execCallerStop (k : Ch) (p : Party) (n : CallerId) (w : Word) (s : State) : Host.Outcome State Fault Refusal :=
  onCh k s (fun _ c => c.regWrite p (0x30000 + 32 * n.val) w (fun c => c.callWrite p n.val w 0 64))

/-- HALT: a write of CC_CALLn. -/
def execHalt (k : Ch) (p : Party) (n : CallerId) (w : Word) (s : State) : Host.Outcome State Fault Refusal :=
  onCh k s (fun _ c => c.regWrite p (0x30000 + 32 * n.val) w (fun c => c.callWrite p n.val w 0 64))

/-- RESET: a write of CC_CALLn. -/
def execReset (k : Ch) (p : Party) (n : CallerId) (w : Word) (s : State) : Host.Outcome State Fault Refusal :=
  onCh k s (fun _ c => c.regWrite p (0x30000 + 32 * n.val) w (fun c => c.callWrite p n.val w 0 64))

/-! ## Physical duets of callers (R236, R490) -/

/-- The caller that a physical duet serves. -/
def Chan.callerOf (c : Chan) (m : Nat) : Option Nat := (List.range 4).find? (fun n => (c.caller n).phys == some m)

/-- A write of CMD to CC_PHYSm. -/
def Chan.physCmd (c : Chan) (m cmd : Nat) : Chan :=
  let r := c.fld (F.ccPhysRole m)
  if cmd = 1 ∧ r = roleRetired then c.setFld (F.ccPhysRole m) roleTesting
  else if cmd = 2 ∧ r = roleSpare ∧ c.callers.any (fun e => e.2.standIn == some m) = false then c.retirePhys m 3
  else if cmd = 2 ∧ r = roleServing then
    match c.callerOf m with
    | none => c
    | some n =>
      let x := c.caller n
      if x.standIn.isSome then c
      else if x.wins = [] then c.startCallerStandIn n 3
      else c.setCaller n { x with retire := true, wins := closeNewest x.wins }
  else c

/-- CALLER_RETEST: a write of CC_PHYSm. -/
def execCallerRetest (k : Ch) (p : Party) (m : PhysId) (w : Word) (s : State) : Host.Outcome State Fault Refusal :=
  onCh k s (fun _ c => c.regWrite p (0x30100 + 8 * m.val) w (fun c => c.physCmd m.val (wbits w 0 4)))

/-- CALLER_RETIRE: a write of CC_PHYSm. -/
def execCallerRetire (k : Ch) (p : Party) (m : PhysId) (w : Word) (s : State) : Host.Outcome State Fault Refusal :=
  onCh k s (fun _ c => c.regWrite p (0x30100 + 8 * m.val) w (fun c => c.physCmd m.val (wbits w 0 4)))

/-- Physical duet m serves caller n; the stand-in is counted (R490). -/
def Chan.servePhys (c : Chan) (m n : Nat) : Chan :=
  (((c.setFld (F.ccPhysRole m) roleServing).setFld (F.ccPhysServes m) n).inc F.ccCntStandin).raise 25

/-- CALLER_RETEST_COMPLETE (R490): a duet that passes takes role SPARE and at once serves the lowest LOST caller. -/
def execCallerRetestComplete (k : Ch) (m : PhysId) (pass : Bool) (s : State) : Host.Outcome State Fault Refusal :=
  onCh k s (fun _ c =>
    if c.fld (F.ccPhysRole m.val) ≠ roleTesting then c
    else if !pass then (c.setFld (F.ccPhysRole m.val) roleRetired).setFld (F.ccPhysCause m.val) 4
    else
      let c := c.setFld (F.ccPhysRole m.val) roleSpare
      match (List.range 4).find? (fun n => (c.caller n).st == .lost) with
      | none => c
      | some n =>
        let c := c.clearCaller n
        (c.setCaller n { c.caller n with st := .halted, phys := some m.val }).servePhys m.val n)

/-- The stand-in of caller n by physical duet m ends, with the outcome of its self-test (R236, R490). A spare that fails is retired, and the
next one, if any, is tried. -/
def Chan.callerStandInOver (c : Chan) (n m : Nat) (pass : Bool) : Chan :=
  let x := c.caller n
  if pass then
    let c := match x.phys with | some o => c.retirePhys o x.standCause | none => c
    (c.setCaller n { x with standIn := none, phys := some m }).servePhys m n
  else ((c.retirePhys m 4).setCaller n { x with standIn := none }).startCallerStandIn n x.standCause

/-- CALLER_STAND_IN_COMPLETE. -/
def execCallerStandInComplete (k : Ch) (n : CallerId) (pass : Bool) (s : State) : Host.Outcome State Fault Refusal :=
  onCh k s (fun _ c =>
    match (c.caller n.val).standIn with
    | none => c
    | some m => c.callerStandInOver n.val m pass)

end Sys2Proof.Machine
end

