-- ==== Sys2Proof/Machine/Wake.lean ====
section
/-! DEFINITION. The C-states of a channel as one course: when units are quiet, how a transition goes on, what a channel reset
leaves, and the writes of PWR_CTL (R349, R363, R587 to R592, R595, R596, R603, R604, R613; log entry 33). -/

namespace Sys2Proof.Machine

/-! ## When a channel, a set or a domain is idle (R588, R589, R595) -/

/-- A tile's buffers hold no token. -/
def TileSt.empty (x : TileSt) : Bool := x.defer.isEmpty && x.miss.isEmpty && x.held.isNone && x.evict.isNone

/-- The condition of C1 in one XCLK (R588): no packet in a ready queue, no uncommitted window, no token in a tile's buffers. -/
def Chan.allQuiet (c : Chan) : Bool :=
  c.qu.ptrs.all (fun e => decide (512 ≤ e.1) || e.2.held == 0)
    && c.duets.all (fun e => e.2.wins.isEmpty && e.2.stage.isNone) && c.callers.all (fun e => e.2.wins.isEmpty)
    && c.ms.tiles.all (fun e => e.2.empty) && c.ms.cutq.isEmpty && c.net.arrive.all (fun e => e.1 % 8 != 0)

/-- The conditions of R589 on set g in one XCLK. -/
def Chan.setQuiet (c : Chan) (g : Nat) : Bool :=
  c.qu.ptrs.all (fun e => decide (512 ≤ e.1) || setOf (e.1 / 8) != g || e.2.held == 0)
    && c.duets.all (fun e => duetSet e.1 != g || (e.2.wins.isEmpty && e.2.stage.isNone && e.2.standIn.isNone))
    && c.ms.tiles.all (fun e => setOf e.1 != g || e.2.empty) && c.ms.cutq.all (fun e => setOf e.1 != g)
    && c.net.arrive.all (fun e => e.1 % 8 != 0 || setOf (e.1 / 8) != g)
    && c.ms.pool.all (fun r => setOf r.tile != g)
    && (List.range 68).all (fun d => duetSet d != g || c.role d != roleTesting)

/-- MEM's conditions (R363): the accesses that a bank has taken are finished. -/
def Chan.memQuiet (c : Chan) : Bool :=
  c.sp.splits.isEmpty && c.sp.waiting.isEmpty && c.net.arrive.all (fun e => e.1 % 8 != 1) && !c.sp.clearing && !c.progClearing

/-- SPINE's condition (R595): no request is in flight in its units, and no cached record is dirty. -/
def Chan.spineQuiet (c : Chan) : Bool :=
  c.net.arrive.all (fun e => e.1 % 8 == 0 || e.1 % 8 == 1) && c.copies.isEmpty && c.hw.outst.isEmpty && c.excq.isEmpty
    && c.ev.sent.isEmpty && c.ev.msgs.isEmpty && c.ev.backs.isEmpty && c.ev.deliv.isEmpty && c.cu.sweep.isNone && !c.cu.building
    && c.rings.all (fun e => e.2.fetched.isNone) && c.hw.reads.isEmpty && c.crings.all (fun e => e.2.cpls.isEmpty)
    && c.cu.cached.all (fun e => !e.2)

/-- What a DRAIN step waits for (R595). -/
def Chan.drained (c : Chan) (d : Nat) : Bool :=
  if d < 4 then c.setQuiet d
  else match d with
    | 4 => c.memQuiet
    | 5 => c.spineQuiet
    | 6 => c.dm.acc.isEmpty && c.dm.inq.isEmpty && c.dm.train.isNone && c.dm.ended.isNone
    | _ => c.portsAsleep

/-- The conditions of R543. -/
def Chan.ringsRest (c : Chan) : Bool :=
  c.rings.all (fun e => e.2.st == .disabled || e.2.st == .sleep)
    && c.rings.all (fun e => e.2.out == 0 && !e.2.items.any c.itemLive && e.2.busy == 0 && e.2.fetched.isNone) && c.copies.isEmpty
    && c.crings.all (fun e => e.2.cpls.isEmpty && e.2.waitPush.isEmpty)
    && c.qu.ptrs.all (fun e => decide (e.1 < 640) || decide (768 ≤ e.1) || e.2.unread == 0)

/-! ## A channel reset (R349, R603, R604) -/

/-- A duet's event is over at once: the windows of the duet are dropped, what waits for its boundary takes effect. -/
def Chan.settleDuet (c : Chan) (now d : Nat) : Chan :=
  let x := c.duet d
  let c := if x.retire then c.startStandIn now d 3 else if x.cmpBad then c.startStandIn now d 2 else c
  let c := match (c.duet d).standIn with
    | none => c
    | some si => c.standInOver now d si (!Config.standInFails c.idx si.spare now)
  if (c.duet d).joins.isEmpty then c else (c.setDuet d { c.duet d with wins := [] }).joinDue now d

/-- A caller's event is over at once; a stand-in follows the one whose spare fails, up to the last spare. -/
def Chan.settleCaller (c : Chan) (now n : Nat) : Chan :=
  let c := if (c.caller n).retire then c.startCallerStandIn n 3 else c
  (List.range 5).foldl (fun c _ =>
    match (c.caller n).standIn with
    | none => c
    | some m => c.callerStandInOver n m (!Config.standInFails c.idx (128 + m) now)) c

/-- The stand-ins, retirements and hand-overs under way complete, each self-test with either outcome (R228, R604; log entry 33); a second
round serves what the first has given to partners. -/
def Chan.finishStandIns (c : Chan) (now : Nat) : Chan :=
  let c := (List.range 136).foldl (fun c i => c.settleDuet now (i % 68)) c
  (List.range 4).foldl (fun c n => c.settleCaller now n) c

/-- Every borrowed region of the channel is restored, and the Shuffle stops (R363). -/
def Chan.shufStop (c : Chan) : Chan :=
  c.sp.shuf.foldl (fun c e => c.shufEnd e.1) c

/-- Registers that a channel reset keeps whole: the power tables, and the DM block while DRAM stays powered (R604); SP_CFG, whose one
field is KEEP (R383). -/
def keptReg (dram : Bool) (off : Nat) : Bool :=
  (decide (0x1040 ≤ off) && decide (off < 0x1800)) || (dram && decide (0x1A000 ≤ off) && decide (off < 0x1B000)) || off == 0x19000

/-- The word a register holds after a channel reset: its reset value, but for what R604 keeps of LF_DUETn and CC_PHYSm. -/
def Chan.resetWord (c : Chan) (dram : Bool) (off : Nat) (w : Word) : Word :=
  if keptReg dram off then w
  else if 0x2100 ≤ off ∧ off < 0x2320 then
    BitVec.ofNat 64 (wbits w 18 12 <<< 18 + wbits w 12 4 <<< 12 + wbits w 9 3 <<< 9)
  else if 0x30100 ≤ off ∧ off < 0x30128 then BitVec.ofNat 64 (wbits w 21 3 <<< 21 + wbits w 12 4 <<< 12 + wbits w 9 3 <<< 9)
  else c.rst off

/-- The memory that stays: GDDR7 while it stays powered, and the scratchpad while SP_CFG.KEEP is 1 (R349, R604). -/
def keptAddr (dram keep : Bool) (a : Nat) : Bool := if a < dramBase then keep else dram

/-- The channel reset of R604, at XCLK and TIME now. DRAM's registers and contents go with its power (C4); GPIO, ledger notes
and what has left the block are not the channel's registers. A tripped channel stays in its C-state (R601). The service firmware has step 9 of R606 to carry
out, or what of steps 7 to 9 was due before. -/
def Chan.channelReset (c : Chan) (xclk time : Nat) (dram : Bool := true) : Chan :=
  let c := (c.finishStandIns xclk).shufStop
  let keep := c.flag F.spCfgKeep
  let regs := c.regs.foldl (fun (r : Tbl Word) (e : Nat × Word) => tblPut r e.1 (c.resetWord dram e.1 e.2) (c.rst e.1)) []
  let dm : Dram := if dram then { c.dm with acc := [], inq := [], idleSince := time, powerDown := false }
    else { mclk := c.dm.mclk, hard := c.dm.hard, repaired := c.dm.repaired }
  let r : Chan := {
    idx := c.idx, xclk := c.xclk, regs := regs, mem := c.mem.filter (fun e => keptAddr dram keep e.1), poison := c.poison.filter (fun a => keptAddr dram keep a && !isLockAddr a),
    dm := dm,
    sp := { shuf := (c.sp.shuf.map (fun (e : Nat × Shuf) =>
              (e.1, ({ spare := e.2.spare, halted := e.2.halted, haltAt := e.2.haltAt, spent := e.2.spent } : Shuf)))).filter
              (fun e => e.2 != {}) },
    callers := (c.callers.map (fun (e : Nat × Caller) => (e.1, ({ phys := e.2.phys, st := if e.2.phys.isNone then .lost else .halted,
                                                                     gen := e.2.gen + 1 } : Caller)))).filter (fun e => e.2 != { phys := some e.1 }),
    msix := c.msix, readData := c.readData, out := c.out, devEv := c.devEv, notes := c.notes,
    pw :=
      if c.pw.tripped then { c.pw with ready := false, abandon := 0, drainto := 0, wake := false, wakeDoms := [], kicks := [] }
      else { held := c.pw.held, idleSince := xclk, limited := c.pw.limited, thermal := c.pw.thermal, seton := 0xF,
             due := if c.pw.due = 0 then 9 else c.pw.due } }
  if r.dmState = 4 then (r.setFld F.dmTrstatState 3).trainStart time true else r.dmStopIf

/-! ## Operating points (R598, R600, R616) -/

/-- Grade maximum of XCLK (R2). -/
def gradeMhz : Nat := if Config.isE20 then 2000 else 1800

/-- The points in use as (MHz, mV), ascending: valid, at most 800 mV with AGE, at most the grade maximum (R598). -/
def Chan.points (c : Chan) : List (Nat × Nat) :=
  ((List.range 16).filter (fun i => c.flag (F.pwrCurveValid i) && decide (c.fld (F.pwrCurveMv i) + c.fld (F.pwrCurveAge i) ≤ 800)
      && decide (c.fld (F.pwrCurveMhz i) ≤ gradeMhz))).map
    (fun i => (c.fld (F.pwrCurveMhz i), c.fld (F.pwrCurveMv i) + c.fld (F.pwrCurveAge i)))

/-- The cap (R600): the lowest point under the thermal limit, else the points that the power limiter has left. -/
def Chan.capMhz (c : Chan) : Nat :=
  let ps := c.points
  if c.pw.thermal then (ps.headD (gradeMhz, 0)).1
  else if c.pw.limited = 0 then gradeMhz
  else (ps.getD (ps.length - 1 - c.pw.limited) (ps.headD (gradeMhz, 0))).1

/-- The XCLK that the operating curve does not go below: MINMHZ while admission is enabled, but for the thermal limit (R270, R600). -/
def Chan.floorMhz (c : Chan) : Nat := if c.flag F.adCfgEn ∧ !c.pw.thermal then c.fld F.adCfgMinmhz else 0

/-- The point the channel is to run at: the lowest one that reaches the target, else the highest at or below the cap (R270, R598). -/
def Chan.point (c : Chan) : Option (Nat × Nat) :=
  let t := max (min (c.fld F.pwrOppTarget) c.capMhz) c.floorMhz
  match c.points.find? (fun p => decide (t ≤ p.1)) with
  | some p => some p
  | none => (c.points.filter (fun p => decide (p.1 ≤ c.capMhz))).getLast?

/-- CAP of PWR_OPP (R616): what keeps the channel below its target. -/
def Chan.capCode (c : Chan) : Nat :=
  let t := c.fld F.pwrOppTarget
  if c.capMhz < t ∧ c.pw.thermal then 3
  else if c.capMhz < t ∧ c.pw.limited ≠ 0 then 2
  else if gradeMhz < t then 1
  else if c.points.any (fun p => decide (t ≤ p.1)) then 0 else 4

/-- The channel runs at a point: XCLK and voltage. -/
def Chan.runAt (c : Chan) (p : Option (Nat × Nat)) : Chan :=
  match p with
  | none => c
  | some p => { c with pw := { c.pw with mhz := p.1, mv := p.2, cap := c.capCode } }

/-- GAP µs have passed since XCLK was last switched (R582). -/
def Chan.gapOver (c : Chan) (now : Nat) : Bool :=
  c.pw.lastSwitch == 0 || decide (c.pw.lastSwitch + aclkUs * c.fld F.pwrOppGap ≤ now)

/-- The channel goes to a point: where XCLK changes, no sooner than GAP µs after the switch before; a stopped XCLK starts at once (R582; log entry
33). -/
def Chan.switchTo (c : Chan) (now : Nat) (p : Option (Nat × Nat)) : Chan :=
  match p with
  | none => c
  | some q =>
    if q.1 = c.pw.mhz then c.runAt p
    else if c.pw.mhz ≠ 0 ∧ c.gapOver now = false then c
    else
      let c := c.runAt p
      { c with pw := { c.pw with lastSwitch := now } }

/-! ## Transitions (R587 to R592, R595, R596) -/

/-- No program runs in the domains. -/
def Chan.noProg (c : Chan) (ds : List Nat) : Bool := ds.all (fun d => (c.prog? d).isNone)

/-- MEM takes accesses. -/
def Chan.memUp (c : Chan) : Bool := c.domUp 4 && !(c.dom 4).retention

/-- Starts the down programs of the domains that are up. -/
def Chan.startDown (c : Chan) (now : Nat) (ds : List Nat) : Chan :=
  (ds.filter c.domUp).foldl (fun c d => c.startProg now d false c.pw.tripped) c

/-- Starts the up programs of the domains that are down and run none. -/
def Chan.startUp (c : Chan) (now : Nat) (ds : List Nat) : Chan :=
  (ds.filter (fun d => !(if d = 4 then c.memUp else c.domUp d) && (c.prog? d).isNone)).foldl (fun c d => c.startProg now d true) c

/-- FABRIC is to go down: its ports are asleep, or the way leads to C4 (R587, R596). -/
def Chan.fabricDue (c : Chan) : Bool := c.domUp 7 && (c.portsAsleep || c.pw.goal == 4)

/-- The way down to the goal (R587, R596): the sets and FABRIC, MEM, then SPINE and DRAM once FABRIC is off, and the regulator. SWOFF of MEM ends
the way to C4. -/
def Chan.goDown (c : Chan) (now : Nat) : Chan :=
  let c := if c.pw.cst = 0 then { c with pw := { c.pw with cst := 1, c1At := now } } else c
  let sets := [0, 1, 2, 3]
  if c.pw.goal = 1 then c
  else if !c.noProg [0, 1, 2, 3, 7] then c
  else if sets.any c.domUp || c.fabricDue then
    let c := c.startDown now sets
    if c.fabricDue then c.startDown now [7] else c
  else if !c.noProg [4] then c
  else if c.memUp then c.startProg now 4 false c.pw.tripped
  else
    let c := if c.pw.cst < 2 then ({ c with pw := { c.pw with cst := 2, c2At := now } }).switchTo now c.points.head? else c
    if c.pw.goal = 2 ∨ c.domUp 7 ∨ !c.noProg [5, 6] then c
    else if c.domUp 5 || c.domUp 6 then c.startDown now [5, 6]
    else { c with pw := { c.pw with cst := 3, mhz := 0, mv := 0 } }

/-- The sets a wake brings up (R589): those that held packets ask for, and from C2 on, or where sets do not park, all of them
unless only sets and MEM were asked for. -/
def Chan.wantedSets (c : Chan) : List Nat :=
  if (c.pw.wake || c.pw.wakeDoms.any (fun d => decide (4 < d))) && (decide (2 ≤ c.pw.cst) || !c.flag F.pwrCtlSetauto) then [0, 1, 2, 3]
  else (List.range 4).filter (fun g => c.pw.wakeDoms.contains g)

/-- The times since which the sets are idle, all of them now. -/
def idleNow (time : Nat) : Tbl Nat := (List.range 4).foldl (fun m g => tblPut m g time 0) []

/-- The channel is awake: the kicks it holds act (R542), and the idle times of its sets start anew (R589). Held register accesses follow where they are
carried out. -/
def Chan.awake (c : Chan) (xclk time : Nat) : Chan :=
  let ks := c.pw.kicks
  let c := if 2 ≤ c.pw.cst then c.switchTo time c.point else c
  let c := { c with pw := { c.pw with cst := 0, goal := 0, wake := false, wakeDoms := [], regAt := 0, idleSince := xclk, setIdle := idleNow time,
                                      kicks := [] },
                    dm := { c.dm with powerDown := false } }
  Chan.kickAll time ks c

/-- A wake from C4 ends: the channel reset of R592; READY is 0, every scratchpad word is 0 whatever KEEP says (R349), and the service firmware
carries out the steps of R606 from 7 on. -/
def Chan.reborn (c : Chan) (xclk time : Nat) : Chan :=
  let c := ({ c with pw := { c.pw with kicks := [] } }).channelReset xclk time false
  { c with mem := [], poison := [], pw := { c.pw with due := 7 } }

/-- The way up to C0 (R590, R592, R596): the regulator's soft start of 500 ACLK, SPINE and DRAM, then MEM and the wanted sets. -/
def Chan.goUp (c : Chan) (xclk now : Nat) : Chan :=
  let c := if c.pw.wakeDoms.contains 7 then c.startUp now [7] else c
  if c.pw.progs.any (fun e => decide (e.1 ≠ 7) && !e.2.up) then c
  else if !c.domUp 5 then
    if c.pw.regAt = 0 then { c with pw := { c.pw with regAt := now + 500 } }
    else if now < c.pw.regAt then c
    else c.startUp now [5, 6]
  else
    let w := c.wantedSets
    let c := if c.pw.cst = 1 ∧ c.memUp ∧ w.all c.domUp then c else c.startUp now (6 :: 4 :: w)
    if c.noProg [0, 1, 2, 3, 4, 5, 6] ∧ c.domUp 6 ∧ c.memUp ∧ w.all c.domUp then
      (if c.pw.cst = 4 then c.reborn xclk now else c.awake xclk now)
    else c

/-- In C0, parked sets and FABRIC come up for the packets that wait at them (R587, R589). -/
def Chan.goParked (c : Chan) (now : Nat) : Chan :=
  let ds := c.pw.wakeDoms.filter (fun d => !c.domOpen d)
  ({ c with pw := { c.pw with wake := false, wakeDoms := ds } }).startUp now ds

/-- Carries the power transitions of a channel on. -/
def Chan.pwAdvance (c : Chan) (xclk now : Nat) : Chan :=
  if c.pw.cst < c.pw.goal then c.goDown now
  else if c.pw.cst = 0 then c.goParked now
  else if c.pw.goal = 0 then c.goUp xclk now
  else c

/-- A wake that R590 starts: programs on the way down are abandoned before their point of no return, and the channel goes to C0. A
tripped channel stays (R601). -/
def Chan.wakeUp (c : Chan) (xclk now : Nat) : Chan :=
  if c.pw.tripped then c
  else if c.pw.cst = 0 ∧ c.pw.goal = 0 then c.pwAdvance xclk now
  else if c.pw.wake || !c.pw.wakeDoms.isEmpty || c.pw.goal == 0 then
    let c := if c.pw.wake then
        (c.pw.progs.filter (fun e => !e.2.up && !e.2.pnr && e.2.undo.isNone)).foldl (fun c e => c.abandon e.1) c
      else c
    ({ c with pw := { c.pw with goal := 0 } }).pwAdvance xclk now
  else c.pwAdvance xclk now

/-! ## PWR_CTL (R613) -/

/-- A command of PWR_CTL: 1 enter C4, 2 set READY, 3 clear READY, 4 wake to C0, 5 channel reset. -/
def Chan.pwrCmd (c : Chan) (xclk time cmd : Nat) : Chan :=
  match cmd with
  | 1 => if c.pw.cst = 4 then c else ({ c with pw := { c.pw with goal := 4, wake := false, wakeDoms := [] } }).pwAdvance xclk time
  | 2 => { c with pw := { c.pw with ready := true } }
  | 3 => { c with pw := { c.pw with ready := false } }
  | 4 => if c.pw.cst = 0 ∧ c.pw.goal = 0 then c else c.askWake.wakeUp xclk time
  | 5 => c.channelReset xclk time (c.domUp 6 || c.dm.selfRefresh)
  | _ => c

/-- A write of PWR_CTL: while the steward runs, host software can only wake the channel; CMD 5 is the service core's (R613). -/
def Chan.pwrCtlWrite (c : Chan) (dv : Dev) (p : Party) (w : Word) (lo hi : Nat) : Chan :=
  let bound := p == .host && c.flag F.ccStewRun
  let cmd := if lo = 0 then wbits w 0 4 else 0
  let c := if bound then c else c.wrFields 0x1000 w lo hi
  if (bound ∧ cmd ≠ 4) ∨ (cmd = 5 ∧ p ≠ .service) then c else c.pwrCmd c.xclk dv.time cmd

end Sys2Proof.Machine
end

