-- ==== Sys2Proof/Machine/Ledger.lean ====
section
/-! DEFINITION. The life ledger: its records in flash, the buffer of the service firmware, the repair map, and ML_MARGIN (R629, R633 to
R638, R644, R645, R649 to R651; log entry 34). -/

namespace Sys2Proof.Machine

/-! ## Records (R633 to R636) -/

def recStart : BitVec 8 := 0x01
def recHourly : BitVec 8 := 0x02
def recError : BitVec 8 := 0x03
def recRepair : BitVec 8 := 0x04
def recUpdate : BitVec 8 := 0x05
def recStall : BitVec 8 := 0x06
def recMargin : BitVec 8 := 0x07
def recStartfail : BitVec 8 := 0x08
def recAging : BitVec 8 := 0x09
def recCopy : BitVec 8 := 0x0A

/-- Bytes 0 to 15 + LEN of a record (R634). -/
def LedgerRec.body (r : LedgerRec) : List Byte :=
  valBytes 0x4C47 2 ++ [r.ty, 1] ++ valBytes r.payload.length 2 ++ valBytes 0 2 ++ valBytes r.seq.toNat 4 ++ valBytes r.hours.toNat 4
    ++ r.payload

/-- A record from MAGIC to COMMIT (R634, R635). -/
def LedgerRec.bytes (r : LedgerRec) : List Byte :=
  r.body ++ valBytes (crc32 r.body).toNat 4 ++ [if r.committed then 0x5A else 0xFF]

/-- Slots of 64 bytes that a record with a payload of n bytes occupies (R634). -/
def recSlots (n : Nat) : Nat := (n + 21 + 63) / 64

/-- Sectors of the ledger, and slots of a sector (R633). -/
def ledgerSectors : Nat := 128
def sectorSlots : Nat := 1024

/-- Records of a sector. -/
def Service.recs (v : Service) (i : Nat) : List LedgerRec := tblGet v.flash i []

/-- Slots written in a sector. -/
def Service.used (v : Service) (i : Nat) : Nat := ((v.recs i).map (fun r => recSlots r.payload.length)).foldl (· + ·) 0

/-- Erased sectors (R637, R650). -/
def Service.erased (v : Service) : Nat := (List.range ledgerSectors).countP (fun i => (v.recs i).isEmpty)

/-- The sectors from the oldest on: the ring after the sector in use (R633). -/
def Service.ringOrder (v : Service) : List Nat := (List.range ledgerSectors).map (fun i => (v.sector + 1 + i) % ledgerSectors)

/-- The counted records, oldest first (R635). -/
def Service.counted (v : Service) : List LedgerRec := (v.ringOrder.flatMap v.recs).filter (·.committed)

/-- The sector that takes a record of n payload bytes: the one in use, or the next where it is erased, or where no record in it counts and there is
room (R635). -/
def Service.place (v : Service) (n : Nat) : Option Nat :=
  let next := (v.sector + 1) % ledgerSectors
  if v.used v.sector + recSlots n ≤ sectorSlots then some v.sector
  else if (v.recs next).all (fun r => !r.committed) ∧ v.used next + recSlots n ≤ sectorSlots then some next
  else none

/-- Programs a record; one that is not committed takes up its place and no SEQ (R634, R635, R638). -/
def Service.append (v : Service) (b : LedgerBuf) (ok : Bool) : Option Service :=
  match v.place b.payload.length with
  | none => none
  | some i =>
    some { v with sector := i, seqNext := if ok then v.seqNext + 1 else v.seqNext,
                  flash := tblIns v.flash i (v.recs i ++ [{ ty := b.ty, seq := v.seqNext, hours := v.hours, payload := b.payload, committed := ok }]) }

/-- ML_LSTAT as the service firmware keeps it (R650). -/
def Dev.showLstat (d : Dev) : Dev :=
  d.wr 0x2308 (BitVec.ofNat 64 (d.svc.seqNext.toNat <<< 32 + d.svc.erased <<< 24 + d.svc.fail))

/-- The flash reports an error: source 0x35 (R518; log entry 32). -/
def Dev.flashError (d : Dev) : Dev := d.raise 0x35

/-- A record is not written: FAIL, and source 0x34 (R638, R650). -/
def Dev.recLost (d : Dev) : Dev :=
  (({ d with svc := { d.svc with fail := min 0xFFFF (d.svc.fail + 1) } } : Dev).raise 0x34).showLstat

/-- A record comes into the buffer of 64 (R638). -/
def Dev.note (d : Dev) (ty : BitVec 8) (payload : List Byte) : Dev :=
  if d.svc.buffer.length < 64 then { d with svc := { d.svc with buffer := d.svc.buffer ++ [{ ty := ty, payload := payload }] } }
  else d.recLost

/-! ## The repair map (R629) -/

/-- An entry of the repair map. -/
structure Repair where
  kind : Nat
  ch : Nat
  unit_ : Nat
  region : Nat
  hours : Nat
  deriving DecidableEq, Repr

def Repair.bytes (r : Repair) : List Byte :=
  valBytes r.kind 1 ++ valBytes r.ch 1 ++ valBytes r.unit_ 2 ++ valBytes r.region 4 ++ valBytes r.hours 4 ++ valBytes 0 4

/-- The entry in the payload of a REPAIR record. -/
def Repair.ofBytes (b : List Byte) : Repair :=
  { kind := imgNat b 0 1, ch := imgNat b 1 1, unit_ := imgNat b 2 2, region := imgNat b 4 4, hours := imgNat b 8 4 }

/-- Bytes 0 to 7 of an entry as they sort. -/
def Repair.key (r : Repair) : Nat := beVal (r.bytes.take 8)

def Repair.same (a b : Repair) : Bool := a.kind == b.kind && a.ch == b.ch && a.unit_ == b.unit_ && a.region == b.region

/-- The type and payload of a record, of the record that a COPY holds where it is one, and the SEQ it had first (R636, R637). -/
def LedgerRec.original (r : LedgerRec) : BitVec 8 × Nat × List Byte :=
  if r.ty = recCopy then (r.payload.getD 4 0, imgNat r.payload 0 4, r.payload.drop 5) else (r.ty, r.seq.toNat, r.payload)

/-- The entries of the REPAIR records, each once. -/
def Service.noted (v : Service) : List Repair :=
  let l := (v.counted.map LedgerRec.original).filter (fun x => x.1 == recRepair)
  (l.map (fun x => Repair.ofBytes x.2.2)).foldl (fun m e => if m.any e.same then m else m ++ [e]) []

/-- The repair map: the entries noted, in ascending order of bytes 0 to 7 (R629). A region of an array other than a scratchpad bank, recorded with
the array's number in place of a bank, is not of the map (R627, R630; DESIGN CHOICE, log entry 34). -/
def Service.repairs (v : Service) : List Repair :=
  sortBy (fun a b => decide (a.key ≤ b.key)) (v.noted.filter (fun r => r.kind != 3 || decide (r.unit_ < 64)))

/-- M6: the digest of the repair map (R629). -/
def Service.mapDigest (v : Service) : Digest := sha384 (v.repairs.flatMap Repair.bytes)

/-- The directory record in force for an object: the last that counts (R607, R635). -/
def Service.active (v : Service) (obj : Nat) : Option DirRec := (v.dir.filter (fun r => r.committed && r.obj == obj)).getLast?

/-- The active bank of an object; bank 0 where no directory record names one. -/
def Service.activeBank (v : Service) (obj : Nat) : Bool := match v.active obj with | some r => r.bank | none => false

/-- The kinds of repair that a source reports (R228, R230, R367, R409, R490, R636). -/
def repairKind (src : Nat) : Nat :=
  if src = 12 ∨ src = 13 then 1 else if src = 25 then 2 else if src = 18 then 3 else if src = 22 then 4 else 0

/-- The repairs of a kind in force in a channel, with their causes (R629): retired duets and caller duets, regions of the arrays
in a copy, and the rows repaired in service, a row's unit being bank + 256 x device. -/
def Chan.inForce (c : Chan) (kind hours : Nat) : List (Repair × Nat) :=
  match kind with
  | 1 => ((List.range 68).filter (fun d => c.role d == roleRetired)).map (fun d => (⟨1, c.idx, d, 0, hours⟩, c.fld (F.lfDuetCause d)))
  | 2 => ((List.range 5).filter (fun m => c.fld (F.ccPhysRole m) == roleRetired)).map
      (fun m => (⟨2, c.idx, m, 0, hours⟩, c.fld (F.ccPhysCause m)))
  | 3 => c.sp.shuf.flatMap (fun e =>
      (match e.2.spare with | some r => [(⟨3, c.idx, e.1, r, hours⟩, 0)] | none => [])
        ++ (if e.2.halted then [(⟨3, c.idx, e.1, e.2.haltAt, hours⟩, 0)] else []))
  | 4 => c.dm.repaired.map (fun r => (⟨4, c.idx, r.bank.val + 256 * b2n r.dev, r.row.toNat, hours⟩, 0))
  | _ => []

/-- The payload of a REPAIR record: the entry and its cause (R636). -/
def repairPayload (r : Repair × Nat) : List Byte := r.1.bytes ++ valBytes r.2 1

/-- The REPAIR records for what is in force in a channel and neither counted nor buffered. -/
def Dev.noteRepairs (d : Dev) (c : Chan) (kind : Nat) : Dev :=
  (c.inForce kind d.svc.hours.toNat).foldl (fun (d : Dev) r =>
    let known := d.svc.noted ++ ((d.svc.buffer.filter (fun b => b.ty == recRepair)).map (fun b => Repair.ofBytes b.payload))
    if known.any r.1.same then d else d.note recRepair (repairPayload r)) d

/-- A register that the service core reads, with what the read clears (R12, R16). -/
def Chan.svcTake (c : Chan) (off : Nat) : Word × Chan :=
  match regAt chanRegTable off with
  | none => (0, c)
  | some (d, i) => (c.rd off, c.wr off (clearRead d.name i (c.rd off) 0 64 d.fields))

/-- Registers that an ERROR record carries for a source: address and counters (R636). -/
def errorRegs (src : Nat) : Nat × Nat :=
  if src = 21 then (0x1A030, 0x1A028) else if src = 23 then (0x1C010, 0x1C008) else (0x19010, 0x19008)

/-- An ERROR record: source, channel, address or tag, and counters. Of source 9 about a queue the tag is its number, with the counters of CH_QSTAT; about what
a context holds, 2^16 + its identifier, with those of LF_CNT2 (R636; DESIGN CHOICE, log entry 34). -/
def noteError (x : Dev × Chan) (src : Nat) (tag : Option Nat) : Dev × Chan :=
  let r := errorRegs src
  let a := match tag with | some t => (BitVec.ofNat 64 t, x.2) | none => x.2.svcTake r.1
  let b := a.2.svcTake (match tag with | some t => if t < 2 ^ 16 then F.chQstatPoison.off else F.lfCnt2Cbuncorr.off | none => r.2)
  (x.1.note recError (valBytes src 2 ++ valBytes x.2.idx 1 ++ valBytes a.1.toNat 8 ++ valBytes b.1.toNat 8), b.2)

/-- The records for one note of a channel (R636). -/
def noteSource (x : Dev × Chan) (n : Note) : Dev × Chan :=
  match n with
  | .source src tag =>
    if repairKind src ≠ 0 then (x.1.noteRepairs x.2 (repairKind src), x.2) else noteError x src tag
  | .startfail step status =>
    let d := { x.1 with chFail := x.1.chFail ||| BitVec.ofNat 16 (2 ^ x.2.idx) }
    (d.note recStartfail (valBytes x.2.idx 1 ++ valBytes step 1 ++ valBytes status 1), x.2)
  | .stall report => (x.1.note recStall report, x.2)

/-- The service firmware records the sources that the channels that are awake have raised (R627, R636). -/
def State.gather (s : State) : State :=
  s.chans.foldl (fun (s : State) e =>
    let c := s.chan e.1
    if c.notes = [] ∨ c.asleep then s
    else
      let x := c.notes.foldl noteSource (s.dev, { c with notes := [] })
      ({ s with dev := x.1 } : State).setChan e.1 x.2) s

/-! ## ML_MARGIN (R644, R645, R649) -/

/-- The worst of several levels. -/
def worst (l : List Nat) : Nat := l.foldl max 0

/-- SPARES. -/
def Chan.sparesLevel (c : Chan) : Nat :=
  if (List.range 64).any (fun t => (c.serverOf t).isNone) then 3
  else if (List.range 68).any (fun d => c.role d == roleDouble) then 2
  else if (List.range 4).any (fun g => !(List.range 68).any (fun d => duetSet d == g && c.role d == roleSpare)) then 1
  else 0

/-- CALLER. -/
def Chan.callerLevel (c : Chan) : Nat :=
  if (c.caller 0).st = .lost then 3
  else if [1, 2, 3].any (fun n => (c.caller n).st == .lost) then 2
  else if c.fld (F.ccPhysRole 4) = roleServing then 1
  else 0

/-- ARRAY. -/
def Chan.arrayLevel (c : Chan) : Nat :=
  if c.sp.shuf.any (fun e => e.2.spent) then 3
  else if c.sp.shuf.any (fun e => e.2.halted) then 2
  else if c.sp.shuf.any (fun e => e.2.spare.isSome) then 1
  else 0

/-- DRAM. -/
def Chan.dramLevel (c : Chan) : Nat :=
  if c.dm.rowUnc.any (fun e => decide (3 ≤ e.2.2)) then 3
  else if c.flag F.dmPprExhausted then 2
  else if c.flag F.dmPprUsed then 1
  else 0

/-- AGING: the headroom below 800 mV of the point at the grade maximum. -/
def Chan.agingLevel (c : Chan) : Nat :=
  match c.points.find? (fun p => p.1 == gradeMhz) with
  | none => 3
  | some p => if p.2 = 800 then 2 else if 796 ≤ p.2 then 1 else 0

/-- THERMAL: over the samples since POR_N. -/
def Dev.thermalLevel (d : Dev) : Nat :=
  let n : Int := d.tjCount
  if d.tripped ∨ d.tj105 then 3
  else if 720 * n < d.tjSum ∨ 2 * d.tjCount < 100 * d.tjHot then 2
  else if 704 * n < d.tjSum ∨ 15 * d.tjCount < 1000 * d.tjHot then 1
  else 0

/-- The word of ML_MARGIN: a channel in its reset form is GREEN in every field. -/
def State.margin (s : State) : Word :=
  let f (g : Chan → Nat) : Nat := worst (s.chans.map (fun e => g e.2))
  BitVec.ofNat 64 (s.dev.thermalLevel <<< 10 + f Chan.agingLevel <<< 8 + f Chan.dramLevel <<< 6 + f Chan.arrayLevel <<< 4
    + f Chan.callerLevel <<< 2 + f Chan.sparesLevel)

/-- The service firmware brings ML_MARGIN up to date: a change raises 0x80 and is recorded (R636, R644). -/
def State.showMargin (s : State) : State :=
  let old := s.dev.rd 0x2300
  let new := s.margin
  if s.dev.restarting ∨ new = old then s
  else
    { s with dev := ((s.dev.wr 0x2300 new).raise 0x80).note recMargin (valBytes old.toNat 8 ++ valBytes new.toNat 8) }

/-! ## Measurement slots (R609, R470, R624) -/

/-- The digest in a slot; M7 starts at zero bytes. -/
def Dev.slot (d : Dev) (n : Nat) : Digest := tblGet d.slots n 0

/-- A slot takes a digest: GEN, and source 0x33 (R609, R624). -/
def Dev.setSlot (d : Dev) (n : Nat) (g : Digest) : Dev := ({ d with slots := tblIns d.slots n g, mlGen := d.mlGen + 1 } : Dev).raise 0x33

/-- The value of FB_OWNDIG: the first 8 bytes of SHA-384 over M1, M2, M4 and M5 (R452, R470). -/
def Dev.ownDigest (d : Dev) : Word :=
  BitVec.ofNat 64 (bytesVal ((digestBytes (sha384 ([1, 2, 4, 5].flatMap (fun n => digestBytes (d.slot n))))).take 8))

/-- M7 extended by an update record (R609). -/
def extendM7 (m : Digest) (r : List Byte) : Digest := sha384 (digestBytes m ++ digestBytes (sha384 r))

/-! ## Selection of a record (R651) -/

/-- The record with a SEQ, or its newest COPY. -/
def Service.find (v : Service) (seq : Nat) : Option LedgerRec :=
  match v.counted.find? (fun r => r.seq.toNat == seq) with
  | some r => some r
  | none => (v.counted.filter (fun r => r.ty == recCopy && r.original.2.1 == seq)).getLast?

/-- The service firmware places the selected record in ML_LBUFw. -/
def Dev.fetchRec (d : Dev) : Dev :=
  let r := d.svc.find (d.fld F.mlLselSeq)
  { d with svc := { d.svc with lwait := false, ldone := true, lfound := r.isSome,
                               lbuf := (r.map LedgerRec.bytes).getD [] } }

/-- A write of ML_LSEL: one of SEQ clears DONE; the record follows once the service core runs (R641, R651). -/
def Dev.lselWrite (d : Dev) (w : Word) (lo hi : Nat) : Dev :=
  if lo ≠ 0 then d
  else
    let d := d.wrFields 0x2310 w lo hi
    if d.restarting then { d with svc := { d.svc with lwait := true, ldone := false } } else d.fetchRec

/-- ML_LSEL_WRITE: PF0's registers lie outside the setup range that firings and callers reach (R658); in recovery mode the ML block
takes no write (R662). -/
def execMlLselWrite (p : Party) (w : Word) (s : State) : Host.Outcome State Fault Refusal :=
  onDev s (fun d => if d.recovery ∨ p.inChannel then d else d.lselWrite w 0 64)

/-! ## The commands of the ledger (R635 to R638) -/

/-- The flash takes no new record: the service core restarts, or a sector is to be reclaimed first (R637, R641). -/
def Dev.flashHeld (d : Dev) : Bool := d.restarting || d.recovery || decide (d.svc.erased < 4)

/-- Writes the oldest record of the buffer; one that fails its read-back is not written (R635, R638). -/
def Dev.writeRec (d : Dev) (ok : Bool) : Dev :=
  match d.svc.buffer with
  | [] => d
  | b :: r =>
    match d.svc.append b ok with
    | none => d
    | some v =>
      let d := { d with svc := { v with buffer := r } }
      if ok then d.showLstat else d.flashError.recLost

/-- LEDGER_RECORD_WRITE (R635, R638): the firmware records what it finds, and writes the oldest record. -/
def execLedgerRecordWrite (ok : Bool) (s : State) : Host.Outcome State Fault Refusal :=
  if s.dev.restarting ∨ s.dev.recovery then .next s
  else
    let s := s.gather.showMargin
    let d := if s.dev.svc.lwait then s.dev.fetchRec else s.dev
    .next { s with dev := if d.flashHeld then d else d.writeRec ok }

/-- The COPY of a record, of a COPY its own content (R636, R637). -/
def LedgerRec.copy (r : LedgerRec) : LedgerBuf :=
  { ty := recCopy, payload := valBytes r.original.2.1 4 ++ [r.original.1] ++ r.original.2.2 }

/-- The records of a sector to copy before its erasure (R637): REPAIR and UPDATE, copies of these, and the latest HOURLY. -/
def Service.toCopy (v : Service) (i : Nat) : List LedgerBuf :=
  let l := (v.recs i).filter (·.committed)
  (l.filter (fun r => r.original.1 == recRepair || r.original.1 == recUpdate)).map LedgerRec.copy
    ++ (match (l.filter (fun r => r.ty == recHourly)).getLast? with | some r => [r.copy] | none => [])

/-- SECTOR_RECLAIM (R637). -/
def Dev.reclaim (d : Dev) : Dev :=
  let v := d.svc
  if d.restarting ∨ d.recovery ∨ 4 ≤ v.erased then d
  else
    match v.ringOrder.find? (fun i => !(v.recs i).isEmpty) with
    | none => d
    | some i =>
      match (v.toCopy i).foldl (fun (v : Option Service) b => v.bind (fun v => v.append b true)) (some v) with
      | none => d
      | some v => ({ d with svc := { v with flash := tblDel v.flash i } } : Dev).showLstat

def execSectorReclaim (s : State) : Host.Outcome State Fault Refusal := onDev s Dev.reclaim

/-! ## The hourly record (R636) -/

/-- The registers of a channel in an HOURLY record: LF_CNT, LF_CNT2, MS_STAT, SP_STAT and DM_ECCSTAT. -/
def hourlyRegs : List Nat := [0x2010, 0x2018, 0x3018, 0x19008, 0x1A028]

/-- A channel's part of the record: what the firmware reads; it leaves a sleeping channel asleep and records 0. -/
def Chan.hourly (c : Chan) : List Byte × Chan :=
  if c.asleep then (List.replicate 40 0, c)
  else hourlyRegs.foldl (fun (x : List Byte × Chan) off => let r := x.2.svcTake off; (x.1 ++ valBytes r.1.toNat 8, r.2)) ([], c)

/-- HOURLY (R634, R636): the service hours advance, and the record comes into the buffer. -/
def execHourly (h : HourInfo) (s : State) : Host.Outcome State Fault Refusal :=
  if !h.wf then .fault .illFormed
  else if s.dev.restarting ∨ s.dev.recovery then .next s
  else
    let d := { s.dev with svc := { s.dev.svc with hours := s.dev.svc.hours + 1 } }
    let x := (List.range 16).foldl (fun (x : List Byte × State) k =>
      let r := (x.2.chan k).hourly
      (x.1 ++ r.1, x.2.setChan k r.2)) ([], { s with dev := d })
    let p := h.hist.flatMap (fun n => valBytes n.toNat 4) ++ valBytes d.above90s.toNat 4 ++ valBytes h.maxTj.toNat 2 ++ x.1
    .next ({ x.2 with dev := x.2.dev.note recHourly p } : State).showMargin

/-! ## Aging (R631, R632) -/

/-- AGING_MEASUREMENT (R631, R652). -/
def execAgingMeasurement (k : Ch) (m : Aging) (s : State) : Host.Outcome State Fault Refusal :=
  onDev s (fun d => d.wr (0x3200 + 8 * k.val)
    (BitVec.ofNat 64 (m.spine.toNat <<< 48 + m.set3.toNat <<< 36 + m.set2.toNat <<< 24 + m.set1.toNat <<< 12 + m.set0.toNat)))

/-- The slowdown of a channel: the largest of its five values (R631). -/
def Dev.slowdown (d : Dev) (k : Nat) : Nat :=
  worst ([0, 12, 24, 36, 48].map (fun lo => wbits (d.rd (0x3200 + 8 * k)) lo 12))

/-- AGE after a daily step towards a target: raised by at most 2 mV, never lowered (R632). -/
def ageStep (age target : Nat) : Nat := if age < target then min (age + 2) (min target 255) else age

/-- The AGE of the valid points after a daily adjustment for slowdown D. -/
def Chan.ageAll (c : Chan) (dd : Nat) : Chan :=
  (List.range 16).foldl (fun c i =>
    if c.flag (F.pwrCurveValid i) then c.setFld (F.pwrCurveAge i) (ageStep (c.fld (F.pwrCurveAge i)) (2 * ((dd + 9) / 10))) else c) c

/-- A raise of AGE on the point in force raises the regulator at once (R599, R632). -/
def Chan.raiseMv (c : Chan) : Chan :=
  match c.points.find? (fun p => p.1 == c.pw.mhz) with
  | none => c
  | some p => if c.pw.cst < 3 ∧ c.pw.mv < p.2 then { c with pw := { c.pw with mv := p.2 } } else c

/-- AGEs of the points. -/
def Chan.ages (c : Chan) : List Byte := (List.range 16).map (fun i => BitVec.ofNat 8 (c.fld (F.pwrCurveAge i)))

/-- 24 service hours have passed since the last adjustment of a channel (R632). -/
def Service.ageDue (v : Service) (k : Nat) : Bool :=
  match tblFind v.aged k with
  | none => true
  | some h => decide (h.toNat + 24 ≤ v.hours.toNat)

/-- AGE_ADJUSTMENT (R632): once every 24 hours; a change is recorded. -/
def execAgeAdjustment (k : Ch) (s : State) : Host.Outcome State Fault Refusal :=
  if s.dev.restarting ∨ s.dev.recovery then .next s
  else
    let c := s.chan k.val
    let c' := c.ageAll (s.dev.slowdown k.val)
    if c'.ages = c.ages ∨ s.dev.svc.ageDue k.val = false then .next s
    else
      let d := { s.dev with svc := { s.dev.svc with aged := tblIns s.dev.svc.aged k.val s.dev.svc.hours } }
      let d := d.note recAging (valBytes k.val 1 ++ valBytes (s.dev.rd (0x3200 + 8 * k.val)).toNat 8 ++ c.ages ++ c'.ages)
      .next (({ s with dev := d } : State).setChan k.val c'.raiseMv).showMargin

end Sys2Proof.Machine
end

