-- ==== Sys2Proof/Machine/Setup.lean ====
section
/-! DEFINITION. The registers of a channel as an access finds them: what each reads as, what a write does, MSI-X, accesses held while
the channel sleeps, and the setup port (R12, R310, R318, R326, R528, R590, R591, R605, R656 to R661, R685). -/

namespace Sys2Proof.Machine

/-! ## What a register reads as -/

/-- A truth value placed at a bit. -/
def atBit (b : Bool) (i : Nat) : Nat := b2n b <<< i

/-- CH_CTXSTAT (R74). -/
def Chan.ctxstat (c : Chan) : Nat :=
  atBit c.cu.flushing 63 + atBit c.cu.sweep.isSome 62 + (c.freeIds % 2 ^ 24) <<< 32 + c.liveCount % 2 ^ 24

/-- PWR_STAT (R614). -/
def Chan.pwrStat (c : Chan) : Nat :=
  c.pw.cst <<< 61 + atBit c.pw.ready 60 + c.pw.seton.toNat <<< 56
    + (((List.range 8).map (fun d => atBit (c.prog? d).isSome d)).foldl (· + ·) 0) <<< 48
    + c.pw.abandon.toNat <<< 32 + c.pw.drainto.toNat <<< 16

/-- PWR_OPP (R616). -/
def Chan.pwrOpp (c : Chan) : Word :=
  setBits (setBits (setBits (c.rd 0x1018) 32 16 c.pw.mhz) 22 10 c.pw.mv) 19 3 c.pw.cap

/-- Entries in use, and escape ways in use, of a bank (R164, R195). -/
def Chan.bankOcc (c : Chan) (t : Nat) : Nat := c.ms.entries.countP (fun e => e.1 / 1536 == t)
def Chan.bankEsc (c : Chan) (t : Nat) : Nat := c.ms.entries.countP (fun e => e.1 / 1536 == t && e.1 % 1536 % 24 == 23)

/-- The bank with the highest occupancy, the lowest on a tie (R190). -/
def Chan.maxTile (c : Chan) : Nat :=
  (List.range 64).foldl (fun m t => if c.bankOcc m < c.bankOcc t then t else m) 0

/-- MS_OCC (R190) and MS_BANKn (R195). -/
def Chan.msOccWord (c : Chan) : Nat :=
  (c.ms.entries.countP (fun e => e.1 % 1536 % 24 == 23)) <<< 48 + c.maxTile <<< 42 + c.bankOcc c.maxTile <<< 31 + c.occ
def Chan.msBankWord (c : Chan) (t : Nat) : Nat :=
  (c.tile t).miss.length <<< 22 + (c.tile t).defer.length <<< 19 + c.bankEsc t <<< 12 + c.bankOcc t

/-- FL_ORDn (R283). -/
def Chan.flOrdWord (c : Chan) (n : Nat) : Nat :=
  (c.ord n).head.toNat <<< 48 + (c.ord n).tail.toNat <<< 32 + (c.ord n).cursor.toNat <<< 16 + c.qHeld (768 + n)

/-- Outstanding items of a tempo class (R273, R287): accepted ones that wait for a context, and those whose context is LIVE, up to
1,024. -/
def Chan.itemsOf (c : Chan) (tc : Nat) : Nat :=
  min 1024 ((c.rings.map (fun e => e.2.items.countP (fun i => c.itemLive i && i.tc == tc)
    + b2n (match e.2.admitted with | some a => a.tc == tc | none => false))).foldl (· + ·) 0)

/-- The LIVE context of lowest SEQ other than context 0, 0 for none (R316). -/
def Chan.oldest (c : Chan) : Nat :=
  match sortBy (fun (a b : Nat × Ctx) => decide (a.2.seq.toNat ≤ b.2.seq.toNat))
      (c.cu.tbl.filter (fun e => e.1 != 0 && e.2.st == .live)) with
  | [] => 0
  | e :: _ => e.1

/-- PG_ELDER (R297, R316). -/
def Chan.elderWord (c : Chan) : Nat :=
  let l := c.cu.tbl.filter (fun e => e.1 != 0 && e.2.st == .live)
  let inh := l.countP (fun e => e.2.elder && decide (256 ≤ c.olderThan e.2.seq))
  c.oldest <<< 40 + (min inh 0xFFFF) <<< 16 + min 256 l.length

/-- QU_PTRn and the live fields of QU_STATn (R343, R345). -/
def Chan.quPtrWord (c : Chan) (q : Nat) : Nat :=
  let p := c.qptr q
  let cap := max 1 (c.qCap q)
  p.held <<< 48 + p.unread <<< 32 + ((p.rel + (p.held - p.unread)) % cap) <<< 16 + p.wr
def Chan.quStatWord (c : Chan) (q : Nat) : Word :=
  let p := c.qptr q
  let cap := max 1 (c.qCap q)
  let mark := fun i => match p.marks[i]? with | some m => (p.rel + m) % cap | none => 0
  setBits (setBits (setBits (setBits (c.rd (F.quStatNmark q).off) 62 2 p.marks.length) 48 14 (mark 0)) 32 14 (mark 1)) 0 9
    (c.qu.waiters.countP (fun w => w.q == q))

/-- EV_SRCs (R520): the hold left in units of 64 CCLK. -/
def evSrcWord (w : Word) (x : EvSt) (cclk : Nat) : Word :=
  setBits (setBits (setBits (setBits (setBits w 60 1 (b2n (x.inflight != 0))) 50 2 x.last.toNat) 49 1 (b2n x.inbox)) 24 8
    ((x.hold - cclk + 63) / 64)) 0 8 x.count

/-- EV_CALLn (R523). -/
def Chan.evCallWord (c : Chan) (n : Nat) : Nat :=
  let x := c.caller n
  atBit x.evEn 63 + atBit x.evMask 62 + atBit x.enabled 61 + x.inbox.length <<< 16
    + (match headEntry x.inbox with | some e => e.src | none => 0)

/-- FB_PSTATp (R462). -/
def Chan.fbStatWord (c : Chan) (p : Nat) : Word :=
  let x := c.port p
  setBits (setBits (setBits (setBits (c.rd (F.fbPstatState p).off) 61 3 x.st.toNat) 60 1 (b2n x.avail)) 59 1 (b2n (!x.replay.isEmpty)))
    48 8 x.replay.length

def callStCode : CallSt → Nat
  | .halted => 0
  | .running => 1
  | .waiting => 2
  | .waitev => 3
  | .faulted => 4
  | .lost => 5

/-- CC_STATn (R472, R492). -/
def Chan.ccStatWord (c : Chan) (n : Nat) : Nat :=
  let x := c.caller n
  callStCode x.st <<< 60 + atBit (x.csrs.status.getLsbD 2) 59 + atBit (x.csrs.status.getLsbD 4) 58
    + atBit (x.csrs.status.getLsbD 0) 57 + (x.phys.getD 7) <<< 48 + x.ipDone.toNat

/-- The PBA of a function: 64 vectors a word (PCIe, R528). -/
def MsixFn.pbaWord (x : MsixFn) (i : Nat) : Word :=
  BitVec.ofNat 64 ((List.range 64).map (fun v => atBit (x.pba.contains (64 * i + v)) v) |>.foldl (· + ·) 0)

/-- A word of a function's MSI-X table and PBA: vector v at 16 x v of the table, with address, data and the mask (PCIe, R528); none
outside both, for a function of n vectors. -/
def MsixFn.read (x : MsixFn) (n off : Nat) : Option Word :=
  if 0xE0000 ≤ off ∧ off < 0xE0000 + 16 * n then
    let m := x.vec ((off - 0xE0000) / 16)
    some (if off % 16 = 0 then m.addr else BitVec.ofNat 64 (m.data.toNat + atBit m.mask 32))
  else if 0xE1000 ≤ off ∧ off < 0xE1000 + n / 8 then some (x.pbaWord ((off - 0xE1000) / 8))
  else none

/-- What the channel register at an 8-byte aligned offset reads as; 0 at an unassigned offset (R528, R658). -/
def Chan.readReg (c : Chan) (dv : Dev) (off : Nat) : Word :=
  match c.msix.read 256 off with
  | some w => w
  | none =>
    match regAt chanRegTable off with
    | none => 0
    | some (d, i) =>
      match d.name with
      | .chParam => setBits (c.rd off) 0 16 c.dramMib
      | .chCtxstat => BitVec.ofNat 64 c.ctxstat
      | .chHwtdata => c.hwtdata
      | .pwrStat => BitVec.ofNat 64 c.pwrStat
      | .pwrOpp => c.pwrOpp
      | .lfDuet => setBits (setBits (c.rd off) 7 1 (b2n (c.duet i).replay)) 5 2 (c.duet i).wins.length
      | .msOcc => BitVec.ofNat 64 c.msOccWord
      | .msBank => BitVec.ofNat 64 (c.msBankWord i)
      | .flPool => BitVec.ofNat 64 c.ms.pool.length
      | .flOrd => BitVec.ofNat 64 (c.flOrdWord i)
      | .adTstat => setBits (c.rd off) 0 11 (c.itemsOf i)
      | .adLevel => BitVec.ofNat 64 ((c.finishAt dv.time i % 2 ^ 32) <<< 32 + (c.deadlines i).length)
      | .pgThr => setBits (setBits (c.rd off) 63 1 (b2n (!c.gate false 1))) 62 1 (b2n (!c.gate true 1))
      | .pgElder => BitVec.ofNat 64 c.elderWord
      | .pgSpillstat => setBits (c.rd off) 37 1 (b2n c.spillNear)
      | .pgTcount => BitVec.ofNat 64 (c.throttle % 2 ^ 24)
      | .quPtr => BitVec.ofNat 64 (c.quPtrWord i)
      | .quStat => c.quStatWord i
      | .rgSstat => (c.ring i).stat
      | .rgSpi => (c.ring i).spi
      | .rgCcfg => setBits (setBits (c.rd off) 61 1 (b2n (c.cring i).full)) 60 1 (b2n (c.cring i).error)
      | .rgCstat => (c.cring i).stat
      | .evCall => BitVec.ofNat 64 (c.evCallWord i)
      | .evSrc => evSrcWord (c.rd off) (c.evSt i) c.cclk
      | .lkPool => BitVec.ofNat 64 c.lockWaiters
      | .spCfg => setBits (c.rd off) 63 1 (b2n (!c.sp.clearing))
      | .spShufstat => setBits (c.rd off) 32 32 c.shufPasses
      | .spShufbank => c.shufBank i
      | .ntEpoch => setBits (c.rd off) 0 32 c.oldCnt
      | .fbPstat => c.fbStatWord i
      | .ccStat => BitVec.ofNat 64 (c.ccStatWord i)
      | .ccDcause => (c.caller i).dcause
      | _ => c.rd off

/-- What a read of a register does before its word is taken: CH_HWTDATA reads its line (R397, R572). -/
def Chan.readEffect (c : Chan) (off : Nat) : Chan := if off = 0x198 then c.hwtRead else c

/-- A read of bits lo up to hi: the RC fields among them are cleared (R12, R657). -/
def Chan.readClear (c : Chan) (off lo hi : Nat) : Chan :=
  match regAt chanRegTable off with
  | none => c
  | some (d, i) => c.wr off (clearRead d.name i (c.rd off) lo hi d.fields)

/-! ## What a write does -/

/-- The spill area is as R317 and R318 require. -/
def Chan.spillFits (c : Chan) : Bool :=
  let b := c.fld F.pgSpillbaseBase
  let n := c.fld F.pgSpillcfgSize
  let a := b * 2 ^ 20
  let len := n * (0x1000000 + 0x1000)
  b % 16 == 0 && decide (1 ≤ n) && decide (n ≤ 128) && decide (dramBase ≤ a) && decide (a + len ≤ dramBase + c.dramSize)
    && !touches a len (c.fld F.chCtxbaseBase * 2 ^ 20, 68 * c.ctxLimit) && !touches a len (c.fld F.chHwtbaseAddr * 2 ^ 20, 0x100000)

/-- A write of PG_SPILLCFG (R310, R317, R318). -/
def Chan.spillcfgWrite (c : Chan) (w : Word) (lo hi : Nat) : Chan :=
  let was := c.flag F.pgSpillcfgEn
  let d := c.wrFields 0x6018 w lo hi
  if !was && d.flag F.pgSpillcfgEn && !d.spillFits then d.setFld F.pgSpillcfgEn 0
  else if was && !d.flag F.pgSpillcfgEn && decide (c.fld F.pgSpillstatUsed ≠ 0) then d.setFld F.pgSpillcfgEn 1
  else d

/-- The device does not enable queue q (R326). -/
def Chan.quBad (c : Chan) (q : Nat) : Bool :=
  (decide (944 ≤ q) && decide (q < 960)) || c.qCap q == 0 || decide (40960 < c.qBase q + c.qCap q)
    || (c.qDup q && c.qCap q % 2 == 1)

/-- A write of QU_CFGn (R326, R330): a queue that holds nothing starts at BASE as it is enabled. -/
def Chan.quCfgWrite (c : Chan) (q : Nat) (w : Word) (lo hi : Nat) : Chan :=
  let was := c.qEn q
  let d := c.wrFields (F.quCfgEn q).off w lo hi
  if !was && d.qEn q then
    (if d.quBad q then d.setFld (F.quCfgEn q) 0 else if (d.qptr q).held = 0 then d.setQptr q {} else d)
  else d

/-- A write of RG_SCTXr (R576): while the steward runs, only a caller at supervisor privilege changes SUPV. -/
def Chan.sctxWrite (c : Chan) (p : Party) (r : Nat) (w : Word) (lo hi : Nat) : Chan :=
  let d := c.wrFields (F.rgSctxSupv r).off w lo hi
  if p ≠ .supv ∧ c.flag F.ccStewRun then d.setFld (F.rgSctxSupv r) (c.fld (F.rgSctxSupv r)) else d

/-- A write of a routing table word: ignored while the copy is VALID (R436, R459). -/
def Chan.routeWrite (c : Chan) (e off : Nat) (w : Word) (lo hi : Nat) : Chan :=
  if c.epochValid e then c else c.wrFields off w lo hi

/-- A vector of a function takes a write of the bits lo up to hi of a word of its table entry (PCIe). -/
def Msix.write (m : Msix) (off : Nat) (w : Word) (lo hi : Nat) : Msix :=
  if off % 16 = 0 then
    { m with addr := BitVec.ofNat 64 ((if lo = 0 then wbits w 0 32 else wbits m.addr 0 32)
                                       + (if hi = 64 then wbits w 32 32 else wbits m.addr 32 32) <<< 32) }
  else { m with data := if lo = 0 then BitVec.ofNat 32 w.toNat else m.data, mask := if hi = 64 then wbit w 32 else m.mask }

/-- A write to the MSI-X table of a function of n vectors: an unmasked vector whose PBA bit is set sends its message (R566); the PBA
is read only (PCIe). -/
def MsixFn.write (x : MsixFn) (n off : Nat) (w : Word) (lo hi : Nat) : MsixFn × List Out :=
  if 0xE0000 ≤ off ∧ off < 0xE0000 + 16 * n then
    let v := (off - 0xE0000) / 16
    let m := x.vec v
    let m' := m.write off w lo hi
    if m.mask && !m'.mask then (x.setVec v { m' with mask := true }).unmask v else (x.setVec v m', [])
  else (x, [])

/-- What the steward reports of a stall (R312, R636; DESIGN CHOICE, log entry 34): the channel, FL_POOL, PG_SPILLSTAT, MS_BANKn, the contexts killed since
the monitor fired, and the FL_ORDn that are not 0, as many of each as a payload takes. -/
def Chan.stallReport (c : Chan) (dv : Dev) : List Byte :=
  let reg := fun off => valBytes (c.readReg dv off).toNat 8
  let ords := (List.range 128).filter (fun n => c.readReg dv (0x4800 + 8 * n) != 0)
  valBytes c.idx 1 ++ reg 0x4408 ++ reg 0x6020 ++ (List.range 64).flatMap (fun t => reg (0x3100 + 8 * t))
    ++ valBytes c.ms.stallKills.length 2 ++ (c.ms.stallKills.reverse.take 50).flatMap (fun i => valBytes i 3)
    ++ (ords.take 30).flatMap (fun n => valBytes n 1 ++ reg (0x4800 + 8 * n))

/-- A write of PG_STALL: the steward's, which clears FIRED, is its report of the stall (R312, R636; DESIGN CHOICE, log entry 34). -/
def Chan.stallWrite (c : Chan) (dv : Dev) (p : Party) (w : Word) (lo hi : Nat) : Chan :=
  let d := c.wrFields 0x6030 w lo hi
  if c.flag F.pgStallFired = false ∨ d.flag F.pgStallFired then d
  else
    { d with notes := if p = .supv then d.notes ++ [.stall (c.stallReport dv)] else d.notes, ms := { d.ms with stallKills := [] } }

/-- What a write of party p to the bits lo up to hi of the channel register at an offset does. -/
def Chan.chanWrite (c : Chan) (dv : Dev) (p : Party) (off : Nat) (w : Word) (lo hi : Nat) : Chan :=
  if 0xE0000 ≤ off then
    let h := c.msix.write 256 off w lo hi
    { c with msix := h.1, out := c.out ++ h.2 }
  else
    match regAt chanRegTable off with
    | none => c
    | some (d, i) =>
      match d.name with
      | .chCtxcfg => c.ctxcfgWrite off w lo hi
      | .chExccfg => c.exccfgWrite w lo hi
      | .chPlane => (c.keepSeen off).wrFields off w lo hi
      | .chHwctl => c.hwctlWrite w lo hi
      | .chHwtdata => c.hwtdataWrite w lo hi
      | .pwrCtl => c.pwrCtlWrite dv p w lo hi
      | .pwrCurve => (c.wrFields off w lo hi).raiseMv
      | .lfCtl => c.lfCtlWrite w lo hi
      | .lfDuet => if lo = 0 then c.duetCmd c.xclk i (wbits w 0 4) else c
      | .adCfg => c.adCfgWriteOp w lo hi
      | .pgSpillcfg => c.spillcfgWrite w lo hi
      | .pgStall => c.stallWrite dv p w lo hi
      | .quCfg => c.quCfgWrite i w lo hi
      | .quWm => (c.wrFields off w lo hi).qMark i
      | .rgScfg => c.scfgWrite dv i w lo hi
      | .rgSctx => c.sctxWrite p i w lo hi
      | .rgCcfg => c.ccfgWrite i w lo hi
      | .evDoorbell => if lo = 0 then c.doorbell p w else c
      | .evSrc => c.evSrcWrite i w lo hi
      | .spShufrep => if lo = 0 ∧ hi = 64 then c.shufRepair p (Fin.ofNat 64 i) w else c
      | .dmCfg => c.dmCfgWriteOp dv w lo hi
      | .ntEpoch => c.epochWrite w hi
      | .ntRt0 => c.routeWrite 0 off w lo hi
      | .ntRt1 => c.routeWrite 1 off w lo hi
      | .fbPctl => c.pctlWrite i w lo hi
      | .ccCall => c.callWrite p i w lo hi
      | .ccPhys => if lo = 0 then c.physCmd i (wbits w 0 4) else c
      | _ => c.wrFields off w lo hi

/-! ## Accesses (R590, R591, R605, R657, R659) -/

/-- A read of the channel's function: the addressed bits, 0 where READY keeps host software out (R605, R657). -/
def Chan.doRead (c : Chan) (dv : Dev) (p : Party) (off lo hi : Nat) : Chan :=
  if !c.mayWrite p off then { c with readData := 0 }
  else
    let w := c.readReg dv off
    ({ c.readEffect off with readData := BitVec.ofNat 64 (wbits w lo (hi - lo)) }).readClear off lo hi

/-- An access that reaches an awake channel. -/
def Chan.doAccess (c : Chan) (dv : Dev) (a : HeldAcc) : Chan :=
  match a.w with
  | none => c.doRead dv a.party a.off a.lo a.hi
  | some w => if !c.mayWrite a.party a.off then c else c.chanWrite dv a.party a.off w a.lo a.hi

/-- Held accesses in arrival order, up to one that still waits (R659). -/
def Chan.serveAll (dv : Dev) : List HeldAcc → Chan → Chan
  | [], c => c
  | a :: r, c => if c.served a.off then serveAll dv r (c.doAccess dv a) else { c with pw := { c.pw with held := a :: r } }

/-- The accesses held while the channel slept or the memory trained are carried out in arrival order (R390, R591, R659). -/
def Chan.serveHeld (c : Chan) (dv : Dev) : Chan :=
  if c.asleep then c else Chan.serveAll dv c.pw.held { c with pw := { c.pw with held := [] } }

/-- An access to the channel's registers: held while it cannot be carried out (R390, R591, R659). -/
def Chan.access (c : Chan) (dv : Dev) (a : HeldAcc) : Chan :=
  if !c.served a.off then c.hold a else ((c.stir a.off).doAccess dv a).serveHeld dv

/-- The register and the bits that an access addresses: none for an access R657 does not allow. -/
def accSpan (off : Nat) (sz : AccSize) : Option (Nat × Nat × Nat) :=
  match sz with
  | .eight => if off % 8 = 0 then some (off, 0, 64) else none
  | .four => if off % 8 = 0 then some (off, 0, 32) else if off % 4 = 0 then some (off - 4, 32, 64) else none
  | .other => none

/-- The data of a write at their place in the register: those of a 4-byte write are in bits [31:0] of the operand. -/
def accData (lo : Nat) (w : Word) : Word := if lo = 32 then w <<< 32 else w

/-! ## The setup port (R658, R659, R685) -/

/-- Who makes an access through the setup port. -/
def setupParty (r : Req) : Party :=
  match r.who with
  | .caller _ _ => .supv
  | .ctx _ _ => .firing

/-- The setup port's access: a load or store of one register or of one program store word. An access to the program store waits for
the clearing of R604 to end. -/
def Chan.setupAccess (c : Chan) (dv : Dev) (r : Req) : Option Chan :=
  let a := r.addr.toNat
  let done := fun (c : Chan) (o : Opd) => c.reply (unitAt tileCtx) r.reply o o
  match c.range a with
  | .prog =>
    if c.progClearing then none
    else if r.kind = .st then some (done (c.putInstr ((a - progBase) / 8) r.d0.val) doneOpd)
    else some (done c (mkOpd (c.instr ((a - progBase) / 8)) r.ty.toNat false))
  | .setup =>
    let off := a - setupBase
    if !c.served off then none
    else if r.kind = .st then some (done (c.access dv { party := setupParty r, off := off, w := some r.d0.val }) doneOpd)
    else
      let v := c.readReg dv off
      some (done ((c.readEffect off).readClear off 0 64) (mkOpd v r.ty.toNat false))
  | _ => none

/-- SETUP_PORT_ACCESS: the access delivered to the setup port at tile 36. -/
def execSetupPortAccess (k : Ch) (s : State) : Host.Outcome State Fault Refusal :=
  onCh k s (fun dv c =>
    match c.arrived tileCtx 4 with
    | some { pay := .req r, .. } => if !c.domUp 5 then c else ((c.takeArrived tileCtx 4).setupAccess dv r).getD c
    | _ => c)

end Sys2Proof.Machine
end

