-- ==== Sys2Proof/Machine/Power.lean ====
section
/-! DEFINITION. The power commands of a channel: entry into C-states, parking, wakes, the steps of the sequencing programs, PWR_CTL,
operating points, the power limiter, temperatures, rails and clocks (R581 to R602, R613; log entry 33). -/

namespace Sys2Proof.Machine

/-! ## Entry and wake (R588 to R592) -/

/-- No wake is asked for and no transition is under way. -/
def Chan.steady (c : Chan) : Bool := c.pw.goal == c.pw.cst && !c.pw.wake && c.pw.wakeDoms.isEmpty && c.noProg [0, 1, 2, 3, 4, 5, 6]

/-- C1_ENTRY (R588). -/
def execC1Entry (k : Ch) (s : State) : Host.Outcome State Fault Refusal :=
  onCh k s (fun dv c =>
    let t1 := c.fld F.pwrIdleT1
    if c.flag F.pwrCtlAuto ∧ c.pw.cst = 0 ∧ c.steady ∧ t1 ≠ 0 ∧ c.allQuiet ∧ c.pw.idleSince + t1 ≤ c.xclk then
      { c with pw := { c.pw with cst := 1, goal := 1, c1At := dv.time } }
    else c)

/-- C2_ENTRY (R587, R588, R596). -/
def execC2Entry (k : Ch) (s : State) : Host.Outcome State Fault Refusal :=
  onCh k s (fun dv c =>
    let t2 := c.fld F.pwrIdleT2
    if c.flag F.pwrCtlAuto ∧ c.pw.cst = 1 ∧ c.steady ∧ c.fld F.pwrIdleT1 ≠ 0 ∧ t2 ≠ 0 ∧ c.pw.c1At + aclkUs * t2 ≤ dv.time then
      ({ c with pw := { c.pw with goal := 2 } }).pwAdvance c.xclk dv.time
    else c)

/-- C3_ENTRY (R543, R588, R596): FABRIC is off in C3, so the ports are in SLEEP or DOWN (R587; log entry 33). -/
def execC3Entry (k : Ch) (s : State) : Host.Outcome State Fault Refusal :=
  onCh k s (fun dv c =>
    let t3 := c.fld F.pwrIdleT3
    if c.flag F.pwrCtlAuto ∧ c.pw.cst = 2 ∧ c.steady ∧ c.portsAsleep ∧ c.fld F.pwrIdleT1 ≠ 0 ∧ c.fld F.pwrIdleT2 ≠ 0 ∧ t3 ≠ 0
        ∧ c.pw.c2At + aclkUs * t3 ≤ dv.time ∧ c.ringsRest then
      ({ c with pw := { c.pw with goal := 3 } }).pwAdvance c.xclk dv.time
    else c)

/-- SET_PARK (R589). -/
def execSetPark (k : Ch) (g : SetId) (s : State) : Host.Outcome State Fault Refusal :=
  onCh k s (fun dv c =>
    let t := c.fld F.pwrIdleTset
    if c.flag F.pwrCtlSetauto ∧ c.pw.cst = 0 ∧ c.pw.goal = 0 ∧ t ≠ 0 ∧ c.domOpen g.val ∧ c.setQuiet g.val
        ∧ tblGet c.pw.setIdle g.val 0 + aclkUs * t ≤ dv.time ∧ c.pw.wakeDoms.contains g.val = false then
      c.startProg dv.time g.val false
    else c)

/-- CHANNEL_WAKE (R429, R430, R589, R590, R592, R596): a wake starts, or goes on where it waits for the regulator. -/
def execChannelWake (k : Ch) (s : State) : Host.Outcome State Fault Refusal :=
  onCh k s (fun dv c => (c.wakeUp c.xclk dv.time).serveHeld dv)

/-! ## The steps of the sequencing programs (R593 to R596) -/

/-- The OP the present step of domain d asks for; on the way up from C4, SWON takes the place of RETOFF in MEM (R596). -/
def Chan.presentOp (c : Chan) (d : Nat) (g : Prog) : Option Nat :=
  match g.undo with
  | some l => (l.head?).map (·.toNat)
  | none =>
    let op := stepOp (c.seqWord g.pc)
    some (if d = 4 ∧ (c.dom 4).off ∧ op = 0x0A then 0x08 else op)

/-- The step before has ended: its time has passed, and the periodic program that SREXIT runs is over. -/
def Chan.stepDue (c : Chan) (d now : Nat) (g : Prog) : Bool :=
  decide (g.since ≤ now)
    && !(d == 6 && (match g.done with | w :: _ => stepOp w == 0x0F | [] => false) && (c.dm.train.isSome || c.dm.ended.isSome))

/-- A wait of the step: what lasts for its switch groups, its B, or one ACLK (R594). Groups of a set of switches: the bits of A. -/
def stepTime (op : Nat) (w : Word) : Nat :=
  match op with
  | 0x08 => stepB w * ((List.range 16).filter (fun i => (stepA w).testBit i)).length
  | 0x07 | 0x09 | 0x0A | 0x0C | 0x0D | 0x10 => stepB w
  | _ => 1

/-- The word of an inverse, and of the SWON in place of RETOFF: SWON closes all groups at 100 ACLK each (R594). -/
def inverseWord (op : Nat) : Word := if op = 0x08 then BitVec.ofNat 64 (0xFFFF <<< 32 + 100) else 0

/-- Carries out the present step of domain d where it is the step op, with the effect f, and moves the program on (R594, R595). -/
def Chan.runStep (c : Chan) (dv : Dev) (d op : Nat) (f : Chan → Chan) : Chan :=
  match c.prog? d with
  | none => c
  | some g =>
    if c.presentOp d g ≠ some op ∨ c.stepDue d dv.time g = false then c
    else
      match g.undo with
      | some l =>
        let c := f c
        if l.length ≤ 1 then
          (({ c with pw := { c.pw with abandon := c.pw.abandon + 1 } }).endProg d).pwAdvance c.xclk dv.time
        else c.setProg d { g with undo := some (l.drop 1), since := dv.time + stepTime op (inverseWord op) }
      | none =>
        let w := c.seqWord g.pc
        let c := f c
        (c.setProg d { g with pc := (g.pc + 1) % 128, done := w :: g.done, pnr := g.pnr || stepPnr w,
                              since := dv.time + stepTime op w }).checkStep d

/-- Changes what is switched in a domain. -/
def Chan.domUpd (c : Chan) (d : Nat) (f : DomSt → DomSt) : Chan := c.setDom d (f (c.dom d))

/-- SPINE's state is lost with its power, where no SAVE has copied it (R594): its registers and units are as after a channel reset; the arrays are
MEM's, the memory DRAM's, and the PWR block AON's (R25, R591; DESIGN CHOICE, log entry 33). -/
def Chan.spineLost (c : Chan) : Chan :=
  let r := c.channelReset c.xclk c.pw.idleSince
  { r with mem := c.mem, poison := c.poison, prog := c.prog, progClearing := c.progClearing, ms := c.ms, sp := c.sp, locks := c.locks,
           dm := c.dm, ports := c.ports, pw := c.pw,
           regs := (c.regs.filter (fun e => inPwr e.1)).foldl (fun (t : Tbl Word) e => tblPut t e.1 e.2 (c.rst e.1)) r.regs }

/-- The arrays of MEM are lost with their power: the scratchpad and the lock memory at the values of R349, the program store and the matching store
as after a channel reset, and SPINE's copy with them (R25, R594; DESIGN CHOICE, log entry 33). -/
def Chan.memLost (c : Chan) : Chan :=
  ({ c with mem := c.mem.filter (fun e => decide (dramBase ≤ e.1)), poison := c.poison.filter (fun a => decide (dramBase ≤ a)),
            prog := [], ms := {}, locks := [], qu := { c.qu with store := [] } }).setDom 5 { c.dom 5 with saved := false }

/-- The up program of SPINE ends without a RESTORE of what was saved. -/
def Chan.notRestored (c : Chan) (d : Nat) (g : Prog) : Chan :=
  if d = 5 ∧ g.up ∧ g.undo.isNone ∧ (c.dom 5).saved then c.spineLost else c

/-- PWR_END (R594, R596): the program ends, and the transition goes on. -/
def execPwrEnd (k : Ch) (d : DomId) (s : State) : Host.Outcome State Fault Refusal :=
  onCh k s (fun dv c =>
    match c.prog? d.val with
    | none => c
    | some g =>
      if c.presentOp d.val g ≠ some 0 ∨ c.stepDue d.val dv.time g = false then c
      else (((c.notRestored d.val g).endProg d.val).pwAdvance c.xclk dv.time).serveHeld dv)

/-- CLKGATE. -/
def execClkgate (k : Ch) (d : DomId) (s : State) : Host.Outcome State Fault Refusal :=
  onCh k s (fun dv c => c.runStep dv d.val 0x01 (fun c => c.domUpd d.val (fun x => { x with gated := true })))

/-- CLKUNGATE. -/
def execClkungate (k : Ch) (d : DomId) (s : State) : Host.Outcome State Fault Refusal :=
  onCh k s (fun dv c => c.runStep dv d.val 0x02 (fun c => c.domUpd d.val (fun x => { x with gated := false })))

/-- ISOON. -/
def execIsoon (k : Ch) (d : DomId) (s : State) : Host.Outcome State Fault Refusal :=
  onCh k s (fun dv c => c.runStep dv d.val 0x03 (fun c => c.domUpd d.val (fun x => { x with clamped := true })))

/-- ISOOFF. -/
def execIsooff (k : Ch) (d : DomId) (s : State) : Host.Outcome State Fault Refusal :=
  onCh k s (fun dv c => c.runStep dv d.val 0x04 (fun c => c.domUpd d.val (fun x => { x with clamped := false })))

/-- RSTON. -/
def execRston (k : Ch) (d : DomId) (s : State) : Host.Outcome State Fault Refusal :=
  onCh k s (fun dv c => c.runStep dv d.val 0x05 (fun c => c.domUpd d.val (fun x => { x with inReset := true })))

/-- RSTOFF. -/
def execRstoff (k : Ch) (d : DomId) (s : State) : Host.Outcome State Fault Refusal :=
  onCh k s (fun dv c => c.runStep dv d.val 0x06 (fun c => c.domUpd d.val (fun x => { x with inReset := false })))

/-- The power switches of a domain open: a set's bit of SETON falls (R614), and what it holds is lost: SPINE's state where no SAVE has copied it,
MEM's arrays, and memory that is not in self-refresh (R410, R594). -/
def Chan.switchOff (c : Chan) (d : Nat) : Chan :=
  let c := c.domUpd d (fun x => { x with off := true })
  let c := if d < 4 then { c with pw := { c.pw with seton := c.pw.seton &&& ~~~(BitVec.ofNat 4 (2 ^ d)) } } else c
  if d = 6 ∧ c.dm.selfRefresh = false then c.dmLose.setFld F.dmTrstatState 0
  else if d = 5 ∧ (c.dom 5).saved = false then c.spineLost
  else if d = 4 then c.memLost else c

/-- The switch groups that the present SWON of a domain closes: A of its word; all of them as an inverse, and in place of RETOFF (R594, R596). -/
def Chan.onGroups (c : Chan) (d : Nat) : Nat :=
  match c.prog? d with
  | none => 0
  | some g => if g.undo.isSome ∨ stepOp (c.seqWord g.pc) ≠ 0x08 then stepA (inverseWord 0x08) else stepA (c.seqWord g.pc)

/-- Power switches of a domain close: it is powered unless no group is named (R594). -/
def Chan.switchOn (c : Chan) (d : Nat) : Chan :=
  if c.onGroups d = 0 then c
  else
  let c := c.domUpd d (fun x => { x with off := false })
  if d < 4 then { c with pw := { c.pw with seton := c.pw.seton ||| BitVec.ofNat 4 (2 ^ d) } } else c

/-- The last step on the way to C4 (R587, R596): MEM is switched off, and GDDR7's contents are lost. -/
def Chan.enterC4Last (c : Chan) : Chan :=
  let c := c.domUpd 4 (fun x => { x with off := true, retention := false })
  { (c.dmLose.setFld F.dmTrstatState 0) with pw := { c.pw with cst := 4, ready := false } }

/-- The way to C4 has come to its last step: every other domain is down, and no program runs (R587, R596). -/
def Chan.c4Due (c : Chan) : Bool :=
  c.pw.cst == 3 && c.pw.goal == 4 && c.noProg [0, 1, 2, 3, 4, 5, 6, 7] && [0, 1, 2, 3, 5, 6, 7].all (fun d => !c.domUp d) && !c.memUp

/-- SWOFF; of MEM, with no program running, the step that ends the way to C4. -/
def execSwoff (k : Ch) (d : DomId) (s : State) : Host.Outcome State Fault Refusal :=
  onCh k s (fun dv c =>
    if d.val = 4 ∧ c.c4Due then c.enterC4Last
    else c.runStep dv d.val 0x07 (fun c => c.switchOff d.val))

/-- SWON. -/
def execSwon (k : Ch) (d : DomId) (s : State) : Host.Outcome State Fault Refusal :=
  onCh k s (fun dv c => c.runStep dv d.val 0x08 (fun c => c.switchOn d.val))

/-- RETON. -/
def execReton (k : Ch) (d : DomId) (s : State) : Host.Outcome State Fault Refusal :=
  onCh k s (fun dv c => c.runStep dv d.val 0x09 (fun c =>
    (if d.val = 4 then c.shufStop else c).domUpd d.val (fun x => { x with retention := true })))

/-- RETOFF. -/
def execRetoff (k : Ch) (d : DomId) (s : State) : Host.Outcome State Fault Refusal :=
  onCh k s (fun dv c => c.runStep dv d.val 0x0A (fun c => c.domUpd d.val (fun x => { x with retention := false })))

/-- PWR_DRAIN (R363, R595, R601): complete once the domain is idle; a drain that reaches its limit abandons the program. SPINE's writes its
dirty records back; MEM's, once the accesses are finished, restores what the Shuffle has borrowed. -/
def execPwrDrain (k : Ch) (d : DomId) (s : State) : Host.Outcome State Fault Refusal :=
  onCh k s (fun dv c =>
    match c.prog? d.val with
    | none => c
    | some g =>
      if c.presentOp d.val g ≠ some 0x0B ∨ c.stepDue d.val dv.time g = false then c
      else
        let c := if d.val = 5 then
            { ((c.cu.cached.filter (·.2)).foldl (fun (c : Chan) e => c.ctxWriteBack e.1) c) with
              cu := { c.cu with cached := c.cu.cached.map (fun e => (e.1, false)) } }
          else c
        if g.noDrain || c.drained d.val then c.runStep dv d.val 0x0B (fun c => if d.val = 4 then c.shufStop else c)
        else if g.since + stepB (c.seqWord g.pc) ≤ dv.time then
          (({ c with pw := { c.pw with drainto := c.pw.drainto + 1 } }).abandon d.val).pwAdvance c.xclk dv.time
        else c)

/-- SAVE (R594): the domain's state is in its save area in MEM. -/
def execSave (k : Ch) (d : DomId) (s : State) : Host.Outcome State Fault Refusal :=
  onCh k s (fun dv c => c.runStep dv d.val 0x0C (fun c => c.domUpd d.val (fun x => { x with saved := true })))

/-- RESTORE. -/
def execRestore (k : Ch) (d : DomId) (s : State) : Host.Outcome State Fault Refusal :=
  onCh k s (fun dv c => c.runStep dv d.val 0x0D (fun c => c.domUpd d.val (fun x => { x with saved := false })))

/-- Steps 2 and 3 of R410: memory that is in service goes into self-refresh, with its write buffer and check-line cache drained. -/
def Chan.toSelfRefresh (c : Chan) : Chan :=
  if c.dmState = 2 then
    let c := c.drainBuf.drainChecks
    ({ c with dm := { c.dm with selfRefresh := true, powerDown := false } }).setFld F.dmTrstatState 4
  else c

/-- SELFREF (R410, R594): once the accepted requests are finished, and no training program runs. -/
def execSelfref (k : Ch) (d : DomId) (s : State) : Host.Outcome State Fault Refusal :=
  onCh k s (fun dv c => if c.drained 6 then c.runStep dv d.val 0x0E Chan.toSelfRefresh else c)

/-- Leaves self-refresh and starts the periodic program (R410). -/
def Chan.fromSelfRefresh (c : Chan) (time : Nat) : Chan :=
  if c.dmState = 4 then
    (({ c with dm := { c.dm with selfRefresh := false } }).setFld F.dmTrstatState 3).trainStart time true
  else c

/-- SREXIT (R410, R594). -/
def execSrexit (k : Ch) (d : DomId) (s : State) : Host.Outcome State Fault Refusal :=
  onCh k s (fun dv c => c.runStep dv d.val 0x0F (fun c => c.fromSelfRefresh dv.time))

/-- WAIT. -/
def execPwrWait (k : Ch) (d : DomId) (s : State) : Host.Outcome State Fault Refusal :=
  onCh k s (fun dv c => c.runStep dv d.val 0x10 id)

/-! ## PWR_CTL and resets (R529, R603, R604, R613) -/

/-- ENTER_C4: a write of PWR_CTL. -/
def execEnterC4 (k : Ch) (p : Party) (w : Word) (s : State) : Host.Outcome State Fault Refusal :=
  onCh k s (fun dv c => c.regWrite p 0x1000 w (fun c => (c.pwrCtlWrite dv p w 0 64).serveHeld dv))

/-- SET_READY: a write of PWR_CTL. -/
def execSetReady (k : Ch) (p : Party) (w : Word) (s : State) : Host.Outcome State Fault Refusal :=
  onCh k s (fun dv c => c.regWrite p 0x1000 w (fun c => (c.pwrCtlWrite dv p w 0 64).serveHeld dv))

/-- CLEAR_READY: a write of PWR_CTL. -/
def execClearReady (k : Ch) (p : Party) (w : Word) (s : State) : Host.Outcome State Fault Refusal :=
  onCh k s (fun dv c => c.regWrite p 0x1000 w (fun c => (c.pwrCtlWrite dv p w 0 64).serveHeld dv))

/-- WAKE_TO_C0: a write of PWR_CTL. -/
def execWakeToC0 (k : Ch) (p : Party) (w : Word) (s : State) : Host.Outcome State Fault Refusal :=
  onCh k s (fun dv c => c.regWrite p 0x1000 w (fun c => (c.pwrCtlWrite dv p w 0 64).serveHeld dv))

/-- CHANNEL_RESET: a write of PWR_CTL. -/
def execChannelReset (k : Ch) (p : Party) (w : Word) (s : State) : Host.Outcome State Fault Refusal :=
  onCh k s (fun dv c => c.regWrite p 0x1000 w (fun c => (c.pwrCtlWrite dv p w 0 64).serveHeld dv))

/-- The function's PCIe state is reset: its MSI-X, and host software's accesses under way. -/
def Chan.dropHost (c : Chan) : Chan :=
  { c with msix := {}, pw := { c.pw with held := c.pw.held.filter (fun a => a.party != .host) } }

/-- FUNCTION_LEVEL_RESET (R529, R603): of PF0, its PCIe state only; of PF(k+1), a channel reset with it. -/
def execFunctionLevelReset (fn : FnId) (s : State) : Host.Outcome State Fault Refusal :=
  if h : fn.val = 0 then onDev s (fun d => { d with msix := {}, doe := {} })
  else onCh ⟨fn.val - 1, by omega⟩ s (fun dv c =>
    (c.dropHost.channelReset c.xclk dv.time (c.domUp 6 || c.dm.selfRefresh)).serveHeld dv)

/-- Changes every channel of the device. -/
def State.eachChan (s : State) (f : Nat → Chan → Chan) : State :=
  (List.range 16).foldl (fun (s : State) k => s.setChan k (f k (s.chan k))) s

/-- PERST_N (R603, R605): the HOST domain and every channel are reset; MGMT, AON and SERVICE keep their state. -/
def execPerstN (s : State) : Host.Outcome State Fault Refusal :=
  let d := { s.dev with perst := false, linkUp := false, msix := {}, doe := {} }
  .next (({ s with dev := d } : State).eachChan (fun _ c =>
    (c.dropHost.channelReset c.xclk d.time (c.domUp 6 || c.dm.selfRefresh)).serveHeld d))

/-- PERST_N_RELEASE (R605): link training is enabled. -/
def execPerstNRelease (s : State) : Host.Outcome State Fault Refusal :=
  onDev s (fun d => { d with perst := true, linkUp := true })

/-- TRST_N (R603): the JTAG TAP is reset. -/
def execTrstN (s : State) : Host.Outcome State Fault Refusal := onDev s (fun d => { d with tapReset := true })

/-! ## Operating points, limiter, temperature, rails (R582, R584, R598 to R602) -/

/-- OPERATING_POINT_SWITCH (R582, R598, R599): to the point that the target and the cap give, in C2 to the lowest one (R587), no sooner than GAP µs
after the switch before. Voltage and PLL change in the order of R599 within the step. -/
def execOperatingPointSwitch (k : Ch) (s : State) : Host.Outcome State Fault Refusal :=
  onCh k s (fun dv c =>
    if 3 ≤ c.pw.cst then c else c.switchTo dv.time (if c.pw.cst = 2 then c.points.head? else c.point))

/-- The limiter may take another point off a channel (R600). -/
def Chan.canLower (c : Chan) : Bool :=
  let ps := c.points
  decide (c.pw.limited + 1 < ps.length)
    && (!c.flag F.adCfgEn || decide (c.fld F.adCfgMinmhz ≤ (ps.getD (ps.length - 2 - c.pw.limited) (0, 0)).1))

/-- The channel with the highest XCLK among those the limiter may lower, the lowest number on a tie. -/
def State.limTarget (s : State) : Option Nat :=
  (List.range 16).foldl (fun (b : Option Nat) k =>
    if !(s.chan k).canLower then b
    else match b with
      | none => some k
      | some j => if (s.chan j).pw.mhz < (s.chan k).pw.mhz then some k else b) none

/-- POWER_LIMITER (R600): one ms, with the power estimated over it. -/
def execPowerLimiter (watts : Nat) (s : State) : Host.Outcome State Fault Refusal :=
  let plim := s.dev.fld F.thCfgPlim
  if plim < watts then
    let s := { s with dev := { s.dev with lowMs := 0 } }
    match s.limTarget with
    | none => .next s
    | some k =>
      .next (({ s with dev := { s.dev with limOrder := k :: s.dev.limOrder } } : State).setChan k
        { s.chan k with pw := { (s.chan k).pw with limited := (s.chan k).pw.limited + 1 } })
  else if plim * 95 ≤ watts * 100 then .next { s with dev := { s.dev with lowMs := 0 } }
  else
    let s := { s with dev := { s.dev with lowMs := min 10 (s.dev.lowMs + 1) } }
    match s.dev.limOrder with
    | [] => .next s
    | k :: r =>
      if s.dev.lowMs < 10 then .next s
      else
        .next (({ s with dev := { s.dev with limOrder := r } } : State).setChan k
          { s.chan k with pw := { (s.chan k).pw with limited := (s.chan k).pw.limited - 1 } })

/-- A threshold of TH_CFG in units of 0.125 degrees (R620 to R622). -/
def Dev.thr (d : Dev) (f : Fd) : Int := 8 * (d.fld f : Int)

/-- A channel under the thermal limit (R600): above LIMIT, until below LIMIT less HYST. -/
def Chan.heat (c : Chan) (limit hyst t : Int) : Chan :=
  if limit < t then { c with pw := { c.pw with thermal := true } }
  else if t < limit - hyst then { c with pw := { c.pw with thermal := false } }
  else c

/-- A trip takes a channel to C4 by its down programs, with no DRAIN wait (R601); one on its way up from C4 goes back, what is up going down again
(log entry 33). -/
def Chan.trip (c : Chan) (d : Dev) : Chan :=
  if c.pw.tripped ∧ c.pw.goal = 4 then c
  else
    let c := { c with pw := { c.pw with tripped := true, goal := 4, wake := false, wakeDoms := [] } }
    if c.pw.cst = 4 ∧ c.pw.progs = [] ∧ [0, 1, 2, 3, 4, 5, 6, 7].all (fun d => !c.domUp d) then c
    else
      let c := if c.pw.cst = 4 then { c with pw := { c.pw with cst := 3 } } else c
      ({ c with pw := { c.pw with progs := c.pw.progs.map (fun (e : Nat × Prog) => (e.1, { e.2 with noDrain := true })) } }).pwAdvance
        c.xclk d.time

/-- The sensors as the device blocks keep them: WARN with its crossings, the hottest reading, the time above 90 degrees (R601). -/
def Dev.sense (d : Dev) (ts : List Int) : Dev :=
  let warn := d.thr F.thCfgWarn
  let hyst := d.thr F.thCfgHyst
  let hot := ts.foldl max (ts.headD 0)
  let above := (List.range ts.length).filter (fun i => decide (warn < ts.getD i 0))
  let new := above.filter (fun i => !d.warn.contains i)
  let d := new.foldl (fun (d : Dev) _ => d.raise 0x30) d
  let n := if 720 < hot then d.above90 + 1 else d.above90
  { d with
    regs := (List.range ts.length).foldl (fun r i => tblPut r (F.thSensTemp i).off (BitVec.ofNat 64 ((ts.getD i 0) % 65536).toNat) 0)
      (tblPut d.regs F.thStatMax.off (BitVec.ofNat 64 ((hot % 65536).toNat <<< 48)) 0),
    warn := above,
    warnNow := if !above.isEmpty then true else if ts.all (fun t => decide (t < warn - hyst)) then false else d.warnNow,
    above90 := n % 10000, above90s := if n = 10000 then BitVec.ofNat 32 (min 0xFFFFFFFF (d.above90s.toNat + 1)) else d.above90s,
    tjSum := d.tjSum + hot, tjCount := d.tjCount + 1, tjHot := d.tjHot + (if 720 < hot then 1 else 0),
    tj105 := d.tj105 || decide (840 < hot) }

/-- THERMAL_SAMPLE (R600, R601): the readings of TH_SENS0 to TH_SENS19. -/
def execThermalSample (temps : List (BitVec 16)) (s : State) : Host.Outcome State Fault Refusal :=
  if !sensorsWf temps then .fault .illFormed
  else
    let ts := temps.map BitVec.toInt
    let d := s.dev.sense ts
    let s := (({ s with dev := d } : State)).eachChan (fun k c => c.heat (d.thr F.thCfgLimit) (d.thr F.thCfgHyst) (ts.getD k 0))
    if ts.any (fun t => decide (d.thr F.thCfgTrip < t)) then
      let d := { s.dev with tripped := true, tripAlert := true }
      .next (({ s with dev := d } : State).eachChan (fun _ c => c.trip d)).showMargin
    else .next s.showMargin

/-- CLK32K_LOSS (R584): LPCLK is taken from ACLK. -/
def execClk32kLoss (s : State) : Host.Outcome State Fault Refusal :=
  onDev s (fun d => if !d.clk32 then d else (({ d with clk32 := false } : Dev).setFld F.thRailClk32 1).raise 0x31)

/-- CLK32K_RESTORE (R584). -/
def execClk32kRestore (s : State) : Host.Outcome State Fault Refusal := onDev s (fun d => { d with clk32 := true })

/-- RAIL_ALARM (R602, R623). -/
def execRailAlarm (a : RailId) (s : State) : Host.Outcome State Fault Refusal :=
  onDev s (fun d => (d.setFld ⟨0x3018, a.val, 1⟩ 1).raise 0x31)

end Sys2Proof.Machine
end

