-- ==== Sys2Proof/Machine/Boot.lean ====
section
/-! DEFINITION. The steps of start-up: what the service firmware does for a channel after POR_N, after a wake from C4 and after a channel reset (R592,
R604, R606, R607, R630; log entries 33 and 36). -/

namespace Sys2Proof.Machine

/-! ## Step 7: self-tests and the repair map (R225, R229, R630) -/

/-- Applies the repair map to a channel (R629, R630); the rows repaired come with step 8. -/
def Chan.applyMap (c : Chan) (m : List Repair) : Chan :=
  let l := m.filter (fun r => r.ch == c.idx)
  let c := l.foldl (fun c r =>
    if r.kind = 1 then c.duetCmd c.xclk (r.unit_ % 68) 2 else if r.kind = 2 then c.physCmd (r.unit_ % 5) 2 else c) c
  (sortBy (fun a b => decide (a.hours ≤ b.hours)) (l.filter (fun r => r.kind == 3))).foldl
    (fun c r => c.shufRepair .service (Fin.ofNat 64 r.unit_) (BitVec.ofNat 64 (2 ^ 63 + r.region))) c

/-- A duet fails its start-up self-test: it is retired with cause 4 (R225, R229). The tile of a duet that has one goes to a spare or a partner as
in a stand-in (DESIGN CHOICE, log entry 36). -/
def Chan.failSelfTest (c : Chan) (d : Nat) : Chan :=
  if c.role d = roleSpare then (c.retireDuet d 4).lfLast d 0x7F 4 0 0
  else
    let c := c.startStandIn c.xclk d 4
    match (c.duet d).standIn with
    | none => c
    | some si => c.standInOver c.xclk d si true

/-- A physical caller duet fails its start-up self-test (R225, R234, R490): the caller it serves goes to the spare. -/
def Chan.failCallerTest (c : Chan) (m : Nat) : Chan :=
  if c.fld (F.ccPhysRole m) = roleSpare then c.retirePhys m 4
  else
    match c.callerOf m with
    | none => c
    | some n =>
      let c := c.startCallerStandIn n 4
      match (c.caller n).standIn with
      | none => c
      | some r => c.callerStandInOver n r true

/-- The self-tests of step 7, with the duets and the physical caller duets that fail them: the spares' first, so that no failing one takes a tile or a
caller. -/
def Chan.selfTests (c : Chan) (duets phys : List Nat) : Chan :=
  let l := duets.filter (fun d => c.role d != roleRetired)
  let c := (l.filter (fun d => decide (64 ≤ d)) ++ l.filter (fun d => decide (d < 64))).foldl Chan.failSelfTest c
  let l := phys.filter (fun m => c.fld (F.ccPhysRole m) != roleRetired)
  (l.filter (fun m => m == 4) ++ l.filter (fun m => m != 4)).foldl Chan.failCallerTest c

/-! ## Step 8: the GDDR7 tables and the start-up program (R392, R406, R409, R630) -/

/-- The HPPR step of a repaired row (R406, R629). -/
def hpprWord (r : Repair) : Word :=
  BitVec.ofNat 64 (0x0C <<< 56 + (r.unit_ % 16 + atBit (decide (256 ≤ r.unit_)) 4) <<< 48 + r.region % 2 ^ 18)

/-- The repaired rows of a channel. -/
def rowRepairs (m : List Repair) (k : Nat) : List Repair := m.filter (fun r => r.kind == 4 && r.ch == k)

/-- The first END of a program from its first step on. -/
def endOf (ws : List Word) (first : Nat) : Nat :=
  ((List.range 256).find? (fun i => decide (first ≤ i) && wbits (ws.getD i 0) 56 8 == 0)).getD 255

/-- The GDDR7 tables of an object (R419): DM_TRCFG and the step words. Before the start-up program's END stand the HPPR steps of the channel's repaired rows
(R409, R630); the steps from there on, the periodic program among them, move up (DESIGN CHOICE, log entry 50). -/
def Chan.dmTables (c : Chan) (dv : Dev) (g : Digest) : Chan :=
  let ws := (List.range 256).map (fun i => Config.tableWord g c.idx (0x1A800 + 8 * i))
  let c := c.wrFields 0x1A008 (Config.tableWord g c.idx 0x1A008)
  let p := endOf ws (c.fld F.dmTrcfgStart)
  let new := (rowRepairs dv.svc.repairs c.idx).map hpprWord
  let c := if p < c.fld F.dmTrcfgPer then c.setFld F.dmTrcfgPer ((c.fld F.dmTrcfgPer + new.length) % 256) else c
  (((ws.take p ++ new ++ ws.drop p).take 256).zipIdx).foldl (fun c e => c.wrFields (0x1A800 + 8 * e.2) e.1) c

/-- Step 8 of R606: the GDDR7 tables and DM_CFG of the object in M3, with EN, which starts the start-up program (R392). -/
def Chan.dmStartUp (c : Chan) (dv : Dev) : Chan :=
  (c.dmTables dv (dv.slot 3)).dmCfgWriteOp dv (setBits (Config.tableWord (dv.slot 3) c.idx 0x1A000) 63 1 1) 0 64

/-! ## Step 9: the steward (R606) -/

/-- Step 9 of R606: FB_OWNDIG, the steward image from 0xE000 on, and CC_CALL0.RUN. -/
def Chan.stewardStart (c : Chan) (dv : Dev) : Chan :=
  let c := c.wr 0x20900 dv.ownDigest
  let c := (List.range dv.svc.steward.length).foldl (fun c i => c.putInstr (0xE000 + i) (dv.svc.steward.getD i 0)) c
  c.callWrite .service 0 (setBits (c.rd 0x30000) 63 1 1) 0 64

/-! ## The steps that are due (R592, R604) -/

/-- A step of start-up fails: the channel stays with READY 0; STARTFAIL and device source 0x81 (R606, R636, R644). -/
def Chan.startFailed (c : Chan) (step : Nat) : Chan :=
  ({ c with notes := c.notes ++ [Note.startfail step c.dmState], pw := { c.pw with due := 10 } }).raiseDev 0x81

/-- Step 7 again, after a wake from C4, and the beginning of step 8 (R592). -/
def Chan.testAgain (c : Chan) (dv : Dev) : Chan :=
  let bad := Config.startFails c.idx c.xclk
  if bad 256 then c.startFailed 7
  else
    let c := (c.selfTests ((List.range 68).filter bad) ((List.range 5).filter (fun m => bad (128 + m)))).applyMap dv.svc.repairs
    ({ c with pw := { c.pw with due := 8 } } : Chan).dmStartUp dv

/-- Step 9, once there is a steward image. -/
def Chan.startSteward (c : Chan) (dv : Dev) : Chan :=
  if dv.svc.steward = [] then c else { c.stewardStart dv with pw := { (c.stewardStart dv).pw with due := 0 } }

/-- The service firmware, while it runs, carries out what is due for a channel that is awake and whose program store is cleared: step 9 follows a start-up
program that has brought the memory to READY. -/
def Chan.serviceSteps (c : Chan) (dv : Dev) : Chan :=
  if c.pw.due = 0 ∨ c.progClearing ∨ c.asleep ∨ dv.restarting ∨ dv.recovery then c
  else match c.pw.due with
    | 7 => c.testAgain dv
    | 8 => if c.dmState = 2 then c.startSteward dv else if c.dmState = 0 ∨ c.dmState = 5 then c.startFailed 8 else c
    | 9 => c.startSteward dv
    | _ => c

/-- PROGRAM_STORE_CLEAR_COMPLETE (R604): accesses to the program store proceed, and the service firmware carries out what is due. -/
def execProgramStoreClearComplete (k : Ch) (s : State) : Host.Outcome State Fault Refusal :=
  onCh k s (fun dv c => if !c.progClearing then c else ({ c with progClearing := false } : Chan).serviceSteps dv)

/-! ## Start-up as a whole (R606, R607, R636, R644, R666) -/

/-- A channel that start-up leaves in C4, switched off (R587, R606, R607). -/
def Chan.unpowered (k : Nat) : Chan :=
  { idx := k, progClearing := false, sp := { clearing := false },
    pw := { cst := 4, goal := 4, tripped := true,
            doms := (List.range 8).map (fun d => (d, { gated := true, clamped := true, inReset := true, off := true })) } }

/-- The power tables; a point keeps the AGE it has reached (R597, R598, R632). -/
def Chan.pwrUpdate (c : Chan) (g : Digest) (k : Nat) : Chan :=
  let c := (List.range 8).foldl (fun c i => c.wrFields (0x1040 + 8 * i) (Config.tableWord g k (0x1040 + 8 * i))) c
  let c := (List.range 16).foldl (fun c i =>
    let a := c.fld (F.pwrCurveAge i)
    (c.wrFields (0x1100 + 8 * i) (Config.tableWord g k (0x1100 + 8 * i))).setFld (F.pwrCurveAge i) a) c
  (List.range 128).foldl (fun c i => c.wrFields (0x1400 + 8 * i) (Config.tableWord g k (0x1400 + 8 * i))) c

/-- Step 8 of R606 as a whole (R392, R406). -/
def Chan.dmBoot (c : Chan) (dv : Dev) (bad : List (Nat × Nat)) : Chan :=
  ((c.dmStartUp dv).runProgram dv.time (fun i => bad.contains (c.idx, i)) programFuel).trainOver dv.time

/-- The step at which a channel fails, 0 for none. -/
def failStep (b : BootInfo) (k : Nat) (c : Chan) : Nat :=
  if !b.selfTest.getLsbD k then 7 else if c.dmState ≠ 2 then 8 else 0

/-- What of a list is channel k's. -/
def ofChan (l : List (Nat × α)) (k : Nat) : List α := (l.filter (fun e => e.1 == k)).map (·.2)

/-- Steps 6 to 8 for channel k: power tables, self-tests, repair map, GDDR7. Its sets are powered (R614), and step 9 is due where none has failed. -/
def Chan.boot (dv : Dev) (b : BootInfo) (k : Nat) : Chan :=
  let c := ((Chan.fresh k).pwrUpdate (dv.slot 5) k).wr 0x20900 dv.ownDigest
  let c := { c with pw := { c.pw with seton := 0xF } }
  let c := if !b.selfTest.getLsbD k then c
    else ((c.selfTests ((ofChan b.badDuets k).map (·.val)) ((ofChan b.badCallers k).map (·.val))).applyMap dv.svc.repairs).dmBoot dv b.badSteps
  { c with pw := { c.pw with due := if failStep b k c = 0 then 9 else 10 } }

/-- The payload of a START record: reset cause 0 for POR_N, DV_ID, and the first 8 bytes of M0 to M7 (R636). -/
def Dev.startPayload (d : Dev) : List Byte :=
  valBytes 0 1 ++ valBytes (d.rd 0).toNat 8 ++ (List.range 8).flatMap (fun n => (digestBytes (d.slot n)).take 8)

/-- The channels that failed: CHFAIL, STARTFAIL records, and source 0x81 (R636, R644, R666). -/
def State.noteFails (s : State) (b : BootInfo) : State :=
  (List.range 16).foldl (fun (s : State) k =>
    let f := failStep b k (s.chan k)
    if f = 0 then s
    else
      let p := valBytes k 1 ++ valBytes f 1 ++ valBytes (s.chan k).dmState 1
      let d := ({ s.dev with chFail := s.dev.chFail ||| BitVec.ofNat 16 (2 ^ k) } : Dev).raise 0x81
      { s with dev := d.note recStartfail p }) s

/-- The last step of R606 completed (R666): 11 once step 9 is over and every channel that has not failed has been READY; step 10 leaves no mark. -/
def State.lastStep (s : State) : Nat :=
  if s.dev.step = 9 ∧ (List.range 16).all (fun k => (s.chan k).pw.ready || s.dev.chFail.getLsbD k) then 11 else s.dev.step

/-- Every channel stays in C4, held until POR_N. -/
def State.allOff (s : State) : State := s.eachChan (fun k _ => Chan.unpowered k)

/-- Steps 5 to 9 of R606 (R606, R607, R609): the table bundle, M2 to M7 with the objects that are committed, else those that start-up has found, the
channels, and the steward image. M7 is as given. -/
def State.bootOn (s : State) (b : BootInfo) (m7 : Digest) : State :=
  let d := s.dev
  if !b.tablesOk then s.allOff
  else
    let g := fun n => match d.svc.active n with | some r => r.digest | none => b.digests.getD n 0
    let d := ((d.setSlot 3 (g 3)).setSlot 4 (g 4)).setSlot 5 (g 5)
    let d := (d.setSlot 6 d.svc.mapDigest).setSlot 7 m7
    let image := if (d.svc.active 2).isSome then (List.range 4096).map (Config.imageWord (g 2)) else b.steward
    let d := if b.stewardOk then { d.setSlot 2 (g 2) with svc := { d.svc with steward := image } } else d
    let d := { d with step := if b.stewardOk then 9 else 8 }
    let d := (d.note recStart d.startPayload).showLstat
    (({ s with dev := d } : State).eachChan (fun k _ => Chan.boot d b k)).noteFails b

end Sys2Proof.Machine
end

