-- ==== Sys2Proof/Machine/Service.lean ====
section
/-! DEFINITION. The update engine of the service core: STAGE, COMMIT, ACTIVATE and what they put into service (R639 to R642, R653 to
R655; log entry 35). -/

namespace Sys2Proof.Machine

/-- What STATE of UP_STAT reads (R655). -/
def upCode : UpSt → Nat
  | .idle => 0
  | .staging => 1
  | .staged => 2
  | .committed => 3
  | .activating => 4
  | .done => 5
  | .failed => 6

/-- UP_STAT (R655). -/
def Service.upStat (v : Service) : Word :=
  BitVec.ofNat 64 (upCode v.up <<< 60 + v.reason <<< 52 + v.chdone.toNat <<< 32 + (match v.img with | some i => i.svn.toNat | none => 0))

/-- The payload of an UPDATE record: object, version, SVN, digest, and the outcome as STATE, REASON and CHDONE (R636). -/
def Service.updPayload (v : Service) : List Byte :=
  let g := match v.img with | some i => i.digest | none => 0
  valBytes v.obj 1 ++ valBytes (Config.imageVersion g).toNat 4 ++ valBytes (match v.img with | some i => i.svn.toNat | none => 0) 4
    ++ digestBytes g ++ valBytes (upCode v.up) 1 ++ valBytes v.reason 1 ++ valBytes v.chdone.toNat 2

/-- The end of a stage: STATE and REASON, an UPDATE record, and source 0x32 (R639). -/
def Dev.stageEnd (d : Dev) (st : UpSt) (reason : Nat) : Dev :=
  let d := { d with svc := { d.svc with up := st, reason := reason } }
  (d.note recUpdate d.svc.updPayload).raise 0x32

/-! ## STAGE and COMMIT (R639) -/

/-- REASON with which STAGE fails, 0 for none: the object and its size, the host read, the flash, the signature, the security
version. In recovery mode only a service firmware can be loaded (R607). -/
def Dev.stageReason (d : Dev) (obj : Nat) (img : ImgInfo) : Nat :=
  if obj = 0 ∨ 5 < obj ∨ (d.recovery ∧ obj ≠ 1) ∨ img.sizeBad then 3
  else if img.hostErr then 5
  else if !img.flashOk then 4
  else if !img.sigOk then 1
  else if img.svn.toNat < (tblGet d.svc.otpMin obj 0).toNat then 2
  else 0

def Dev.stage (d : Dev) (obj : Nat) (img : ImgInfo) : Dev :=
  let r := d.stageReason obj img
  let d := if r = 4 then d.flashError else d
  ({ d with svc := { d.svc with obj := obj, img := some img, chdone := 0 } } : Dev).stageEnd (if r = 0 then .staged else .failed) r

/-- The directory record that makes the other bank of the object active is written, and counts where its read-back holds (R607, R635, R639); BURN
raises the object's least security version. -/
def Dev.commitImg (d : Dev) (img : ImgInfo) (burn ok : Bool) : Dev :=
  let v := d.svc
  let old := tblGet v.otpMin v.obj 0
  let dir := v.dir ++ [{ obj := v.obj, bank := !v.activeBank v.obj, digest := img.digest, committed := ok }]
  if ok then
    ({ d with svc := { v with
        dir := dir, otpMin := if burn ∧ old.toNat < img.svn.toNat then tblPut v.otpMin v.obj img.svn 0 else v.otpMin } } : Dev).stageEnd .committed 0
  else ({ d with svc := { v with dir := dir } } : Dev).flashError.stageEnd .failed 4

/-! ## ACTIVATE (R640 to R642) -/

/-- Steps 1 and 2 of R640: the image in the half that CL0 does not run, RESTART, and source 28. -/
def Chan.handOver (c : Chan) (g : Digest) : Chan :=
  let base := if 0xF000 ≤ (c.caller 0).ipDone.toNat then 0xE000 else 0xF000
  let c := (List.range 4096).foldl (fun c i => c.putInstr (base + i) (Config.imageWord g i)) c
  (c.setFld F.ccStewRestart base).raise 28

/-- The steward's IP lies in the half that RESTART names (R640, step 4). -/
def Chan.handedOver (c : Chan) : Bool := (c.caller 0).ipDone.toNat / 4096 == c.fld F.ccStewRestart / 4096

/-- The words of FB_LSMi of a table that are valid. -/
def lsmWords (g : Digest) (k : Nat) : List Word :=
  ((List.range 32).map (fun i => Config.tableWord g k (0x20800 + 8 * i))).filter (fun w => wbit w 63)

/-- New entries of the link table go to invalid entries, in order; then the old ones that the table does not hold are made invalid.
None where there is no room (R642). -/
def Chan.lsmUpdate (c : Chan) (g : Digest) (k : Nat) : Option Chan :=
  let ws := lsmWords g k
  let idx := List.range 32
  let held := (idx.filter (fun i => c.flag (F.fbLsmValid i))).map (fun i => c.rd (0x20800 + 8 * i))
  let new := ws.filter (fun w => !held.contains w)
  let free := idx.filter (fun i => !c.flag (F.fbLsmValid i))
  if free.length < new.length then none
  else
    let olds := idx.filter (fun i => c.flag (F.fbLsmValid i) && !ws.contains (c.rd (0x20800 + 8 * i)))
    let c := (free.zip new).foldl (fun c e => c.wrFields (0x20800 + 8 * e.1) e.2) c
    some (olds.foldl (fun c i => c.setFld (F.fbLsmValid i) 0) c)

/-- The routing copy that is not current is loaded and made current (R436, R642). -/
def Chan.routeUpdate (c : Chan) (g : Digest) (k : Nat) : Chan :=
  let cur := c.fld F.ntEpochCur
  let off := fun i => (if cur = 0 then 0x1C140 else 0x1C100) + 8 * i
  let both : Word := BitVec.ofNat 64 (b2n (c.epochValid 0) <<< 61 + b2n (c.epochValid 1) <<< 62 + cur <<< 63)
  let c := c.epochWrite (setBits both (if cur = 0 then 62 else 61) 1 0) 64
  let c := (List.range 8).foldl (fun c i => c.routeWrite (1 - cur) (off i) (Config.tableWord g k (off i)) 0 64) c
  c.epochWrite (setBits (setBits both (if cur = 0 then 62 else 61) 1 1) 63 1 (1 - cur)) 64

/-- What becomes of a channel that an ACTIVATE is to serve. -/
inductive Served where
  | wait
  | skip
  | full
  | done (c : Chan)
  | handing (c : Chan) (old : Nat)

/-- A channel as its chapter allows the object's registers to be written (R419, R436, R618, R640); one in C4 takes the object from
flash after its wake. -/
def Chan.serveObj (c : Chan) (dv : Dev) (obj : Nat) (g : Digest) : Served :=
  match obj with
  | 2 =>
    if c.pw.cst = 4 then .skip
    else if c.asleep ∨ c.progClearing then .wait
    else .handing ((if c.pw.cst = 0 then c else c.askWake).handOver g) (c.fld F.ccStewRestart)
  | 3 =>
    if c.pw.cst = 4 then .skip
    else if c.asleep then .wait
    else if [0, 2, 5].contains c.dmState ∧ !(c.dmState == 2 && c.trainDue dv.time) then .done (c.dmTables dv g)
    else .wait
  | 4 =>
    if c.pw.cst = 4 then .skip
    else if c.asleep ∨ c.oldCnt ≠ 0 then .wait
    else match c.lsmUpdate g c.idx with
      | none => .full
      | some c => .done (c.routeUpdate g c.idx)
  | 5 => if c.noProg [0, 1, 2, 3, 4, 5, 6, 7] then .done (c.pwrUpdate g c.idx) else .wait
  | _ => .skip

/-- A channel's bit of CHDONE. -/
def Service.chDone (v : Service) (k : Nat) : Service := { v with chdone := v.chdone ||| BitVec.ofNat 16 (2 ^ k) }

/-- A channel of the list is served where it can be; a sleeping channel that waits is woken (R590, R591). -/
def State.serveOne (s : State) (g : Digest) (k : Nat) : State :=
  let c := s.chan k
  let v := s.dev.svc
  let rest := v.todo.filter (fun j => j != k)
  let put := fun (c : Chan) (v : Service) => ({ s with dev := { s.dev with svc := v } } : State).setChan k c
  match c.serveObj s.dev v.obj g with
  | .wait => if c.asleep then s.setChan k c.askWake else s
  | .skip => put c { v with todo := rest }
  | .full => put c { v with todo := rest, reason := 3 }
  | .done c' => put c' { v.chDone k with todo := rest }
  | .handing c' old => put c' { v with todo := rest, handOver := v.handOver ++ [(k, BitVec.ofNat 16 old, s.dev.time)] }

/-- Hand-overs that are complete (R640). -/
def State.takeOvers (s : State) : State :=
  let done := s.dev.svc.handOver.filter (fun h => (s.chan h.1).handedOver)
  { s with dev := { s.dev with svc :=
    { (done.foldl (fun (v : Service) h => v.chDone h.1) s.dev.svc) with
      handOver := s.dev.svc.handOver.filter (fun h => !(s.chan h.1).handedOver) } } }

/-- FB_OWNDIG of every channel (R470). -/
def State.showOwn (s : State) : State := s.eachChan (fun _ c => c.wr 0x20900 s.dev.ownDigest)

/-- The service core has restarted with a new firmware: step 5 of R606 measures the tables and the repair map again (R641); out of recovery mode, the steps
of start-up that were left follow (R606, R607). -/
def State.restarted (s : State) : State :=
  let d := { s.dev with svBank := s.dev.svc.activeBank 1, recovery := false }
  match s.dev.recovery, s.dev.boot with
  | true, some b => ({ s with dev := { d with step := 4, svc := { d.svc with evtgt := 1 } } } : State).bootOn b (d.slot 7)
  | _, _ =>
    let d := ((d.setSlot 3 (d.slot 3)).setSlot 4 (d.slot 4)).setSlot 5 (d.slot 5)
    ({ s with dev := d.setSlot 6 d.svc.mapDigest } : State).showOwn

/-- The end of ACTIVATE (R609, R639): where the object is in service, its digest replaces the slot and the update record extends M7;
the steward image of step 9 is the new one. -/
def State.activateEnd (s : State) : State :=
  let v := s.dev.svc
  match v.img with
  | none => s
  | some i =>
    let st : UpSt := if v.reason = 0 then .done else .failed
    let d := s.dev.stageEnd st v.reason
    if st = .failed ∧ v.chdone = 0 then { s with dev := d }
    else
      let d := d.setSlot v.obj i.digest
      let d := d.setSlot 7 (extendM7 (d.slot 7) d.svc.updPayload)
      let d := if v.obj = 2 then { d with svc := { d.svc with steward := (List.range 4096).map (Config.imageWord i.digest) } } else d
      let s := { s with dev := d }
      if v.obj = 1 then s.restarted else if v.obj = 3 then s else s.showOwn

/-- An ACTIVATE under way goes on: the restart of the service core has ended, or channels can be served (R640 to R642). -/
def State.upWork (s : State) : State :=
  let v := s.dev.svc
  if v.up ≠ .activating then s
  else if v.obj = 1 then (if s.dev.restarting then s else s.activateEnd)
  else
    let g := match v.img with | some i => i.digest | none => 0
    let s := (v.todo.foldl (fun (s : State) k => s.serveOne g k) s).takeOvers
    if s.dev.svc.todo = [] ∧ s.dev.svc.handOver = [] then s.activateEnd else s

/-- ACLK periods of the restart of the service core, 250 ms (R641), and of the limit of a hand-over, 10 ms (R640). -/
def restartAclk : Nat := 25000000
def handOverAclk : Nat := 1000000

/-- ACTIVATE: the service core restarts, or the channels of CHMASK are served. -/
def State.activate (s : State) : State :=
  let d := s.dev
  let v := { d.svc with up := .activating, reason := 0, chdone := 0, handOver := [],
                        todo := (List.range 16).filter (fun k => (d.fld F.upCtlChmask).testBit k) }
  ({ s with dev := { d with svc := { v with restartEnd := if v.obj = 1 then d.time + restartAclk else v.restartEnd } } } : State).upWork

/-! ## UP_CTL (R653) -/

/-- A command of UP_CTL. One that STATE has no use for changes nothing. -/
def State.upCmd (s : State) (cmd : Nat) (img : ImgInfo) : State :=
  let d := s.dev
  let v := d.svc
  let obj := d.fld F.upCtlObj
  match cmd with
  | 1 => { s with dev := d.stage obj img }
  | 2 =>
    if v.up ≠ .staged then s
    else if obj ≠ v.obj then { s with dev := d.stageEnd .failed 3 }
    else match v.img with
      | none => s
      | some i => { s with dev := d.commitImg i (d.flag F.upCtlBurn) img.flashOk }
  | 3 =>
    if v.up ≠ .committed then s
    else if obj ≠ v.obj then { s with dev := d.stageEnd .failed 3 }
    else s.activate
  | 4 => if v.up = .staging ∨ v.up = .staged then { s with dev := d.stageEnd .failed 7 } else s
  | _ => s

/-- A write of UP_CTL; a CMD other than ABORT is ignored while STATE is STAGING or ACTIVATING, and every CMD while the service core
restarts. -/
def State.upCtlWrite (s : State) (p : Party) (w : Word) (lo hi : Nat) (img : ImgInfo) : State :=
  if p.inChannel then s
  else
    let cmd := if hi = 64 then wbits w 60 4 else 0
    let s := { s with dev := s.dev.wrFields 0x5000 w lo hi }
    if s.dev.restarting ∨ ((s.dev.svc.up = .staging ∨ s.dev.svc.up = .activating) ∧ cmd ≠ 4) then s else s.upCmd cmd img

/-- The image that a command finds in host memory at UP_SRC (R639, R654). -/
def Dev.hostImg (d : Dev) (w : Word) : ImgInfo := Config.hostImage (setBits (d.rd 0x5008) 0 12 0) (wbits w 0 32)

/-- STAGE: a write of UP_CTL. -/
def execStage (p : Party) (w : Word) (img : ImgInfo) (s : State) : Host.Outcome State Fault Refusal := .next (s.upCtlWrite p w 0 64 img)

/-- COMMIT: a write of UP_CTL; the directory record's read-back holds, or fails (R635). -/
def execCommit (p : Party) (w : Word) (s : State) (ok : Bool := true) : Host.Outcome State Fault Refusal :=
  .next (s.upCtlWrite p w 0 64 { s.dev.hostImg w with flashOk := ok })

/-- ACTIVATE: a write of UP_CTL. -/
def execActivate (p : Party) (w : Word) (s : State) : Host.Outcome State Fault Refusal :=
  .next (s.upCtlWrite p w 0 64 (s.dev.hostImg w))

/-- UPDATE_ABORT: a write of UP_CTL. -/
def execUpdateAbort (p : Party) (w : Word) (s : State) : Host.Outcome State Fault Refusal :=
  .next (s.upCtlWrite p w 0 64 (s.dev.hostImg w))

/-- HAND_OVER_TIMEOUT (R640): RESTART is written back, and the channel keeps the old image. -/
def execHandOverTimeout (k : Ch) (s : State) : Host.Outcome State Fault Refusal :=
  let s := s.takeOvers
  match s.dev.svc.handOver.find? (fun h => h.1 == k.val) with
  | none => .next s.upWork
  | some h =>
    if s.dev.time < h.2.2 + handOverAclk then .next s.upWork
    else
      let v := { s.dev.svc with handOver := s.dev.svc.handOver.filter (fun h => h.1 != k.val), reason := 6 }
      .next ((({ s with dev := { s.dev with svc := v } } : State).setChan k.val
        ((s.chan k.val).setFld F.ccStewRestart h.2.1.toNat)).upWork)

end Sys2Proof.Machine
end

