-- ==== Sys2Proof/Machine/Device.lean ====
section
/-! DEFINITION. The registers of PF0, and the commands that read and write the registers of any function (R12, R528, R605, R643, R656
to R666). -/

namespace Sys2Proof.Machine

/-! ## What a register of PF0 reads as -/

/-- SV_STAT (R666). -/
def State.svStat (s : State) : Word :=
  let ks := List.range 16
  let ready := fun k => (s.chan k).pw.ready
  BitVec.ofNat 64 (s.lastStep <<< 60 + atBit s.dev.svBank 59 + (ks.map (fun k => atBit (ready k) (32 + k))).foldl (· + ·) 0
    + s.dev.chFail.toNat <<< 16)

/-- ML_MSTAT (R624). -/
def Dev.mlMstat (d : Dev) : Word :=
  BitVec.ofNat 64 (d.mlGen.toNat <<< 32 + ((List.range 8).map (fun n => atBit (tblFind d.slots n).isSome n)).foldl (· + ·) 0)

/-- Eight bytes of a list as a register shows them (R8). -/
def byteWord (bs : List Byte) (w : Nat) : Word := BitVec.ofNat 64 (bytesVal ((bs.drop (8 * w)).take 8))

/-- ML_Mn_w: offset 8 x i into the slots; nothing lies at w = 6 and 7 (R624). -/
def Dev.mlM (d : Dev) (i : Nat) : Word := if i % 8 < 6 then byteWord (digestBytes (d.slot (i / 8))) (i % 8) else 0

/-- TH_STAT (R621). -/
def State.thStat (s : State) : Word :=
  let limit := (List.range 16).any (fun k => (s.chan k).pw.thermal || (s.chan k).pw.limited != 0)
  setBits (setBits (setBits (setBits (s.dev.rd 0x3008) 47 1 (b2n s.dev.warnNow)) 46 1 (b2n limit)) 45 1 (b2n s.dev.tripped)) 0 32
    s.dev.above90s.toNat

/-- In recovery mode only the DV and UP blocks are offered (R607, R662). -/
def Dev.offered (d : Dev) (off : Nat) : Bool := !d.recovery || decide (off < 0x1000) || (decide (0x5000 ≤ off) && decide (off < 0x6000))

/-- What the register of PF0 at an 8-byte aligned offset reads as; 0 at an unassigned offset (R528). -/
def State.devRead (s : State) (off : Nat) : Word :=
  let d := s.dev
  if !d.offered off then 0
  else
    match d.msix.read 64 off with
    | some w => w
    | none =>
      match regAt devRegTable off with
      | none => 0
      | some (r, i) =>
        match r.name with
        | .dvId => setBits (d.rd off) 16 1 (b2n d.recovery)
        | .svStat => s.svStat
        | .mlMstat => d.mlMstat
        | .mlM => d.mlM i
        | .mlLsel => setBits (setBits (d.rd off) 63 1 (b2n d.svc.ldone)) 62 1 (b2n (d.svc.ldone && d.svc.lfound))
        | .mlLbuf => byteWord d.svc.lbuf i
        | .thStat => s.thStat
        | .deSrc => evSrcWord (d.rd off) (d.ev.src i) d.cclk
        | .upStat => d.svc.upStat
        | _ => d.rd off

/-- A read of bits lo up to hi of a register of PF0 clears the RC fields among them (R12, R657). -/
def Dev.readClear (d : Dev) (off lo hi : Nat) : Dev :=
  match regAt devRegTable off with
  | none => d
  | some (r, i) => if !d.offered off then d else d.wr off (clearRead r.name i (d.rd off) lo hi r.fields)

/-- What a write of the bits lo up to hi of a register of PF0 does. -/
def State.devWrite (s : State) (p : Party) (off : Nat) (w : Word) (lo hi : Nat) : State :=
  let d := s.dev
  if !d.offered off then s
  else if 0xE0000 ≤ off then
    let h := d.msix.write 64 off w lo hi
    { s with dev := { d with msix := h.1, out := d.out ++ h.2 } }
  else
    match regAt devRegTable off with
    | none => s
    | some (r, i) =>
      match r.name with
      | .mlLsel => { s with dev := d.lselWrite w lo hi }
      | .deSrc => { s with dev := d.deSrcWrite i w lo hi }
      | .deDoorbell => if lo = 0 then { s with dev := d.doorbell p w } else s
      | .upCtl => s.upCtlWrite p w lo hi (d.hostImg (if lo = 0 then w else d.rd 0x5000))
      | _ => { s with dev := d.wrFields off w lo hi }

/-! ## The commands -/

/-- A firing or caller reaches only its channel's setup range (R658). -/
def reaches (p : Party) (off : Nat) : Bool := !p.inChannel || decide (off < 0x40000)

/-- REGISTER_READ_CLEAR (R12, R657, R659): the data stand in readData of the function. A 4-byte read returns its half in bits
[31:0]; an access R657 does not allow returns 0. -/
def execRegisterReadClear (fn : FnId) (p : Party) (off : BitVec 20) (sz : AccSize) (s : State) : Host.Outcome State Fault Refusal :=
  if h : fn.val = 0 then
    if p.inChannel then .next s
    else
      match accSpan off.toNat sz with
      | none => .next { s with dev := { s.dev with readData := 0 } }
      | some (o, lo, hi) =>
        .next { s with dev := ({ s.dev with readData := BitVec.ofNat 64 (wbits (s.devRead o) lo (hi - lo)) } : Dev).readClear o lo hi }
  else onCh ⟨fn.val - 1, by omega⟩ s (fun dv c =>
    match accSpan off.toNat sz with
    | none => { c with readData := 0 }
    | some (o, lo, hi) => if !reaches p o then c else c.access dv { party := p, off := o, lo := lo, hi := hi, w := none })

/-- REGISTER_WRITE (R12, R657, R659). -/
def execRegisterWrite (fn : FnId) (p : Party) (off : BitVec 20) (sz : AccSize) (w : Word) (s : State) : Host.Outcome State Fault Refusal :=
  match accSpan off.toNat sz with
  | none => .next s
  | some (o, lo, hi) =>
    if h : fn.val = 0 then (if p.inChannel then .next s else .next (s.devWrite p o (accData lo w) lo hi))
    else onCh ⟨fn.val - 1, by omega⟩ s (fun dv c =>
      if !reaches p o then c else c.access dv { party := p, off := o, lo := lo, hi := hi, w := some (accData lo w) })

/-- The ML, TH and UP blocks (R643). -/
def inMctp (off : Nat) : Bool := (decide (0x2000 ≤ off) && decide (off < 0x4000)) || (decide (0x5000 ≤ off) && decide (off < 0x6000))

/-- MCTP_REGISTER_READ (R643). -/
def execMctpRegisterRead (off : BitVec 20) (s : State) : Host.Outcome State Fault Refusal :=
  let w := if inMctp off.toNat && off.toNat % 8 == 0 then s.devRead off.toNat else 0
  .next { s with dev := { s.dev with out := s.dev.out ++ [.mctp w] } }

end Sys2Proof.Machine
end

