-- ==== Sys2Proof/Machine/Attest.lean ====
section
/-! DEFINITION. The SPDM 1.2 responder of PF0 (R610 to R612; log entry 37). -/

namespace Sys2Proof.Machine

/-- The state of a connection. -/
def Dev.conn (d : Dev) (tr : Spdm) : SpdmConn := match tr with | .doe => d.doe | .mctp => d.mctp
def Dev.setConn (d : Dev) (tr : Spdm) (x : SpdmConn) : Dev := match tr with | .doe => { d with doe := x } | .mctp => { d with mctp := x }

/-- A response leaves on the connection. -/
def Dev.respond (d : Dev) (tr : Spdm) (code : BitVec 8) (body : List Word) : Dev := { d with out := d.out ++ [.spdm tr code body] }

/-- ERROR, with its code: 1 InvalidRequest, 3 Busy, 4 UnexpectedRequest. -/
def Dev.spdmError (d : Dev) (tr : Spdm) (e : Word) : Dev := d.respond tr 0x7F [e]

/-- A request: Busy while the service core restarts (R641); no firmware answers in recovery mode; one that comes before the
messages it needs is unexpected. -/
def spdmRequest (tr : Spdm) (s : State) (need : SpdmConn → Bool) (f : Dev → Dev) : Host.Outcome State Fault Refusal :=
  onDev s (fun d =>
    if d.recovery then d
    else if d.restarting then d.spdmError tr 3
    else if !need (d.conn tr) then d.spdmError tr 4
    else f d)

/-- The certificate chain of slot 0 (R611). -/
def Dev.chain (d : Dev) : List Byte := (List.range (Config.certLen (d.slot 0) (d.slot 1))).map (Config.certByte (d.slot 0) (d.slot 1))

/-- The six words of a digest. -/
def digestWords (g : Digest) : List Word := (List.range 6).map (byteWord (digestBytes g))

/-- The words of a nonce. -/
def nonceWords (n : Nonce) : List Word := (List.range 4).map (fun i => n.extractLsb' (64 * i) 64)

/-- The responder's nonce for the message it is about to send. -/
def Dev.ownNonce (d : Dev) : List Word := (List.range 4).map (Config.nonce d.out.length)

/-- Bytes as words, the last one filled with 0. -/
def packBytes (bs : List Byte) : List Word := (List.range ((bs.length + 7) / 8)).map (byteWord bs)

/-- GET_VERSION: VERSION 1.2; the negotiation starts anew. -/
def execGetVersion (tr : Spdm) (s : State) : Host.Outcome State Fault Refusal :=
  spdmRequest tr s (fun _ => true) (fun d => (d.setConn tr { version := true }).respond tr 0x04 [0x1200])

/-- GET_CAPABILITIES: CERT_CAP, CHAL_CAP and MEAS_CAP with signature; no session capability. -/
def execGetCapabilities (tr : Spdm) (s : State) : Host.Outcome State Fault Refusal :=
  spdmRequest tr s (·.version) (fun d => (d.setConn tr { d.conn tr with caps := true }).respond tr 0x61 [0x16])

/-- NEGOTIATE_ALGORITHMS: DMTF measurements, SHA-384 for them, ECDSA P-384, SHA-384. -/
def execNegotiateAlgorithms (tr : Spdm) (s : State) : Host.Outcome State Fault Refusal :=
  spdmRequest tr s (·.caps) (fun d => (d.setConn tr { d.conn tr with algs := true }).respond tr 0x63 [1, 4, 0x80, 2])

/-- GET_DIGESTS: slot 0 only (R611). -/
def execGetDigests (tr : Spdm) (s : State) : Host.Outcome State Fault Refusal :=
  spdmRequest tr s (·.algs) (fun d => d.respond tr 0x01 (1 :: digestWords (sha384 d.chain)))

/-- GET_CERTIFICATE: the portion asked for of the chain of slot 0, with its length and what is left. -/
def execGetCertificate (tr : Spdm) (slot : BitVec 4) (off len : BitVec 16) (s : State) : Host.Outcome State Fault Refusal :=
  spdmRequest tr s (·.algs) (fun d =>
    let n := Config.certLen (d.slot 0) (d.slot 1)
    if slot ≠ 0 ∨ n ≤ off.toNat then d.spdmError tr 1
    else
      let p := (d.chain.drop off.toNat).take len.toNat
      d.respond tr 0x02 (BitVec.ofNat 64 p.length :: BitVec.ofNat 64 (n - off.toNat - p.length) :: packBytes p))

/-- CHALLENGE: the digest of the chain, the responder's nonce, and the alias key's signature over them and the requester's nonce. -/
def execChallenge (tr : Spdm) (slot : BitVec 4) (nonce : Nonce) (s : State) : Host.Outcome State Fault Refusal :=
  spdmRequest tr s (·.algs) (fun d =>
    if slot ≠ 0 then d.spdmError tr 1
    else
      let body := digestWords (sha384 d.chain) ++ d.ownNonce
      d.respond tr 0x03 (body ++ Config.sign (nonceWords nonce ++ body)))

/-- Value type of a slot in a measurement block (R612). -/
def measType (k : Nat) : Nat := if k = 0 then 0x00 else if k ≤ 2 then 0x01 else if k ≤ 5 then 0x03 else if k = 6 then 0x02 else 0x04

/-- The measurement block of slot k: index, DMTF format, value type, and the digest (R612). -/
def Dev.measBlock (d : Dev) (k : Nat) : List Word :=
  BitVec.ofNat 64 (k + 1 + 0x01 <<< 8 + measType k <<< 16) :: digestWords (d.slot k)

/-- The slots a request names: index k + 1 for Mk, 0xFF for all eight (R612). -/
def measSlots (idx : Nat) : List Nat := if idx = 0xFF then List.range 8 else if 1 ≤ idx ∧ idx ≤ 8 then [idx - 1] else []

/-- GET_MEASUREMENTS (R612). -/
def execGetMeasurements (tr : Spdm) (idx : BitVec 8) (nonce : Nonce) (s : State) : Host.Outcome State Fault Refusal :=
  spdmRequest tr s (·.algs) (fun d =>
    let l := measSlots idx.toNat
    if l = [] then d.spdmError tr 1
    else
      let body := BitVec.ofNat 64 l.length :: l.flatMap d.measBlock ++ d.ownNonce
      d.respond tr 0x60 (body ++ Config.sign (nonceWords nonce ++ body)))

end Sys2Proof.Machine
end

