-- ==== Sys2Proof/Machine/CutIn.lean ====
section
/-! DEFINITION. Cut-in and the stall monitor (R300 to R311, R321). -/

namespace Sys2Proof.Machine

/-- The earliest allocated WAIT entry of a context with ELDER 0 that is older than AGE x 64 XCLK (R300). -/
def Chan.backgroundVictim (c : Chan) (now t : Nat) : Option (Nat × MEntry) :=
  (sortBy (fun (a b : Nat × MEntry) => decide (a.2.born ≤ b.2.born))
    ((c.victims t).filter (fun v => !(c.ctx v.2.ctx.toNat).elder && decide (v.2.at_ + c.fld F.pgSpillcfgAge * 64 < now)))).head?

/-- BACKGROUND_EVICTION (R300, R301, R309). -/
def execBackgroundEviction (k : Ch) (t : Tile) (s : State) (errs : LineErrs := []) : Host.Outcome State Fault Refusal :=
  onCh k s (fun _ c =>
    if !c.flag F.msWmstatNow || !c.flag F.pgSpillcfgEn || (c.tile t.val).evict.isSome then c
    else match c.backgroundVictim c.xclk t.val with
      | none => c
      | some v => if c.dmSecond (c.victimLines [v]) then (Chan.tryVictims c.xclk t.val errs [v] c.dmTouch).1 else c)

/-- The spill record of an entry (R303). -/
def Chan.spillRec (c : Chan) (dv : Dev) (t e : Nat) (x : MEntry) : SRec :=
  let z := match c.entry t (entryNo (e / 24) x.xway.toNat) with | some z => z | none => {}
  let z : MEntry := if x.xway = 31 then {} else z
  { val0 := x.val0, val1 := x.val1, val2 := z.val0, sb0 := x.sb0, sb1 := x.sb1, sb2 := z.sb0, need := x.need, got := x.got,
    pmin := x.pmin, cseq := c.cseq x.ctx.toNat, ctx := x.ctx, ip := x.ip, evtime := BitVec.ofNat 64 dv.time }

/-- The record is written and the victim's ways are freed; MSCOUNT stays (R302). -/
def Chan.finishEvict (c : Chan) (dv : Dev) (t : Nat) (v : Evict) (x : MEntry) : Chan :=
  let r := c.spillRec dv t v.e x
  let c := (c.writeRec (c.recAddr v.bucket v.slot) r).setMap v.bucket
  let c := (c.setFld F.pgSpillstatUsed (c.fld F.pgSpillstatUsed + 1)).inc F.pgCutcntEvict
  let y := c.tile t
  (c.setTile t { y with spilled := y.spilled + 1, evict := none }).dropKey t v.e

/-- The lines that the record write of an eviction touches: the record's, and that of its bucket's map byte (R302). -/
def Chan.evictLines (c : Chan) (v : Evict) : List Nat := [c.recAddr v.bucket v.slot, c.mapAddr v.bucket / 64 * 64]

/-- The tokens that waited for the key of an entry that has been evicted enter the spill path (R302, R305): the Cut-in queue, as far as it has
room; the others stay in the miss buffer, and enter the row compare, which sends them there. -/
def Chan.toSpillPath (c : Chan) (t : Nat) (x : MEntry) : Chan :=
  let y := c.tile t
  let go := (y.miss.filter (waitsEvict x)).take (cutqSize - c.ms.cutq.length)
  let rest := (y.miss.filter (waitsEvict x)).drop go.length
  let c := c.setTile t { y with miss := y.miss.filter (fun m => !waitsEvict x m) ++ rest.map (fun m => { m with why := .record }) }
  { c with ms := { c.ms with cutq := c.ms.cutq ++ go.map (fun m => (⟨t, m.tok, m.word⟩ : CutTok)) } }

/-- EVICTION_COMPLETE (R302): the tokens that waited for the victim's key enter the spill path of R305. The record's write waits while the
memory does not take it (R390, R405); errs is what the read of the map's line finds (R400). -/
def execEvictionComplete (k : Ch) (t : Tile) (s : State) (errs : LineErrs := []) : Host.Outcome State Fault Refusal :=
  onCh k s (fun dv c =>
    match (c.tile t.val).evict with
    | none => c
    | some v =>
      match c.entry t.val v.e with
      | none => c.setTile t.val { c.tile t.val with evict := none }
      | some x =>
        if c.dmSecond (c.evictLines v) = false then c
        else (((c.dmTake dv.time).dmMerge c.xclk errs (c.mapAddr v.bucket) 1).finishEvict dv t.val v x).toSpillPath t.val x)

/-- SPILL_RETRY_TIMEOUT (R309): 1,024 XCLK after it found no place, the deferred token's eviction is tried again. -/
def execSpillRetryTimeout (k : Ch) (t : Tile) (s : State) (errs : LineErrs := []) : Host.Outcome State Fault Refusal :=
  onCh k s (fun _ c =>
    let x := c.tile t.val
    match x.defer with
    | { tok := tok, word := w, stuckAt := some n } :: r =>
      if c.xclk < n + 1024 then c
      else (c.setTile t.val { x with defer := { tok := tok, word := w } :: r }).demandEvict c.xclk t.val errs
    | _ => c)

/-! ## Lookups (R305, R306) -/

/-- A record for a token: VALID, not stale, of its key, without its PORT (R305). -/
def Chan.recFits (c : Chan) (tok : Token) (b i : Nat) : Bool :=
  match c.readRec (c.recAddr b i) with
  | none => false
  | some r => r.ctx.toNat == tagCtx tok.tag && r.ip.toNat == tagIp tok.tag && !r.got.getLsbD (tagPort tok.tag) && !c.stale r

/-- Reads the probe buckets in order, freeing stale records and those in uncorrectable lines, up to the first that holds a record for the
token (R304 to R306). -/
def Chan.lookup (now : Nat) (errs : LineErrs) (tok : Token) : List Nat → Chan → Chan × Option (Nat × Nat)
  | [], c => (c, none)
  | p :: r, c =>
    let b := c.probe (tagCtx tok.tag) (tagIp tok.tag) p
    let c := c.freeStale now errs b
    match findIx (c.recFits tok b) (List.range 8) with
    | some i => (c, some (b, i))
    | none => lookup now errs tok r c

/-- A record with a token's operand written into it. -/
def SRec.fill (r : SRec) (tok : Token) : SRec :=
  let port := tagPort tok.tag
  let sb := sbClean tok.sb
  let r := { r with got := r.got ||| BitVec.ofNat 4 (2 ^ port), pmin := minPrio r.pmin (BitVec.ofNat 3 (tagPrio tok.tag)) }
  if port = 0 then { r with val0 := tok.val, sb0 := sb }
  else if port = 1 then { r with val1 := tok.val, sb1 := sb }
  else if port = 2 then { r with val2 := tok.val, sb2 := sb }
  else r

/-- A completed key is reloaded as a MATCHED entry (R305); none where the token must wait. -/
def Chan.reload (c : Chan) (now t b i : Nat) (r : SRec) (w : Word) (errs : LineErrs) : Option Chan :=
  let id := r.ctx.toNat
  let ip := r.ip.toNat
  let row := homeRow id ip
  match c.keyWays t row r.need.toNat (c.ctx id).elder with
  | none =>
    if c.flag F.pgSpillcfgEn && (c.tile t).evict.isNone then
      some (Chan.tryVictims now t errs (c.demandVictims t row id) c).1
    else none
  | some (way, xway) =>
    if c.stageBusy t then none
    else
      let e := entryNo row way
      let d := c.allocKey now t row id ip r.need.toNat way xway
      let x : MEntry := { val0 := r.val0, val1 := r.val1, sb0 := r.sb0, sb1 := r.sb1, ctx := r.ctx, ip := r.ip,
                          need := r.need, got := r.got, pmin := r.pmin, st := .matched, xway := BitVec.ofNat 5 xway,
                          born := c.ms.births, at_ := now }
      let d := d.setEntry t e x
      let d := if xway = 31 then d else
        match d.entry t (entryNo row xway) with
        | some z => d.setEntry t (entryNo row xway) { z with val0 := r.val2, sb0 := r.sb2 }
        | none => d
      let d := (d.freeRec b i r).inc F.pgCutcntReload
      let d := { d with ms := { d.ms with cutq := d.ms.cutq.drop 1 } }
      some (d.readyStage t (packetOf w x e))

/-- A token with no record returns to the row compare (R305): discarded as an orphan when its context is not LIVE, in the miss buffer while
the bank evicts its key (R302). -/
def Chan.noRecord (c : Chan) (now t : Nat) (tok : Token) (w : Word) (errs : LineErrs) : Option Chan :=
  let d := { c with ms := { c.ms with cutq := c.ms.cutq.drop 1 } }
  let d := d.inc F.pgSpillstatFalsepos
  if !d.live (tagCtx tok.tag) then some (d.dropRetried tok)
  else if d.evicting t (tagCtx tok.tag) (tagIp tok.tag) then d.place now t tok w errs (d.missTok t ⟨tok, w, .eviction⟩)
  else d.place now t tok w errs (d.rowCompare now t tok w false)

/-- The token at the head of the Cut-in queue has been looked up and cannot go on yet. -/
def Chan.cutFails (c : Chan) : Chan := { c with ms := { c.ms with cutTried := c.ms.cutq.head? } }

/-- CUT_IN_LOOKUP (R305, R306): the token at the head of the Cut-in queue; errs is what the codes of the buckets find. It waits while the
memory does not take its reads (R390, R398, R405). -/
def execCutInLookup (k : Ch) (errs : LineErrs) (s : State) : Host.Outcome State Fault Refusal :=
  onCh k s (fun dv c =>
    match c.ms.cutq with
    | [] => c
    | ⟨t, tok, w⟩ :: _ =>
      if !c.dmSecond (c.probeLines (tagCtx tok.tag) (tagIp tok.tag)) then c
      else
        let f := Chan.lookup c.xclk errs tok (List.range c.nProbe) (c.dmTake dv.time)
        let d := f.1
        match f.2 with
        | none => (d.noRecord c.xclk t tok w errs).getD c.cutFails
        | some (b, i) =>
          match d.readRec (d.recAddr b i) with
          | none => c
          | some r =>
            let r' := r.fill tok
            if r'.got = r'.need then (d.reload c.xclk t b i r' w errs).getD c.cutFails
            else
              let d := d.writeRec (d.recAddr b i) r'
              { d with ms := { d.ms with cutq := d.ms.cutq.drop 1 } })

/-- XCLK without a commit after which the stall monitor fires (R321). -/
def Chan.stallLimit (c : Chan) : Nat := max 4096 (c.fld F.pgStallLimit)

/-- STALL_MONITOR_FIRE (R311). -/
def execStallMonitorFire (k : Ch) (s : State) : Host.Outcome State Fault Refusal :=
  onCh k s (fun _ c =>
    if c.flag F.pgStallEn && decide (c.stallLimit ≤ c.ms.stall) then
      ({ c.setFld F.pgStallFired 1 with ms := { c.ms with stall := 0 } }).raise 15
    else c)

end Sys2Proof.Machine
end

