-- ==== Sys2Proof/Machine/Flows.lean ====
section
/-! DEFINITION. The commands of the flow units (R247 to R262). -/

namespace Sys2Proof.Machine

/-- A parked firing's wait has ended (R250). -/
def Chan.wakeParked (c : Chan) (hit : Parked → Bool) : Chan :=
  { c with ms := { c.ms with pool := c.ms.pool.map (fun p => if hit p then { p with woken := true } else p) } }

/-- SOLO_GRANT (R257): the first waiter of a slot without owner is granted, or removed when it is no longer LIVE. -/
def execSoloGrant (k : Ch) (q : SlotId) (s : State) : Host.Outcome State Fault Refusal :=
  onCh k s (fun _ c =>
    let x := c.solo q.val
    match x.owner, x.waiters with
    | none, (t, row, way, id, cls) :: r =>
      let mine := fun (p : Parked) => p.tile == t && p.row == row && p.way == way && p.ctx == id && p.why == .slot q.val
      if c.live id.toNat && c.ms.pool.any mine then
        ((c.setSolo q.val { owner := some (id, c.cseq id.toNat), waiters := r }).wrapInc (F.flCntGrants cls.toNat)).wakeParked mine
      else c.setSolo q.val { x with waiters := r }
    | _, _ => c)

/-- SOLO_SLOT_RELEASE (R259): a slot whose owner has left LIVE is freed. -/
def execSoloSlotRelease (k : Ch) (q : SlotId) (s : State) : Host.Outcome State Fault Refusal :=
  onCh k s (fun _ c =>
    match (c.solo q.val).owner with
    | none => c
    | some (id, cs) => if c.live id.toNat && c.cseq id.toNat == cs then c else c.freeSolo q.val)

/-- A SOLO.IN parked for the cursor is judged again, now that the cursor has passed its position (R261): it is registered with its slot, or
its wait has ended. -/
def Chan.registerSolo (c : Chan) (p : Parked) : Chan :=
  let e := entryNo p.row.toNat p.way.toNat
  match c.entry p.tile e with
  | none => c
  | some x =>
    let k := packetOf p.word x e
    let r := c.flowCheck p.tile k (withImm k.instr ⟨x.val0, x.sb0⟩ ⟨x.val1, x.sb1⟩ {}).2.1
    { r.1 with ms := { r.1.ms with pool := r.1.ms.pool.map (fun q =>
        if q = p then (match r.2 with | some why => { q with why := why } | none => { q with woken := true }) else q) } }

/-- The SOLO.IN that waits for the cursor of queue n at position m, if one does. -/
def Chan.soloAt (c : Chan) (n : Nat) (m : BitVec 16) : Chan :=
  match c.ms.pool.find? (fun p => p.why == .cursor n m) with
  | none => c
  | some p => c.registerSolo p

/-- SOLO_CURSOR_ADVANCE (R261): the cursor passes the position it stands at once its SOLO.IN can be registered, or it is RELEASING or
SKIPPED, as a FLOWSET of its context leaves it. -/
def execSoloCursorAdvance (k : Ch) (n : OrdId) (s : State) : Host.Outcome State Fault Refusal :=
  onCh k s (fun _ c =>
    let o := c.ord n.val
    let i := (o.cursor - o.head).toNat
    if c.ordLen n.val ≤ i then c
    else if posState (c.posAt n.val i) ≠ 0 || c.ms.pool.any (fun p => p.why == .cursor n.val o.cursor) then
      (c.passCursor n.val i).soloAt n.val o.cursor
    else c)

/-- HEAD passes a position (R252, R254, R261): its words are released, and the firing that waits for the next one is woken. -/
def Chan.passHead (c : Chan) (now n : Nat) : Chan :=
  let o := c.ord n
  let h := o.head + 1
  let c := (c.qAdvance (768 + n)).qRelease (768 + n) 1
  let lim := if c.ordLen n = 0 then 0 else c.fld (F.flClassHeadtime (c.ctx (posCtx (c.posAt n 0))).flow.toNat)
  let c := c.setOrd n { o with head := h, cursor := if o.cursor = o.head then h else o.cursor, since := now, limit := lim, fired := false,
                               unacc := tblDel o.unacc o.head.toNat }
  (if o.cursor = o.head then c.soloAt n o.head else c).wakeParked (fun p => p.why == .head n h)

/-- The position at HEAD lets HEAD pass (R253, R254): released with every output accepted, skipped, or held by a context that is
not LIVE or another life of it. -/
def Chan.headFree (c : Chan) (n : Nat) : Bool :=
  let w := c.posAt n 0
  if posState w = 1 then tblGet (c.ord n).unacc (c.ord n).head.toNat 0 == 0
  else if posState w = 0 then !c.live (posCtx w) || (c.cseq (posCtx w)).toNat != posCseq w
  else true

/-- PROMENADE_HEAD_ADVANCE (R252 to R255, R339): pf is what the read of the position finds. -/
def execPromenadeHeadAdvance (k : Ch) (n : OrdId) (pf : Parity) (s : State) : Host.Outcome State Fault Refusal :=
  onCh k s (fun _ c =>
    if c.ordLen n.val = 0 then c
    else
      let (c, _, lost) := c.qParity (768 + n.val) pf
      if lost then (c.qPoisonEvent (768 + n.val)).passHead c.xclk n.val
      else if c.headFree n.val then c.passHead c.xclk n.val
      else c)

/-- HEAD_TIME_LIMIT (R256). -/
def execHeadTimeLimit (k : Ch) (n : OrdId) (s : State) : Host.Outcome State Fault Refusal :=
  onCh k s (fun _ c =>
    let o := c.ord n.val
    if c.ordLen n.val ≠ 0 ∧ posState (c.posAt n.val 0) = 0 ∧ o.limit ≠ 0 ∧ o.fired = false ∧ o.since + o.limit * 1024 ≤ c.xclk then
      ((c.setOrd n.val { o with fired := true }).raise (320 + n.val)).inc F.flStatHeadlate
    else c)

end Sys2Proof.Machine
end

