-- ==== Sys2Proof/Machine/FpOps.lean ====
section
/-! DEFINITION. Floating-point arithmetic: binary64, binary32 pairs and complex binary32 (R95 to R97, R132 to R147). -/

namespace Sys2Proof.Machine

/-- Low and high 32 bits: lanes 0 and 1, or real and imaginary part (R40). -/
def lo32 (w : Word) : Nat := wbits w 0 32
def hi32 (w : Word) : Nat := wbits w 32 32
def pair32 (a b : Nat) : Word := BitVec.ofNat 64 (a % 2 ^ 32 + (b % 2 ^ 32) <<< 32)

/-- A result of two lanes or parts with the flags of each (R146, R147). -/
def In.res2 (x : In) (ty : Nat) (a b : Fl Nat) : Val :=
  { toBoth (mkOpd (pair32 a.val b.val) ty x.poison) with f0 := a.flags, f1 := b.flags }

/-- A binary64 result. -/
def In.res64 (x : In) (ty : Nat) (a : Fl Nat) : Val := x.res ty ⟨BitVec.ofNat 64 a.val, a.flags⟩

/-- An operation of the .d and .s2 groups on its operands, lane by lane for .s2 (R95, R146). -/
def In.fp (x : In) (g : Fmt → Nat → Nat → Nat → Nat → Fl Nat) : Val :=
  if iOp x.w / 16 = 3 then x.res64 3 (g b64 x.rm x.l.val.toNat x.r.val.toNat x.t.val.toNat)
  else x.res2 4 (g b32 x.rm (lo32 x.l.val) (lo32 x.r.val) (lo32 x.t.val))
                (g b32 x.rm (hi32 x.l.val) (hi32 x.r.val) (hi32 x.t.val))

/-- Result of FADD (R132, R139). -/
def vFadd (x : In) : Val := x.fp (fun f m a b _ => fpAdd f m a b)

/-- FADD. -/
def execFadd (k : Ch) (u : Exe) (s : State) : Host.Outcome State Fault Refusal := onCh k s (fire .fadd vFadd u 0)

/-- Result of FSUB (R132, R139). -/
def vFsub (x : In) : Val := x.fp (fun f m a b _ => fpSub f m a b)

/-- FSUB. -/
def execFsub (k : Ch) (u : Exe) (s : State) : Host.Outcome State Fault Refusal := onCh k s (fire .fsub vFsub u 0)

/-- Result of FMUL (R132, R138). -/
def vFmul (x : In) : Val := x.fp (fun f m a b _ => fpMul f m a b)

/-- FMUL. -/
def execFmul (k : Ch) (u : Exe) (s : State) : Host.Outcome State Fault Refusal := onCh k s (fire .fmul vFmul u 0)

/-- Result of FDIV (R138, R141). -/
def vFdiv (x : In) : Val := x.fp (fun f m a b _ => fpDiv f m a b)

/-- FDIV. -/
def execFdiv (k : Ch) (u : Exe) (s : State) : Host.Outcome State Fault Refusal := onCh k s (fire .fdiv vFdiv u 0)

/-- Result of FSQRT (R138, R139). -/
def vFsqrt (x : In) : Val := x.fp (fun f m a _ _ => fpSqrt f m a)

/-- FSQRT. -/
def execFsqrt (k : Ch) (u : Exe) (s : State) : Host.Outcome State Fault Refusal := onCh k s (fire .fsqrt vFsqrt u 0)

/-- Result of FMA (R140). -/
def vFma (x : In) : Val := x.fp (fun f m a b t => fpFma f m a b t)

/-- FMA. -/
def execFma (k : Ch) (u : Exe) (s : State) : Host.Outcome State Fault Refusal := onCh k s (fire .fma vFma u 0)

/-- Result of FMIN (R142). -/
def vFmin (x : In) : Val := x.fp (fun f _ a b _ => fpMinMax f false a b)

/-- FMIN. -/
def execFmin (k : Ch) (u : Exe) (s : State) : Host.Outcome State Fault Refusal := onCh k s (fire .fmin vFmin u 0)

/-- Result of FMAX (R142). -/
def vFmax (x : In) : Val := x.fp (fun f _ a b _ => fpMinMax f true a b)

/-- FMAX. -/
def execFmax (k : Ch) (u : Exe) (s : State) : Host.Outcome State Fault Refusal := onCh k s (fire .fmax vFmax u 0)

/-- A 32-bit lane as a signed or an unsigned integer. -/
def lane32 (uns : Bool) (n : Nat) : Int := if uns then (n : Int) else (BitVec.ofNat 32 n).toInt

/-- Result of FCVT (R96, R144): the source is IMM[1:0]. -/
def vFcvt (x : In) : Val :=
  let src := iImm x.w % 4
  if iOp x.w / 16 = 3 then
    match src with
    | 0 => x.res64 3 (fpFromInt b64 x.rm x.l.val.toInt)
    | 1 => x.res64 3 (fpFromInt b64 x.rm x.l.val.toNat)
    | _ => x.res64 3 (fpConv b32 b64 x.rm (lo32 x.l.val))
  else
    match src with
    | 0 => x.res2 4 (fpFromInt b32 x.rm (lane32 false (lo32 x.l.val))) (fpFromInt b32 x.rm (lane32 false (hi32 x.l.val)))
    | 1 => x.res2 4 (fpFromInt b32 x.rm (lane32 true (lo32 x.l.val))) (fpFromInt b32 x.rm (lane32 true (hi32 x.l.val)))
    | _ => x.res2 4 (fpConv b64 b32 x.rm x.l.val.toNat) ⟨0, 0⟩

/-- FCVT. -/
def execFcvt (k : Ch) (u : Exe) (s : State) : Host.Outcome State Fault Refusal := onCh k s (fire .fcvt vFcvt u 0)

/-- Result of ICVT (R96, R133, R145): IMM[0] unsigned, IMM[1] toward zero. -/
def vIcvt (x : In) : Val :=
  let uns := (iImm x.w).testBit 0
  let rm := if (iImm x.w).testBit 1 then 1 else x.rm
  if iOp x.w / 16 = 3 then x.res64 (b2n uns) (fpToInt b64 rm 64 uns x.l.val.toNat)
  else x.res2 2 (fpToInt b32 rm 32 uns (lo32 x.l.val)) (fpToInt b32 rm 32 uns (hi32 x.l.val))

/-- ICVT. -/
def execIcvt (k : Ch) (u : Exe) (s : State) : Host.Outcome State Fault Refusal := onCh k s (fire .icvt vIcvt u 0)

/-- A binary32 datum of a part. -/
def part (n : Nat) : FV := fpDec b32 n

/-- Result of FADD.c (R147). -/
def vFaddC (x : In) : Val :=
  x.res2 5 (fpAdd b32 x.rm (lo32 x.l.val) (lo32 x.r.val)) (fpAdd b32 x.rm (hi32 x.l.val) (hi32 x.r.val))

/-- FADD.c. -/
def execFaddC (k : Ch) (u : Exe) (s : State) : Host.Outcome State Fault Refusal := onCh k s (fire .faddC vFaddC u 0)

/-- Result of FSUB.c (R147). -/
def vFsubC (x : In) : Val :=
  x.res2 5 (fpSub b32 x.rm (lo32 x.l.val) (lo32 x.r.val)) (fpSub b32 x.rm (hi32 x.l.val) (hi32 x.r.val))

/-- FSUB.c. -/
def execFsubC (k : Ch) (u : Exe) (s : State) : Host.Outcome State Fault Refusal := onCh k s (fire .fsubC vFsubC u 0)

/-- Terms of the real part ac - bd and of the imaginary part ad + bc of a product (R147). -/
def prodRe (l r : Word) : List Term :=
  [fpProd (part (lo32 l)) (part (lo32 r)), fpProd (part (hi32 l)) (part (hi32 r)).flip]
def prodIm (l r : Word) : List Term :=
  [fpProd (part (lo32 l)) (part (hi32 r)), fpProd (part (hi32 l)) (part (lo32 r))]

/-- Result of CMUL.c (R147). -/
def vCmulC (x : In) : Val :=
  x.res2 5 (fpSum b32 x.rm (prodRe x.l.val x.r.val)) (fpSum b32 x.rm (prodIm x.l.val x.r.val))

/-- CMUL.c. -/
def execCmulC (k : Ch) (u : Exe) (s : State) : Host.Outcome State Fault Refusal := onCh k s (fire .cmulC vCmulC u 0)

/-- Result of CMAC.c (R147). -/
def vCmacC (x : In) : Val :=
  x.res2 5 (fpSum b32 x.rm ((part (lo32 x.t.val)).term :: prodRe x.l.val x.r.val))
           (fpSum b32 x.rm ((part (hi32 x.t.val)).term :: prodIm x.l.val x.r.val))

/-- CMAC.c. -/
def execCmacC (k : Ch) (u : Exe) (s : State) : Host.Outcome State Fault Refusal := onCh k s (fire .cmacC vCmacC u 0)

/-- Result of FCMP.cc (R97, R143): 1 or 0, or one bit for each lane. -/
def vFcmpCc (x : In) : Val :=
  let cc := iOp x.w % 8
  if iOp x.w < 0x68 then
    let f := fpCond b64 cc x.l.val.toNat x.r.val.toNat
    x.res 1 ⟨BitVec.ofNat 64 (b2n f.val), f.flags⟩
  else
    let a := fpCond b32 cc (lo32 x.l.val) (lo32 x.r.val)
    let b := fpCond b32 cc (hi32 x.l.val) (hi32 x.r.val)
    x.res2 2 ⟨b2n a.val, a.flags⟩ ⟨b2n b.val, b.flags⟩

/-- FCMP.cc. -/
def execFcmpCc (k : Ch) (u : Exe) (s : State) : Host.Outcome State Fault Refusal := onCh k s (fire .fcmpCc vFcmpCc u 0)

end Sys2Proof.Machine
end

