-- ==== Sys2Proof/Machine/IntOps.lean ====
section
/-! DEFINITION. Integer arithmetic, logic and comparison (R91 to R94, R127 to R131). Each instruction executes in the next
firing of a duet or as the next instruction of a caller, when that word is a legal one of its opcode. -/

namespace Sys2Proof.Machine

/-- Result of ADD (R91, R128). -/
def vAdd (x : In) : Val := x.res 0 (intAdd x.l.val x.r.val)

/-- ADD. -/
def execAdd (k : Ch) (u : Exe) (s : State) : Host.Outcome State Fault Refusal := onCh k s (fire .add vAdd u 0)

/-- Result of SUB (R91, R128). -/
def vSub (x : In) : Val := x.res 0 (intSub x.l.val x.r.val)

/-- SUB. -/
def execSub (k : Ch) (u : Exe) (s : State) : Host.Outcome State Fault Refusal := onCh k s (fire .sub vSub u 0)

/-- Result of MUL (R91, R128). -/
def vMul (x : In) : Val := x.res 0 (intMul x.l.val x.r.val)

/-- MUL. -/
def execMul (k : Ch) (u : Exe) (s : State) : Host.Outcome State Fault Refusal := onCh k s (fire .mul vMul u 0)

/-- Result of MULH (R91). -/
def vMulh (x : In) : Val := x.res 0 (intMulh x.l.val x.r.val)

/-- MULH. -/
def execMulh (k : Ch) (u : Exe) (s : State) : Host.Outcome State Fault Refusal := onCh k s (fire .mulh vMulh u 0)

/-- Result of MULHU (R91). -/
def vMulhu (x : In) : Val := x.res 1 (intMulhu x.l.val x.r.val)

/-- MULHU. -/
def execMulhu (k : Ch) (u : Exe) (s : State) : Host.Outcome State Fault Refusal := onCh k s (fire .mulhu vMulhu u 0)

/-- Result of DIV (R129, R130). -/
def vDiv (x : In) : Val := x.res 0 (intDiv x.l.val x.r.val)

/-- DIV. -/
def execDiv (k : Ch) (u : Exe) (s : State) : Host.Outcome State Fault Refusal := onCh k s (fire .div vDiv u 0)

/-- Result of DIVU (R129, R130). -/
def vDivu (x : In) : Val := x.res 1 (intDivu x.l.val x.r.val)

/-- DIVU. -/
def execDivu (k : Ch) (u : Exe) (s : State) : Host.Outcome State Fault Refusal := onCh k s (fire .divu vDivu u 0)

/-- Result of REM (R129, R130). -/
def vRem (x : In) : Val := x.res 0 (intRem x.l.val x.r.val)

/-- REM. -/
def execRem (k : Ch) (u : Exe) (s : State) : Host.Outcome State Fault Refusal := onCh k s (fire .rem vRem u 0)

/-- Result of REMU (R129, R130). -/
def vRemu (x : In) : Val := x.res 1 (intRemu x.l.val x.r.val)

/-- REMU. -/
def execRemu (k : Ch) (u : Exe) (s : State) : Host.Outcome State Fault Refusal := onCh k s (fire .remu vRemu u 0)

/-- Result of MIN (R91). -/
def vMin (x : In) : Val := x.res 0 (intMin x.l.val x.r.val)

/-- MIN. -/
def execMin (k : Ch) (u : Exe) (s : State) : Host.Outcome State Fault Refusal := onCh k s (fire .min vMin u 0)

/-- Result of MAX (R91). -/
def vMax (x : In) : Val := x.res 0 (intMax x.l.val x.r.val)

/-- MAX. -/
def execMax (k : Ch) (u : Exe) (s : State) : Host.Outcome State Fault Refusal := onCh k s (fire .max vMax u 0)

/-- Result of ABS (R91, R128). -/
def vAbs (x : In) : Val := x.res 0 (intAbs x.l.val)

/-- ABS. -/
def execAbs (k : Ch) (u : Exe) (s : State) : Host.Outcome State Fault Refusal := onCh k s (fire .abs vAbs u 0)

/-- Result of NEG (R91, R128). -/
def vNeg (x : In) : Val := x.res 0 (intNeg x.l.val)

/-- NEG. -/
def execNeg (k : Ch) (u : Exe) (s : State) : Host.Outcome State Fault Refusal := onCh k s (fire .neg vNeg u 0)

/-- Result of SEL (R91): L controls; the chosen operand keeps its TYPE. -/
def vSel (x : In) : Val :=
  let o := if x.l.val ≠ 0 then x.r else x.t
  ctl [x.l] (toBoth (mkOpd o.val o.ty (x.r.poison || x.t.poison)))

/-- SEL. -/
def execSel (k : Ch) (u : Exe) (s : State) : Host.Outcome State Fault Refusal := onCh k s (fire .sel vSel u 0)

/-- Result of AND (R93). -/
def vAnd (x : In) : Val := x.res 6 (⟨x.l.val &&& x.r.val, 0⟩)

/-- AND. -/
def execAnd (k : Ch) (u : Exe) (s : State) : Host.Outcome State Fault Refusal := onCh k s (fire .and vAnd u 0)

/-- Result of OR (R93). -/
def vOr (x : In) : Val := x.res 6 (⟨x.l.val ||| x.r.val, 0⟩)

/-- OR. -/
def execOr (k : Ch) (u : Exe) (s : State) : Host.Outcome State Fault Refusal := onCh k s (fire .or vOr u 0)

/-- Result of XOR (R93). -/
def vXor (x : In) : Val := x.res 6 (⟨x.l.val ^^^ x.r.val, 0⟩)

/-- XOR. -/
def execXor (k : Ch) (u : Exe) (s : State) : Host.Outcome State Fault Refusal := onCh k s (fire .xor vXor u 0)

/-- Result of ANDN (R93). -/
def vAndn (x : In) : Val := x.res 6 (⟨x.l.val &&& ~~~x.r.val, 0⟩)

/-- ANDN. -/
def execAndn (k : Ch) (u : Exe) (s : State) : Host.Outcome State Fault Refusal := onCh k s (fire .andn vAndn u 0)

/-- Result of SHL (R93). -/
def vShl (x : In) : Val := x.res 6 (⟨x.l.val <<< shAmt x.r.val, 0⟩)

/-- SHL. -/
def execShl (k : Ch) (u : Exe) (s : State) : Host.Outcome State Fault Refusal := onCh k s (fire .shl vShl u 0)

/-- Result of SHR (R93). -/
def vShr (x : In) : Val := x.res 6 (⟨x.l.val >>> shAmt x.r.val, 0⟩)

/-- SHR. -/
def execShr (k : Ch) (u : Exe) (s : State) : Host.Outcome State Fault Refusal := onCh k s (fire .shr vShr u 0)

/-- Result of SAR (R93). -/
def vSar (x : In) : Val := x.res 0 (⟨x.l.val.sshiftRight (shAmt x.r.val), 0⟩)

/-- SAR. -/
def execSar (k : Ch) (u : Exe) (s : State) : Host.Outcome State Fault Refusal := onCh k s (fire .sar vSar u 0)

/-- Result of ROT (R93). -/
def vRot (x : In) : Val := x.res 6 (⟨x.l.val.rotateLeft (shAmt x.r.val), 0⟩)

/-- ROT. -/
def execRot (k : Ch) (u : Exe) (s : State) : Host.Outcome State Fault Refusal := onCh k s (fire .rot vRot u 0)

/-- Result of CLZ (R93). -/
def vClz (x : In) : Val := x.res 1 (⟨bitClz x.l.val, 0⟩)

/-- CLZ. -/
def execClz (k : Ch) (u : Exe) (s : State) : Host.Outcome State Fault Refusal := onCh k s (fire .clz vClz u 0)

/-- Result of CTZ (R93). -/
def vCtz (x : In) : Val := x.res 1 (⟨bitCtz x.l.val, 0⟩)

/-- CTZ. -/
def execCtz (k : Ch) (u : Exe) (s : State) : Host.Outcome State Fault Refusal := onCh k s (fire .ctz vCtz u 0)

/-- Result of POPC (R93). -/
def vPopc (x : In) : Val := x.res 1 (⟨bitPopc x.l.val, 0⟩)

/-- POPC. -/
def execPopc (k : Ch) (u : Exe) (s : State) : Host.Outcome State Fault Refusal := onCh k s (fire .popc vPopc u 0)

/-- Result of CMP.cc (R94). -/
def vCmpCc (x : In) : Val := x.res 1 (⟨if intCond (iOp x.w % 16) x.l.val x.r.val then 1 else 0, 0⟩)

/-- CMP.cc. -/
def execCmpCc (k : Ch) (u : Exe) (s : State) : Host.Outcome State Fault Refusal := onCh k s (fire .cmpCc vCmpCc u 0)

end Sys2Proof.Machine
end

