-- ==== Sys2Proof/Machine/MemOps.lean ====
section
/-! DEFINITION. Memory, atomic, lock, queue and asynchronous-input instructions (R114 to R119). A memory instruction places
one request in the commit buffer, after the checks of R352. -/

namespace Sys2Proof.Machine

/-- The computed address (R114). -/
def In.addr (x : In) : Word := x.l.val + immS x.w

/-- A memory instruction (R114, R49, R352): a poisoned address, a refused access, or poisoned data for a target that holds
no poison raise their cause; otherwise one request is placed. -/
def memVal (x : In) (ak : AccKind) (kind : ReqKind) (size ty : Nat) (d0 d1 : Opd) : Val :=
  ctl [x.l] (
    match x.c.accessCheck x.supv ak x.addr size with
    | some (k, d) => causeVal k d
    | none =>
      let g := x.c.range x.addr.toNat
      if (g = .prog ∨ g = .setup) ∧ (d0.poison || d1.poison) then causeVal 0x21 0
      else { req := some { kind := if kind = .ld ∧ g = .lock then .ldLock else kind, addr := BitVec.ofNat 40 x.addr.toNat,
                           size := size, d0 := d0, d1 := d1, ty := BitVec.ofNat 4 ty } })

/-- Request of LD (R115: 1, 2, 4 bytes TYPE 1, 8 bytes TYPE 6). -/
def vLd (x : In) : Val := memVal x .load .ld (2 ^ (iOp x.w - 0x90)) (if iOp x.w = 0x93 then 6 else 1) {} {}

/-- LD. -/
def execLd (k : Ch) (u : Exe) (s : State) : Host.Outcome State Fault Refusal := onCh k s (fire .ld vLd u 0)

/-- Request of LD.q (R115: 16 bytes to two destinations). -/
def vLdQ (x : In) : Val := memVal x .load .ld 16 6 {} {}

/-- LD.q. -/
def execLdQ (k : Ch) (u : Exe) (s : State) : Host.Outcome State Fault Refusal := onCh k s (fire .ldQ vLdQ u 0)

/-- Request of ST (R115). -/
def vSt (x : In) : Val := memVal x .store .st (2 ^ (iOp x.w - 0x98)) 1 x.r {}

/-- ST. -/
def execSt (k : Ch) (u : Exe) (s : State) : Host.Outcome State Fault Refusal := onCh k s (fire .st vSt u 0)

/-- Request of ST.q (R115). -/
def vStQ (x : In) : Val := memVal x .store .st 16 1 x.r x.t

/-- ST.q. -/
def execStQ (k : Ch) (u : Exe) (s : State) : Host.Outcome State Fault Refusal := onCh k s (fire .stQ vStQ u 0)

/-- Request of CAS (R115, R362). -/
def vCas (x : In) : Val := memVal x .atomic .cas 8 6 x.r x.t

/-- CAS. -/
def execCas (k : Ch) (u : Exe) (s : State) : Host.Outcome State Fault Refusal := onCh k s (fire .cas vCas u 0)

/-- Request of SWAP (R115, R362). -/
def vSwap (x : In) : Val := memVal x .atomic .swap 8 6 x.r {}

/-- SWAP. -/
def execSwap (k : Ch) (u : Exe) (s : State) : Host.Outcome State Fault Refusal := onCh k s (fire .swap vSwap u 0)

/-- Request of XADD (R115, R362). -/
def vXadd (x : In) : Val := memVal x .atomic .xadd 8 0 x.r {}

/-- XADD. -/
def execXadd (k : Ch) (u : Exe) (s : State) : Host.Outcome State Fault Refusal := onCh k s (fire .xadd vXadd u 0)

/-- Request of ACC.d (R115, R148). -/
def vAccD (x : In) : Val := memVal x .atomic .acc 8 1 x.r {}

/-- ACC.d. -/
def execAccD (k : Ch) (u : Exe) (s : State) : Host.Outcome State Fault Refusal := onCh k s (fire .accD vAccD u 0)

/-- Request of ACQ (R115, R372). -/
def vAcq (x : In) : Val := memVal x .lock .acq 8 1 {} {}

/-- ACQ. -/
def execAcq (k : Ch) (u : Exe) (s : State) : Host.Outcome State Fault Refusal := onCh k s (fire .acq vAcq u 0)

/-- Request of TRYACQ (R115, R372). -/
def vTryacq (x : In) : Val := memVal x .lock .tryacq 8 1 {} {}

/-- TRYACQ. -/
def execTryacq (k : Ch) (u : Exe) (s : State) : Host.Outcome State Fault Refusal := onCh k s (fire .tryacq vTryacq u 0)

/-- Request of REL (R115, R372). -/
def vRel (x : In) : Val := memVal x .lock .rel 8 1 {} {}

/-- REL. -/
def execRel (k : Ch) (u : Exe) (s : State) : Host.Outcome State Fault Refusal := onCh k s (fire .rel vRel u 0)

/-- The queue an instruction names (R117). -/
def In.queue (x : In) : Nat := iImm x.w % 1024

/-- A queue instruction: one request to the queue unit (R117). -/
def queueVal (kind : ReqKind) (ty : Nat) (d0 : Opd) : Val := { req := some { kind := kind, d0 := d0, ty := BitVec.ofNat 4 ty } }

/-- Request of QPUSH (R117). -/
def vQpush (x : In) : Val := queueVal (.qpush x.queue) 1 (mkOpd x.l.val x.l.ty x.l.poison)

/-- QPUSH. -/
def execQpush (k : Ch) (u : Exe) (s : State) : Host.Outcome State Fault Refusal := onCh k s (fire .qpush vQpush u 0)

/-- Request of QPOP (R117). -/
def vQpop (x : In) : Val := queueVal (.qpop x.queue) 1 {}

/-- QPOP. -/
def execQpop (k : Ch) (u : Exe) (s : State) : Host.Outcome State Fault Refusal := onCh k s (fire .qpop vQpop u 0)

/-- Request of QMARK (R117). -/
def vQmark (x : In) : Val := queueVal (.qmark x.queue) 1 {}

/-- QMARK. -/
def execQmark (k : Ch) (u : Exe) (s : State) : Host.Outcome State Fault Refusal := onCh k s (fire .qmark vQmark u 0)

/-- Request of QREWIND (R117). -/
def vQrewind (x : In) : Val := queueVal (.qrewind x.queue) 1 {}

/-- QREWIND. -/
def execQrewind (k : Ch) (u : Exe) (s : State) : Host.Outcome State Fault Refusal := onCh k s (fire .qrewind vQrewind u 0)

/-- Request of QRELEASE (R117). -/
def vQrelease (x : In) : Val := queueVal (.qrelease x.queue) 1 {}

/-- QRELEASE. -/
def execQrelease (k : Ch) (u : Exe) (s : State) : Host.Outcome State Fault Refusal := onCh k s (fire .qrelease vQrelease u 0)

/-! ## Asynchronous inputs (R118, R119, R219, R220): L is ignored, poisoned or not. -/

/-- Result of TIME: the count the unit latched when it opened the window (R219). -/
def vTime (x : In) : Val := toBoth (mkOpd x.smp.time 1 false)

/-- TIME. -/
def execTime (k : Ch) (u : Exe) (s : State) : Host.Outcome State Fault Refusal := onCh k s (fire .time vTime u 0)

/-- Result of POLL: the latched word of the source (R119, R219). -/
def vPoll (x : In) : Val :=
  toBoth (mkOpd (match iImm x.w with | 0 => x.smp.p0 | 1 => x.smp.p1 | 2 => x.smp.p2 | _ => x.smp.p3) 1 false)

/-- POLL. -/
def execPoll (k : Ch) (u : Exe) (s : State) : Host.Outcome State Fault Refusal := onCh k s (fire .poll vPoll u 0)

/-- Result of RAND: the 64 bits the Lead drew (R218, R220). -/
def vRand (x : In) : Val := toBoth (mkOpd x.rnd 6 false)

/-- RAND: v is what the entropy source gives. -/
def execRand (k : Ch) (u : Exe) (v : Word) (s : State) : Host.Outcome State Fault Refusal := onCh k s (fire .rand vRand u v)

end Sys2Proof.Machine
end

