-- ==== Sys2Proof/Machine/Startup.lean ====
section
/-! DEFINITION. POR_N and the start-up sequence (R603, R605 to R607, R609, R629, R630, R636, R644; log entry 36). -/

namespace Sys2Proof.Machine

/-- The bank of service firmware that runs: the active one, else the other (R607). -/
def bootBank (v : Service) (b : BootInfo) : Option Bool :=
  let a := match v.active 1 with | some r => r.bank | none => b.bank1
  let ok := fun x : Bool => if x then b.ok1 else b.ok0
  if ok a then some a else if ok (!a) then some (!a) else none

/-- The directory record of the service firmware that the flash holds at first. -/
def Service.found (v : Service) (b : BootInfo) : Service :=
  if (v.active 1).isSome then v
  else { v with dir := v.dir ++ [{ obj := 1, bank := b.bank1, digest := b.digests.getD 1 0, committed := true }] }

/-- The digest of the service firmware in a bank: of the active one, as its directory record has it. -/
def Service.imageOf (v : Service) (b : BootInfo) (bank : Bool) : Digest :=
  match v.active 1 with
  | some r => if r.bank = bank then r.digest else b.digests.getD 1 0
  | none => b.digests.getD 1 0

/-- A record of a Tj above 105 °C: an HOURLY one whose highest Tj is (R636, R645). -/
def Service.tjAbove (v : Service) : Bool :=
  ((v.counted.map LedgerRec.original).filter (fun x => x.1 == recHourly)).any
    (fun x => decide (840 < (BitVec.ofNat 16 (imgNat x.2.2 (x.2.2.length - 642) 2)).toInt))

/-- M7 from the UPDATE records of the ledger: those of an ACTIVATE that put its object into service (R609, R639). -/
def Service.replayM7 (v : Service) : Digest :=
  (((v.counted.map LedgerRec.original).filter (fun x => x.1 == recUpdate)).map (fun x => x.2.2)).foldl
    (fun m p => if p.getD 57 0 = 5 ∨ (p.getD 57 0 = 6 ∧ imgNat p 59 2 ≠ 0) then extendM7 m p else m) 0

/-- What the service firmware finds in flash: writing resumes in the sector with the highest SEQ (R634, R635). -/
def Service.afterPor (v : Service) : Service :=
  let top := v.counted.foldl (fun (t : Option LedgerRec) r =>
    match t with | none => some r | some u => if u.seq.toNat ≤ r.seq.toNat then some r else t) none
  let base : Service := { flash := v.flash, otpMin := v.otpMin, dir := v.dir }
  match top with
  | none => { base with sector := v.sector }
  | some r =>
    { base with seqNext := r.seq + 1, hours := r.hours,
                sector := ((List.range ledgerSectors).find? (fun i => (v.recs i).any (fun u => u.committed && u.seq == r.seq))).getD 0 }

/-- The device blocks as POR_N leaves them: fuses and flash are kept; pins are as they are (R603, R605), and the clocks' periods go on, so
that no start-up repeats the phases of another (R9). -/
def Dev.afterPor (d : Dev) : Dev := { xclk := d.xclk,  svc := d.svc.afterPor, tj105 := d.svc.tjAbove, gpio := d.gpio, perst := d.perst, linkUp := d.perst, out := d.out }

/-- POR_N: its release runs the start-up sequence up to step 9 as one step; steps 10 and 11 are the steward's own commands. The service
firmware takes events from then on: EVTGT.EN is 1 (DESIGN CHOICE, log entry 32). -/
def execPorN (b : BootInfo) (s : State) : Host.Outcome State Fault Refusal :=
  if !b.wf then .fault .illFormed
  else
    let d := { s.dev.afterPor.setSlot 0 (b.digests.getD 0 0) with step := 3, boot := some b }
    match bootBank d.svc b with
    | none => .next ({ s with dev := { d with recovery := true } } : State).allOff
    | some bk =>
      let v := d.svc.found b
      let d := { d.setSlot 1 (v.imageOf b bk) with step := 4, svBank := bk, svc := { v with evtgt := 1 } }
      .next (({ s with dev := d } : State).bootOn b v.replayM7)

end Sys2Proof.Machine
end

