-- ==== Sys2Proof/Machine/Dispatch.lean ====
section
/-! DEFINITION. The commands and their meanings: one arm per row of spec/opcode_table.json, in its order. -/

namespace Sys2Proof.Machine

def exec (i : Instr) (s : State) : Host.Outcome State Fault Refusal :=
  match i with
  | .add k u => Sys2Proof.Machine.execAdd k u s
  | .sub k u => Sys2Proof.Machine.execSub k u s
  | .mul k u => Sys2Proof.Machine.execMul k u s
  | .mulh k u => Sys2Proof.Machine.execMulh k u s
  | .mulhu k u => Sys2Proof.Machine.execMulhu k u s
  | .div k u => Sys2Proof.Machine.execDiv k u s
  | .divu k u => Sys2Proof.Machine.execDivu k u s
  | .rem k u => Sys2Proof.Machine.execRem k u s
  | .remu k u => Sys2Proof.Machine.execRemu k u s
  | .min k u => Sys2Proof.Machine.execMin k u s
  | .max k u => Sys2Proof.Machine.execMax k u s
  | .abs k u => Sys2Proof.Machine.execAbs k u s
  | .neg k u => Sys2Proof.Machine.execNeg k u s
  | .sel k u => Sys2Proof.Machine.execSel k u s
  | .and k u => Sys2Proof.Machine.execAnd k u s
  | .or k u => Sys2Proof.Machine.execOr k u s
  | .xor k u => Sys2Proof.Machine.execXor k u s
  | .andn k u => Sys2Proof.Machine.execAndn k u s
  | .shl k u => Sys2Proof.Machine.execShl k u s
  | .shr k u => Sys2Proof.Machine.execShr k u s
  | .sar k u => Sys2Proof.Machine.execSar k u s
  | .rot k u => Sys2Proof.Machine.execRot k u s
  | .clz k u => Sys2Proof.Machine.execClz k u s
  | .ctz k u => Sys2Proof.Machine.execCtz k u s
  | .popc k u => Sys2Proof.Machine.execPopc k u s
  | .cmpCc k u => Sys2Proof.Machine.execCmpCc k u s
  | .fadd k u => Sys2Proof.Machine.execFadd k u s
  | .fsub k u => Sys2Proof.Machine.execFsub k u s
  | .fmul k u => Sys2Proof.Machine.execFmul k u s
  | .fdiv k u => Sys2Proof.Machine.execFdiv k u s
  | .fsqrt k u => Sys2Proof.Machine.execFsqrt k u s
  | .fma k u => Sys2Proof.Machine.execFma k u s
  | .fmin k u => Sys2Proof.Machine.execFmin k u s
  | .fmax k u => Sys2Proof.Machine.execFmax k u s
  | .fcvt k u => Sys2Proof.Machine.execFcvt k u s
  | .icvt k u => Sys2Proof.Machine.execIcvt k u s
  | .faddC k u => Sys2Proof.Machine.execFaddC k u s
  | .fsubC k u => Sys2Proof.Machine.execFsubC k u s
  | .cmulC k u => Sys2Proof.Machine.execCmulC k u s
  | .cmacC k u => Sys2Proof.Machine.execCmacC k u s
  | .fcmpCc k u => Sys2Proof.Machine.execFcmpCc k u s
  | .copy k u => Sys2Proof.Machine.execCopy k u s
  | .fan k d => Sys2Proof.Machine.execFan k d s
  | .switch k d => Sys2Proof.Machine.execSwitch k d s
  | .gate k d => Sys2Proof.Machine.execGate k d s
  | .sink k d => Sys2Proof.Machine.execSink k d s
  | .ctxnew k u => Sys2Proof.Machine.execCtxnew k u s
  | .ctxend k d => Sys2Proof.Machine.execCtxend k d s
  | .ctxkill k u => Sys2Proof.Machine.execCtxkill k u s
  | .retag k u => Sys2Proof.Machine.execRetag k u s
  | .nextit k d => Sys2Proof.Machine.execNextit k d s
  | .loopin k d => Sys2Proof.Machine.execLoopin k d s
  | .loopout k d => Sys2Proof.Machine.execLoopout k d s
  | .send k u => Sys2Proof.Machine.execSend k u s
  | .retn k d => Sys2Proof.Machine.execRetn k d s
  | .signal k u => Sys2Proof.Machine.execSignal k u s
  | .exc k u => Sys2Proof.Machine.execExc k u s
  | .illegalInstruction k u => Sys2Proof.Machine.execIllegalInstruction k u s
  | .flowset k d => Sys2Proof.Machine.execFlowset k d s
  | .soloIn k d => Sys2Proof.Machine.execSoloIn k d s
  | .soloOut k d => Sys2Proof.Machine.execSoloOut k d s
  | .promRel k d => Sys2Proof.Machine.execPromRel k d s
  | .ld k u => Sys2Proof.Machine.execLd k u s
  | .ldQ k u => Sys2Proof.Machine.execLdQ k u s
  | .st k u => Sys2Proof.Machine.execSt k u s
  | .stQ k u => Sys2Proof.Machine.execStQ k u s
  | .cas k u => Sys2Proof.Machine.execCas k u s
  | .swap k u => Sys2Proof.Machine.execSwap k u s
  | .xadd k u => Sys2Proof.Machine.execXadd k u s
  | .accD k u => Sys2Proof.Machine.execAccD k u s
  | .acq k u => Sys2Proof.Machine.execAcq k u s
  | .tryacq k u => Sys2Proof.Machine.execTryacq k u s
  | .rel k u => Sys2Proof.Machine.execRel k u s
  | .qpush k u => Sys2Proof.Machine.execQpush k u s
  | .qpop k u => Sys2Proof.Machine.execQpop k u s
  | .qmark k u => Sys2Proof.Machine.execQmark k u s
  | .qrewind k u => Sys2Proof.Machine.execQrewind k u s
  | .qrelease k u => Sys2Proof.Machine.execQrelease k u s
  | .time k u => Sys2Proof.Machine.execTime k u s
  | .poll k u => Sys2Proof.Machine.execPoll k u s
  | .rand k u v => Sys2Proof.Machine.execRand k u v s
  | .brCc k n => Sys2Proof.Machine.execBrCc k n s
  | .jmp k n => Sys2Proof.Machine.execJmp k n s
  | .call k n => Sys2Proof.Machine.execCall k n s
  | .ret k n => Sys2Proof.Machine.execRet k n s
  | .wait k n => Sys2Proof.Machine.execWait k n s
  | .waitev k n => Sys2Proof.Machine.execWaitev k n s
  | .rfe k n => Sys2Proof.Machine.execRfe k n s
  | .csrrd k n => Sys2Proof.Machine.execCsrrd k n s
  | .csrwr k n => Sys2Proof.Machine.execCsrwr k n s
  | .fence k n => Sys2Proof.Machine.execFence k n s
  | .callerExceptionEntry k n => Sys2Proof.Machine.execCallerExceptionEntry k n s
  | .eventInterrupt k n => Sys2Proof.Machine.execEventInterrupt k n s
  | .tokenArrival k t e errs => Sys2Proof.Machine.execTokenArrival k t e s errs
  | .contextRecordFill k t errs => Sys2Proof.Machine.execContextRecordFill k t errs s
  | .deferredTokenRetry k t errs => Sys2Proof.Machine.execDeferredTokenRetry k t s errs
  | .readyPushRetry k t => Sys2Proof.Machine.execReadyPushRetry k t s
  | .controlToken k => Sys2Proof.Machine.execControlToken k s
  | .dispatchSelect k d fs pf e dl => Sys2Proof.Machine.execDispatchSelect k d fs pf e dl s
  | .windowClose k u => Sys2Proof.Machine.execWindowClose k u s
  | .windowCompare k u cf => Sys2Proof.Machine.execWindowCompare k u cf s
  | .replayOpen k u fs => Sys2Proof.Machine.execReplayOpen k u fs s
  | .standInComplete k d pass => Sys2Proof.Machine.execStandInComplete k d pass s
  | .comparatorTestFailure k u => Sys2Proof.Machine.execComparatorTestFailure k u s
  | .commitBufferDrain k u e => Sys2Proof.Machine.execCommitBufferDrain k u e s
  | .sparetest k p w => Sys2Proof.Machine.execSparetest k p w s
  | .spareSelfTestComplete k g pass => Sys2Proof.Machine.execSpareSelfTestComplete k g pass s
  | .duetRetest k p d w => Sys2Proof.Machine.execDuetRetest k p d w s
  | .retestComplete k d pass => Sys2Proof.Machine.execRetestComplete k d pass s
  | .duetRetire k p d w => Sys2Proof.Machine.execDuetRetire k p d w s
  | .lfInjArm k p w => Sys2Proof.Machine.execLfInjArm k p w s
  | .lfWinWrite k p w => Sys2Proof.Machine.execLfWinWrite k p w s
  | .contextTableStart k p w => Sys2Proof.Machine.execContextTableStart k p w s
  | .freeListBuilt k => Sys2Proof.Machine.execFreeListBuilt k s
  | .contextCacheFlush k p w => Sys2Proof.Machine.execContextCacheFlush k p w s
  | .contextAllocation k errs => Sys2Proof.Machine.execContextAllocation k s errs
  | .elderPromotion k c => Sys2Proof.Machine.execElderPromotion k c s
  | .sweepPass k errs => Sys2Proof.Machine.execSweepPass k s errs
  | .contextFree k c => Sys2Proof.Machine.execContextFree k c s
  | .exceptionRecordWrite k errs => Sys2Proof.Machine.execExceptionRecordWrite k s errs
  | .exceptionRecordsEnable k p w => Sys2Proof.Machine.execExceptionRecordsEnable k p w s
  | .loopExit k e => Sys2Proof.Machine.execLoopExit k e s
  | .parkedFiringWake k t e => Sys2Proof.Machine.execParkedFiringWake k t e s
  | .soloGrant k q => Sys2Proof.Machine.execSoloGrant k q s
  | .soloSlotRelease k q => Sys2Proof.Machine.execSoloSlotRelease k q s
  | .soloCursorAdvance k n => Sys2Proof.Machine.execSoloCursorAdvance k n s
  | .promenadeHeadAdvance k n pf => Sys2Proof.Machine.execPromenadeHeadAdvance k n pf s
  | .headTimeLimit k n => Sys2Proof.Machine.execHeadTimeLimit k n s
  | .admissionDecision k r f => Sys2Proof.Machine.execAdmissionDecision k r f s
  | .adCfgWrite k p w => Sys2Proof.Machine.execAdCfgWrite k p w s
  | .backgroundEviction k t errs => Sys2Proof.Machine.execBackgroundEviction k t s errs
  | .evictionComplete k t errs => Sys2Proof.Machine.execEvictionComplete k t s errs
  | .spillRetryTimeout k t errs => Sys2Proof.Machine.execSpillRetryTimeout k t s errs
  | .cutInLookup k errs => Sys2Proof.Machine.execCutInLookup k errs s
  | .stallMonitorFire k => Sys2Proof.Machine.execStallMonitorFire k s
  | .queueUnitOperation k t pf => Sys2Proof.Machine.execQueueUnitOperation k t pf s
  | .popWaiterRemoval k ix => Sys2Proof.Machine.execPopWaiterRemoval k ix s
  | .readyQueueRebuild k t => Sys2Proof.Machine.execReadyQueueRebuild k t s
  | .ringTokenRegeneration k r f => Sys2Proof.Machine.execRingTokenRegeneration k r f s
  | .scratchpadAccess k t e => Sys2Proof.Machine.execScratchpadAccess k t e s
  | .splitSecondaryPart k t e => Sys2Proof.Machine.execSplitSecondaryPart k t e s
  | .splitReply k t => Sys2Proof.Machine.execSplitReply k t s
  | .splitGo k t => Sys2Proof.Machine.execSplitGo k t s
  | .scratchpadClearComplete k => Sys2Proof.Machine.execScratchpadClearComplete k s
  | .setupPortAccess k => Sys2Proof.Machine.execSetupPortAccess k s
  | .shuffleRegionStart k a => Sys2Proof.Machine.execShuffleRegionStart k a s
  | .shuffleTestComplete k a bad => Sys2Proof.Machine.execShuffleTestComplete k a bad s
  | .shuffleRestoreComplete k a => Sys2Proof.Machine.execShuffleRestoreComplete k a s
  | .shufrepGo k p b w => Sys2Proof.Machine.execShufrepGo k p b w s
  | .lockUnitRequest k t e => Sys2Proof.Machine.execLockUnitRequest k t s e
  | .lockGrant k ix => Sys2Proof.Machine.execLockGrant k ix s
  | .lockAbandon k ix => Sys2Proof.Machine.execLockAbandon k ix s
  | .lockWaiterRemoval k ix => Sys2Proof.Machine.execLockWaiterRemoval k ix s
  | .gddr7RequestAccept k => Sys2Proof.Machine.execGddr7RequestAccept k s
  | .gddr7RequestComplete k ix errs => Sys2Proof.Machine.execGddr7RequestComplete k ix errs s
  | .dmEnable k p w => Sys2Proof.Machine.execDmEnable k p w s
  | .dmDisable k p w => Sys2Proof.Machine.execDmDisable k p w s
  | .trainingProgramComplete k => Sys2Proof.Machine.execTrainingProgramComplete k s
  | .trainEnd k => Sys2Proof.Machine.execTrainEnd k s
  | .mrw k => Sys2Proof.Machine.execMrw k s
  | .check k => Sys2Proof.Machine.execCheck k s
  | .trainWait k => Sys2Proof.Machine.execTrainWait k s
  | .zq k ok => Sys2Proof.Machine.execZq k ok s
  | .wck k ok => Sys2Proof.Machine.execWck k ok s
  | .rdtrain k ok => Sys2Proof.Machine.execRdtrain k ok s
  | .wrtrain k ok => Sys2Proof.Machine.execWrtrain k ok s
  | .vref k ok => Sys2Proof.Machine.execVref k ok s
  | .levels k ok => Sys2Proof.Machine.execLevels k ok s
  | .trainSave k => Sys2Proof.Machine.execTrainSave k s
  | .delta k ok => Sys2Proof.Machine.execDelta k ok s
  | .hppr k ok => Sys2Proof.Machine.execHppr k ok s
  | .periodicTraining k => Sys2Proof.Machine.execPeriodicTraining k s
  | .refresh k b => Sys2Proof.Machine.execRefresh k b s
  | .memoryTemperatureRead k temp => Sys2Proof.Machine.execMemoryTemperatureRead k temp s
  | .patrolScrubRead k e => Sys2Proof.Machine.execPatrolScrubRead k e s
  | .rowRepair k row ok => Sys2Proof.Machine.execRowRepair k row ok s
  | .flitReceive k rx ok => Sys2Proof.Machine.execFlitReceive k rx ok s
  | .flitResend k rx ok => Sys2Proof.Machine.execFlitResend k rx ok s
  | .receiveQueueRoute k p j pf => Sys2Proof.Machine.execReceiveQueueRoute k p j pf s
  | .frameTransmit k p errs => Sys2Proof.Machine.execFrameTransmit k p errs s
  | .dataFrameReceive k p fr ok => Sys2Proof.Machine.execDataFrameReceive k p fr ok s
  | .redataFrameReceive k p fr ok => Sys2Proof.Machine.execRedataFrameReceive k p fr ok s
  | .bowFrameReceive k p b => Sys2Proof.Machine.execBowFrameReceive k p b s
  | .bowSend k p => Sys2Proof.Machine.execBowSend k p s
  | .controlIdle k p h => Sys2Proof.Machine.execControlIdle k p h s
  | .nak k p h arg => Sys2Proof.Machine.execNak k p h arg s
  | .sleepreq k p h => Sys2Proof.Machine.execSleepreq k p h s
  | .sleepack k p h => Sys2Proof.Machine.execSleepack k p h s
  | .sleepnak k p h => Sys2Proof.Machine.execSleepnak k p h s
  | .drainreq k p h => Sys2Proof.Machine.execDrainreq k p h s
  | .draindone k p h => Sys2Proof.Machine.execDraindone k p h s
  | .refetch k p h arg => Sys2Proof.Machine.execRefetch k p h arg s
  | .replayTimeout k p => Sys2Proof.Machine.execReplayTimeout k p s
  | .sleepIdleTimeout k p => Sys2Proof.Machine.execSleepIdleTimeout k p s
  | .lsmTransition k p errs => Sys2Proof.Machine.execLsmTransition k p s errs
  | .laneTrainingComplete k p ok => Sys2Proof.Machine.execLaneTrainingComplete k p ok s
  | .sigdet k p ok => Sys2Proof.Machine.execSigdet k p ok s
  | .sigloss k p ok => Sys2Proof.Machine.execSigloss k p ok s
  | .stateTimerExpiry k p => Sys2Proof.Machine.execStateTimerExpiry k p s
  | .portEnable k p q w => Sys2Proof.Machine.execPortEnable k p q w s
  | .portDisable k p q w => Sys2Proof.Machine.execPortDisable k p q w s
  | .forcedown k p q w => Sys2Proof.Machine.execForcedown k p q w s
  | .wake k p q w => Sys2Proof.Machine.execWake k p q w s
  | .discard k p q w => Sys2Proof.Machine.execDiscard k p q w s
  | .ntEpochWrite k p w => Sys2Proof.Machine.execNtEpochWrite k p w s
  | .callerRun k p n w => Sys2Proof.Machine.execCallerRun k p n w s
  | .callerStop k p n w => Sys2Proof.Machine.execCallerStop k p n w s
  | .halt k p n w => Sys2Proof.Machine.execHalt k p n w s
  | .reset k p n w => Sys2Proof.Machine.execReset k p n w s
  | .callerRetest k p m w => Sys2Proof.Machine.execCallerRetest k p m w s
  | .callerRetire k p m w => Sys2Proof.Machine.execCallerRetire k p m w s
  | .callerRetestComplete k m pass => Sys2Proof.Machine.execCallerRetestComplete k m pass s
  | .doorbellMessage x => Sys2Proof.Machine.execDoorbellMessage x s
  | .eventSelection x => Sys2Proof.Machine.execEventSelection x s
  | .deliveryLanding x => Sys2Proof.Machine.execDeliveryLanding x s
  | .moderationHoldExpiry x q => Sys2Proof.Machine.execModerationHoldExpiry x q s
  | .evSrcClear x p q w => Sys2Proof.Machine.execEvSrcClear x p q w s
  | .evDoorbellWrite k p w => Sys2Proof.Machine.execEvDoorbellWrite k p w s
  | .deDoorbellWrite p w => Sys2Proof.Machine.execDeDoorbellWrite p w s
  | .msixMaskClear fn v m => Sys2Proof.Machine.execMsixMaskClear fn v s m
  | .gpioEdge g lvl => Sys2Proof.Machine.execGpioEdge g lvl s
  | .kick k w => Sys2Proof.Machine.execKick k w s
  | .ringPoll k r => Sys2Proof.Machine.execRingPoll k r s
  | .recordReadComplete k x f => Sys2Proof.Machine.execRecordReadComplete k x f s
  | .ringIdleSleep k x f => Sys2Proof.Machine.execRingIdleSleep k x f s
  | .run k r => Sys2Proof.Machine.execRun k r s
  | .copyin k r f => Sys2Proof.Machine.execCopyin k r f s
  | .copyout k r f => Sys2Proof.Machine.execCopyout k r f s
  | .load k r f => Sys2Proof.Machine.execLoad k r f s
  | .nop k r f => Sys2Proof.Machine.execNop k r f s
  | .copySlotGrant k => Sys2Proof.Machine.execCopySlotGrant k s
  | .copyPartComplete k ix part => Sys2Proof.Machine.execCopyPartComplete k ix part s
  | .ringInjection k r pf => Sys2Proof.Machine.execRingInjection k r pf s
  | .completionToken k r pf => Sys2Proof.Machine.execCompletionToken k r pf s
  | .completionWrite k r errs => Sys2Proof.Machine.execCompletionWrite k r errs s
  | .ringEnable k p r w => Sys2Proof.Machine.execRingEnable k p r w s
  | .ringDisable k p r w => Sys2Proof.Machine.execRingDisable k p r w s
  | .abort k p r w => Sys2Proof.Machine.execAbort k p r w s
  | .ringDrained k r => Sys2Proof.Machine.execRingDrained k r s
  | .completionRingEnable k p r w => Sys2Proof.Machine.execCompletionRingEnable k p r w s
  | .hostWindowAccess k errs => Sys2Proof.Machine.execHostWindowAccess k errs s
  | .hostReadCompletion k ix d0 d1 err => Sys2Proof.Machine.execHostReadCompletion k ix d0 d1 err s
  | .hostCompletionTimeout k ix => Sys2Proof.Machine.execHostCompletionTimeout k ix s
  | .hwtdataWrite k p w => Sys2Proof.Machine.execHwtdataWrite k p w s
  | .hwtdataRead k p => Sys2Proof.Machine.execHwtdataRead k p s
  | .hwctlEnable k p w => Sys2Proof.Machine.execHwctlEnable k p w s
  | .sync k p w => Sys2Proof.Machine.execSync k p w s
  | .invall k p w => Sys2Proof.Machine.execInvall k p w s
  | .functionLevelReset fn => Sys2Proof.Machine.execFunctionLevelReset fn s
  | .c1Entry k => Sys2Proof.Machine.execC1Entry k s
  | .c2Entry k => Sys2Proof.Machine.execC2Entry k s
  | .c3Entry k => Sys2Proof.Machine.execC3Entry k s
  | .setPark k g => Sys2Proof.Machine.execSetPark k g s
  | .channelWake k => Sys2Proof.Machine.execChannelWake k s
  | .pwrEnd k d => Sys2Proof.Machine.execPwrEnd k d s
  | .clkgate k d => Sys2Proof.Machine.execClkgate k d s
  | .clkungate k d => Sys2Proof.Machine.execClkungate k d s
  | .isoon k d => Sys2Proof.Machine.execIsoon k d s
  | .isooff k d => Sys2Proof.Machine.execIsooff k d s
  | .rston k d => Sys2Proof.Machine.execRston k d s
  | .rstoff k d => Sys2Proof.Machine.execRstoff k d s
  | .swoff k d => Sys2Proof.Machine.execSwoff k d s
  | .swon k d => Sys2Proof.Machine.execSwon k d s
  | .reton k d => Sys2Proof.Machine.execReton k d s
  | .retoff k d => Sys2Proof.Machine.execRetoff k d s
  | .pwrDrain k d => Sys2Proof.Machine.execPwrDrain k d s
  | .save k d => Sys2Proof.Machine.execSave k d s
  | .restore k d => Sys2Proof.Machine.execRestore k d s
  | .selfref k d => Sys2Proof.Machine.execSelfref k d s
  | .srexit k d => Sys2Proof.Machine.execSrexit k d s
  | .pwrWait k d => Sys2Proof.Machine.execPwrWait k d s
  | .enterC4 k p w => Sys2Proof.Machine.execEnterC4 k p w s
  | .setReady k p w => Sys2Proof.Machine.execSetReady k p w s
  | .clearReady k p w => Sys2Proof.Machine.execClearReady k p w s
  | .wakeToC0 k p w => Sys2Proof.Machine.execWakeToC0 k p w s
  | .channelReset k p w => Sys2Proof.Machine.execChannelReset k p w s
  | .operatingPointSwitch k => Sys2Proof.Machine.execOperatingPointSwitch k s
  | .powerLimiter watts => Sys2Proof.Machine.execPowerLimiter watts s
  | .thermalSample temps => Sys2Proof.Machine.execThermalSample temps s
  | .clk32kLoss => Sys2Proof.Machine.execClk32kLoss s
  | .clk32kRestore => Sys2Proof.Machine.execClk32kRestore s
  | .railAlarm a => Sys2Proof.Machine.execRailAlarm a s
  | .porN b => Sys2Proof.Machine.execPorN b s
  | .perstN => Sys2Proof.Machine.execPerstN s
  | .trstN => Sys2Proof.Machine.execTrstN s
  | .agingMeasurement k m => Sys2Proof.Machine.execAgingMeasurement k m s
  | .ageAdjustment k => Sys2Proof.Machine.execAgeAdjustment k s
  | .hourly h => Sys2Proof.Machine.execHourly h s
  | .ledgerRecordWrite ok => Sys2Proof.Machine.execLedgerRecordWrite ok s
  | .sectorReclaim => Sys2Proof.Machine.execSectorReclaim s
  | .stage p w img => Sys2Proof.Machine.execStage p w img s
  | .commit p w ok => Sys2Proof.Machine.execCommit p w s ok
  | .activate p w => Sys2Proof.Machine.execActivate p w s
  | .updateAbort p w => Sys2Proof.Machine.execUpdateAbort p w s
  | .handOverTimeout k => Sys2Proof.Machine.execHandOverTimeout k s
  | .getVersion tr => Sys2Proof.Machine.execGetVersion tr s
  | .getCapabilities tr => Sys2Proof.Machine.execGetCapabilities tr s
  | .negotiateAlgorithms tr => Sys2Proof.Machine.execNegotiateAlgorithms tr s
  | .getDigests tr => Sys2Proof.Machine.execGetDigests tr s
  | .getCertificate tr slot off len => Sys2Proof.Machine.execGetCertificate tr slot off len s
  | .challenge tr slot nonce => Sys2Proof.Machine.execChallenge tr slot nonce s
  | .getMeasurements tr idx nonce => Sys2Proof.Machine.execGetMeasurements tr idx nonce s
  | .mctpRegisterRead off => Sys2Proof.Machine.execMctpRegisterRead off s
  | .mlLselWrite p w => Sys2Proof.Machine.execMlLselWrite p w s
  | .registerReadClear fn p off sz => Sys2Proof.Machine.execRegisterReadClear fn p off sz s
  | .registerWrite fn p off sz w => Sys2Proof.Machine.execRegisterWrite fn p off sz w s
  | .waitTimeLimit k n => Sys2Proof.Machine.execWaitTimeLimit k n s
  | .callerResultArrival k n => Sys2Proof.Machine.execCallerResultArrival k n s
  | .programStoreClearComplete k => Sys2Proof.Machine.execProgramStoreClearComplete k s
  | .shuffleCopyComplete k a => Sys2Proof.Machine.execShuffleCopyComplete k a s
  | .rebuildComplete k t => Sys2Proof.Machine.execRebuildComplete k t s
  | .callerStandInComplete k n pass => Sys2Proof.Machine.execCallerStandInComplete k n pass s
  | .perstNRelease => Sys2Proof.Machine.execPerstNRelease s
  | .reservedFrameReceive k p ftype code chk => Sys2Proof.Machine.execReservedFrameReceive k p ftype code s chk
  | .gddr7PowerDown k => Sys2Proof.Machine.execGddr7PowerDown k s
  | .baddesc k r f => Sys2Proof.Machine.execBaddesc k r f s

end Sys2Proof.Machine
end

