-- ==== Sys2Proof/Machine/Tick.lean ====
section
/-! DEFINITION. One period of the device, which passes when no command waits: TIME and the clocks of every channel go on as their edges fall
into it (R9, R581; log entry 3). -/

namespace Sys2Proof.Machine

/-- What the stall monitor watches: an unread packet, a token in a deferral or miss buffer or in the Cut-in queue, or a
record of the waiting pool (R311). -/
def Chan.stuck (c : Chan) : Bool :=
  c.qu.ptrs.any (fun e => decide (e.1 < 512) && decide (0 < e.2.unread))
    || c.ms.tiles.any (fun e => !e.2.defer.isEmpty || !e.2.miss.isEmpty)
    || !c.ms.cutq.isEmpty || !c.ms.pool.isEmpty

/-- The wait counters of R182 after an XCLK: one more for a ready queue that holds a packet, 0 for one that is empty or not enabled (R327). -/
def Chan.countWaits (c : Chan) : Tbl Nat :=
  (c.qu.ptrs.filter (fun e => decide (e.1 < 512) && decide (0 < e.2.unread) && c.qEn e.1)).map (fun e => (e.1, tblGet c.qu.waits e.1 0 + 1))

/-- The stall count of a channel whose clocks run after an XCLK, one more where no window has committed in it (R311), its wait counters, and the
end of a context cache flush. -/
def Chan.countXclk (c : Chan) : Chan :=
  if !c.setRuns 5 then c
  else
    let c := { c with qu := { c.qu with waits := c.countWaits }, cu := { c.cu with flushing := c.cu.flushing && !c.dm.inq.isEmpty } }
    if c.stuck && c.ms.commitAt != some (c.xclk - 1) then { c with ms := { c.ms with stall := c.ms.stall + 1 } } else c

/-- The clocks of a channel stand in C3 and C4 (R581). -/
def Chan.clocksRun (c : Chan) : Bool := decide (c.pw.cst < 3)

/-- An XCLK of the channel ends: its commits are settled (R109, R186), the occupancy and the queues that changed in it are compared (R177,
R340), words that wait for a completion queue find the room made in it (R335), the contexts poisoned in it are DEAD (R71), the messages raised in it
enter the network (R497), the Shuffle has its beat (R357, R365), and with every second XCLK a CCLK begins. -/
def Chan.tickXclk (c : Chan) : Chan :=
  let c := c.settleDone
  let c := if c.ms.moved then { c.msMark with ms := { c.msMark.ms with moved := false } } else c
  let c : Chan := { c.qCompareAll.sendEvents with xclk := c.xclk + 1 }
  let c := if c.xclk % 2 = 0 then c.evEdge else c
  let c := c.crings.foldl (fun c e => if e.2.waitPush.isEmpty then c else c.pushWaiting e.1) c
  let c := c.sp.shuf.foldl (fun c e => c.shufXclk e.1) c
  (c.settlePoison c.xclk).countXclk

/-- An accepted request other than a store waits. -/
def Dram.readWaits (x : Dram) : Bool := x.acc.any (fun q => q.req.kind != .st)

/-- An MCLK of the channel: the write buffer writes its oldest line where nothing of a higher rank waits, and the internal port is served (R398,
R401, R681). -/
def Chan.tickMclk (c : Chan) : Chan :=
  let w := if c.dmReady && c.dmFree && !c.dm.readWaits then c.dm.wbuf.drop 1 else c.dm.wbuf
  (({ c with dm := { c.dm with mclk := c.dm.mclk + 1, wbuf := w } } : Chan).startCtx0 c.xclk).servePort c.xclk

/-- Since when the channel, its sets, its memory and its ports have been idle, for R588, R589, R410 and R449: a count starts again in every
period that finds them busy. -/
def Chan.tickIdle (c : Chan) (xclk time : Nat) : Chan :=
  let c := if c.dm.touched then { c with dm := { c.dm with touched := false, idleSince := time } } else c
  let c := if c.pw.cst = 0 ∧ !c.allQuiet then { c with pw := { c.pw with idleSince := xclk } } else c
  let c := { c with pw := { c.pw with
    setIdle := (List.range 4).foldl (fun m g => if c.setQuiet g then m else tblPut m g time 0) c.pw.setIdle } }
  c.ports.foldl (fun c e => if e.2.st = 4 ∧ !c.portIdle e.1 then c.setPort e.1 { c.port e.1 with idleSince := time } else c) c

/-- A period of the device in channel k, with TIME at its end: an edge of XCLK and one of MCLK where they fall into it; register accesses and
kicks held for the memory are tried again (R390, R542, R659), and the service firmware carries out what is due (R604, R606). -/
def Chan.tick (c : Chan) (dv : Dev) (k n time : Nat) : Chan :=
  let c := if Config.xclkEdge k n ∧ c.clocksRun then c.tickXclk else c
  let c := if Config.mclkEdge k n ∧ c.clocksRun then c.tickMclk else c
  let c := if c.pw.kicks.isEmpty then c else c.serveKicks time
  let c := if c.pw.held.isEmpty then c else c.serveHeld dv
  (if c.pw.due = 0 then c else c.serviceSteps dv).tickIdle c.xclk time

/-- A period of the device: its number, TIME where an edge of ACLK falls into it, the clocks, idle and stall counts of every channel, and an
ACTIVATE under way (R640 to R642). -/
def tick (s : State) : State :=
  let n := s.dev.xclk
  let time := s.dev.time + b2n (Config.aclkEdge n)
  ((List.range 16).foldl (fun s k => s.setChan k ((s.chan k).tick s.dev k n time))
    { s with dev := ({ s.dev with xclk := n + 1, time := time, step := s.lastStep } : Dev).evEdge } : State).upWork

end Sys2Proof.Machine
end

