-- ==== Sys2Proof/Safety.lean ====
section
/-! DEFINITION. What a safe step and a sound state are, and the rules of spec/ in the terms the statements use. -/

namespace Sys2Proof.Machine

/-- The step answers a next state. -/
def Completes (o : Host.Outcome State Fault Refusal) : Prop := ∃ t, o = .next t

/-- A run of n steps ends in t with no fault and no refusal. -/
def runs : Nat → State → State → Prop
  | 0, s, t => s = t
  | n + 1, s, t => ∃ u, step s = .next u ∧ runs n u t

/-- The command answers a next state in which channel k has become d, and nothing else has changed (R14). -/
def Gives (i : Instr) (s : State) (k : Ch) (d : Chan) : Prop := exec i s = .next (s.setChan k.val d)

/-- The command answers a next state in which channel k satisfies p, and nothing outside channel k has changed (R14). -/
def Leads (i : Instr) (s : State) (k : Ch) (p : Chan → Prop) : Prop := ∃ d, Gives i s k d ∧ p d

/-- The command answers a next state in which the device blocks have become d, and nothing else has changed. -/
def GivesDev (i : Instr) (s : State) (d : Dev) : Prop := exec i s = .next { s with dev := d }

/-- The command answers a next state in which the device blocks satisfy p, and nothing else has changed. -/
def LeadsDev (i : Instr) (s : State) (p : Dev → Prop) : Prop := ∃ d, GivesDev i s d ∧ p d

/-- A queue read in which no half fails (R336), and a comparison without a fault (R222). -/
def parityGood : Parity := ⟨false, false, false, false⟩
def cmpGood : CmpFault := ⟨0, 0, none, none, false⟩

/-- The registers of a channel whose write does more, or less, than R12 says of its fields. -/
def ownWrites : List RegName := [.chCtxcfg, .chExccfg, .chHwctl, .chHwtdata, .pwrCtl, .lfCtl, .lfDuet, .adCfg, .pgSpillcfg, .quCfg,
  .quWm, .pgStall, .pwrCurve, .rgScfg, .rgSctx, .rgCcfg, .evDoorbell, .evSrc, .spShufrep, .dmCfg, .ntEpoch, .ntRt0, .ntRt1, .fbPctl, .ccCall, .ccPhys,
  .chPlane]

/-- What a channel reset leaves of channel c, not tripped, as channel b (R604): the units, the callers and the registers as after reset,
but for what the power tables, DM, LF_DUETn, CC_PHYSm and SP_CFG keep; the clearing of the program store and the scratchpad under way. -/
def ResetLeaves (c b : Chan) : Prop :=
  b.idx = c.idx ∧ b.pw.cst = 0 ∧ b.pw.ready = false ∧ b.pw.doms = [] ∧ b.cu = {} ∧ b.ms = {} ∧ b.qu = {} ∧ b.rings = [] ∧ b.crings = []
  ∧ b.copies = [] ∧ b.hw = {} ∧ b.duets = [] ∧ b.progClearing = true ∧ b.sp.clearing = true ∧ b.dm.acc = []
  ∧ (∀ n, (b.caller n).st = .halted ∨ (b.caller n).st = .lost)
  ∧ (c.flag F.spCfgKeep = false → ∀ a < dramBase, memByte b.mem a = 0)
  ∧ ∀ off, keptReg true off = false → (off < 0x2100 ∨ 0x2320 ≤ off) → (off < 0x30100 ∨ 0x30128 ≤ off) →
      b.rd off = BitVec.ofNat 64 (chanReset c.idx off)

/-- What every step keeps of the device blocks: the ledger's buffer (R638), FAIL (R650), the COUNT of every source (R500), the inbox of
the service core (R518), the part of a second above 90 degrees (R601) and the milliseconds below the limit (R600). -/
structure Dev.Sound (d : Dev) : Prop where
  buffer : d.svc.buffer.length ≤ 64
  fail : d.svc.fail ≤ 0xFFFF
  counts : ∀ q, (d.ev.src q).count ≤ 255
  inbox : d.svc.inbox.length ≤ 16
  above : d.above90 < 10000
  low : d.lowMs ≤ 10

/-- Of each scratchpad bank the saved copy serves at most one region: the Shuffle of a bank that has halted borrows none (R367). -/
def Chan.copiesApart (c : Chan) : Prop := ∀ b, b < 64 → (tblGet c.sp.shuf b {}).halted = true → (tblGet c.sp.shuf b {}).step = 0

/-- What every step keeps of a channel: the canonical form of its memory, the COUNT of every source (R500), the inbox of every caller (R504), what a
queue holds unread (R330), and that a bank whose Shuffle has halted borrows no region (R367). -/
structure Chan.Sound (c : Chan) : Prop where
  mem : Memory.wf c.mem = true
  counts : ∀ q, (c.evSt q).count ≤ 255
  inbox : ∀ n, (c.caller n).inbox.length ≤ 16
  queues : ∀ q, (c.qptr q).unread ≤ (c.qptr q).held
  copies : c.copiesApart

/-- The channel of a function: that of PF1 to PF16 (R14). -/
def fnChannel (fn : FnId) : Option Ch := if h : fn.val = 0 then none else some ⟨fn.val - 1, by omega⟩

/-- The channel that a command is for; none for one that reaches the device blocks, or more channels than one. -/
def channelOf : Instr → Option Ch
  | .add k _ | .sub k _ | .mul k _ | .mulh k _ | .mulhu k _ | .div k _ | .divu k _ | .rem k _ | .remu k _ | .min k _ | .max k _ | .abs k _ | .neg k _
  | .sel k _ | .and k _ | .or k _ | .xor k _ | .andn k _ | .shl k _ | .shr k _ | .sar k _ | .rot k _ | .clz k _ | .ctz k _ | .popc k _ | .cmpCc k _
  | .fadd k _ | .fsub k _ | .fmul k _ | .fdiv k _ | .fsqrt k _ | .fma k _ | .fmin k _ | .fmax k _ | .fcvt k _ | .icvt k _ | .faddC k _ | .fsubC k _
  | .cmulC k _ | .cmacC k _ | .fcmpCc k _ | .copy k _ | .fan k _ | .switch k _ | .gate k _ | .sink k _ | .ctxnew k _ | .ctxend k _ | .ctxkill k _
  | .retag k _ | .nextit k _ | .loopin k _ | .loopout k _ | .send k _ | .retn k _ | .signal k _ | .exc k _ | .illegalInstruction k _ | .flowset k _
  | .soloIn k _ | .soloOut k _ | .promRel k _ | .ld k _ | .ldQ k _ | .st k _ | .stQ k _ | .cas k _ | .swap k _ | .xadd k _ | .accD k _ | .acq k _
  | .tryacq k _ | .rel k _ | .qpush k _ | .qpop k _ | .qmark k _ | .qrewind k _ | .qrelease k _ | .time k _ | .poll k _ | .rand k _ _ | .brCc k _
  | .jmp k _ | .call k _ | .ret k _ | .wait k _ | .waitev k _ | .rfe k _ | .csrrd k _ | .csrwr k _ | .fence k _ | .callerExceptionEntry k _
  | .eventInterrupt k _ | .tokenArrival k _ _ _ | .contextRecordFill k _ _ | .deferredTokenRetry k _ _ | .readyPushRetry k _ | .controlToken k
  | .dispatchSelect k _ _ _ _ _ | .windowClose k _ | .windowCompare k _ _ | .replayOpen k _ _ | .standInComplete k _ _ | .comparatorTestFailure k _
  | .commitBufferDrain k _ _ | .sparetest k _ _ | .spareSelfTestComplete k _ _ | .duetRetest k _ _ _ | .retestComplete k _ _ | .duetRetire k _ _ _
  | .lfInjArm k _ _ | .lfWinWrite k _ _ | .contextTableStart k _ _ | .freeListBuilt k | .contextCacheFlush k _ _ | .contextAllocation k _
  | .elderPromotion k _ | .sweepPass k _ | .contextFree k _ | .exceptionRecordWrite k _ | .exceptionRecordsEnable k _ _ | .loopExit k _
  | .parkedFiringWake k _ _ | .soloGrant k _ | .soloSlotRelease k _ | .soloCursorAdvance k _ | .promenadeHeadAdvance k _ _ | .headTimeLimit k _
  | .admissionDecision k _ _ | .adCfgWrite k _ _ | .backgroundEviction k _ _ | .evictionComplete k _ _ | .spillRetryTimeout k _ _ | .cutInLookup k _
  | .stallMonitorFire k | .queueUnitOperation k _ _ | .popWaiterRemoval k _ | .readyQueueRebuild k _ | .ringTokenRegeneration k _ _
  | .scratchpadAccess k _ _ | .splitSecondaryPart k _ _ | .splitReply k _ | .splitGo k _ | .scratchpadClearComplete k | .setupPortAccess k
  | .shuffleRegionStart k _ | .shuffleTestComplete k _ _ | .shuffleRestoreComplete k _ | .shufrepGo k _ _ _ | .lockUnitRequest k _ _ | .lockGrant k _
  | .lockAbandon k _ | .lockWaiterRemoval k _ | .gddr7RequestAccept k | .gddr7RequestComplete k _ _ | .dmEnable k _ _ | .dmDisable k _ _
  | .trainingProgramComplete k | .trainEnd k | .mrw k | .check k | .trainWait k | .zq k _ | .wck k _ | .rdtrain k _ | .wrtrain k _ | .vref k _
  | .levels k _ | .trainSave k | .delta k _ | .hppr k _ | .periodicTraining k | .refresh k _ | .memoryTemperatureRead k _ | .patrolScrubRead k _
  | .rowRepair k _ _ | .flitReceive k _ _ | .flitResend k _ _ | .receiveQueueRoute k _ _ _ | .frameTransmit k _ _ | .dataFrameReceive k _ _ _
  | .redataFrameReceive k _ _ _ | .bowFrameReceive k _ _ | .bowSend k _ | .controlIdle k _ _ | .nak k _ _ _ | .sleepreq k _ _ | .sleepack k _ _
  | .sleepnak k _ _ | .drainreq k _ _ | .draindone k _ _ | .refetch k _ _ _ | .replayTimeout k _ | .sleepIdleTimeout k _ | .lsmTransition k _ _
  | .laneTrainingComplete k _ _ | .sigdet k _ _ | .sigloss k _ _ | .stateTimerExpiry k _ | .portEnable k _ _ _ | .portDisable k _ _ _
  | .forcedown k _ _ _ | .wake k _ _ _ | .discard k _ _ _ | .ntEpochWrite k _ _ | .callerRun k _ _ _ | .callerStop k _ _ _ | .halt k _ _ _
  | .reset k _ _ _ | .callerRetest k _ _ _ | .callerRetire k _ _ _ | .callerRetestComplete k _ _ | .evDoorbellWrite k _ _ | .kick k _ | .ringPoll k _
  | .recordReadComplete k _ _ | .ringIdleSleep k _ _ | .run k _ | .copyin k _ _ | .copyout k _ _ | .load k _ _ | .nop k _ _ | .copySlotGrant k
  | .copyPartComplete k _ _ | .ringInjection k _ _ | .completionToken k _ _ | .completionWrite k _ _ | .ringEnable k _ _ _ | .ringDisable k _ _ _
  | .abort k _ _ _ | .ringDrained k _ | .completionRingEnable k _ _ _ | .hostWindowAccess k _ | .hostReadCompletion k _ _ _ _
  | .hostCompletionTimeout k _ | .hwtdataWrite k _ _ | .hwtdataRead k _ | .hwctlEnable k _ _ | .sync k _ _ | .invall k _ _ | .c1Entry k | .c2Entry k
  | .c3Entry k | .setPark k _ | .channelWake k | .pwrEnd k _ | .clkgate k _ | .clkungate k _ | .isoon k _ | .isooff k _ | .rston k _ | .rstoff k _
  | .swoff k _ | .swon k _ | .reton k _ | .retoff k _ | .pwrDrain k _ | .save k _ | .restore k _ | .selfref k _ | .srexit k _ | .pwrWait k _
  | .enterC4 k _ _ | .setReady k _ _ | .clearReady k _ _ | .wakeToC0 k _ _ | .channelReset k _ _ | .operatingPointSwitch k | .waitTimeLimit k _
  | .callerResultArrival k _ | .programStoreClearComplete k | .shuffleCopyComplete k _ | .rebuildComplete k _ | .callerStandInComplete k _ _
  | .reservedFrameReceive k _ _ _ _ | .gddr7PowerDown k | .baddesc k _ _ => some k
  | .doorbellMessage (.chan k)  | .eventSelection (.chan k)  | .deliveryLanding (.chan k)  | .moderationHoldExpiry (.chan k) _
  | .evSrcClear (.chan k) _ _ _ => some k
  | .msixMaskClear fn _ _ | .functionLevelReset fn | .registerReadClear fn _ _ _ | .registerWrite fn _ _ _ _ => fnChannel fn
  | .doorbellMessage .dev  | .eventSelection .dev  | .deliveryLanding .dev  | .moderationHoldExpiry .dev _ | .evSrcClear .dev _ _ _
  | .deDoorbellWrite _ _ | .gpioEdge _ _ | .powerLimiter _ | .thermalSample _ | .clk32kLoss | .clk32kRestore | .railAlarm _ | .porN _ | .perstN
  | .trstN | .agingMeasurement _ _ | .ageAdjustment _ | .hourly _ | .ledgerRecordWrite _ | .sectorReclaim | .stage _ _ _ | .commit _ _ _
  | .activate _ _ | .updateAbort _ _ | .handOverTimeout _ | .getVersion _ | .getCapabilities _ | .negotiateAlgorithms _ | .getDigests _
  | .getCertificate _ _ _ _ | .challenge _ _ _ | .getMeasurements _ _ _ | .mctpRegisterRead _ | .mlLselWrite _ _ | .perstNRelease => none

/-! ## Firings of a duet -/

/-- Firing f of window w is the next that duet d of channel c executes: the firings before it have executed in both units, it has
not (R196, R199). -/
structure FiringAt (c : Chan) (d : Nat) (ws : List Win) (w : Win) (fs : List Firing) (f : Firing) (gs : List Firing)
    (vs : List Win) : Prop where
  wins : (c.duet d).wins = ws ++ w :: vs
  firings : w.firings = fs ++ f :: gs
  before : ∀ v ∈ ws, ∀ g ∈ v.firings, g.lead.isSome = true
  first : ∀ g ∈ fs, g.lead.isSome = true
  due : f.lead = none

/-- Firing f after both units have executed it, the Lead on its own sample and the Follow on the one the delay line brought (R196,
R219): v says what the instruction computes from what a unit sees. -/
def ranFiring (c : Chan) (w : Win) (f : Firing) (rnd : Word) (v : In → Val) : Firing :=
  { f with lead := some ((firingIn c f w.sl rnd).toRes (v (firingIn c f w.sl rnd))),
           follow := some ((firingIn c f w.sf rnd).toRes (v (firingIn c f w.sf rnd))) }

/-- Channel c with g in the place of the firing that FiringAt names, and nothing else changed. -/
def firedChan (c : Chan) (d : Nat) (ws : List Win) (w : Win) (fs : List Firing) (g : Firing) (gs : List Firing)
    (vs : List Win) : Chan :=
  c.setDuet d { c.duet d with wins := ws ++ { w with firings := fs ++ g :: gs } :: vs }

/-- A command that executes an instruction: the command in a duet and, where the instruction has a sequential form, in a caller, the
instruction, and what its rule computes. -/
structure FireRow where
  cmd : Ch → DuetId → Instr
  seq : Option (Ch → CallerId → Instr)
  op : Op
  v : In → Val

/-- A row of an instruction of both modes, and one of an instruction of firings only. -/
def inBoth (c : Ch → Exe → Instr) (op : Op) (v : In → Val) : FireRow :=
  ⟨fun k d => c k (.duet d), some (fun k n => c k (.caller n)), op, v⟩
def inDuet (c : Ch → DuetId → Instr) (op : Op) (v : In → Val) : FireRow := ⟨c, none, op, v⟩

/-- The command executes the duet's next firing by the rule of its row: the commit-buffer entries, flags, cause and effects of the
firing are those the rule gives for each unit, and nothing else of the device changes. -/
def FireRow.holds (r : FireRow) : Prop :=
  ∀ (s : State) (k : Ch) (d : DuetId) (ws : List Win) (w : Win) (fs : List Firing) (f : Firing) (gs : List Firing) (vs : List Win),
    FiringAt (s.chan k.val) d.val ws w fs f gs vs → isOp r.op f.pkt.instr = true →
    exec (r.cmd k d) s
      = .next (s.setChan k.val (firedChan (s.chan k.val) d.val ws w fs (ranFiring (s.chan k.val) w f 0 r.v) gs vs))

/-! ## Tokens at their home tile -/

/-- The row of a token's key (R162). -/
def keyRow (tok : Token) : Nat := homeRow (tagCtx tok.tag) (tagIp tok.tag)

/-- Entry e, holding x, is the earliest WAIT entry of the token's key that lacks its PORT (R167). -/
def HasKey (c : Chan) (t : Nat) (tok : Token) (e : Nat) (x : MEntry) : Prop :=
  c.candidate t (keyRow tok) (tagCtx tok.tag) (tagIp tok.tag) (tagPort tok.tag) = some (e, x)

/-- No entry takes the token, no record of its key may be spilled, and the key takes way and xway of its row (R167 to R169). -/
structure NewKey (c : Chan) (t : Nat) (tok : Token) (w : Word) (way xway : Nat) : Prop where
  none : c.candidate t (keyRow tok) (tagCtx tok.tag) (tagIp tok.tag) (tagPort tok.tag) = none
  unspilled : c.maySpill t (tagCtx tok.tag) (tagIp tok.tag) = false
  ways : c.keyWays t (keyRow tok) (needPorts w) (c.ctx (tagCtx tok.tag)).elder = some (way, xway)

/-- Entry e of the tile has the token's operand in the place of its PORT: PORT 2 is held by the extension entry (R165, R166). -/
def HoldsOperand (d : Chan) (t e : Nat) (y : MEntry) (tok : Token) : Prop :=
  (tagPort tok.tag = 0 → y.val0 = tok.val ∧ y.sb0 = sbClean tok.sb)
  ∧ (tagPort tok.tag = 1 → y.val1 = tok.val ∧ y.sb1 = sbClean tok.sb)
  ∧ (tagPort tok.tag = 2 → ∀ z, d.entry t (entryNo (e / 24) y.xway.toNat) = some z → z.val0 = tok.val ∧ z.sb0 = sbClean tok.sb)

/-- A matched firing stands at entry e: its packet is in the ready queue of its priority, or the ready stage holds it (R172, R180, R181). -/
def ReadyAt (c d : Chan) (t e : Nat) (w : Word) : Prop :=
  ∃ y, d.entry t e = some y ∧ y.st = .matched ∧ y.got = y.need
    ∧ (c.qRoom (8 * t + y.pmin.toNat) = true →
        (d.qptr (8 * t + y.pmin.toNat)).unread = (c.qptr (8 * t + y.pmin.toNat)).unread + c.qUnit (8 * t + y.pmin.toNat))
    ∧ (c.qRoom (8 * t + y.pmin.toNat) = false → (d.tile t).held = some { pkt := packetOf w y e, passed := true })

/-- A context whose firings become ready as they match: it is LIVE, in a class of KIND 0 (R246). -/
def readyCtx (c : Chan) (tok : Token) : Bool := c.live (tagCtx tok.tag) && c.flowKind (tagCtx tok.tag) == 0

/-- What the row compare makes of a token in channel c, as channel d: the operand goes into the entry that waits for it, or into a new entry
with the ports that the word needs; a key that is complete is matched (R166 to R168, R172). -/
def Rowed (c d : Chan) (t : Nat) (tok : Token) (w : Word) : Prop :=
  (∀ e x, HasKey c t tok e x → x.got ||| BitVec.ofNat 4 (2 ^ tagPort tok.tag) ≠ x.need →
    ∃ y, d.entry t e = some y ∧ y.got = x.got ||| BitVec.ofNat 4 (2 ^ tagPort tok.tag) ∧ y.need = x.need ∧ y.ctx = x.ctx ∧ y.ip = x.ip
      ∧ y.st = x.st ∧ y.xway = x.xway ∧ y.pmin = minPrio x.pmin (BitVec.ofNat 3 (tagPrio tok.tag))
      ∧ (entryNo (e / 24) x.xway.toNat ≠ e → HoldsOperand d t e y tok)
      ∧ ∀ i, i < 1536 → e < 1536 → i ≠ e → i ≠ entryNo (e / 24) x.xway.toNat → d.entry t i = c.entry t i)
  ∧ (∀ e x, HasKey c t tok e x → x.got ||| BitVec.ofNat 4 (2 ^ tagPort tok.tag) = x.need → c.stageBusy t = false →
      readyCtx c tok = true → entryNo (e / 24) x.xway.toNat ≠ e → ReadyAt c d t e w)
  ∧ (∀ way xway, NewKey c t tok w way xway → needPorts w ≠ 2 ^ tagPort tok.tag →
    ∃ y, d.entry t (entryNo (keyRow tok) way) = some y ∧ y.ctx = BitVec.ofNat 24 (tagCtx tok.tag) ∧ y.ip = BitVec.ofNat 16 (tagIp tok.tag)
      ∧ y.need = BitVec.ofNat 4 (needPorts w) ∧ y.got = BitVec.ofNat 4 (2 ^ tagPort tok.tag) ∧ y.st = .wait
      ∧ y.xway = BitVec.ofNat 5 xway ∧ y.at_ = c.xclk ∧ y.born = c.ms.births ∧ d.ms.births = c.ms.births + 1
      ∧ y.pmin = BitVec.ofNat 3 (tagPrio tok.tag) ∧ HoldsOperand d t (entryNo (keyRow tok) way) y tok
      ∧ ∀ i, i < 1536 → i ≠ entryNo (keyRow tok) way → i ≠ entryNo (keyRow tok) xway → d.entry t i = c.entry t i)
  ∧ (∀ way xway, NewKey c t tok w way xway → needPorts w = 2 ^ tagPort tok.tag → c.stageBusy t = false → readyCtx c tok = true →
      ReadyAt c d t (entryNo (keyRow tok) way) w)

/-- What becomes of a token in channel c, as channel d, when its context's state is st (R70, R83, R88, R168 to R171, R189, R302): again for
a token that comes from the miss buffer. -/
structure Judged (st : CtxSt) (c d : Chan) (t : Nat) (tok : Token) (w : Word) (again : Bool) (errs : LineErrs) : Prop where
  dead : st = .free ∨ st = .dead → d = c.stray F.chTokstatDeadctx tok
  poisoned : st = .poisoned → d = c.stray F.chTokstatPoisonctx tok
  denied : st = .live → 0xE000 ≤ tagIp tok.tag → (c.ctx (tagCtx tok.tag)).supv = false →
    d = c.cause c.xclk (tagCtx tok.tag) 0x23 (tagIp tok.tag) 0
  port : st = .live → (tagIp tok.tag < 0xE000 ∨ (c.ctx (tagCtx tok.tag)).supv = true) → portConsumed w (tagPort tok.tag) = false →
    d = (c.inc F.msFirestatPorterr).cause c.xclk (tagCtx tok.tag) 0x20 (tagIp tok.tag) (portDetail w)
  evicted : st = .live → (tagIp tok.tag < 0xE000 ∨ (c.ctx (tagCtx tok.tag)).supv = true) → portConsumed w (tagPort tok.tag) = true →
    c.evicting t (tagCtx tok.tag) (tagIp tok.tag) = true → (c.tile t).miss.length < 8 →
    (d.tile t).miss = (c.tile t).miss ++ [⟨tok, w, .eviction⟩]
  borrowed : st = .live → (tagIp tok.tag < 0xE000 ∨ (c.ctx (tagCtx tok.tag)).supv = true) → portConsumed w (tagPort tok.tag) = true →
    c.evicting t (tagCtx tok.tag) (tagIp tok.tag) = false → again = false → c.rowBorrowed t (keyRow tok) = true →
    (c.tile t).miss.length < 8 → (d.tile t).miss = (c.tile t).miss ++ [⟨tok, w, .shuffle⟩]
  rowed : st = .live → (tagIp tok.tag < 0xE000 ∨ (c.ctx (tagCtx tok.tag)).supv = true) → portConsumed w (tagPort tok.tag) = true →
    c.evicting t (tagCtx tok.tag) (tagIp tok.tag) = false → (again = true ∨ c.rowBorrowed t (keyRow tok) = false) →
    Rowed c d t tok w
    ∧ (c.candidate t (keyRow tok) (tagCtx tok.tag) (tagIp tok.tag) (tagPort tok.tag) = none →
        (c.maySpill t (tagCtx tok.tag) (tagIp tok.tag) = true → c.ms.cutq.length < 32 → d.ms.cutq = c.ms.cutq ++ [⟨t, tok, w⟩])
        ∧ (c.maySpill t (tagCtx tok.tag) (tagIp tok.tag) = false →
            c.keyWays t (keyRow tok) (needPorts w) (c.ctx (tagCtx tok.tag)).elder = none → (c.tile t).defer.length < 4 →
            d = c.deferTok c.xclk t tok w errs))

/-- An address of the scratchpad or of GDDR7, and not one of the model's cells between them. -/
def inRam (a : Nat) : Prop := a < scratchSize ∨ dramBase ≤ a

/-- A token of the channel's own stands at the L port of the context unit's tile, or in its buffer (R683). -/
def Chan.selfSent (c : Chan) (t : Token) : Prop :=
  ∃ p ∈ c.offer (bufKey tileCtx 4 0) true ++ c.buf (bufKey tileCtx 4 0), p.pay = .tok t

/-- The entries of a firing in the order in which they stand in a commit buffer: its tokens and requests, then its effect entry (R204). -/
def Res.allEnts (r : Res) : List Ent := r.ents ++ (if r.hasEff then [.eff] else [])

/-- The grant that a request receives with an identifier (R108, R295): a LOOPIN's holds a loop entry as well. -/
def Chan.grantOf (c : Chan) (q : Ask) (id : Nat) : Grant :=
  { id := BitVec.ofNat 24 id, loop := if q.loop then c.freeLoop else none, weight := q.weight }

/-! ## What the instructions compute -/

/-- A consumed operand is poisoned (R49). -/
def In.anyPoison (x : In) : Bool := sbPoison x.l.sb || sbPoison x.r.sb || sbPoison x.t.sb

/-- A result of TYPE ty to both destinations, poisoned when an operand is, with flags (R49, R91). -/
def In.gives (x : In) (ty : Nat) (v : Word) (fl : BitVec 8) : Val :=
  { r0 := some ⟨v, mkSb ty x.anyPoison⟩, r1 := some ⟨v, mkSb ty x.anyPoison⟩, f0 := fl }

/-- An operand passed to both destinations with its TYPE and POISON (R98). -/
def passOn (o : Opd) : Val := { r0 := some ⟨o.val, sbClean o.sb⟩, r1 := some ⟨o.val, sbClean o.sb⟩ }

/-- Cause 0x21 when the controlling operand o is poisoned (R49), else v. -/
def guarded (o : Opd) (v : Val) : Val := if sbPoison o.sb then { cause := some (0x21, 0) } else v

/-- Leading zeros, trailing zeros and ones of a word (R93). -/
def leadZeros (l : Word) : Nat := (List.range 64).countP (fun i => decide (l.toNat < 2 ^ i))
def trailZeros (l : Word) : Nat := (List.range 64).countP (fun i => decide (l.toNat % 2 ^ (i + 1) = 0))
def oneBits (l : Word) : Nat := (List.range 64).countP (fun i => l.getLsbD i)

/-- The condition of a code on L and Rt (R94). -/
def condHolds (cc : Nat) (l r : Word) : Bool :=
  if cc = 0 then l == r else if cc = 1 then l != r else if cc = 2 then l.slt r else if cc = 3 then r.sle l
  else if cc = 4 then l.ult r else if cc = 5 then r.ule l else if cc = 6 then r.slt l else if cc = 7 then l.sle r
  else if cc = 8 then r.ult l else if cc = 9 then l.ule r else false

/-- The integer instructions (R91, R93, R94, R127 to R131). -/
def intRows : List FireRow := [
  inBoth .add .add (fun x => x.gives 0 (x.l.val + x.r.val) (flIf (x.l.val.saddOverflow x.r.val) flIOV)),
  inBoth .sub .sub (fun x => x.gives 0 (x.l.val - x.r.val) (flIf (x.l.val.ssubOverflow x.r.val) flIOV)),
  inBoth .mul .mul (fun x => x.gives 0 (x.l.val * x.r.val) (flIf (x.l.val.smulOverflow x.r.val) flIOV)),
  inBoth .mulh .mulh (fun x =>
    x.gives 0 ((x.l.val.signExtend 128 * x.r.val.signExtend 128).extractLsb' 64 64) 0),
  inBoth .mulhu .mulhu (fun x =>
    x.gives 1 ((x.l.val.zeroExtend 128 * x.r.val.zeroExtend 128).extractLsb' 64 64) 0),
  inBoth .div .div (fun x =>
    if x.r.val = 0 then x.gives 0 (BitVec.allOnes 64) flIDZ
    else x.gives 0 (x.l.val.sdiv x.r.val) (flIf (x.l.val == BitVec.intMin 64 && x.r.val == BitVec.allOnes 64) flIOV)),
  inBoth .divu .divu (fun x =>
    if x.r.val = 0 then x.gives 1 (BitVec.allOnes 64) flIDZ else x.gives 1 (x.l.val / x.r.val) 0),
  inBoth .rem .rem (fun x =>
    if x.r.val = 0 then x.gives 0 x.l.val flIDZ else x.gives 0 (x.l.val.srem x.r.val) 0),
  inBoth .remu .remu (fun x =>
    if x.r.val = 0 then x.gives 1 x.l.val flIDZ else x.gives 1 (x.l.val % x.r.val) 0),
  inBoth .min .min (fun x => x.gives 0 (if x.l.val.sle x.r.val then x.l.val else x.r.val) 0),
  inBoth .max .max (fun x => x.gives 0 (if x.l.val.sle x.r.val then x.r.val else x.l.val) 0),
  inBoth .abs .abs (fun x =>
    x.gives 0 (if x.l.val.slt 0 then -x.l.val else x.l.val) (flIf (x.l.val == BitVec.intMin 64) flIOV)),
  inBoth .neg .neg (fun x => x.gives 0 (-x.l.val) (flIf (x.l.val == BitVec.intMin 64) flIOV)),
  inBoth .sel .sel (fun x => guarded x.l
    (let o := if x.l.val ≠ 0 then x.r else x.t
     { r0 := some ⟨o.val, mkSb (sbType o.sb) (sbPoison x.r.sb || sbPoison x.t.sb)⟩,
       r1 := some ⟨o.val, mkSb (sbType o.sb) (sbPoison x.r.sb || sbPoison x.t.sb)⟩ })),
  inBoth .and .and (fun x => x.gives 6 (x.l.val &&& x.r.val) 0),
  inBoth .or .or (fun x => x.gives 6 (x.l.val ||| x.r.val) 0),
  inBoth .xor .xor (fun x => x.gives 6 (x.l.val ^^^ x.r.val) 0),
  inBoth .andn .andn (fun x => x.gives 6 (x.l.val &&& ~~~x.r.val) 0),
  inBoth .shl .shl (fun x => x.gives 6 (x.l.val <<< (x.r.val.toNat % 64)) 0),
  inBoth .shr .shr (fun x => x.gives 6 (x.l.val >>> (x.r.val.toNat % 64)) 0),
  inBoth .sar .sar (fun x => x.gives 0 (x.l.val.sshiftRight (x.r.val.toNat % 64)) 0),
  inBoth .rot .rot (fun x => x.gives 6 (x.l.val.rotateLeft (x.r.val.toNat % 64)) 0),
  inBoth .clz .clz (fun x => x.gives 1 (BitVec.ofNat 64 (leadZeros x.l.val)) 0),
  inBoth .ctz .ctz (fun x => x.gives 1 (BitVec.ofNat 64 (trailZeros x.l.val)) 0),
  inBoth .popc .popc (fun x => x.gives 1 (BitVec.ofNat 64 (oneBits x.l.val)) 0),
  inBoth .cmpCc .cmpCc (fun x => x.gives 1 (if condHolds (iOp x.w % 16) x.l.val x.r.val then 1 else 0) 0)]

/-- A result of two lanes or parts, TYPE ty, with the flags of each (R95, R146, R147). -/
def In.lanes (x : In) (ty : Nat) (a b : Fl Nat) : Val :=
  { r0 := some ⟨pair32 a.val b.val, mkSb ty x.anyPoison⟩, r1 := some ⟨pair32 a.val b.val, mkSb ty x.anyPoison⟩,
    f0 := a.flags, f1 := b.flags }

/-- A binary64 operation for OP 0x3n, the same binary32 operation on each lane for OP 0x4n (R95, R146). -/
def In.fpGives (x : In) (g : Fmt → Nat → Nat → Nat → Fl Nat) : Val :=
  if iOp x.w / 16 = 3 then
    x.gives 3 (BitVec.ofNat 64 (g b64 x.l.val.toNat x.r.val.toNat x.t.val.toNat).val)
      (g b64 x.l.val.toNat x.r.val.toNat x.t.val.toNat).flags
  else x.lanes 4 (g b32 (lo32 x.l.val) (lo32 x.r.val) (lo32 x.t.val)) (g b32 (hi32 x.l.val) (hi32 x.r.val) (hi32 x.t.val))

/-- The floating-point instructions (R95 to R97, R132 to R147). -/
def fpRows : List FireRow := [
  inBoth .fadd .fadd (fun x => x.fpGives (fun f a b _ => fpAdd f x.rm a b)),
  inBoth .fsub .fsub (fun x => x.fpGives (fun f a b _ => fpSub f x.rm a b)),
  inBoth .fmul .fmul (fun x => x.fpGives (fun f a b _ => fpMul f x.rm a b)),
  inBoth .fdiv .fdiv (fun x => x.fpGives (fun f a b _ => fpDiv f x.rm a b)),
  inBoth .fsqrt .fsqrt (fun x => x.fpGives (fun f a _ _ => fpSqrt f x.rm a)),
  inBoth .fma .fma (fun x => x.fpGives (fun f a b t => fpFma f x.rm a b t)),
  inBoth .fmin .fmin (fun x => x.fpGives (fun f a b _ => fpMinMax f false a b)),
  inBoth .fmax .fmax (fun x => x.fpGives (fun f a b _ => fpMinMax f true a b)),
  inBoth .fcvt .fcvt (fun x =>
    if iOp x.w / 16 = 3 then
      let y := if iImm x.w % 4 = 0 then fpFromInt b64 x.rm x.l.val.toInt
        else if iImm x.w % 4 = 1 then fpFromInt b64 x.rm x.l.val.toNat else fpConv b32 b64 x.rm (lo32 x.l.val)
      x.gives 3 (BitVec.ofNat 64 y.val) y.flags
    else if iImm x.w % 4 = 0 then
      x.lanes 4 (fpFromInt b32 x.rm (BitVec.ofNat 32 (lo32 x.l.val)).toInt) (fpFromInt b32 x.rm (BitVec.ofNat 32 (hi32 x.l.val)).toInt)
    else if iImm x.w % 4 = 1 then x.lanes 4 (fpFromInt b32 x.rm (lo32 x.l.val)) (fpFromInt b32 x.rm (hi32 x.l.val))
    else x.lanes 4 (fpConv b64 b32 x.rm x.l.val.toNat) ⟨0, 0⟩),
  inBoth .icvt .icvt (fun x =>
    let uns := (iImm x.w).testBit 0
    let rm := if (iImm x.w).testBit 1 then 1 else x.rm
    if iOp x.w / 16 = 3 then
      let y := fpToInt b64 rm 64 uns x.l.val.toNat
      x.gives (if uns then 1 else 0) (BitVec.ofNat 64 y.val) y.flags
    else x.lanes 2 (fpToInt b32 rm 32 uns (lo32 x.l.val)) (fpToInt b32 rm 32 uns (hi32 x.l.val))),
  inBoth .faddC .faddC (fun x =>
    x.lanes 5 (fpAdd b32 x.rm (lo32 x.l.val) (lo32 x.r.val)) (fpAdd b32 x.rm (hi32 x.l.val) (hi32 x.r.val))),
  inBoth .fsubC .fsubC (fun x =>
    x.lanes 5 (fpSub b32 x.rm (lo32 x.l.val) (lo32 x.r.val)) (fpSub b32 x.rm (hi32 x.l.val) (hi32 x.r.val))),
  inBoth .cmulC .cmulC (fun x =>
    x.lanes 5 (fpSum b32 x.rm (prodRe x.l.val x.r.val)) (fpSum b32 x.rm (prodIm x.l.val x.r.val))),
  inBoth .cmacC .cmacC (fun x =>
    x.lanes 5 (fpSum b32 x.rm ((fpDec b32 (lo32 x.t.val)).term :: prodRe x.l.val x.r.val))
      (fpSum b32 x.rm ((fpDec b32 (hi32 x.t.val)).term :: prodIm x.l.val x.r.val))),
  inBoth .fcmpCc .fcmpCc (fun x =>
    if iOp x.w < 0x68 then
      let y := fpCond b64 (iOp x.w % 8) x.l.val.toNat x.r.val.toNat
      x.gives 1 (if y.val then 1 else 0) y.flags
    else
      let a := fpCond b32 (iOp x.w % 8) (lo32 x.l.val) (lo32 x.r.val)
      let b := fpCond b32 (iOp x.w % 8) (hi32 x.l.val) (hi32 x.r.val)
      x.lanes 2 ⟨if a.val then 1 else 0, a.flags⟩ ⟨if b.val then 1 else 0, b.flags⟩)]

/-- A token to a tag held by the firing, its PRIO raised to PRIOCAP (R43). -/
def In.sends (x : In) (v : Word) (sb : BitVec 8) (tag : Word) : Token := ⟨sb, v, raisePrio x.cr.priocap.toNat tag⟩

/-- The token of destination field dest in context ctx, none where the field names none (R79, R84). -/
def In.sendsDest (x : In) (o : Opd) (dest ctx : Nat) : List Token :=
  if dest = 0x3FFFF then [] else [⟨sbClean o.sb, o.val, x.outTag dest ctx⟩]

/-- A cause and nothing else. -/
def raises (cause : Nat) (detail : Nat) : Val := { cause := some (cause, BitVec.ofNat 32 detail) }

/-- R105: what a tag is refused for, judged as it was received; strict for SEND and for RETURN of ARITY 1. -/
def tagJudged (x : In) (strict : Bool) (tag : Word) (v : Val) : Val :=
  if tagKind tag = 3 ∧ x.supv = false then raises 0x24 (tagCtx tag)
  else if 4 ≤ tagKind tag ∨ (tagKind tag = 2 ∧ 128 ≤ tagIp tag) ∨ (strict = true ∧ tagKind tag ≠ 0) then
    raises 0x26 ((tagIp tag) * 2 ^ 16 + tagKind tag)
  else v

/-- The steering instructions (R98 to R100, R102 to R105, R118, R122). -/
def steerRows : List FireRow := [
  inBoth .copy .copy (fun x => passOn x.l),
  inDuet .fan .fan (fun x =>
    let ws := (List.range (iImm x.w % 8)).map (fun i => x.c.instr (x.ip + 1 + i))
    if ws.all (fun w => iOp w == 0xF0 && iMode w == 0 && iImm w == 0) then
      { passOn x.l with more := ws.flatMap (fun w => [(iDest0 w, x.l.pass), (iDest1 w, x.l.pass)]) }
    else raises 0x20 (7 * 2 ^ 24 + iOp x.w * 2 ^ 8 + iMode x.w)),
  inDuet .switch .switch (fun x => guarded x.r
    (if x.r.val ≠ 0 then { r0 := some x.l.pass } else { r1 := some x.l.pass })),
  inDuet .gate .gate (fun x => guarded x.r
    (if (x.r.val ≠ 0) = (iImm x.w % 2 = 0) then passOn x.l else {})),
  inDuet .sink .sink (fun _ => {}),
  inBoth .retag .retag (fun x => guarded x.r
    (if iImm x.w % 2 = 0 ∨ x.seq = true then tagJudged x false x.r.val { toks := [x.sends x.l.val (sbClean x.l.sb) x.r.val] }
     else { toks := x.sendsDest x.l (iDest0 x.w) (x.r.val.toNat % 2 ^ 24) ++ x.sendsDest x.l (iDest1 x.w) (x.r.val.toNat % 2 ^ 24) })),
  inBoth .send .send (fun x => guarded x.r (tagJudged x true x.r.val
    (if x.seq then { toks := [x.sends x.l.val (sbClean x.l.sb) x.r.val] }
     else { toks := [x.sends x.l.val (sbClean x.l.sb) (setBits x.r.val 6 2 0),
                     x.sends (x.outTag (iDest0 x.w) x.ctx) (mkSb 6 (sbPoison x.l.sb)) (setBits x.r.val 6 2 1)] }))),
  inDuet .retn .retn (fun x =>
    if iArity x.w = 1 then
      tagJudged x true x.cr.retTag { toks := [x.sends x.l.val (sbClean x.l.sb) (setBits x.cr.retTag 0 3 0)] }
    else guarded x.r
      (tagJudged x false x.r.val { toks := [x.sends x.l.val (sbClean x.l.sb) (setBits x.r.val 0 3 0)] })),
  inBoth .exc .exc (fun x => raises (0x80 + iImm x.w % 128) x.l.val.toNat),
  inBoth .time .time (fun x => { r0 := some ⟨x.smp.time, mkSb 1 false⟩, r1 := some ⟨x.smp.time, mkSb 1 false⟩ }),
  inBoth .poll .poll (fun x =>
    let v := if iImm x.w = 0 then x.smp.p0 else if iImm x.w = 1 then x.smp.p1 else if iImm x.w = 2 then x.smp.p2 else x.smp.p3
    { r0 := some ⟨v, mkSb 1 false⟩, r1 := some ⟨v, mkSb 1 false⟩ })]

/-- The instructions whose effects take place when their window commits (R98, R101, R108 to R110, R113, R248, R252, R257, R258): what
they leave in the commit buffer. -/
def effectRows : List FireRow := [
  inBoth .ctxnew .ctxnew (fun x =>
    let ret := if x.seq || iArity x.w == 1 then x.l else x.r
    guarded ret (match x.grant with
      | none => {}
      | some g =>
        if x.seq then { r0 := some ⟨BitVec.ofNat 64 g.id.toNat, mkSb 1 false⟩, effs := [.ctxnew g x.l.val] }
        else if iArity x.w = 1 then
          { r0 := some ⟨BitVec.ofNat 64 g.id.toNat, mkSb 1 false⟩, r1 := some ⟨BitVec.ofNat 64 g.id.toNat, mkSb 1 false⟩,
            effs := [.ctxnew g x.l.val] }
        else { toks := x.sendsDest x.l (iDest0 x.w) g.id.toNat
                 ++ x.sendsDest ⟨BitVec.ofNat 64 g.id.toNat, mkSb 1 (sbPoison x.l.sb)⟩ (iDest1 x.w) x.ctx,
               effs := [.ctxnew g x.r.val] })),
  inDuet .ctxend .ctxend (fun x => if x.ctx = 0 then raises 0x24 0 else { effs := [.ctxend x.l.pass] }),
  inBoth .ctxkill .ctxkill (fun x =>
    guarded x.l { effs := [.kill (BitVec.ofNat 24 (x.l.val.toNat % 2 ^ 24)) (BitVec.ofNat 8 (iImm x.w))] }),
  inDuet .nextit .nextit (fun x => guarded x.l
    (match x.c.loop (wbits x.l.val 48 10) with
     | none => raises 0x25 (wbits x.l.val 48 10)
     | some l =>
       if l.closing = true ∨ wbits x.l.val 0 24 ≠ x.ctx ∨ l.newest.toNat ≠ x.ctx then raises 0x25 (wbits x.l.val 48 10)
       else match x.grant with
         | none => {}
         | some g => { passOn (loopHandle (wbits x.l.val 48 10) g.id) with effs := [.nextit g (wbits x.l.val 48 10)] })),
  inDuet .loopin .loopin (fun x => guarded x.l
    (match x.grant with
     | none => {}
     | some g => { passOn (loopHandle (g.loop.getD 0) g.id) with effs := [.loopin g x.l.val] })),
  inDuet .loopout .loopout (fun x => guarded x.r
    (match x.c.loop (wbits x.r.val 48 10) with
     | none => raises 0x25 (wbits x.r.val 48 10)
     | some l =>
       if l.closing = true ∨ wbits x.r.val 0 24 ≠ x.ctx then raises 0x25 (wbits x.r.val 48 10)
       else { effs := [.loopout (wbits x.r.val 48 10) (if iImm x.w % 2 = 1 then some x.l.pass else none)] })),
  inBoth .signal .signal (fun x =>
    { (if iArity x.w = 1 then passOn x.l else {}) with effs := [.signal (BitVec.ofNat 8 (iImm x.w))] }),
  inDuet .flowset .flowset (fun x => { passOn x.l with effs := [.flowset (BitVec.ofNat 6 (iImm x.w))] }),
  inDuet .soloIn .soloIn (fun x => guarded x.r (passOn x.l)),
  inDuet .soloOut .soloOut (fun x => guarded x.r { passOn x.l with effs := [.soloOut x.r.val] }),
  inDuet .promRel .promRel (fun x => { passOn x.l with effs := [.promRel] })]

/-- What a memory, atomic or lock instruction places (R49, R114, R115, R352): a request at L plus the sign-extended IMM. -/
def In.places (x : In) (ak : AccKind) (kind : ReqKind) (size ty : Nat) (d0 d1 : Opd) : Val :=
  guarded x.l (match x.c.accessCheck x.supv ak (x.l.val + immS x.w) size with
    | some (cause, detail) => { cause := some (cause, detail) }
    | none =>
      if (x.c.range (x.l.val + immS x.w).toNat = .prog ∨ x.c.range (x.l.val + immS x.w).toNat = .setup)
          ∧ (sbPoison d0.sb = true ∨ sbPoison d1.sb = true) then raises 0x21 0
      else { req := some { kind := if kind = .ld ∧ x.c.range (x.l.val + immS x.w).toNat = .lock then .ldLock else kind,
                           addr := BitVec.ofNat 40 (x.l.val + immS x.w).toNat, size := size, d0 := d0, d1 := d1,
                           ty := BitVec.ofNat 4 ty } })

/-- The memory, atomic and lock instructions (R114, R115, R148, R362, R372). -/
def memRows : List FireRow := [
  inBoth .ld .ld (fun x => x.places .load .ld (2 ^ (iOp x.w - 0x90)) (if iOp x.w = 0x93 then 6 else 1) {} {}),
  inBoth .ldQ .ldQ (fun x => x.places .load .ld 16 6 {} {}),
  inBoth .st .st (fun x => x.places .store .st (2 ^ (iOp x.w - 0x98)) 1 x.r {}),
  inBoth .stQ .stQ (fun x => x.places .store .st 16 1 x.r x.t),
  inBoth .cas .cas (fun x => x.places .atomic .cas 8 6 x.r x.t),
  inBoth .swap .swap (fun x => x.places .atomic .swap 8 6 x.r {}),
  inBoth .xadd .xadd (fun x => x.places .atomic .xadd 8 0 x.r {}),
  inBoth .accD .accD (fun x => x.places .atomic .acc 8 1 x.r {}),
  inBoth .acq .acq (fun x => x.places .lock .acq 8 1 {} {}),
  inBoth .tryacq .tryacq (fun x => x.places .lock .tryacq 8 1 {} {}),
  inBoth .rel .rel (fun x => x.places .lock .rel 8 1 {} {})]

/-- The queue instructions (R117): one request to the queue that IMM[9:0] names. -/
def queueRows : List FireRow := [
  inBoth .qpush .qpush (fun x =>
    { req := some { kind := .qpush (iImm x.w % 1024), d0 := ⟨x.l.val, sbClean x.l.sb⟩, ty := 1 } }),
  inBoth .qpop .qpop (fun x => { req := some { kind := .qpop (iImm x.w % 1024), ty := 1 } }),
  inBoth .qmark .qmark (fun x => { req := some { kind := .qmark (iImm x.w % 1024), ty := 1 } }),
  inBoth .qrewind .qrewind (fun x => { req := some { kind := .qrewind (iImm x.w % 1024), ty := 1 } }),
  inBoth .qrelease .qrelease (fun x => { req := some { kind := .qrelease (iImm x.w % 1024), ty := 1 } })]

/-! ## Instructions of a caller -/

/-- Caller n stands before a legal instruction of op that it may fetch, the registers srcs names have their values, and x is the
caller with a window that takes the instruction (R121, R202, R234, R473, R476). -/
structure CallerAt (dv : Dev) (c : Chan) (n : Nat) (op : Op) (srcs : List Nat) (x : Caller) : Prop where
  free : c.callerFree n srcs = true
  word : isSeqOp op (c.callerWord n) = true
  fetch : c.fetchDenied n = false
  window : c.callerWindow dv n (c.caller n) = some x

/-- As CallerAt, for an instruction that has a window of its own (R234). -/
structure CallerAlone (dv : Dev) (c : Chan) (n : Nat) (op : Op) (srcs : List Nat) (x : Caller) : Prop where
  free : c.callerFree n srcs = true
  word : isSeqOp op (c.callerWord n) = true
  fetch : c.fetchDenied n = false
  window : c.callerWindow dv n (c.caller n).boundary = some x

/-- What register i of a bank holds after results r0 to RD and r1 to RD2 of the active bank; w0 keeps 0 (R122, R475). -/
def regAfter (x : Caller) (w : Word) (r0 r1 : Option Opd) (fast : Bool) (i : Nat) : Reg :=
  if fast = x.fastBank ∧ i ≠ 0 ∧ i = iRd2 w ∧ r1.isSome = true then ((r1.getD {}).val, sbPoison (r1.getD {}).sb)
  else if fast = x.fastBank ∧ i ≠ 0 ∧ i = iRd w ∧ r0.isSome = true then ((r0.getD {}).val, sbPoison (r0.getD {}).sb)
  else x.bankReg fast i

/-- What the newest instruction of a caller has left in its window, as the Lead executed it. -/
def Caller.newest (y : Caller) : Option Res := ((y.wins.getLast?).bind (fun w => w.firings.getLast?)).bind (fun f => f.lead)

/-- Caller y is caller x after an instruction of word w with results r0 and r1, flags fl, and the next instruction at ip: the window
has one firing more, with tokens ts and effects es, and nothing but registers, IP, flags and the marks of outstanding requests has changed (R122,
R204, R473, R486). -/
structure SeqDone (x y : Caller) (w : Word) (r0 r1 : Option Opd) (fl : BitVec 8) (ip : Nat) (ts : List Token := []) (es : List Eff := []) :
    Prop where
  csrs : y.csrs = { x.csrs with ip := BitVec.ofNat 16 ip, fpcsr := x.csrs.fpcsr ||| fl.zeroExtend 18 }
  regs : ∀ fast i, y.bankReg fast i = regAfter x w r0 r1 fast i
  wins : y.wins.length = x.wins.length
  left : ∃ z, y.newest = some z ∧ z.ents = ts.map .tok ∧ z.effs = es
  reqs : y.reqs.map (fun (q : OutReq) => (q.id, q.rd, q.rd2)) = x.reqs.map (fun (q : OutReq) => (q.id, q.rd, q.rd2))
  rest : y.cb = x.cb ∧ y.exc = x.exc ∧ y.inbox = x.inbox ∧ y.wseq = x.wseq ∧ y.nextId = x.nextId ∧ y.phys = x.phys

/-- What caller n's next instruction sees in the Lead (R219). -/
def seqIn (dv : Dev) (c : Chan) (n : Nat) : In := callerIn c n 0 (Chan.callerSamples dv c n).1

/-- The command executes the caller's next instruction by the rule of its row, where the rule gives no request, no cause and no
trapped flag: RD and RD2 receive the results, FLAGS the flags, the window takes the tokens and effects, and IP goes on. -/
def FireRow.seqHolds (r : FireRow) : Prop :=
  ∀ cmd, r.seq = some cmd → ∀ (s : State) (k : Ch) (n : CallerId) (x : Caller),
    CallerAt s.dev (s.chan k.val) n.val r.op (srcRegs ((s.chan k.val).callerWord n.val)) x →
    (r.op = .ctxnew → ((s.chan k.val).caller n.val).grant.isSome = true) →
    ∀ v : Val, v = r.v (seqIn s.dev (s.chan k.val) n.val) → v.cause = none → v.req = none →
    trapCause ((v.f0 ||| v.f1) &&& (seqIn s.dev (s.chan k.val) n.val).cr.te) = none →
    ∃ y, exec (cmd k n) s = .next (s.setChan k.val ((s.chan k.val).setCaller n.val y))
      ∧ SeqDone x y ((s.chan k.val).callerWord n.val) v.r0 v.r1 (v.f0 ||| v.f1) (((s.chan k.val).caller n.val).csrs.ip.toNat + 1)
          v.toks v.effs
      ∧ y.st = x.st

/-- The request of caller n's instruction, numbered and marked with the caller (R124, R372, R477). -/
def seqReq (c : Chan) (n : Nat) (q : Req) : Req :=
  { q with reply := .regs n (c.caller n).gen (c.caller n).nextId, who := .caller n (c.caller n).gen, ip := (c.caller n).csrs.ip,
           supv := (c.caller n).priv }

/-- The command places the request of the caller's next instruction (R124, R235): a load leaves at once, any other request with
its window; RD waits for the result and IP goes on. -/
def FireRow.seqAsks (r : FireRow) : Prop :=
  ∀ cmd, r.seq = some cmd → ∀ (s : State) (k : Ch) (n : CallerId) (x : Caller),
    CallerAt s.dev (s.chan k.val) n.val r.op (srcRegs ((s.chan k.val).callerWord n.val)) x →
    ∀ v : Val, v = r.v (seqIn s.dev (s.chan k.val) n.val) → (s.chan k.val).waitsForCommit v = false →
    ∀ q, v.cause = none → v.req = some q →
    ∃ y, exec (cmd k n) s = .next (s.setChan k.val
        (if q.kind.early then
           ((s.chan k.val).setCaller n.val y).inject (unitAt tileCall)
             (((s.chan k.val).setCaller n.val y).reqPkt (seqReq (s.chan k.val) n.val q))
         else (s.chan k.val).setCaller n.val y))
      ∧ y.csrs.ip = BitVec.ofNat 16 (((s.chan k.val).caller n.val).csrs.ip.toNat + 1)
      ∧ y.nextId = x.nextId + 1
      ∧ y.reqs.map (fun (o : OutReq) => o.id) = x.reqs.map (fun (o : OutReq) => o.id) ++ [x.nextId]
      ∧ y.regBusy (iRd ((s.chan k.val).callerWord n.val)) = (iRd ((s.chan k.val).callerWord n.val) != 0)
      ∧ (∀ fast i, y.bankReg fast i = x.bankReg fast i)
      ∧ (q.kind.early = false → (y.wins.getLast?.map (fun w => w.firings.getLast?.map (fun f => f.lead.map (fun z => z.ents))))
            = some (some (some [.req (seqReq (s.chan k.val) n.val q)])))

/-- Caller y is caller x with an exception due: no register is written, and the window of the instructions before it closes; where Lead and
Follow hold the same registers, nothing else differs (R234, R481). -/
def Excepted (x y : Caller) (cause : Nat) (detail : BitVec 32) (eval : Word := 0) (fl : BitVec 8 := 0) : Prop :=
  ∃ ws, y = { x.except cause detail eval fl with wins := ws } ∧ ws.length = x.wins.length ∧ (x.follow = [] → ws = closeNewest x.wins)

/-- A cause or a trapped flag of the caller's next instruction becomes an exception due (R481). -/
def FireRow.seqStops (r : FireRow) : Prop :=
  ∀ cmd, r.seq = some cmd → ∀ (s : State) (k : Ch) (n : CallerId),
    (s.chan k.val).callerReady n.val = true → isSeqOp r.op ((s.chan k.val).callerWord n.val) = true →
    (s.chan k.val).fetchDenied n.val = false →
    ∀ v : Val, v = r.v (seqIn s.dev (s.chan k.val) n.val) → v.req = none →
    (∀ cause detail, v.cause = some (cause, detail) →
      ∃ y, Gives (cmd k n) s k ((s.chan k.val).setCaller n.val y) ∧ Excepted ((s.chan k.val).caller n.val) y cause detail)
    ∧ (∀ cause, v.cause = none → trapCause ((v.f0 ||| v.f1) &&& (seqIn s.dev (s.chan k.val) n.val).cr.te) = some cause →
      ∃ y, Gives (cmd k n) s k ((s.chan k.val).setCaller n.val y)
        ∧ Excepted ((s.chan k.val).caller n.val) y cause.toNat 0 (v.r0.getD {}).val (v.f0 ||| v.f1))

end Sys2Proof.Machine
end

