-- ==== Sys2Proof/Certificates/Slice0/Obligations.lean ====
section
/-! DEFINITION. The statements for the provers. -/

open Sys2Proof Sys2Proof.Machine

/-! ## The block -/

/-- A step with command c at the front of the queue is exec of c on the state with the queue's rest. -/
def Obligations.FrontOfQueue : Prop :=
  ∀ (c : Instr) (r : List Instr) (s : State), step { s with pending := c :: r } = exec c { s with pending := r }

/-- With no command waiting a step is one period of the device, of whose clocks each channel's XCLK is one: TIME goes on where an edge
of ACLK falls into the period, and the queue stays empty. That a step on an empty queue is such a period is the model's choice (log
entry 3). -/
def Obligations.EmptyQueueIsATick : Prop :=
  ∀ s : State, s.pending = [] → ∃ t, step s = .next t ∧ t.dev.xclk = s.dev.xclk + 1
    ∧ t.dev.time = s.dev.time + (if Config.aclkEdge s.dev.xclk then 1 else 0) ∧ t.pending = []

/-- Every well-formed command completes; an ill-formed one, whose operands lie outside their ranges (the model's own check), stops with
the fault illFormed and with nothing else. That a command whose condition does not hold completes and leaves the state is log entry 9.
-/
def Obligations.WellFormedCompletes : Prop :=
  ∀ (c : Instr) (s : State), (c.wf = true → ∃ t, exec c s = .next t) ∧ (c.wf = false → exec c s = .fault .illFormed)

/-! ## Firings of a duet -/

/-- The 26 integer instructions, in a firing: the result, its TYPE, POISON and flags of each, in the commit buffers of both units.
Commands that it concludes to answer a next state, on the conditions it states: add, sub, mul, mulh, mulhu, div, divu, rem, remu, min,
max, abs, neg, sel, and, or, xor, andn, shl, shr, sar, rot, clz, ctz, popc, cmpCc. -/
def Obligations.IntegerFirings : Prop := ∀ r ∈ intRows, r.holds

/-- The 15 floating-point instructions, in a firing, lane by lane. Commands that it concludes to answer a next state, on the conditions
it states: fadd, fsub, fmul, fdiv, fsqrt, fma, fmin, fmax, fcvt, icvt, faddC, fsubC, cmulC, cmacC, fcmpCc. -/
def Obligations.FloatFirings : Prop := ∀ r ∈ fpRows, r.holds

/-- COPY, FAN, SWITCH, GATE, SINK, RETAG, SEND, RETURN, EXC, TIME and POLL, in a firing. That EXC with a poisoned L raises its cause is
the model's choice (log entry 49), as are the words of a FAN that pass IP 0xFFFF. CTXNEW, CTXEND, CTXKILL, NEXTIT, LOOPIN, LOOPOUT,
SIGNAL, FLOWSET, SOLO.IN, SOLO.OUT and PROM.REL, in a firing: what the firing leaves for its commit. Commands that it concludes to
answer a next state, on the conditions it states: copy, fan, switch, gate, sink, retag, send, retn, exc, time, poll, ctxnew, ctxend,
ctxkill, nextit, loopin, loopout, signal, flowset, soloIn, soloOut, promRel. -/
def Obligations.SteeringFirings : Prop :=
  (∀ r ∈ steerRows, r.holds)
  ∧ (∀ r ∈ effectRows, r.holds)

/-- The memory, atomic, lock and queue instructions, in a firing: one request in the commit buffer, or the cause of a refused access.
RAND gives the word drawn as TYPE 6 to both destinations; a word that is illegal in a firing raises cause 0x20 with the reason in
DETAIL[31:24], OP in [15:8] and MODE in [3:0]. Commands that it concludes to answer a next state, on the conditions it states: ld, ldQ,
st, stQ, cas, swap, xadd, accD, acq, tryacq, rel, qpush, qpop, qmark, qrewind, qrelease, rand, illegalInstruction. -/
def Obligations.RequestFirings : Prop :=
  ((∀ r ∈ memRows, r.holds) ∧ ∀ r ∈ queueRows, r.holds)
  ∧ (∀ (s : State) (k : Ch) (d : DuetId) (ws : List Win) (w : Win) (fs : List Firing) (f : Firing) (gs : List Firing) (vs : List Win),
       FiringAt (s.chan k.val) d.val ws w fs f gs vs →
       (isOp .rand f.pkt.instr = true → ∀ v : Word, exec (.rand k (.duet d) v) s = .next (s.setChan k.val
         (firedChan (s.chan k.val) d.val ws w fs (ranFiring (s.chan k.val) w f v
           (fun _ => { r0 := some ⟨v, mkSb 6 false⟩, r1 := some ⟨v, mkSb 6 false⟩ })) gs vs)))
       ∧ (∀ reason, illegalFiring f.pkt.instr = some reason → exec (.illegalInstruction k (.duet d)) s = .next (s.setChan k.val
         (firedChan (s.chan k.val) d.val ws w fs (ranFiring (s.chan k.val) w f 0
           (fun x => raises 0x20 (reason * 2 ^ 24 + iOp x.w * 2 ^ 8 + iMode x.w))) gs vs))))

/-- What a firing leaves in a commit buffer. With a cause: the cause and nothing else. With a raised flag that TE enables: no entry and
no effect, the flags and the default result. Otherwise its entries begin with the tokens of DEST0 and DEST1, tagged as R84 says, and
its flags and effects stand beside them. -/
def Obligations.FiringLeaves : Prop :=
  ∀ (x : In) (v : Val),
    (∀ cause detail, v.cause = some (cause, detail) →
      (x.toRes v).ents = [] ∧ (x.toRes v).effs = [] ∧ (x.toRes v).flags0 = 0 ∧ (x.toRes v).flags1 = 0
        ∧ (x.toRes v).cause = some (BitVec.ofNat 8 cause, detail))
    ∧ (v.cause = none → (v.f0 ||| v.f1) &&& x.cr.te ≠ 0 →
      (x.toRes v).ents = [] ∧ (x.toRes v).effs = [] ∧ (x.toRes v).trap = true ∧ (x.toRes v).flags0 = v.f0 ∧ (x.toRes v).flags1 = v.f1
        ∧ (x.toRes v).cause = none ∧ ∀ o, v.r0 = some o → (x.toRes v).result = o.val ∧ (x.toRes v).rpoison = sbPoison o.sb)
    ∧ (v.cause = none → (v.f0 ||| v.f1) &&& x.cr.te = 0 →
      (x.toRes v).trap = false ∧ (x.toRes v).cause = none ∧ (x.toRes v).effs = v.effs ∧ (x.toRes v).flags0 = v.f0
        ∧ (x.toRes v).flags1 = v.f1
        ∧ ∀ o0 o1, v.r0 = some o0 → v.r1 = some o1 → iDest0 x.w ≠ 0x3FFFF → iDest1 x.w ≠ 0x3FFFF →
          ∃ rest, (x.toRes v).ents = .tok ⟨o0.sb, o0.val, raisePrio x.cr.priocap.toNat
              (mkTag x.c.devNo (iDest0 x.w / 4) x.ctx (iDest0 x.w % 4) x.prio 0)⟩
            :: .tok ⟨o1.sb, o1.val, raisePrio x.cr.priocap.toNat
              (mkTag x.c.devNo (iDest1 x.w / 4) x.ctx (iDest1 x.w % 4) x.prio 0)⟩ :: rest)

/-! ## Floating-point results -/

/-- A NaN that an operation delivers is the canonical quiet NaN of its format, for every sum, product, quotient, root and fused result.
FDIV of a finite nonzero number by a zero gives an infinity signed by the exclusive-or of the signs, and sets DZ; of an infinity by a
zero that signed infinity, and no flag; of a finite number by an infinity a signed zero, and no flag. An exact sum is delivered
exactly: where a nonzero finite number of the format is the sum of two finite operands, addition gives that number in every rounding
mode, and raises no flag. -/
def Obligations.FloatingPointRules : Prop :=
  (∀ f ∈ [b64, b32], ∀ (rm a b t : Nat), rm < 4 →
     ∀ r ∈ [fpAdd f rm a b, fpSub f rm a b, fpMul f rm a b, fpDiv f rm a b, fpSqrt f rm a, fpFma f rm a b t],
       (fpDec f r.val).isNaN = true → r.val = fpNaN f)
  ∧ (∀ f ∈ [b64, b32], ∀ (rm : Nat) (na nb : Bool) (m : Nat) (e : Int) (a : Nat), rm < 4 →
       (0 < m → fpDec f a = .fin na m e → fpDiv f rm a (fpSign f nb) = ⟨fpInf f (na != nb), flDZ⟩)
       ∧ (fpDec f a = .inf na → fpDiv f rm a (fpSign f nb) = ⟨fpInf f (na != nb), 0⟩)
       ∧ (fpDec f a = .fin na m e → fpDiv f rm a (fpInf f nb) = ⟨fpSign f (na != nb), 0⟩))
  ∧ (∀ f ∈ [b64, b32], ∀ (rm a b c : Nat) (na nb nc : Bool) (ma mb mc : Nat) (ea eb ec : Int), rm < 4 →
       c < 2 ^ (f.mb + f.eb + 1) → fpDec f a = .fin na ma ea → fpDec f b = .fin nb mb eb → fpDec f c = .fin nc mc ec → mc ≠ 0 →
       (if na then -(ma : ℚ) else ma) * (2 : ℚ) ^ ea + (if nb then -(mb : ℚ) else mb) * (2 : ℚ) ^ eb
         = (if nc then -(mc : ℚ) else mc) * (2 : ℚ) ^ ec →
       fpAdd f rm a b = ⟨c, 0⟩)

/-! ## Instructions of a caller -/

/-- The instructions of both modes, executed by a caller: RD and RD2 receive the results with POISON, FPCSR.FLAGS the flags, w0
discards, IP goes on by one, and every other register keeps its value. Commands that it concludes to answer a next state, on the
conditions it states: add, sub, mul, mulh, mulhu, div, divu, rem, remu, min, max, abs, neg, sel, and, or, xor, andn, shl, shr, sar,
rot, clz, ctz, popc, cmpCc, fadd, fsub, fmul, fdiv, fsqrt, fma, fmin, fmax, fcvt, icvt, faddC, fsubC, cmulC, cmacC, fcmpCc, copy,
retag, send, time, poll, ctxnew, ctxkill, signal. -/
def Obligations.SequentialResults : Prop :=
  ∀ r ∈ intRows ++ fpRows ++ steerRows ++ effectRows, r.seqHolds

/-- The memory, atomic, lock and queue instructions of a caller place their request, a load at once and any other with its window.
Commands that it concludes to answer a next state, on the conditions it states: ld, ldQ, st, stQ, cas, swap, xadd, accD, acq, tryacq,
rel, qpush, qpop, qmark, qrewind, qrelease. -/
def Obligations.SequentialRequests : Prop := ∀ r ∈ memRows ++ queueRows, r.seqAsks

/-- A cause or a trapped flag of a caller's instruction makes an exception due and writes no register; a word that is illegal in
sequential mode raises cause 0x20, and a fetch from the steward's region at user privilege cause 0x23. The reasons of an illegal
sequential word in DETAIL are log entry 20. Commands that it concludes to answer a next state, on the conditions it states: add, sub,
mul, div, divu, rem, remu, abs, neg, sel, fadd, fsub, fmul, fdiv, fsqrt, fma, fmin, fmax, fcvt, icvt, faddC, fsubC, cmulC, cmacC,
fcmpCc, retag, send, exc, ctxnew, ctxkill, ld, ldQ, st, stQ, cas, swap, xadd, accD, acq, tryacq, rel, illegalInstruction. -/
def Obligations.SequentialExceptions : Prop :=
  (∀ r ∈ intRows ++ fpRows ++ steerRows ++ effectRows ++ memRows ++ queueRows, r.seqStops)
  ∧ ∀ (s : State) (k : Ch) (n : CallerId), (s.chan k.val).callerReady n.val = true →
      (∀ reason, illegalSeq ((s.chan k.val).callerWord n.val) = some reason → (s.chan k.val).fetchDenied n.val = false →
        exec (.illegalInstruction k (.caller n)) s = .next (s.setChan k.val ((s.chan k.val).setCaller n.val
          (((s.chan k.val).caller n.val).except 0x20 (illegalDetail reason ((s.chan k.val).callerWord n.val))))))
      ∧ (isSeqOp .add ((s.chan k.val).callerWord n.val) = true → ((s.chan k.val).caller n.val).priv = false →
          0xE000 ≤ ((s.chan k.val).caller n.val).csrs.ip.toNat →
        exec (.add k (.caller n)) s = .next (s.setChan k.val ((s.chan k.val).setCaller n.val
          (((s.chan k.val).caller n.val).except 0x23 0))))

/-- BR.cc, JMP, CALL and RET: where the caller goes on, and IP + 1 in RD for CALL. RAND of a caller writes the word drawn to RD and
RD2. Commands that it concludes to answer a next state, on the conditions it states: brCc, jmp, call, ret, rand. -/
def Obligations.SequentialControl : Prop :=
  (∀ (s : State) (k : Ch) (n : CallerId) (x : Caller) (w : Word) (x0 : Caller),
     w = (s.chan k.val).callerWord n.val → x0 = (s.chan k.val).caller n.val →
     (CallerAt s.dev (s.chan k.val) n.val .brCc (srcRegs w) x → (x0.reg (iRs1 w)).2 = false →
       (iImmr w = false → (x0.reg (iRs2 w)).2 = false) →
       ∃ y, exec (.brCc k n) s = .next (s.setChan k.val ((s.chan k.val).setCaller n.val y)) ∧ y.st = x.st
         ∧ SeqDone x y w none none 0
             (if condHolds (iOp w % 16) (x0.reg (iRs1 w)).1 (if iImmr w then immS w else (x0.reg (iRs2 w)).1) then wbits w 18 16
              else x0.csrs.ip.toNat + 1))
     ∧ (CallerAt s.dev (s.chan k.val) n.val .jmp [] x →
       ∃ y, exec (.jmp k n) s = .next (s.setChan k.val ((s.chan k.val).setCaller n.val y)) ∧ y.st = x.st
         ∧ SeqDone x y w none none 0 (wbits w 18 16))
     ∧ (CallerAt s.dev (s.chan k.val) n.val .call [] x →
       ∃ y, exec (.call k n) s = .next (s.setChan k.val ((s.chan k.val).setCaller n.val y)) ∧ y.st = x.st
         ∧ SeqDone x y w (some ⟨BitVec.ofNat 64 ((x0.csrs.ip.toNat + 1) % 2 ^ 16), mkSb 1 false⟩) none 0 (wbits w 18 16))
     ∧ (CallerAt s.dev (s.chan k.val) n.val .ret (srcRegs w) x → (x0.reg (iRs1 w)).2 = false →
       ∃ y, exec (.ret k n) s = .next (s.setChan k.val ((s.chan k.val).setCaller n.val y)) ∧ y.st = x.st
         ∧ SeqDone x y w none none 0 ((x0.reg (iRs1 w)).1.toNat % 2 ^ 16)))
  ∧ (∀ (s : State) (k : Ch) (n : CallerId) (x : Caller) (v : Word),
       CallerAt s.dev (s.chan k.val) n.val .rand (srcRegs ((s.chan k.val).callerWord n.val)) x →
       ∃ y, exec (.rand k (.caller n) v) s = .next (s.setChan k.val ((s.chan k.val).setCaller n.val y)) ∧ y.st = x.st
         ∧ SeqDone x y ((s.chan k.val).callerWord n.val) (some ⟨v, mkSb 6 false⟩) (some ⟨v, mkSb 6 false⟩) 0
             (((s.chan k.val).caller n.val).csrs.ip.toNat + 1))

/-- WAIT, FENCE, CSRRD, CSRWR and RFE. WAIT goes on at once with IMM[1:0] 0 or with every request answered, and else makes the caller
wait. CSRRD delivers the CSR; CSRWR writes it, for the instruction after it. RFE sets IP to EPC, BANK to PBANK, PRIV to PPRIV and IE to
PIE. MODEL: which of its bits a CSR keeps of a write is log entry 23. What CSRWR leaves in each CSR of R486 and R517, and CSRRD reads
back. Commands that it concludes to answer a next state, on the conditions it states: wait, fence, csrrd, csrwr, rfe. -/
def Obligations.SequentialSystem : Prop :=
  (∀ (s : State) (k : Ch) (n : CallerId) (x : Caller) (w : Word) (x0 : Caller),
     w = (s.chan k.val).callerWord n.val → x0 = (s.chan k.val).caller n.val →
     (CallerAlone s.dev (s.chan k.val) n.val .wait (if (iImm w).testBit 1 then [iRs1 w] else []) x →
       ((iImm w).testBit 1 = true → (x0.reg (iRs1 w)).2 = false) →
       ∃ y, exec (.wait k n) s = .next (s.setChan k.val ((s.chan k.val).setCaller n.val y))
         ∧ SeqDone x y w none none 0 (x0.csrs.ip.toNat + 1)
         ∧ ((iImm w % 4 = 0 ∨ (iImm w % 2 = 1 ∧ x.reqs = [])) → y.st = x.st ∧ y.wait = x.wait)
         ∧ (¬(iImm w % 4 = 0 ∨ (iImm w % 2 = 1 ∧ x.reqs = [])) → y.st = .waiting ∧ y.wait.reqs = (iImm w % 2 == 1)
             ∧ y.wait.until_ = if (iImm w).testBit 1 = true ∧ (x0.reg (iRs1 w)).1 ≠ 0
                 then some ((s.chan k.val).cclk + (x0.reg (iRs1 w)).1.toNat) else none))
     ∧ (CallerAt s.dev (s.chan k.val) n.val .fence [] x → (∀ q ∈ x0.reqs, q.cls < 4 → (iImm w).testBit q.cls = false) →
       ∃ y, exec (.fence k n) s = .next (s.setChan k.val ((s.chan k.val).setCaller n.val y)) ∧ y.st = x.st
         ∧ SeqDone x y w none none 0 (x0.csrs.ip.toNat + 1))
     ∧ (CallerAt s.dev (s.chan k.val) n.val .csrrd [] x →
       (csrAccess x0.priv x0.fastBank (iImm w % 4096) = .ro ∨ csrAccess x0.priv x0.fastBank (iImm w % 4096) = .rw) →
       nregBusy x0 (iImm w % 4096) = false →
       ∃ y, exec (.csrrd k n) s = .next (s.setChan k.val ((s.chan k.val).setCaller n.val y)) ∧ y.st = x.st
         ∧ SeqDone x y w (some ⟨(csrRead n.val x0 (iImm w % 4096)).1, mkSb 1 (csrRead n.val x0 (iImm w % 4096)).2⟩) none 0
             (x0.csrs.ip.toNat + 1))
     ∧ (CallerAlone s.dev (s.chan k.val) n.val .csrwr (srcRegs w) x → csrAccess x0.priv x0.fastBank (iImm w % 4096) = .rw →
       ((x0.reg (iRs1 w)).2 = true → 0x100 ≤ iImm w % 4096) →
       ∃ y, exec (.csrwr k n) s
           = .next (s.setChan k.val ((s.chan k.val).setCaller n.val (csrWrite y (iImm w % 4096) (x0.reg (iRs1 w))).boundary))
         ∧ y.st = x.st ∧ SeqDone x y w none none 0 (x0.csrs.ip.toNat + 1))
     ∧ (CallerAlone s.dev (s.chan k.val) n.val .rfe [] x → x0.priv = true →
       ∃ y, exec (.rfe k n) s = .next (s.setChan k.val ((s.chan k.val).setCaller n.val y)) ∧ y.st = x.st
         ∧ y.csrs.ip = x.csrs.epc ∧ y.csrs.epc = x.csrs.epc
         ∧ y.csrs.status.getLsbD 4 = x.csrs.status.getLsbD 5 ∧ y.csrs.status.getLsbD 2 = x.csrs.status.getLsbD 3
         ∧ y.csrs.status.getLsbD 0 = x.csrs.status.getLsbD 1 ∧ ∀ fast i, y.bankReg fast i = x.bankReg fast i))
  ∧ (∀ (x : Caller) (n : Nat) (v : Word) (p : Bool),
       csrRead n (csrWrite x 0x000 (v, p)) 0x000 = (v &&& 0x3F, false) ∧ csrRead n (csrWrite x 0x001 (v, p)) 0x001 = (v &&& 0xFFFF, false)
       ∧ csrRead n (csrWrite x 0x002 (v, p)) 0x002 = (v, false) ∧ csrRead n (csrWrite x 0x003 (v, p)) 0x003 = (v, false)
       ∧ csrRead n (csrWrite x 0x004 (v, p)) 0x004 = (v &&& 0xFFFF, false) ∧ csrRead n (csrWrite x 0x005 (v, p)) 0x005 = (v &&& 0x37F7F, false)
       ∧ csrRead n (csrWrite x 0x006 (v, p)) 0x006 = (v, false) ∧ csrRead n (csrWrite x 0x007 (v, p)) 0x007 = (v, false)
       ∧ csrRead n (csrWrite x 0x040 (v, p)) 0x040 = (v &&& 3, false)
       ∧ ∀ i, i < 32 → csrRead n (csrWrite x (0x100 + i) (v, p)) (0x100 + i) = (if i = 0 then (0, false) else (v, p)))

/-- Exception entry outside a handler: EPC, ECAUSE and EVAL are saved, STATUS keeps BANK, PRIV and IE in its saved bits and takes 1, 1
and 0, and IP goes to VEC; in the fast bank the caller becomes FAULTED, keeps EPC, ECAUSE and EVAL, and raises source 24. An event
interrupt is taken at a boundary with IE 1 and no exception due, with cause 0x30 and the source in DETAIL[9:0]; a WAITEV takes the head
entry of the inbox into RD; a limit that has passed ends a WAIT, and asks a channel in C1 or C2 to wake (log entry 33); a result
reaches its register. Commands that it concludes to answer a next state, on the conditions it states: callerExceptionEntry,
eventInterrupt, waitev, waitTimeLimit, callerResultArrival. -/
def Obligations.CallerEntries : Prop :=
  (∀ (s : State) (k : Ch) (n : CallerId) (x : Caller) (e : PendExc) (r : List PendExc),
     x = (s.chan k.val).caller n.val → x.exc = e :: r → x.atBoundary = true →
     (x.fastBank = false →
       ∃ t y, exec (.callerExceptionEntry k n) s = .next t ∧ y = (t.chan k.val).caller n.val
         ∧ (t.chan k.val).fld F.ccCntExc = min (2 ^ F.ccCntExc.len - 1) ((s.chan k.val).fld F.ccCntExc + 1)
         ∧ y.st = .running ∧ y.csrs.epc = e.ip ∧ y.csrs.eval = e.eval ∧ y.csrs.ip = x.csrs.vec
         ∧ y.csrs.ecause = BitVec.ofNat 64 (e.cause.toNat * 2 ^ 56 + e.ip.toNat * 2 ^ 32 + e.detail.toNat)
         ∧ y.csrs.status.getLsbD 5 = x.csrs.status.getLsbD 4 ∧ y.csrs.status.getLsbD 3 = x.csrs.status.getLsbD 2
         ∧ y.csrs.status.getLsbD 1 = x.csrs.status.getLsbD 0 ∧ y.csrs.status.getLsbD 4 = true
         ∧ y.csrs.status.getLsbD 2 = true ∧ y.csrs.status.getLsbD 0 = false
         ∧ y.csrs.fpcsr = x.csrs.fpcsr ||| e.flags.zeroExtend 18 ∧ ∀ fast i, y.bankReg fast i = x.bankReg fast i)
     ∧ (x.fastBank = true →
       ∃ t, exec (.callerExceptionEntry k n) s = .next t ∧ ((t.chan k.val).caller n.val).st = .faulted
         ∧ ((t.chan k.val).caller n.val).csrs.epc = x.csrs.epc ∧ ((t.chan k.val).caller n.val).csrs.ecause = x.csrs.ecause
         ∧ ((t.chan k.val).caller n.val).csrs.eval = x.csrs.eval
         ∧ ((t.chan k.val).caller n.val).dcause = BitVec.ofNat 64 (e.cause.toNat * 2 ^ 56 + e.ip.toNat * 2 ^ 32 + e.detail.toNat)
         ∧ (∃ m ∈ (t.chan k.val).ev.sent, m.src = 24)))
  ∧ (∀ (s : State) (k : Ch) (n : CallerId) (x : Caller), x = (s.chan k.val).caller n.val →
       (∀ e, x.interrupt = some e → e.src < 1024 → x.atBoundary = true → x.exc = [] →
         ∃ y, exec (.eventInterrupt k n) s
             = .next (s.setChan k.val (((s.chan k.val).setCaller n.val y).inc F.ccCntEvents))
           ∧ y.csrs.epc = x.csrs.ip ∧ y.csrs.ip = x.csrs.vec ∧ wbits y.csrs.ecause 56 8 = 0x30 ∧ wbits y.csrs.ecause 0 10 = e.src
           ∧ y.csrs.status.getLsbD 0 = false ∧ y.csrs.status.getLsbD 4 = true ∧ y.inbox = markTaken e .handler x.inbox)
       ∧ (∀ (z : Caller) (w : Word) (e : InEntry), w = (s.chan k.val).callerWord n.val →
           CallerAlone s.dev (s.chan k.val) n.val .waitev
             (if (iImm w).testBit 0 && !(iImm w).testBit 1 then [iRs1 w] else []) z →
           (((iImm w).testBit 0 && !(iImm w).testBit 1) = true → (seqIn s.dev (s.chan k.val) n.val).l.poison = false) →
           x.interrupt = none → x.evMask = false → headEntry x.ready = some e →
         ∃ y, exec (.waitev k n) s = .next (s.setChan k.val ((s.chan k.val).setCaller n.val y)) ∧ y.st = .running
           ∧ y.csrs.ip = BitVec.ofNat 16 (x.csrs.ip.toNat + 1) ∧ y.inbox = markTaken e (.waitev z.wseq) z.inbox
           ∧ (iRd w ≠ 0 → y.reg (iRd w) = (evWord e, false)))
       ∧ (∀ e, x.wait.until_ = some e → e ≤ (s.chan k.val).cclk → x.st = .waiting →
         ∃ d, d = (s.chan k.val).setCaller n.val { x with st := .running, wait := {} }
           ∧ exec (.waitTimeLimit k n) s = .next (s.setChan k.val (if d.pw.cst = 0 then d else d.askWake)))
       ∧ (∀ (p : NPkt) (id : Nat) (d0 d1 : Opd) (o : OutReq), (s.chan k.val).arrived tileCall 5 = some p →
           p.pay = .result n.val x.gen id d0 d1 → p.acc = .none → x.reqs.find? (fun q => q.id == id) = some o → o.over1 = false →
           o.rd ≠ 0 → o.rd2 = none →
         ∃ y, exec (.callerResultArrival k n) s
             = .next (s.setChan k.val (((s.chan k.val).takeArrived tileCall 5).setCaller n.val y))
           ∧ y.bankReg o.fast o.rd = (d0.val, d0.poison) ∧ (∀ q ∈ y.reqs, q.id ≠ id)
           ∧ (x.st = .waiting → x.wait.reqs = true → y.reqs = [] → y.st = .running)))

/-! ## Matching -/

/-- A token in its home tile's arrival register: discarded and counted when it is malformed or its context is not LIVE, sent to the
miss buffer when the record is not cached, judged by the state its context had before a change of this XCLK (R56), cause 0x23 or 0x20
where the context may not use the IP or the instruction does not consume the PORT, else placed as the row compare says, or deferred
with a demand eviction where no way is free. Commands that it concludes to answer a next state, on the conditions it states:
tokenArrival. -/
def Obligations.TokenArrival : Prop :=
  ∀ (s : State) (k : Ch) (t : Tile) (f : RowFault) (errs : LineErrs) (p : NPkt) (tok : Token) (b : Chan),
    (s.chan k.val).arrived t.val 0 = some p → p.pay = .tok tok → (s.chan k.val).tileOn t.val = true →
    b = (if f = .record ∧ malformed tok = true then (s.chan k.val).takeArrived t.val 0
      else ((s.chan k.val).takeArrived t.val 0).rowRead (s.chan k.val).xclk t.val (keyRow tok) (tagCtx tok.tag) f) →
    (malformed tok = true → Gives (.tokenArrival k t f errs) s k (b.stray F.chTokstatMalformed tok))
    ∧ (malformed tok = false → b.ctxLimit ≤ tagCtx tok.tag → Gives (.tokenArrival k t f errs) s k (b.stray F.chTokstatDeadctx tok))
    ∧ (malformed tok = false → tagCtx tok.tag < b.ctxLimit → b.cacheHas (tagCtx tok.tag) = false → (b.tile t.val).miss.length < 8 →
      Leads (.tokenArrival k t f errs) s k (fun d => (d.tile t.val).miss = (b.tile t.val).miss ++ [⟨tok, p.word, .record⟩]
        ∧ d.fld F.msStatMiss = min (2 ^ F.msStatMiss.len - 1) (b.fld F.msStatMiss + 1)))
    ∧ (malformed tok = false → tagCtx tok.tag < b.ctxLimit → b.cacheHas (tagCtx tok.tag) = true →
      Leads (.tokenArrival k t f errs) s k (fun d =>
        Judged ((b.cacheTouch (tagCtx tok.tag) false).seenSt (tagCtx tok.tag)) (b.cacheTouch (tagCtx tok.tag) false) d t.val tok p.word false errs))

/-- The row compare puts the operand into the earliest WAIT entry of its key that lacks its PORT, or into a new entry with the ports
that the instruction needs; which free way it takes is the model's choice (log entry 47). -/
def Obligations.RowCompare : Prop :=
  ∀ (c : Chan) (t : Nat) (tok : Token) (w : Word) (filter : Bool), c.stageBusy t = false →
    ((∃ e x, HasKey c t tok e x) ∨ ∃ way xway, NewKey c t tok w way xway) →
    ∃ d, c.rowCompare c.xclk t tok w filter = .done d ∧ Rowed c d t tok w

/-- The tokens and packets that wait at a tile: a missed token goes on once its record is cached, a deferred token is tried again, a
held packet is pushed to its ready queue when there is room, and a parked firing whose wait has ended is pushed likewise. A retry reads
its context as a hit, the model's choice (log entry 48). Commands that it concludes to answer a next state, on the conditions it
states: contextRecordFill, deferredTokenRetry, readyPushRetry, parkedFiringWake. -/
def Obligations.WaitingAtATile : Prop :=
  ∀ (s : State) (k : Ch) (t : Tile) (errs : LineErrs) (c : Chan), c = s.chan k.val →
    (∀ (i : Nat) (m : Missed) (f b : Chan), findIx c.missDue (c.tile t.val).miss = some i → (c.tile t.val).miss[i]? = some m →
        (c.cacheHas (tagCtx m.tok.tag) = true ∨ c.dmInner [c.recordLine (tagCtx m.tok.tag)] = true) →
        f = c.fillRecord c.xclk s.dev.time (tagCtx m.tok.tag) errs →
        b = f.setTile t.val { f.tile t.val with miss := dropNth (f.tile t.val).miss i } →
        Leads (.contextRecordFill k t errs) s k (fun d =>
          Judged (b.seenSt (tagCtx m.tok.tag)) b d t.val m.tok m.word true errs))
    ∧ (∀ (d : Deferred) (r : List Deferred), (c.tile t.val).defer = d :: r →
        (c.seenSt (tagCtx d.tok.tag) ≠ .live →
          Gives (.deferredTokenRetry k t errs) s k ((c.setTile t.val { c.tile t.val with defer := r }).orphan (tagCtx d.tok.tag)))
        ∧ (c.seenSt (tagCtx d.tok.tag) = .live → c.evicting t.val (tagCtx d.tok.tag) (tagIp d.tok.tag) = false →
          Leads (.deferredTokenRetry k t errs) s k
            (fun e => Rowed (c.setTile t.val { c.tile t.val with defer := r }) e t.val d.tok d.word)
          ∧ (c.candidate t.val (keyRow d.tok) (tagCtx d.tok.tag) (tagIp d.tok.tag) (tagPort d.tok.tag) = none →
              c.maySpill t.val (tagCtx d.tok.tag) (tagIp d.tok.tag) = false →
              c.keyWays t.val (keyRow d.tok) (needPorts d.word) (c.ctx (tagCtx d.tok.tag)).elder = none →
              Gives (.deferredTokenRetry k t errs) s k (c.demandEvict c.xclk t.val errs))))
    ∧ (∀ h p, (c.tile t.val).held = some h → h.pkt = p → (c.tile t.val).rebuild = false →
        (c.live p.ctx.toNat = false → Gives (.readyPushRetry k t) s k
          (((c.setTile t.val { c.tile t.val with held := none }).freeKey t.val (entryNo p.row.toNat p.way.toNat)).cancel p.ctx.toNat))
        ∧ (c.live p.ctx.toNat = true → (h.passed = true ∨ c.flowKind p.ctx.toNat = 0) → c.qRoom (8 * t.val + p.prio.toNat) = true →
          Gives (.readyPushRetry k t) s k
            ((c.setTile t.val { c.tile t.val with held := none }).qPush (8 * t.val + p.prio.toNat) (packetWord p)))
        ∧ (∀ d, c.live p.ctx.toNat = true → h.passed = false → c.flowCheck t.val p (c.keyOf t.val p) = (d, none) →
          d.qRoom (8 * t.val + p.prio.toNat) = true →
          Gives (.readyPushRetry k t) s k
            ((d.setTile t.val { d.tile t.val with held := none }).qPush (8 * t.val + p.prio.toNat) (packetWord p)))
        ∧ (∀ d why, c.live p.ctx.toNat = true → h.passed = false → c.flowCheck t.val p (c.keyOf t.val p) = (d, some why) →
          c.ms.pool.length < 8192 →
          Leads (.readyPushRetry k t) s k (fun e => (e.tile t.val).held = none ∧ e.ms.pool
            = d.ms.pool ++ [{ tile := t.val, row := p.row, way := p.way, ctx := p.ctx, word := p.instr, why := why }])))
    ∧ (∀ (e : EntryId) (i : Nat) (x : MEntry),
        findIx (fun r => r.tile == t.val && entryNo r.row.toNat r.way.toNat == e.val && r.woken) c.ms.pool = some i →
        c.entry t.val e.val = some x →
        (c.live x.ctx.toNat = true → c.stageBusy t.val = false → c.qRoom (8 * t.val + x.pmin.toNat) = true →
          Leads (.parkedFiringWake k t e) s k (fun d => d.ms.pool = dropNth c.ms.pool i
            ∧ (d.qptr (8 * t.val + x.pmin.toNat)).unread
                = (c.qptr (8 * t.val + x.pmin.toNat)).unread + c.qUnit (8 * t.val + x.pmin.toNat)))
        ∧ (c.live x.ctx.toNat = false → Gives (.parkedFiringWake k t e) s k
            ((({ c with ms := { c.ms with pool := dropNth c.ms.pool i } } : Chan).freeKey t.val e.val).cancel x.ctx.toNat)))

/-! ## Windows -/

/-- DISPATCH_SELECT: the packet of the selected level, read without an error, goes into the dispatch stage, where it waits while
something holds it, and starts at once where nothing does; a staged packet starts in the open window with the operands of its entry, or
opens a window with the next WSEQ, the Lead's and the Follow's samples and the marks of its tile's queues; a packet of a context that
has left LIVE is removed. Commands that it concludes to answer a next state, on the conditions it states: dispatchSelect. -/
def Obligations.DispatchStartsFirings : Prop :=
  ∀ (s : State) (k : Ch) (d : DuetId) (fs : Sample) (c : Chan) (x : Duet), c = s.chan k.val → x = c.duet d.val →
    c.duetOn d.val = true →
    (∀ (t p : Nat) (starve : Bool) (q : Nat) (h : FPacket) (st : Staged),
        (c.turnTiles d.val).findSome? (fun t => (c.selectLevel t).map (fun p => (t, p))) = some (t, p, starve) → q = 8 * t + p → q < 512 →
        h = wordPacket (c.qItem q (c.qRead q)) → h.way ≠ 31 → c.live h.ctx.toNat = true → x.stage = none → (c.qNow q).reads = 0 →
        st = { pkt := h, tile := t, starve := starve } →
      (c.mustWait x st = true →
        Leads (.dispatchSelect k d fs parityGood .clean false) s k (fun e => (e.duet d.val).stage = some st
          ∧ (e.duet d.val).wins = x.wins ∧ tblGet e.qu.waits q 0 = 0 ∧ (e.qptr q).unread = (c.qptr q).unread))
      ∧ (c.mustWait x st = false → (∀ w ∈ x.wins, w.closed = true) → x.mayOpen = true → x.injAgain = 0 → c.flag F.lfInjArm = false →
        Leads (.dispatchSelect k d fs parityGood .clean false) s k (fun e => (e.duet d.val).stage = none
          ∧ (e.duet d.val).wseq = x.wseq + 1 ∧ tblGet e.qu.waits q 0 = 0
          ∧ ∃ w, (e.duet d.val).wins = x.wins ++ [w] ∧ w.wseq = x.wseq + 1
            ∧ w.firings.map (fun f => (f.pkt, f.tile, f.lead, f.follow)) = [(h, t, none, none)])))
    ∧ (∀ (st : Staged) (e : Ecc) (pf : Parity) (dl : Bool), x.stage = some st → c.live st.pkt.ctx.toNat = true → c.mustWait x st = false →
      (∀ ws w, x.wins = ws ++ [w] → w.closed = false → c.windowTakes c.xclk d.val w st.pkt.instr = true →
        Leads (.dispatchSelect k d fs pf e dl) s k (fun b => (b.duet d.val).stage = none ∧ (b.duet d.val).wins = ws ++ [{ w with
            firings := w.firings ++ [{ pkt := st.pkt, tile := st.tile, l := (c.operands st.tile st.pkt).1,
                                       r := (c.operands st.tile st.pkt).2.1, t := (c.operands st.tile st.pkt).2.2, grant := st.grant }],
            lastAt := c.xclk, dlBad := w.dlBad || dl }]))
      ∧ ((∀ w ∈ x.wins, w.closed = true) → x.mayOpen = true → x.injAgain = 0 → c.flag F.lfInjArm = false →
        Leads (.dispatchSelect k d fs pf e dl) s k (fun b => (b.duet d.val).stage = none ∧ (b.duet d.val).wseq = x.wseq + 1
          ∧ ∃ w, (b.duet d.val).wins = x.wins ++ [w] ∧ w.wseq = x.wseq + 1 ∧ w.openAt = c.xclk ∧ w.closed = false
            ∧ w.sl = Chan.sampleNow s.dev c
            ∧ w.sf = (if x.replay || c.flag F.lfCtlTest then Chan.sampleNow s.dev c else fs)
            ∧ w.firings.map (fun f => (f.pkt, f.tile, f.lead, f.follow)) = [(st.pkt, st.tile, none, none)])))
    ∧ (∀ (st : Staged) (e : Ecc) (pf : Parity) (dl : Bool), x.stage = some st → c.live st.pkt.ctx.toNat = false →
        Leads (.dispatchSelect k d fs pf e dl) s k (fun b => (b.duet d.val).stage = none ∧ (b.duet d.val).wins = x.wins))

/-- WINDOW_CLOSE closes the newest window of a duet or a caller when a condition of R200 or R234 holds; REPLAY_OPEN opens a window with
the failed window's WSEQ in the single-sample regime. Commands that it concludes to answer a next state, on the conditions it states:
windowClose, replayOpen. -/
def Obligations.WindowsCloseAndReopen : Prop :=
  ∀ (s : State) (k : Ch) (c : Chan), c = s.chan k.val →
    (∀ (d : DuetId) (ws : List Win) (w : Win), (c.duet d.val).wins = ws ++ [w] → w.closed = false → w.busy = false →
        c.closeDue c.xclk d.val w = true →
      ((c.duet d.val).retire = false → (c.duet d.val).joins = [] → Gives (.windowClose k (.duet d)) s k
        (c.setDuet d.val { c.duet d.val with wins := ws ++ [{ w with closed := true }] }))
      ∧ ((c.duet d.val).retire = false → Gives (.windowClose k (.duet d)) s k
        ((c.setDuet d.val { c.duet d.val with wins := ws ++ [{ w with closed := true }] }).joinDue c.xclk d.val))
      ∧ ((c.duet d.val).retire = true → Gives (.windowClose k (.duet d)) s k
        (((c.setDuet d.val { c.duet d.val with wins := ws ++ [{ w with closed := true }] }).joinDue c.xclk d.val).startStandIn
          c.xclk d.val 3)))
    ∧ (∀ (n : CallerId) (ws : List Win) (w : Win), (c.caller n.val).wins = ws ++ [w] → w.closed = false →
        (c.callerOpen w = false ∨ (c.caller n.val).st ≠ .running ∨ (c.caller n.val).exc ≠ []
          ∨ (c.caller n.val).halting = true ∨ (c.caller n.val).retire = true) →
      Gives (.windowClose k (.caller n)) s k
        (c.setCaller n.val { c.caller n.val with wins := ws ++ [{ w with closed := true }] }))
    ∧ (∀ (d : DuetId) (fs : Sample) (v : BitVec 32), c.duetOn d.val = true → (c.duet d.val).replay = true →
        (c.duet d.val).again = some v → (c.duet d.val).wins = [] → (c.duet d.val).cmpBad = false → (c.duet d.val).retire = false →
        (c.duet d.val).injAgain = 0 → c.flag F.lfInjArm = false →
      Leads (.replayOpen k (.duet d) fs) s k (fun b => (b.duet d.val).again = none ∧ (b.duet d.val).replay = true
        ∧ ∃ w, (b.duet d.val).wins = [w] ∧ w.wseq = v ∧ w.single = true ∧ w.sl = Chan.sampleNow s.dev c
          ∧ w.sf = Chan.sampleNow s.dev c ∧ w.closed = false ∧ w.firings = []))
    ∧ (∀ (n : CallerId) (fs : Sample) (v : BitVec 32), (c.caller n.val).replay = true → (c.caller n.val).again = some v →
        (c.caller n.val).wins = [] → (c.caller n.val).cb.length + 3 ≤ 128 → (c.caller n.val).cmpBad = false →
      ∃ w, Gives (.replayOpen k (.caller n) fs) s k
          (c.setCaller n.val { c.caller n.val with wseq := v, again := none, wins := [w] })
        ∧ w.wseq = v ∧ w.single = true ∧ w.firings = [] ∧ w.ckpt = some (c.caller n.val).ckpt)

/-- WINDOW_COMPARE: a match commits the oldest window and its entries enter the commit buffer in order; a failed window of a duet is
discarded with every younger one, and its attempt counts; a failed window of a caller restores the checkpoint. What a matched window of
one firing does at its commit: it ORs its flags into FLAGS, and its effect takes place. CTXNEW makes a LIVE context with the next SEQ
and what it inherits; CTXEND makes its context DEAD and sends the operand to RET_TAG; CTXKILL ends a context that the firing may kill,
with the status word to its RET_TAG, and raises 0x24 for another; FLOWSET gives the class and a position of an ordered one; SOLO.OUT
frees a slot the context owns; PROM.REL releases its position; SIGNAL raises its source. A cause raises the exception token, or ends a
context without a handler; a trapped flag writes a record. In a caller's window CTXNEW takes its fields from the CSRs and the privilege
of that instruction. Units with the same results agree; a bit flipped in either signature, a comparator that does not show a match on
its wire, or a parity error of the delay line is no match, nor is a window in which the two units have gone different ways (log entry
55). Commands that it concludes to answer a next state, on the conditions it states: windowCompare. -/
def Obligations.WindowsCommitOrRewind : Prop :=
  (∀ (s : State) (k : Ch) (cf : CmpFault) (c : Chan), c = s.chan k.val →
     (∀ (d : DuetId) (w : Win) (vs : List Win), (c.duet d.val).wins = w :: vs → w.closed = true → w.busy = false →
       (w.matched cf = true → (c.duet d.val).cmpBad = false →
         (∀ f ∈ w.firings, c.live f.pkt.ctx.toNat = true ∧ ∃ r, f.lead = some r ∧ r.cause = none ∧ r.trap = false ∧ r.effs = []) →
         Leads (.windowCompare k (.duet d) cf) s k (fun b => (b.duet d.val).wins = vs ∧ (b.duet d.val).attempts = 0
           ∧ (b.duet d.val).replay = false ∧ b.ms.stall = 0
           ∧ (b.duet d.val).cb.map (fun e => (e.ent, e.ctx, e.ip)) = (c.duet d.val).cb.map (fun e => (e.ent, e.ctx, e.ip))
               ++ w.firings.flatMap (fun f => (f.lead.getD {}).allEnts.map (fun e => (e, f.pkt.ctx, f.pkt.ip)))))
       ∧ (w.matched cf = false → (c.duet d.val).cmpBad = false → (c.duet d.val).retire = false → (c.duet d.val).attempts < 2 →
         Leads (.windowCompare k (.duet d) cf) s k (fun b => (b.duet d.val).wins = [] ∧ (b.duet d.val).stage = none
           ∧ (b.duet d.val).attempts = (c.duet d.val).attempts + 1 ∧ (b.duet d.val).replay = true
           ∧ (b.duet d.val).again = some w.wseq ∧ (b.duet d.val).cb = (c.duet d.val).cb)))
     ∧ (∀ (n : CallerId) (w : Win) (vs : List Win) (x : Caller), x = c.caller n.val → x.wins = w :: vs → w.closed = true →
       (w.matched cf = true → x.retire = false → x.halting = false → x.cmpBad = false → (∀ f ∈ w.firings, (f.lead.getD {}).effs = []) →
         Leads (.windowCompare k (.caller n) cf) s k (fun b => (b.caller n.val).wins = vs ∧ (b.caller n.val).attempts = 0
           ∧ (b.caller n.val).replay = false ∧ (b.caller n.val).csrs = x.csrs ∧ (b.caller n.val).normal = x.normal
           ∧ (b.caller n.val).cb.map (fun e => e.ent) = x.cb.map (fun e => e.ent)
               ++ w.firings.flatMap (fun f => (f.lead.getD {}).allEnts)))
       ∧ (∀ q : Ckpt, w.matched cf = false → x.attempts < 2 → x.cmpBad = false → w.ckpt = some q →
         Leads (.windowCompare k (.caller n) cf) s k (fun b => (b.caller n.val).wins = [] ∧ (b.caller n.val).csrs = q.csrs
           ∧ (b.caller n.val).normal = q.normal ∧ (b.caller n.val).fast = q.fast ∧ (b.caller n.val).reqs = q.reqs
           ∧ (b.caller n.val).attempts = x.attempts + 1 ∧ (b.caller n.val).replay = true
           ∧ (b.caller n.val).again = some w.wseq ∧ (b.caller n.val).st = .running))))
  ∧ (∀ (s : State) (k : Ch) (cf : CmpFault) (c : Chan) (w : Win) (vs : List Win) (f : Firing) (r : Res), c = s.chan k.val →
       w.closed = true → w.matched cf = true → w.firings = [f] → f.lead = some r →
       (∀ (d : DuetId) (id : Nat) (x : Ctx), (c.duet d.val).wins = w :: vs → (c.duet d.val).cmpBad = false → id = f.pkt.ctx.toNat →
         x = c.ctx id → x.st = .live → id < c.ctxLimit →
         (r.cause = none → r.trap = false →
           (r.effs = [] → Leads (.windowCompare k (.duet d) cf) s k (fun b => (b.ctx id).flags = x.flags ||| (r.flags0 ||| r.flags1)))
           ∧ (∀ g ret, r.effs = [.ctxnew g ret] → g.id.toNat ≠ id → Leads (.windowCompare k (.duet d) cf) s k (fun b =>
               b.cu.seqNext = c.cu.seqNext + 1 ∧ ∃ y, y = b.ctx g.id.toNat ∧ y.st = .live ∧ y.seq = c.cu.seqNext ∧ y.retTag = ret ∧ y.origin = 1
                 ∧ y.flow = x.flow ∧ y.tempo = x.tempo ∧ y.priocap = x.priocap ∧ y.supv = x.supv ∧ y.excTag = x.excTag ∧ y.rm = x.rm
                 ∧ y.te = x.te ∧ y.deadline = x.deadline ∧ y.elder = x.elder ∧ y.loop = none ∧ y.flags = 0 ∧ y.exccnt = 0 ∧ y.orphans = 0))
           ∧ (∀ v, r.effs = [.ctxend v] → c.endedNow c.xclk id = none → Leads (.windowCompare k (.duet d) cf) s k (fun b =>
               (b.ctx id).st = .dead ∧ (b.ctx id).diedAt = c.xclk
                 ∧ (badKind x.retTag = false → c.inPlane (tagDev x.retTag) = true → c.routeDim (tagDev x.retTag) = none →
                     b.selfSent ⟨v.sb, v.val, x.retTag⟩)))
           ∧ (∀ t st z, r.effs = [.kill t st] → z = c.ctx t.toNat → z.st = .live → t ≠ 0 → t.toNat < c.ctxLimit →
               ((x.supv = true ∨ t.toNat = id ∨ (tagCtx z.retTag = id ∧ tagDev z.retTag = c.devNo)) →
                 Leads (.windowCompare k (.duet d) cf) s k (fun b => (b.ctx t.toNat).st = .dead ∧ (b.ctx t.toNat).diedAt = c.xclk
                   ∧ (z.origin ≠ 0 → badKind z.retTag = false → c.inPlane (tagDev z.retTag) = true → c.routeDim (tagDev z.retTag) = none →
                       b.selfSent ⟨mkSb 1 false, BitVec.ofNat 64 st.toNat, z.retTag⟩)))
               ∧ (x.supv = false → t.toNat ≠ id → (tagCtx z.retTag ≠ id ∨ tagDev z.retTag ≠ c.devNo) →
                 Leads (.windowCompare k (.duet d) cf) s k (fun b => (b.ctx t.toNat).st = .live
                   ∧ (b.ctx id).exccnt = BitVec.ofNat 8 (min 255 (x.exccnt.toNat + 1)))))
           ∧ (∀ n o, r.effs = [.flowset n] → o = c.fld (F.flClassOrdq n.toNat) → Leads (.windowCompare k (.duet d) cf) s k (fun b =>
               (b.ctx id).flow = n
                 ∧ ((c.fld (F.flClassKind n.toNat) = 2 ∨ c.fld (F.flClassKind n.toNat) = 3) → c.ownedSlots id = [] → c.posOf id = none →
                     c.ordFull o = false → (b.qptr (768 + o)).held = (c.qptr (768 + o)).held + c.qUnit (768 + o))
                 ∧ ((c.ownedSlots id ≠ [] ∨ (c.posOf id).isSome = true) →
                     b.fld F.flStatFlowerr = min (2 ^ F.flStatFlowerr.len - 1) (c.fld F.flStatFlowerr + 1))))
           ∧ (∀ key q, r.effs = [.soloOut key] → (c.flowKind id = 1 ∨ c.flowKind id = 3) → q = c.slotOf x.flow.toNat key →
               Leads (.windowCompare k (.duet d) cf) s k (fun b => (c.owns id q = true → (b.solo q).owner = none)
                 ∧ (c.owns id q = false → b.solo q = c.solo q
                     ∧ b.fld F.flStatSoloerr = min (2 ^ F.flStatSoloerr.len - 1) (c.fld F.flStatSoloerr + 1))))
           ∧ (∀ o i m, r.effs = [.promRel] → (c.flowKind id = 2 ∨ c.flowKind id = 3) → c.posOf id = some (o, i, m) → c.qUnit (768 + o) = 2 →
               Leads (.windowCompare k (.duet d) cf) s k (fun b => posState (b.posAt o i) = 1
                 ∧ tblGet (b.ord o).unacc m.toNat 0 = tokCount r.ents))
           ∧ (∀ n, r.effs = [.signal n] → Leads (.windowCompare k (.duet d) cf) s k (fun b =>
               ∃ m ∈ b.ev.sent, m.src = 768 + n.toNat ∧ m.count = 1 ∧ m.tile = f.tile)))
         ∧ (∀ n dt, r.cause = some (n, dt) → f.grant = none → Leads (.windowCompare k (.duet d) cf) s k (fun b =>
             (b.ctx id).exccnt = BitVec.ofNat 8 (min 255 (x.exccnt.toNat + 1))
               ∧ (b.duet d.val).cb.map (fun e => e.ent) = (c.duet d.val).cb.map (fun e => e.ent) ++ [.eff]
               ∧ (x.excTag = noTag → id ≠ 0 → (b.ctx id).st = .dead ∧ ∃ m ∈ b.ev.sent, m.src = 10)
               ∧ (x.excTag ≠ noTag → c.inPlane (tagDev x.excTag) = true → c.routeDim (tagDev x.excTag) = none →
                   b.selfSent (excToken x n.toNat f.pkt.ip.toNat dt))))
         ∧ (r.cause = none → r.trap = true → f.grant = none → Leads (.windowCompare k (.duet d) cf) s k (fun b =>
             ((x.excTag = noTag ∨ c.excEn = false) → (b.ctx id).exccnt = BitVec.ofNat 8 (min 255 (x.exccnt.toNat + 1)))
               ∧ (x.excTag ≠ noTag → c.excEn = true → ∃ t ∈ b.excq, t.at_ = c.xclk ∧ t.req.who = .ctx f.pkt.ctx x.seq ∧ t.req.ip = f.pkt.ip))))
       ∧ (∀ (n : CallerId) (x : Caller), x = c.caller n.val → x.wins = w :: vs → x.retire = false → x.halting = false → x.cmpBad = false →
         (∀ g ret, r.effs = [.ctxnew g ret] → Leads (.windowCompare k (.caller n) cf) s k (fun b =>
             ∃ y, y = b.ctx g.id.toNat ∧ y.st = .live ∧ y.seq = c.cu.seqNext ∧ y.retTag = ret ∧ y.excTag = f.csrs.ctxexc ∧ y.ring = 0xFF
               ∧ y.origin = (if f.csrs.status.getLsbD 2 = true then 3 else 1) ∧ y.elder = false
               ∧ (f.csrs.status.getLsbD 2 = false → y.supv = false)))
         ∧ (∀ m, r.effs = [.signal m] → Leads (.windowCompare k (.caller n) cf) s k (fun b =>
             ∃ e ∈ b.ev.sent, e.src = 768 + m.toNat ∧ e.tile = unitAt tileCall))))
  ∧ (∀ w : Win, w.inj = 0 → w.dlBad = false →
       (w.split = true → w.matched cmpGood = false) ∧ (w.split = false →
       (w.leadRes = w.followRes → w.matched cmpGood = true)
       ∧ (∀ b : Fin 64, w.leadRes = w.followRes →
           w.matched { cmpGood with slx := BitVec.ofNat 64 (2 ^ b.val) } = false
           ∧ w.matched { cmpGood with sfx := BitVec.ofNat 64 (2 ^ b.val) } = false)
       ∧ (∀ o : BitVec 2, o ≠ 1 → w.matched { cmpGood with aOut := some o } = false ∧ w.matched { cmpGood with bOut := some o } = false)
       ∧ w.matched { cmpGood with dlpar := true } = false))

/-- COMMIT_BUFFER_DRAIN: the head entry of a unit's commit buffer leaves through the router port of its tile: a token of this device to
its home, a request to its unit, from the XCLK after its commit on (log entry 51); a token that the plane does not hold or no route
reaches raises cause 0x22 or 0x2B instead. Commands that it concludes to answer a next state, on the conditions it states:
commitBufferDrain. -/
def Obligations.CommitBuffersDrain : Prop :=
  ∀ (s : State) (k : Ch) (u : Exe) (c d : Chan) (x : CEntry) (r : List CEntry) (tile : Nat), c = s.chan k.val → d = c.dropEntryOf u →
    tile = (match u with | .duet n => c.portTile n.val | .caller _ => unitAt tileCall) →
    (match u with | .duet n => (c.duet n.val).cb | .caller n => (c.caller n.val).cb) = x :: r → x.at_ ≠ some c.xclk →
    (∀ t, x.ent = .tok t → c.inPlane (tagDev t.tag) = true → c.routeDim (tagDev t.tag) = none → c.injectRoom tile false 1 = true →
      Gives (.commitBufferDrain k u .clean) s k (d.inject tile (localPkt t x.acc)))
    ∧ (∀ t, x.ent = .tok t → c.inPlane (tagDev t.tag) = false →
      Gives (.commitBufferDrain k u .clean) s k
        (((d.accept x.acc).inc F.chTokstatUnreach).drainCause u x 0x22 (reachDetail t)))
    ∧ (∀ t, x.ent = .tok t → c.inPlane (tagDev t.tag) = true →
        c.route (tagDev t.tag) c.curEpoch 7 = .none →
      Gives (.commitBufferDrain k u .clean) s k
        (((d.accept x.acc).countReach t 0x2B).drainCause u x 0x2B (reachDetail t)))
    ∧ (∀ t p, x.ent = .tok t → c.inPlane (tagDev t.tag) = true → c.route (tagDev t.tag) c.curEpoch 7 = .port p →
        c.injectRoom tile false 1 = true →
      Gives (.commitBufferDrain k u .clean) s k
        ((d.inject tile (c.gatePkt t p c.curEpoch 7 0 x.acc)).countEpoch (tagDev t.tag) c.curEpoch))
    ∧ (x.ent = .eff → Gives (.commitBufferDrain k u .clean) s k d)
    ∧ Gives (.commitBufferDrain k u .uncorrectable) s k
        (((d.accept x.acc).inc F.lfCnt2Cbuncorr).poisonCtx c.xclk x.ctx.toNat)
    ∧ (∀ q p, x.ent = .req q → p = d.reqPkt { q with cb := match u with | .duet n => n.val | .caller n => 68 + n.val } →
        c.injectRoom tile false (reqFlits q + 1) = true →
        d.noWaitRecord { q with cb := match u with | .duet n => n.val | .caller n => 68 + n.val } = false →
      Gives (.commitBufferDrain k u .clean) s k (d.inject tile p))

/-! ## Contexts -/

/-- A write of CH_CTXCFG that sets EN, with a table that fits and no LIVE context, starts the table: context 0 is LIVE with SUPV as its
record says, ORIGIN 3 and SEQ 0, as soon as the memory takes the read of the record, identifiers 1 to LIMIT x 4,096 - 1 are free in
order, SEQ counts from 1, and no identifier is granted before FREE_LIST_BUILT, which leaves the identifiers in the list in GDDR7,
identifier i in the slot of 4 bytes i - 1 (R403; log entry 29), once the memory takes the write; a table that does not fit leaves EN 0.
FLUSH hands every dirty record to the memory, which writes it in its turn, and leaves it cached and clean. Commands that it concludes
to answer a next state, on the conditions it states: contextTableStart, freeListBuilt, contextAllocation, contextCacheFlush. -/
def Obligations.ContextTable : Prop :=
  ∀ (s : State) (k : Ch) (p : Party) (w : Word) (c : Chan), c = s.chan k.val → c.served 0x108 = true → c.mayWrite p 0x108 = true →
    (c.flag F.chCtxcfgEn = false → wbit w 16 = true → wbit w 63 = false → (c.wrFields 0x108 w).tableFits = true →
        (c.wrFields 0x108 w).liveCount = 0 →
      Leads (.contextTableStart k p w) s k (fun b => b.flag F.chCtxcfgEn = true ∧ b.ctxLimit = wbits w 0 12 * 4096
        ∧ (c.dmInner [c.recordLine 0] = false → b.cu.starting = true ∧ b.cu.tbl = [])
        ∧ (c.dmInner [c.recordLine 0] = true → b.cu.starting = false ∧ (b.ctx 0).st = .live ∧ (b.ctx 0).origin = 3 ∧ (b.ctx 0).seq = 0 ∧ (b.ctx 0).supv = wbit (c.rdWord (c.ctxAddr 0)) 31
        ∧ (b.ctx 0).elder = false ∧ (b.ctx 0).excTag = c.rdWord (c.ctxAddr 0 + 16)) ∧ (∀ id, id ≠ 0 → (b.ctx id).st = .free)
        ∧ b.cu.freeFront = [] ∧ b.cu.freeNext = 1 ∧ b.cu.freeEnd = wbits w 0 12 * 4096 ∧ b.cu.freed = [] ∧ b.cu.seqNext = 1
        ∧ b.cu.building = true))
    ∧ (c.flag F.chCtxcfgEn = false → wbit w 16 = true → wbit w 63 = false → (c.wrFields 0x108 w).tableFits = false →
      Leads (.contextTableStart k p w) s k (fun b => b.flag F.chCtxcfgEn = false ∧ b.cu = c.cu))
    ∧ (c.cu.building = true → c.cu.starting = false → c.dmPort = true → c.dmMeets (c.freeAddr 0) (4 * (c.ctxLimit - 1)) = false →
        Leads (.freeListBuilt k) s k (fun b => b.cu = { c.cu with building := false, lost := b.cu.lost }
        ∧ (∀ i, 1 ≤ i → i < c.ctxLimit → bytesVal (memBytes b.mem (c.freeAddr (i - 1)) 4) = i)
        ∧ ∀ a, (a < c.freeAddr 0 ∨ c.freeAddr (c.ctxLimit - 1) ≤ a) → memByte b.mem a = memByte c.mem a))
    ∧ ((c.cu.building = false ∨ c.cu.starting = true ∨ c.dmPort = false ∨ c.dmMeets (c.freeAddr 0) (4 * (c.ctxLimit - 1)) = true) →
        Gives (.freeListBuilt k) s k c)
    ∧ (c.cu.building = true → ∀ errs, Gives (.contextAllocation k errs) s k c)
    ∧ (c.flag F.chCtxcfgEn = true → wbit w 63 = true →
      Leads (.contextCacheFlush k p w) s k (fun b => b.cu.flushing = true ∧ (∀ e ∈ b.cu.cached, e.2 = false)
        ∧ b.cu.cached.map (fun e => e.1) = c.cu.cached.map (fun e => e.1) ∧ b.cu.tbl = c.cu.tbl
        ∧ (∀ id, (id, true) ∈ c.cu.cached → ∃ q ∈ b.dm.inq, q.addr = c.ctxAddr id
            ∧ q.bytes = (c.ctx id).words.flatMap (fun v => valBytes v.toNat 8))))

/-- CONTEXT_ALLOCATION: with the table enabled and built, and the memory taking the read of the list, the request of the lowest rank
that its gate admits receives the identifier at the head of the free list: the staged CTXNEW, LOOPIN or NEXTIT of a duet, the item of a
ring, or the CTXNEW of a caller. What the code finds in the list's line, errs, is taken into account first. The general gate admits an
allocation of weight K while N + K is at most MAXLIVE - ELDRES, the elder gate while it is at most MAXLIVE; FORCE and a near-full spill
area close the general gate only. Commands that it concludes to answer a next state, on the conditions it states: contextAllocation. -/
def Obligations.ContextAllocation : Prop :=
  (∀ (s : State) (k : Ch) (errs : LineErrs) (c b e : Chan) (q : Ask) (id : Nat), c = s.chan k.val →
     c.flag F.chCtxcfgEn = true → c.cu.building = false → c.dmInner [c.freeAddr c.cu.freeHead / 64 * 64] = true → c.cu.listLen ≠ 0 →
     b = c.dmTouch.dmRead c.xclk errs (c.freeAddr c.cu.freeHead) 4 →
     q ∈ c.asks → c.admits q = true → (∀ o ∈ c.asks, c.admits o = true → o = q ∨ rankLe (c.askRank o) (c.askRank q) = false) →
     b.takeId = some (id, e) →
     (∀ i r, b.cu.freeFront = i :: r → b.cu.lost = [] → id = i)
     ∧ Leads (.contextAllocation k errs) s k (fun d => d.cu.granted = b.cu.granted + q.weight
       ∧ (∀ n st, q.who = .duet n → (b.duet n).stage = some st →
           (d.duet n).stage = some { st with grant := some (b.grantOf q id) })
       ∧ (∀ r, q.who = .ring r → (d.ring r).grant = some (b.grantOf q id))
       ∧ (∀ n, q.who = .caller n → (d.caller n).grant = some (b.grantOf q id))))
  ∧ (∀ (c : Chan) (w : Nat), 0 < w →
       (c.gate true w = true ↔ c.throttle + w ≤ c.fld F.pgThrMaxlive)
       ∧ (c.gate false w = true → c.throttle + w + c.fld F.pgThrEldres ≤ c.fld F.pgThrMaxlive ∧ c.flag F.pgThrForce = false)
       ∧ (c.flag F.pgThrForce = false → c.flag F.pgThrWmen = false → c.spillNear = false →
           (c.gate false w = true ↔ c.throttle + w + c.fld F.pgThrEldres ≤ c.fld F.pgThrMaxlive)))

/-- A context's life after its creation: an elder promoted when fewer than 256 LIVE contexts are older, a sweep pass over DEAD
contexts, the identifier freed a quarantine after the context left LIVE, with the write of its slot of the free list under way (log
entry 29), and a kill by control token. Commands that it concludes to answer a next state, on the conditions it states: elderPromotion,
sweepPass, contextFree, controlToken. -/
def Obligations.ContextLives : Prop :=
  ∀ (s : State) (k : Ch) (c : Chan), c = s.chan k.val →
    (∀ id : CtxId, id ≠ 0 → (c.ctx id.toNat).st = .live → c.olderThan (c.ctx id.toNat).seq < 256 →
      Leads (.elderPromotion k id) s k (fun b => b.ctx id.toNat = { c.ctx id.toNat with elder := true }
        ∧ ∀ j, j ≠ id.toNat → b.ctx j = c.ctx j))
    ∧ (∀ errs b, c.cu.sweep = none → b = c.settlePoison c.xclk → b.sweepSet ≠ [] →
      Gives (.sweepPass k errs) s k { b with cu := { b.cu with sweep := some b.sweepSet } })
    ∧ (∀ ids errs, c.cu.sweep = some ids → c.dmSecond c.usedLines = true → Leads (.sweepPass k errs) s k (fun b => b.cu.sweep = none
        ∧ (∀ id ∈ ids, (c.ctx id).st = .dead → (b.ctx id).st = .dead ∧ (b.ctx id).swept = true)
        ∧ (errs = [] → ∀ id, (b.ctx id).st = (c.ctx id).st)))
    ∧ (∀ id : CtxId, (c.ctx id.toNat).st = .dead → (c.ctx id.toNat).swept = true → c.uncommitted id.toNat = false →
        (c.ctx id.toNat).diedAt + max 1 (c.fld F.chCtxcfgQuar) * 8192 ≤ c.xclk →
      Leads (.contextFree k id) s k (fun b => (b.ctx id.toNat).st = .free ∧ b.cu.freed = c.cu.freed ++ [id.toNat]
        ∧ ∃ q ∈ b.dm.inq, q.addr = c.freeAddr ((c.cu.freeHead + c.cu.listLen) % c.freeSlots) ∧ q.bytes = valBytes id.toNat 4))
    ∧ (∀ id : CtxId, ((c.ctx id.toNat).st ≠ .dead ∨ (c.ctx id.toNat).swept = false ∨ c.uncommitted id.toNat = true
        ∨ c.xclk < (c.ctx id.toNat).diedAt + max 1 (c.fld F.chCtxcfgQuar) * 8192) →
      Gives (.contextFree k id) s k c)
    ∧ (∀ (p : NPkt) (t : Token), c.arrived 36 4 = some p → p.pay = .tok t →
      ((tagIp t.tag ≠ 1 ∨ malformed t = true) →
        Gives (.controlToken k) s k (((c.takeArrived 36 4).accept p.acc).stray F.chTokstatMalformed t))
      ∧ (tagIp t.tag = 1 → malformed t = false → tagCtx t.tag < c.ctxLimit → tagCtx t.tag ≠ 0 → c.live (tagCtx t.tag) = true →
        Leads (.controlToken k) s k (fun b => (b.ctx (tagCtx t.tag)).st = .dead ∧ b.arrived 36 4 = none
          ∧ (b.ctx (tagCtx t.tag)).diedAt = c.xclk)))

/-- Exception records and loops: a record goes to its slot and the cause follows with the index as DETAIL; a slot that is not free
loses the record; enabling the area starts at slot 0; a loop entry without iterations becomes FREE and sends the exit value. Commands
that it concludes to answer a next state, on the conditions it states: exceptionRecordWrite, exceptionRecordsEnable, loopExit. -/
def Obligations.RecordsAndLoops : Prop :=
  ∀ (s : State) (k : Ch) (c : Chan), c = s.chan k.val →
    (∀ (errs : LineErrs) (t : TrapRec) (r : List TrapRec) (q : Req) (id : CtxId) (v : BitVec 48) (a : Nat) (b d : Chan),
        c.excq = t :: r → q = t.req → q.who = .ctx id v → a = q.addr.toNat →
        (c.range a = .dram → c.dmThird (linesOf a 64) = true) → (c.range a = .scratch → c.spReady = true ∧ c.spLocked a 64 = false) →
        b = ({ c with excq := r } : Chan).excReads errs a →
      (b.excMapped a = true → wbit (b.wordAt (a + 8)) 63 = false →
        d = (if b.range a = .dram then (b.putWords a q.words).dmWrote a 64 else b.putWords a q.words) →
        Gives (.exceptionRecordWrite k errs) s k
          ((if d.range a = .scratch ∧ wordErr errs (a + 8) = some true then d.markWord (a + 8) true else d).cause c.xclk id.toNat
            (wbits (q.words.headD 0) 56 8) q.ip.toNat (BitVec.ofNat 32 (q.words.headD 0).toNat)))
      ∧ ((b.excMapped a = false ∨ wbit (b.wordAt (a + 8)) 63 = true) →
        Gives (.exceptionRecordWrite k errs) s k ((b.inc F.chExcstatLost).cause c.xclk id.toNat
          (wbits (q.words.headD 0) 56 8) q.ip.toNat 0xFFFFFFFF)))
    ∧ (∀ (p : Party) (w : Word), c.served 0x148 = true → c.mayWrite p 0x148 = true → c.flag F.chExccfgEn = false → wbit w 63 = true →
      ((c.wrFields 0x148 w).excFits = true → Leads (.exceptionRecordsEnable k p w) s k (fun b =>
        b.flag F.chExccfgEn = true ∧ b.fld F.chExcstatWr = 0 ∧ b.fld F.chExccfgSize = wbits w 0 5))
      ∧ ((c.wrFields 0x148 w).excFits = false → Leads (.exceptionRecordsEnable k p w) s k (fun b =>
        b.flag F.chExccfgEn = false ∧ b.fld F.chExccfgSize = wbits w 0 5)))
    ∧ (∀ (e : LoopId) (l : Loop), c.loop e.val = some l → l.live = 0 → l.pending = 0 →
      (l.closing = true → Gives (.loopExit k e) s k
        ((c.dropLoop e.val).sendHeld c.xclk ⟨l.exitVal.sb, l.exitVal.val, l.exitTag⟩ l.ctx.toNat l.ip.toNat))
      ∧ (l.closing = false → Gives (.loopExit k e) s k (c.dropLoop e.val)))

/-! ## Stand-ins and retirement -/

/-- STAND_IN_COMPLETE: the spare that passed takes role SERVING for the tile in replay mode and the failed duet takes RETIRED with its
cause, source 12 raised; a spare that failed is RETIRED with cause 4, and so is the duet, whose tile goes to a partner or stays dark.
COMPARATOR_TEST_FAILURE raises source 14, and a stand-in with cause 2 starts at once where no window is uncommitted, for a duet and for
a caller. Commands that it concludes to answer a next state, on the conditions it states: standInComplete, comparatorTestFailure. -/
def Obligations.StandInsOfDuets : Prop :=
  ∀ (s : State) (k : Ch) (d : DuetId) (c : Chan), c = s.chan k.val →
    (∀ (si : StandIn) (t : Nat), (c.duet d.val).standIn = some si → si.handOver = none → si.spare ≠ d.val → c.tilesOf d.val = [t] → c.handed t = false →
      Leads (.standInComplete k d true) s k (fun b => b.role si.spare = 0 ∧ b.fld (F.lfDuetServes si.spare) = t ∧ b.role d.val = 4
        ∧ b.fld (F.lfDuetCause d.val) = si.cause.toNat ∧ (b.duet si.spare).replay = true
        ∧ (b.duet si.spare).again = (c.duet d.val).again ∧ (b.duet d.val).wins = [] ∧ (∃ m ∈ b.ev.sent, m.src = 12))
      ∧ Leads (.standInComplete k d false) s k (fun b => b.role d.val = 4 ∧ b.role si.spare = 4
          ∧ b = ((c.retireDuet si.spare 4).retireDuet d.val si.cause.toNat).giveTile c.xclk d.val t si.cause.toNat si.since))
    ∧ (∀ (si : StandIn) (t : Nat), (c.duet d.val).standIn = some si → si.handOver = some t → t < 64 →
      ∀ pass, Leads (.standInComplete k d pass) s k (fun b => b.role d.val = 0 ∧ b.fld (F.lfDuetServes d.val) = t
        ∧ (b.duet d.val).standIn = none))
    ∧ (c.tilesOf d.val ≠ [] → (c.duet d.val).standIn = none → (c.duet d.val).cmpBad = false → (c.duet d.val).cmpAt ≠ some c.xclk →
        (c.duet d.val).wins ≠ [] →
      Gives (.comparatorTestFailure k (.duet d)) s k ((c.setDuet d.val { c.duet d.val with cmpBad := true }).raise 14))
    ∧ (c.tilesOf d.val ≠ [] → (c.duet d.val).standIn = none → (c.duet d.val).cmpBad = false → (c.duet d.val).cmpAt ≠ some c.xclk →
        (c.duet d.val).wins = [] →
      Gives (.comparatorTestFailure k (.duet d)) s k
        (((c.setDuet d.val { c.duet d.val with cmpBad := true }).raise 14).startStandIn c.xclk d.val 2)
      ∧ ∀ sp, c.freeSpare (duetSet d.val) = some sp → (c.duet d.val).joins = [] →
        Leads (.comparatorTestFailure k (.duet d)) s k (fun b => (∃ m ∈ b.ev.sent, m.src = 14) ∧ (b.duet d.val).wins = []
          ∧ (b.duet d.val).standIn = some { cause := 2, since := c.xclk, spare := sp }))
    ∧ (∀ (n : CallerId) (x : Caller), x = c.caller n.val → x.phys ≠ none → x.standIn = none → x.cmpBad = false → x.cmpAt ≠ some c.cclk →
      (x.wins ≠ [] → Gives (.comparatorTestFailure k (.caller n)) s k
        ((c.setCaller n.val { x with cmpBad := true, wins := closeNewest x.wins }).raise 14))
      ∧ (∀ m, x.wins = [] → c.freePhys = some m → Leads (.comparatorTestFailure k (.caller n)) s k (fun b =>
          (∃ e ∈ b.ev.sent, e.src = 14) ∧ (b.caller n.val).standIn = some m ∧ (b.caller n.val).standCause = 2)))

/-- The commands of the LF block: SPARETEST starts the self-test of every free spare; a spare that fails one is RETIRED with cause 4;
CMD 1 and 2 of LF_DUETn test a RETIRED duet and retire a SPARE, also one that a stand-in has taken (what becomes of that stand-in is
log entry 54), or a serving one; a retest that fails leaves it RETIRED, one that passes makes it a SPARE; LF_INJ and LF_WIN take their
fields. Commands that it concludes to answer a next state, on the conditions it states: sparetest, spareSelfTestComplete, duetRetest,
duetRetire, retestComplete, lfInjArm, lfWinWrite. -/
def Obligations.DuetControl : Prop :=
  ∀ (s : State) (k : Ch) (p : Party) (w : Word) (d : DuetId) (c : Chan), c = s.chan k.val → c.asleep = false →
    (c.mayWrite p 0x2008 = true → wbit w 1 = true →
      Leads (.sparetest k p w) s k (fun b => b.flag F.lfCtlTest = wbit w 0 ∧ ∀ e, e < 68 → c.role e = 2 → c.taken e = false →
        (b.duet e).testing = true))
    ∧ (∀ (g : SetId) (e : Nat), (List.range 68).find? (fun d => duetSet d == g.val && c.role d == 2 && (c.duet d).testing) = some e →
      Gives (.spareSelfTestComplete k g true) s k (c.setDuet e { c.duet e with testing := false })
      ∧ Leads (.spareSelfTestComplete k g false) s k (fun b => b.role e = 4 ∧ b.fld (F.lfDuetCause e) = 4 ∧ b.fld (F.lfDuetServes e) = 0x3F
        ∧ (b.duet e).testing = false))
    ∧ (c.mayWrite p (0x2100 + 8 * d.val) = true → wbits w 0 4 = 1 → c.role d.val = 4 →
      Leads (.duetRetest k p d w) s k (fun b => b.role d.val = 3 ∧ b.duets = c.duets))
    ∧ (c.mayWrite p (0x2100 + 8 * d.val) = true → wbits w 0 4 = 2 → (c.role d.val = 0 ∨ c.role d.val = 1) →
        (c.duet d.val).standIn = none → ∀ v, openWin (c.duet d.val).wins = some v →
      Leads (.duetRetire k p d w) s k (fun b => b.duet d.val = { c.duet d.val with retire := true } ∧ b.regs = c.regs))
    ∧ (c.mayWrite p (0x2100 + 8 * d.val) = true → wbits w 0 4 = 2 → (c.role d.val = 0 ∨ c.role d.val = 1) →
        (c.duet d.val).standIn = none → openWin (c.duet d.val).wins = none → (c.duet d.val).joins = [] →
        ∀ sp, c.freeSpare (duetSet d.val) = some sp →
      Leads (.duetRetire k p d w) s k (fun b => (b.duet d.val).wins = []
        ∧ (b.duet d.val).standIn = some { cause := 3, since := c.xclk, spare := sp }))
    ∧ (c.mayWrite p (0x2100 + 8 * d.val) = true → wbits w 0 4 = 2 → c.role d.val = 2 → c.taken d.val = false →
      Leads (.duetRetire k p d w) s k (fun b => b.role d.val = 4 ∧ b.fld (F.lfDuetCause d.val) = 3))
    ∧ (c.mayWrite p (0x2100 + 8 * d.val) = true → wbits w 0 4 = 2 → c.role d.val = 2 →
        (∃ (e : Nat) (si : StandIn), e ≠ d.val ∧ (c.duet e).standIn = some si ∧ si.spare = d.val) →
      Leads (.duetRetire k p d w) s k (fun b => b.role d.val = 4 ∧ b.fld (F.lfDuetCause d.val) = 3))
    ∧ (c.role d.val = 3 → Leads (.retestComplete k d false) s k (fun b => b.role d.val = 4 ∧ b.fld (F.lfDuetCause d.val) = 4
        ∧ b.duets = c.duets))
    ∧ (c.role d.val = 3 → (∀ t, (c.setFld (F.lfDuetRole d.val) 2).needyTile (duetSet d.val) ≠ some t) →
      Gives (.retestComplete k d true) s k (c.setFld (F.lfDuetRole d.val) 2))
    ∧ (c.role d.val = 3 → ∀ t, (c.setFld (F.lfDuetRole d.val) 2).needyTile (duetSet d.val) = some t →
      Leads (.retestComplete k d true) s k (fun b => b.role d.val = 2
        ∧ (b.duet d.val).standIn = some { cause := 6, since := c.xclk, spare := d.val, handOver := some t }))
    ∧ (c.mayWrite p 0x2030 = true → Leads (.lfInjArm k p w) s k (fun b => b.flag F.lfInjArm = (c.flag F.lfInjArm || wbit w 63)
        ∧ b.flag F.lfInjRepeat = wbit w 62 ∧ b.fld F.lfInjDuet = wbits w 8 7 ∧ b.fld F.lfInjKind = wbits w 0 4))
    ∧ (c.mayWrite p 0x2000 = true → Leads (.lfWinWrite k p w) s k (fun b => b.fld F.lfWinLen = wbits w 0 2 ∧ b.duets = c.duets))

/-- Control of callers by CC_CALLn: RUN from 0 to 1 starts a HALTED or FAULTED caller at START in the normal bank with IE 0 and the
privilege of PRIV; RUN to 0 and HALT halt it at its next window boundary; RESET clears both banks. The host's write to CC_CALL0 is
ignored while the steward runs. The physical duets of the callers: CMD 1 tests a RETIRED one, CMD 2 retires a SPARE or, at a window
boundary, a serving one; a retest that passes makes it SPARE, or makes it serve the lowest LOST caller; a stand-in retires the duet
that failed. Commands that it concludes to answer a next state, on the conditions it states: callerRun, callerStop, halt, reset,
callerRetest, callerRetire, callerRetestComplete, callerStandInComplete. -/
def Obligations.CallerControl : Prop :=
  (∀ (s : State) (k : Ch) (p : Party) (n : CallerId) (w : Word) (c : Chan), c = s.chan k.val → c.asleep = false →
     c.mayWrite p (0x30000 + 32 * n.val) = true →
     (p = .host → n = 0 → c.flag F.ccStewRun = true → Leads (.callerRun k p n w) s k (fun b => b.callers = c.callers ∧ b.regs = c.regs))
     ∧ ((p = .host → n = 0 → c.flag F.ccStewRun = false) →
       (c.flag (F.ccCallRun n.val) = false → wbit w 63 = true → wbits w 16 4 = 0 →
           ((c.caller n.val).st = .halted ∨ (c.caller n.val).st = .faulted) →
         Leads (.callerRun k p n w) s k (fun b => (b.caller n.val).st = .running
           ∧ (b.caller n.val).csrs.ip = BitVec.ofNat 16 (wbits w 0 16) ∧ (b.caller n.val).csrs.status.getLsbD 0 = false
           ∧ (b.caller n.val).csrs.status.getLsbD 4 = false ∧ (b.caller n.val).csrs.status.getLsbD 2 = wbit w 62
           ∧ (b.caller n.val).exc = [] ∧ (∀ fast i, (b.caller n.val).bankReg fast i = (c.caller n.val).bankReg fast i)))
       ∧ (c.flag (F.ccCallRun n.val) = true → wbit w 63 = false → wbits w 16 4 = 0 → (c.caller n.val).st = .running →
           (c.caller n.val).wins ≠ [] →
         Leads (.callerStop k p n w) s k (fun b => (b.caller n.val).halting = true ∧ (b.caller n.val).st = .running
           ∧ b.flag (F.ccCallRun n.val) = false ∧ ∀ v ∈ (b.caller n.val).wins.getLast?, v.closed = true))
       ∧ (wbits w 16 4 = 1 → ((c.caller n.val).st = .running ∨ (c.caller n.val).st = .waiting ∨ (c.caller n.val).st = .waitev) →
           (c.caller n.val).wins = [] →
         Leads (.halt k p n w) s k (fun b => (b.caller n.val).st = .halted ∧ b.flag (F.ccCallRun n.val) = false
           ∧ (b.caller n.val).inbox = [] ∧ (b.caller n.val).csrs = (c.caller n.val).csrs))
       ∧ (wbits w 16 4 = 2 → wbit w 63 = false →
         Leads (.reset k p n w) s k (fun b => (b.caller n.val).st = (if (c.caller n.val).st = .lost then .lost else .halted)
           ∧ (b.caller n.val).normal = [] ∧ (b.caller n.val).fast = [] ∧ (b.caller n.val).wins = [] ∧ (b.caller n.val).reqs = []
           ∧ (b.caller n.val).inbox = [] ∧ (b.caller n.val).gen = (c.caller n.val).gen + 1))))
  ∧ (∀ (s : State) (k : Ch) (p : Party) (m : PhysId) (n : CallerId) (w : Word) (c : Chan), c = s.chan k.val →
       (c.asleep = false → c.mayWrite p (0x30100 + 8 * m.val) = true →
         (wbits w 0 4 = 1 → c.fld (F.ccPhysRole m.val) = 4 →
           Leads (.callerRetest k p m w) s k (fun b => b.fld (F.ccPhysRole m.val) = 3 ∧ b.callers = c.callers))
         ∧ (wbits w 0 4 = 2 → c.fld (F.ccPhysRole m.val) = 2 → (∀ e ∈ c.callers, e.2.standIn ≠ some m.val) →
           Leads (.callerRetire k p m w) s k (fun b => b.fld (F.ccPhysRole m.val) = 4 ∧ b.fld (F.ccPhysCause m.val) = 3
             ∧ b.callers = c.callers))
         ∧ (wbits w 0 4 = 2 → c.fld (F.ccPhysRole m.val) = 0 → c.callerOf m.val = some n.val → (c.caller n.val).standIn = none →
             (c.caller n.val).wins ≠ [] →
           Leads (.callerRetire k p m w) s k (fun b => b.caller n.val = { c.caller n.val with
             retire := true, wins := (b.caller n.val).wins } ∧ (b.caller n.val).wins.length = (c.caller n.val).wins.length)))
       ∧ (c.fld (F.ccPhysRole m.val) = 3 →
         Leads (.callerRetestComplete k m false) s k (fun b => b.fld (F.ccPhysRole m.val) = 4 ∧ b.fld (F.ccPhysCause m.val) = 4)
         ∧ ((∀ i, i < 4 → (c.caller i).st ≠ .lost) →
           Gives (.callerRetestComplete k m true) s k (c.setFld (F.ccPhysRole m.val) 2))
         ∧ ((∀ i, i < n.val → (c.caller i).st ≠ .lost) → (c.caller n.val).st = .lost →
           Leads (.callerRetestComplete k m true) s k (fun b => (b.caller n.val).st = .halted ∧ (b.caller n.val).phys = some m.val
             ∧ b.fld (F.ccPhysRole m.val) = 0 ∧ b.fld (F.ccPhysServes m.val) = n.val ∧ (∃ v ∈ b.ev.sent, v.src = 25))))
       ∧ (∀ (o : PhysId), (c.caller n.val).standIn = some m.val → (c.caller n.val).phys = some o.val → o ≠ m →
         Leads (.callerStandInComplete k n true) s k (fun b => b.caller n.val = { c.caller n.val with standIn := none, phys := some m.val }
           ∧ b.fld (F.ccPhysRole m.val) = 0 ∧ b.fld (F.ccPhysServes m.val) = n.val ∧ b.fld (F.ccPhysRole o.val) = 4
           ∧ b.fld (F.ccPhysCause o.val) = (c.caller n.val).standCause % 8 ∧ (∃ v ∈ b.ev.sent, v.src = 25))
         ∧ Gives (.callerStandInComplete k n false) s k (((c.retirePhys m.val 4).setCaller n.val
             { c.caller n.val with standIn := none }).startCallerStandIn n.val (c.caller n.val).standCause)))

/-! ## Flows and admission -/

/-- SOLO_GRANT gives a free slot to its first LIVE waiter and wakes its firing; SOLO_SLOT_RELEASE frees the slot of a dead owner; the
Solo cursor passes a position that is not HELD; HEAD passes a position that is free, and the firing that waits for the next one is
woken; a HEAD that has stood longer than HEADTIME raises source 320 + n once. Commands that it concludes to answer a next state, on the
conditions it states: soloGrant, soloSlotRelease, soloCursorAdvance, promenadeHeadAdvance, headTimeLimit. -/
def Obligations.FlowUnits : Prop :=
  ∀ (s : State) (k : Ch) (c : Chan), c = s.chan k.val →
    (∀ (q : SlotId) (x : SoloSlot) (t : Nat) (row : BitVec 6) (way : BitVec 5) (id : CtxId) (cls : BitVec 6)
        (r : List (Nat × BitVec 6 × BitVec 5 × CtxId × BitVec 6)) (p : Parked), x = c.solo q.val → x.owner = none →
        x.waiters = (t, row, way, id, cls) :: r →
      (c.live id.toNat = true → p ∈ c.ms.pool → p.tile = t → p.row = row → p.way = way → p.ctx = id → p.why = .slot q.val →
        Leads (.soloGrant k q) s k (fun b => b.solo q.val = { owner := some (id, c.cseq id.toNat), waiters := r }
          ∧ { p with woken := true } ∈ b.ms.pool ∧ b.ms.pool.length = c.ms.pool.length))
      ∧ (c.live id.toNat = false → Gives (.soloGrant k q) s k (c.setSolo q.val { x with waiters := r })))
    ∧ (∀ (q : SlotId) (id : CtxId) (cs : BitVec 16), (c.solo q.val).owner = some (id, cs) →
      (c.live id.toNat = false ∨ c.cseq id.toNat ≠ cs →
        Gives (.soloSlotRelease k q) s k (c.setSolo q.val { c.solo q.val with owner := none }))
      ∧ (c.live id.toNat = true → c.cseq id.toNat = cs → Gives (.soloSlotRelease k q) s k c))
    ∧ (∀ (n : OrdId) (i : Nat), i = ((c.ord n.val).cursor - (c.ord n.val).head).toNat → i < c.ordLen n.val →
      (posState (c.posAt n.val i) ≠ 0 → (∀ p ∈ c.ms.pool, p.why ≠ .cursor n.val (c.ord n.val).cursor) →
        Leads (.soloCursorAdvance k n) s k (fun b => b.ord n.val = { c.ord n.val with cursor := (c.ord n.val).cursor + 1 }
          ∧ b.ms = c.ms))
      ∧ ((posState (c.posAt n.val i) ≠ 0 ∨ ∃ p ∈ c.ms.pool, p.why = .cursor n.val (c.ord n.val).cursor) →
        Gives (.soloCursorAdvance k n) s k ((c.passCursor n.val i).soloAt n.val (c.ord n.val).cursor))
      ∧ (posState (c.posAt n.val i) = 0 → (∀ p ∈ c.ms.pool, p.why ≠ .cursor n.val (c.ord n.val).cursor) →
        Gives (.soloCursorAdvance k n) s k c))
    ∧ (∀ n : OrdId, c.ordLen n.val ≠ 0 →
      (c.headFree n.val = true → Leads (.promenadeHeadAdvance k n parityGood) s k (fun b =>
        (b.ord n.val).head = (c.ord n.val).head + 1 ∧ b.ordLen n.val + 1 = c.ordLen n.val ∧ (b.ord n.val).since = c.xclk
        ∧ (b.ord n.val).fired = false ∧ ∀ p ∈ b.ms.pool, p.why = .head n.val ((c.ord n.val).head + 1) → p.woken = true))
      ∧ (c.headFree n.val = false → Leads (.promenadeHeadAdvance k n parityGood) s k (fun b =>
        b.ord n.val = c.ord n.val ∧ b.ordLen n.val = c.ordLen n.val ∧ b.ms = c.ms)))
    ∧ (∀ (n : OrdId) (o : Ord), o = c.ord n.val →
      (c.ordLen n.val ≠ 0 → posState (c.posAt n.val 0) = 0 → o.limit ≠ 0 → o.fired = false → o.since + o.limit * 1024 ≤ c.xclk →
        Gives (.headTimeLimit k n) s k (((c.setOrd n.val { o with fired := true }).raise (320 + n.val)).inc F.flStatHeadlate))
      ∧ ((o.fired = true ∨ o.limit = 0 ∨ c.xclk < o.since + o.limit * 1024) → Gives (.headTimeLimit k n) s k c))

/-- The decision on a RUN at the head of a ring: a decline completes the entry with its reason, an acceptance holds it with DEADLINE
and COST and counts it as outstanding; a write of AD_CFG that a forbidden configuration would make is ignored as a whole. The rule of
R274. An accepted item is guaranteed, its cost is in range, a context and a position are free, its deadline is TIME plus BOUND, and
from its level down every level that has a deadline to meet finishes before it. Commands that it concludes to answer a next state, on
the conditions it states: admissionDecision, adCfgWrite. -/
def Obligations.Admission : Prop :=
  (∀ (s : State) (k : Ch) (c : Chan), c = s.chan k.val →
     (∀ (r : RingId) (l : Line) (d : Chan), c.mayFetch r.val = true →
         c.xlateOpen (c.sqBase r.val + 64 * c.sqSlot r.val) 64 = true → c.engineRead (c.sqBase r.val + 64 * c.sqSlot r.val) 64 = (d, true) →
             lineOpc l = 1 → lineFence l = false → lineBad l = none →
       (∀ n, d.admission s.dev.time (d.fld (F.rgSctxTempo r.val)) (wbits l.w0 0 32) (d.fld (F.rgSctxFlow r.val)) = .decline n →
         Leads (.admissionDecision k r (.ok l)) s k (fun b => (b.cring (c.cqOf r.val)).cpls = (c.cring (c.cqOf r.val)).cpls ++
             [{ status := BitVec.ofNat 8 n, sq := r.val, slot := BitVec.ofNat 16 (c.sqSlot r.val), bumpCi := true }]
           ∧ (b.ring r.val).out = (c.ring r.val).out ∧ (b.ring r.val).busy = (c.ring r.val).busy + 1
           ∧ (b.ring r.val).fetched = none))
       ∧ (∀ dl cost t, d.admission s.dev.time (d.fld (F.rgSctxTempo r.val)) (wbits l.w0 0 32) (d.fld (F.rgSctxFlow r.val))
             = .accept dl cost t →
         Leads (.admissionDecision k r (.ok l)) s k (fun b => (b.ring r.val).fetched = some l
           ∧ (b.ring r.val).admitted = some { deadline := dl, cost := BitVec.ofNat 32 cost, guar := true, tc := d.fld (F.rgSctxTempo r.val) }
           ∧ (b.ring r.val).out = (c.ring r.val).out + 1 ∧ (b.ring r.val).ci = (c.ring r.val).ci
           ∧ b.deadlines (d.fld (F.adTcfgLevel (d.fld (F.rgSctxTempo r.val))))
             = c.deadlines (d.fld (F.adTcfgLevel (d.fld (F.rgSctxTempo r.val)))) ++ [dl]))
       ∧ (d.admission s.dev.time (d.fld (F.rgSctxTempo r.val)) (wbits l.w0 0 32) (d.fld (F.rgSctxFlow r.val)) = .best →
         Leads (.admissionDecision k r (.ok l)) s k (fun b => (b.ring r.val).fetched = some l
           ∧ (b.ring r.val).admitted = some { tc := d.fld (F.rgSctxTempo r.val) } ∧ (b.ring r.val).out = (c.ring r.val).out + 1)))
     ∧ (∀ (p : Party) (w : Word), c.served 0x5600 = true → c.mayWrite p 0x5600 = true →
       (wbit w 63 = true → (c.wrFields 0x5600 w).adForbidden = true → Leads (.adCfgWrite k p w) s k (fun b => b.regs = c.regs))
       ∧ ((wbit w 63 = false ∨ (c.wrFields 0x5600 w).adForbidden = false) → Leads (.adCfgWrite k p w) s k (fun b =>
         b.flag F.adCfgEn = wbit w 63 ∧ b.fld F.adCfgCostclk = wbits w 0 16 ∧ b.fld F.adCfgMinmhz = wbits w 32 16))))
  ∧ (∀ (c : Chan) (now tc x n dl cost t : Nat), c.admission now tc x n = .accept dl cost t →
       c.flag F.adCfgEn = true ∧ c.flag (F.adTcfgEn tc) = true ∧ c.flag (F.adTcfgGuar tc) = true
       ∧ c.cost (c.fld (F.adTcfgCurve tc)) x (List.range 8) = some cost ∧ dl = now + c.fld (F.adTcfgBound tc)
       ∧ t = (cost * c.fld F.adCfgCostclk + 255) / 256 ∧ c.freeIds ≠ 0 ∧ c.gate false 1 = true
       ∧ (c.deadlines (c.fld (F.adTcfgLevel tc))).length < 1024
       ∧ (∀ q e, c.fld (F.adTcfgLevel tc) ≤ q → q < 8 → (c.deadlines q).min? = some e →
           max (c.finishAt now q) now + t + c.margin q ≤ e)
       ∧ cost ≠ 0xFFFFFFFF)

/-! ## Cut-in -/

/-- BACKGROUND_EVICTION starts the eviction of the earliest entry past AGE to the first free record of its probe buckets;
EVICTION_COMPLETE writes the record, frees the entry, leaves MSCOUNT, and sends the tokens that waited for the key to the Cut-in queue,
as far as it has room; SPILL_RETRY_TIMEOUT tries the deferred token again; CUT_IN_LOOKUP writes an operand into its record, or returns
the token to the row compare; the stall monitor raises source 15. A spill record written to memory reads back whole. Commands that it
concludes to answer a next state, on the conditions it states: backgroundEviction, evictionComplete, spillRetryTimeout, cutInLookup,
stallMonitorFire. -/
def Obligations.CutInAndSpill : Prop :=
  (∀ (s : State) (k : Ch) (t : Tile) (c : Chan), c = s.chan k.val →
     (∀ (errs : LineErrs) (v : Nat × MEntry) (b i : Nat) (d : Chan), c.flag F.msWmstatNow = true → c.flag F.pgSpillcfgEn = true →
         (c.tile t.val).evict = none → c.backgroundVictim c.xclk t.val = some v → c.dmSecond (c.victimLines [v]) = true →
         d = c.dmTouch.cleanProbe c.xclk errs v.2.ctx.toNat v.2.ip.toNat →
         d.freeSlot v.2.ctx.toNat v.2.ip.toNat (List.range d.nProbe) = some (b, i) →
       Leads (.backgroundEviction k t errs) s k (fun e => (e.tile t.val).evict = some { e := v.1, bucket := b, slot := i }
         ∧ e.ms.entries = d.ms.entries ∧ (errs = [] → e.ms.entries = c.ms.entries)))
     ∧ (∀ (errs : LineErrs) (v : Evict) (x : MEntry), (c.tile t.val).evict = some v → c.entry t.val v.e = some x →
         c.dmSecond (c.evictLines v) = true →
       Leads (.evictionComplete k t errs) s k (fun b => (b.tile t.val).evict = none ∧ b.entry t.val v.e = none
         ∧ (∀ m ∈ (b.tile t.val).miss, waitsEvict x m = false)
         ∧ (errs = [] → v.bucket < c.nBuckets → v.slot < 8 →
           (b.tile t.val).spilled = (c.tile t.val).spilled + 1 ∧ b.cu = c.cu
           ∧ b.readRec (c.recAddr v.bucket v.slot) = some (c.spillRec s.dev t.val v.e x)
           ∧ (c.ms.cutq.length + ((c.tile t.val).miss.filter (waitsEvict x)).length ≤ 32 → b.ms.cutq = c.ms.cutq ++ ((c.tile t.val).miss.filter (waitsEvict x)).map (fun m => ⟨t.val, m.tok, m.word⟩)))))
     ∧ (∀ (errs : LineErrs) (tok : Token) (w : Word) (n : Nat) (r : List Deferred),
         (c.tile t.val).defer = { tok := tok, word := w, stuckAt := some n } :: r →
       (n + 1024 ≤ c.xclk → Gives (.spillRetryTimeout k t errs) s k
         ((c.setTile t.val { c.tile t.val with defer := { tok := tok, word := w } :: r }).demandEvict c.xclk t.val errs))
       ∧ (c.xclk < n + 1024 → Gives (.spillRetryTimeout k t errs) s k c))
     ∧ (∀ (errs : LineErrs) (u : Nat) (tok : Token) (w : Word) (r : List CutTok) (d : Chan), c.ms.cutq = ⟨u, tok, w⟩ :: r →
         c.dmSecond (c.probeLines (tagCtx tok.tag) (tagIp tok.tag)) = true →
       (∀ b i q, Chan.lookup c.xclk errs tok (List.range c.nProbe) (c.dmTake s.dev.time) = (d, some (b, i)) →
         d.readRec (d.recAddr b i) = some q → (q.fill tok).got ≠ (q.fill tok).need →
         Leads (.cutInLookup k errs) s k (fun e => e.readRec (d.recAddr b i) = some (q.fill tok)
           ∧ e.ms = { d.ms with cutq := d.ms.cutq.drop 1 }))
       ∧ (∀ b i q e, Chan.lookup c.xclk errs tok (List.range c.nProbe) (c.dmTake s.dev.time) = (d, some (b, i)) →
         d.readRec (d.recAddr b i) = some q → (q.fill tok).got = (q.fill tok).need →
         d.reload c.xclk u b i (q.fill tok) w errs = some e → Gives (.cutInLookup k errs) s k e)
       ∧ (∀ e, Chan.lookup c.xclk errs tok (List.range c.nProbe) (c.dmTake s.dev.time) = (d, none) →
         d.noRecord c.xclk u tok w errs = some e → Gives (.cutInLookup k errs) s k e))
     ∧ (∀ (errs : LineErrs) (x : CutTok) (r : List CutTok), c.ms.cutq = x :: r →
         c.dmSecond (c.probeLines (tagCtx x.tok.tag) (tagIp x.tok.tag)) = false → Gives (.cutInLookup k errs) s k c)
     ∧ (c.flag F.pgStallEn = true → max 4096 (c.fld F.pgStallLimit) ≤ c.ms.stall → Leads (.stallMonitorFire k) s k (fun b =>
         b.flag F.pgStallFired = true ∧ b.ms.stall = 0 ∧ b.ev.sent = c.ev.sent ++ [{ src := 15, tile := evSender 15 }]))
     ∧ (c.ms.stall < max 4096 (c.fld F.pgStallLimit) → Gives (.stallMonitorFire k) s k c))
  ∧ (∀ (c : Chan) (a : Nat) (r : SRec), (c.writeRec a r).readRec a = some r)

/-! ## The queue unit -/

/-- QPUSH, QPOP, QMARK, QREWIND and QRELEASE at the unit: what each does to the pointers of a software queue, and the word a QPOP
takes; a queue that may not be addressed raises cause 0x27. A second push, or a second read, of an XCLK waits for the next (R335). The
pop waiters of dead contexts are removed and counted; a lost ready queue is rebuilt from the bank's MATCHED entries; the failed head of
a ring queue is written again from its descriptor. Commands that it concludes to answer a next state, on the conditions it states:
queueUnitOperation, popWaiterRemoval, readyQueueRebuild, rebuildComplete, ringTokenRegeneration. -/
def Obligations.QueueUnit : Prop :=
  (∀ (s : State) (k : Ch) (t : Tile) (p : NPkt) (r : Req) (q : Nat) (c : Chan) (x : QPtr), c = s.chan k.val →
     c.arrived t.val 1 = some p → p.pay = .req r → r.kind.queue = some q → c.domUp 4 = true → x = c.qptr q →
     (c.qTurnOver q r = true → Gives (.queueUnitOperation k t parityGood) s k c)
     ∧ (c.qTurnOver q r = false → (q < 960 ∨ c.qEn q = false) → Gives (.queueUnitOperation k t parityGood) s k
       ((c.takeArrived t.val 1).causeFor c.xclk r 0x27 (BitVec.ofNat 32 q)))
     ∧ (c.qTurnOver q r = false → 960 ≤ q → c.qEn q = true →
       (r.kind = .qpush q → c.qRoom q = true → c.popWaiter q = none → Leads (.queueUnitOperation k t parityGood) s k (fun b =>
         (b.qptr q).held = x.held + c.qUnit q ∧ (b.qptr q).unread = x.unread + c.qUnit q ∧ (b.qptr q).rel = x.rel
         ∧ (b.qptr q).wr = (x.wr + c.qUnit q) % max 1 (c.qCap q) ∧ b.qWord (c.qBase q + x.wr) = softWord r.d0
         ∧ b.arrived t.val 1 = none))
       ∧ (r.kind = .qpush q → c.qRoom q = false → Gives (.queueUnitOperation k t parityGood) s k
         ((c.takeArrived t.val 1).reply t.val r.reply (statusOpd 1 x.held) (statusOpd 1 x.held)))
       ∧ (r.kind = .qpop q → c.whoLive r.who = true → c.qGives q = true → c.qRetain q = true →
         Leads (.queueUnitOperation k t parityGood) s k (fun b => (b.qptr q) = { c.qNow q with unread := x.unread - c.qUnit q, reads := 1 }
           ∧ ∀ n g id, r.reply = .regs n g id → b.net = ((c.takeArrived t.val 1).inject t.val
               { pay := .result n g id ((softOpd (c.qItem q (c.qRead q))).orPoison false)
                          ((softOpd (c.qItem q (c.qRead q))).orPoison false), cls := true, dkind := 5, dtile := 35, nflit := 1 }).net))
       ∧ (r.kind = .qpop q → c.whoLive r.who = true → c.qGives q = true → c.qRetain q = false → r.reply = .tags none none →
         Leads (.queueUnitOperation k t parityGood) s k (fun b => (b.qptr q).held = x.held - min (c.qUnit q) x.held))
       ∧ (r.kind = .qpop q → c.whoLive r.who = true → c.qGives q = false → c.qu.waiters.length < 256 →
         Gives (.queueUnitOperation k t parityGood) s k { c.takeArrived t.val 1 with
           qu := { c.qu with waiters := c.qu.waiters ++ [⟨q, r⟩] } })
       ∧ (r.kind = .qmark q → c.qRetain q = true → Leads (.queueUnitOperation k t parityGood) s k (fun b =>
         b.qptr q = { x with marks := [x.held - x.unread - (c.qNow q).reads * c.qUnit q] }))
       ∧ (r.kind = .qrewind q → c.qRetain q = true → Leads (.queueUnitOperation k t parityGood) s k (fun b =>
         b.qptr q = { c.qNow q with unread := x.held - x.marks.headD 0, reads := (c.qNow q).reads + 1 }))
       ∧ (r.kind = .qrelease q → c.qRetain q = true → Leads (.queueUnitOperation k t parityGood) s k (fun b =>
         (b.qptr q).marks = [] ∧ (b.qptr q).wr = x.wr ∧ ((x.held - x.unread) % c.qUnit q = 0 → x.unread ≤ x.held →
           (b.qptr q).held = x.unread ∧ (b.qptr q).unread = x.unread)))
       ∧ ((r.kind = .qmark q ∨ r.kind = .qrewind q ∨ r.kind = .qrelease q) → c.qRetain q = false →
         Gives (.queueUnitOperation k t parityGood) s k
           ((c.takeArrived t.val 1).reply t.val r.reply (statusOpd 3 x.held) (statusOpd 3 x.held)))))
  ∧ (∀ (s : State) (k : Ch) (c : Chan), c = s.chan k.val →
       (∀ (i : Nat) (w : PopWait) (id : CtxId) (v : BitVec 48), c.qu.waiters[i]? = some w → w.req.who = .ctx id v →
         (c.whoLive w.req.who = false → Gives (.popWaiterRemoval k i) s k
           (({ c with qu := { c.qu with waiters := dropNth c.qu.waiters i } } : Chan).cancel id.toNat))
         ∧ (c.whoLive w.req.who = true → Gives (.popWaiterRemoval k i) s k c))
       ∧ (∀ (t : Tile) (e : Nat) (x : MEntry) (p : FPacket), (c.tile t.val).rebuild = true → (c.tile t.val).scanned = false → e < 1536 →
           c.ms.entries.filter (fun v => v.1 / 1536 == t.val) = [(1536 * t.val + e, x)] → c.rebuilt t.val e x = true →
           c.live x.ctx.toNat = true → p = packetOf (c.instr x.ip.toNat) x e →
         Gives (.readyQueueRebuild k t) s k ((c.qPush (8 * t.val + p.prio.toNat) (packetWord p)).setTile t.val
           { c.tile t.val with scanned := true }))
       ∧ (∀ t : Tile, (c.tile t.val).rebuild = true → (c.tile t.val).scanned = true →
         Gives (.rebuildComplete k t) s k (c.setTile t.val { c.tile t.val with rebuild := false, scanned := false }))
       ∧ (∀ (r : RingId) (x : RTok) (more : List RTok) (d : Chan) (l : Line),
           (c.ring r.val).badHead = true → (c.ring r.val).toks = x :: more → c.ringsOn = true →
           c.xlateOpen (c.sqBase r.val + 64 * x.slot.toNat) 64 = true →
           c.engineRead (c.sqBase r.val + 64 * x.slot.toNat) 64 = (d, true) →
         Leads (.ringTokenRegeneration k r (.ok l)) s k (fun b => (b.ring r.val).badHead = false
           ∧ (b.ring r.val).toks = x :: more
           ∧ b.qWord (c.qAddr (512 + r.val) (c.qRead (512 + r.val))) = tokWord (c.argToken r.val x.ctx.toNat l x.arg) 0
           ∧ b.qptr (512 + r.val) = c.qptr (512 + r.val))))

/-! ## Scratchpad and Shuffle -/

/-- SCRATCHPAD_ACCESS: a request that touches one bank and no locked byte is carried out and answered, whatever the codes of its words
find: a load answers the bytes, a store writes its bytes and no other, an atomic writes the new word and answers the old one; a request
that meets a locked byte waits; a request that touches two banks begins a split access. The bytes are those that accesses find,
whichever copy of the Shuffle serves them. A split access: its primary part is held back, the secondary part is read or locked as its
message arrives, the reply joins the parts or writes the primary part, and go writes the rest. SCRATCHPAD_CLEAR_COMPLETE ends the
clearing under way, during which no bank takes an access; the contents stay as they are. Commands that it concludes to answer a next
state, on the conditions it states: scratchpadAccess, splitSecondaryPart, splitReply, splitGo, scratchpadClearComplete. -/
def Obligations.Scratchpad : Prop :=
  (∀ (s : State) (k : Ch) (t : Tile) (p : NPkt) (r : Req) (c : Chan) (a : Nat) (e : WordErrs) (d : Chan), c = s.chan k.val →
     c.spReady = true → c.copiesApart → c.spNext t.val = none → c.arrived t.val 1 = some p → p.pay = .req r → c.spRequest r = true →
     a = r.addr.toNat → d = (((c.takeArrived t.val 1).useBank t.val).spRead r a r.firstLen e).1 →
     (c.spBlocked r c.sp.waiting = true → Gives (.scratchpadAccess k t e) s k { c.takeArrived t.val 1 with
       sp := { c.sp with waiting := c.sp.waiting ++ [(t.val, r)] } })
     ∧ (c.spBlocked r c.sp.waiting = false → isSplit a r.size = true → Leads (.scratchpadAccess k t e) s k (fun b => b.mem = c.mem
         ∧ b.sp.waiting = c.sp.waiting ∧ b.arrived t.val 1 = none ∧ ∃ x : Split, b.sp.splits = c.sp.splits ++ [x] ∧ x.req = r
         ∧ x.t1 = t.val ∧ x.t2 = bankOf (a + primLen a) ∧ x.stage = 0 ∧ x.got = false ∧ x.data1 = c.bytesAt a (primLen a)))
     ∧ (c.spBlocked r c.sp.waiting = false → isSplit a r.size = false →
       (r.kind = .ld → Gives (.scratchpadAccess k t e) s k (d.reply t.val r.reply
         (loadOpds r (c.bytesAt a r.size) (d.bytePoison a r.size)).1 (loadOpds r (c.bytesAt a r.size) (d.bytePoison a r.size)).2))
       ∧ (r.kind = .st → Leads (.scratchpadAccess k t e) s k (fun b => b.arrived t.val 1 = none
         ∧ ∀ x, inRam x → b.byteAt x = if a ≤ x ∧ x < a + r.size then (storeBytes r).1.getD (x - a) 0 else c.byteAt x))
       ∧ (a % 8 = 0 →
         (r.kind = .cas → Leads (.scratchpadAccess k t e) s k (fun b =>
           b.wordAt a = (if c.wordAt a = r.d0.val then r.d1.val else c.wordAt a)
           ∧ ∀ x, inRam x → (x < a ∨ a + 8 ≤ x) → b.byteAt x = c.byteAt x))
         ∧ (r.kind = .swap → Leads (.scratchpadAccess k t e) s k (fun b => b.wordAt a = r.d0.val
           ∧ ∀ x, inRam x → (x < a ∨ a + 8 ≤ x) → b.byteAt x = c.byteAt x))
         ∧ (r.kind = .xadd → Leads (.scratchpadAccess k t e) s k (fun b => b.wordAt a = c.wordAt a + r.d0.val
           ∧ ∀ x, inRam x → (x < a ∨ a + 8 ≤ x) → b.byteAt x = c.byteAt x))
         ∧ (r.kind = .acc → Leads (.scratchpadAccess k t e) s k (fun b => b.wordAt a = accAdd (c.wordAt a) r.d0.val
           ∧ ∀ x, inRam x → (x < a ∨ a + 8 ≤ x) → b.byteAt x = c.byteAt x)))))
  ∧ (∀ (s : State) (k : Ch) (t : Tile) (c : Chan) (i : Nat) (x : Split) (a n : Nat), c = s.chan k.val → c.spReady = true → c.copiesApart →
       a = x.req.addr.toNat → n = primLen a → a + x.req.size ≤ scratchSize →
       (∀ e : WordErrs, c.splitFor (fun x => x.t2 == t.val && x.stage == 0 && x.got && !c.spLocked x.second.1 x.second.2
           && !(x.req.kind == .st && decide (4 ≤ c.pendingRegs t.val))) = some (i, x) →
         (x.req.kind = .st → Leads (.splitSecondaryPart k t e) s k (fun b => b.mem = c.mem ∧ b.net = (c.splitMsg x t.val x.t1).net
           ∧ b.sp.splits = setNth c.sp.splits i { x with stage := 1, got := false }))
         ∧ (x.req.kind = .ld → Leads (.splitSecondaryPart k t e) s k (fun b => b.mem = c.mem ∧ b.net = (c.splitMsg x t.val x.t1).net
           ∧ b.sp.splits = setNth c.sp.splits i { x with
               stage := 1, got := false, data := c.bytesAt (a + n) (x.req.size - n),
               poison := (c.spRead x.req (a + n) (x.req.size - n) e).1.bytePoison (a + n) (x.req.size - n) })))
       ∧ (c.splitFor (fun x => x.t1 == t.val && x.stage == 1 && x.got) = some (i, x) →
         (x.req.kind = .st → Leads (.splitReply k t) s k (fun b => b.sp.splits = setNth c.sp.splits i { x with stage := 2, got := false }
           ∧ ∀ y, inRam y → b.byteAt y = if a ≤ y ∧ y < a + min n (storeBytes x.req).1.length then (storeBytes x.req).1.getD (y - a) 0
               else c.byteAt y))
         ∧ (x.req.kind = .ld → Gives (.splitReply k t) s k ((c.dropSplit i).reply t.val x.req.reply
           (loadOpds x.req (x.data1 ++ x.data) (x.poison1 ++ x.poison)).1 (loadOpds x.req (x.data1 ++ x.data) (x.poison1 ++ x.poison)).2)))
       ∧ (c.splitFor (fun x => x.t2 == t.val && x.stage == 2 && x.got) = some (i, x) → Leads (.splitGo k t) s k (fun b =>
           b.sp.splits = dropNth c.sp.splits i
           ∧ ∀ y, inRam y → b.byteAt y = if a + n ≤ y ∧ y < a + (storeBytes x.req).1.length then (storeBytes x.req).1.getD (y - a) 0
               else c.byteAt y)))
  ∧ (∀ (s : State) (k : Ch) (c : Chan), c = s.chan k.val → c.sp.clearing = true →
       c.spReady = false ∧ (∀ t e, Gives (.scratchpadAccess k t e) s k c)
       ∧ Gives (.scratchpadClearComplete k) s k { c with sp := { c.sp with clearing := false } }
       ∧ (c.domUp 4 = true → (c.dom 4).retention = false → Leads (.scratchpadClearComplete k) s k (fun b => b.spReady = true ∧ b.mem = c.mem)))

/-- The Shuffle of an array: it borrows its next region when that is due, copies, tests and restores it; a faulty region is served by
the repair copy from then on, and is not borrowed again; a second one halts the array, and every byte reads on as before; a step ends
once its beats are done; SP_SHUFREP names a region to the service firmware alone. Commands that it concludes to answer a next state, on
the conditions it states: shuffleRegionStart, shuffleCopyComplete, shuffleTestComplete, shuffleRestoreComplete, shufrepGo. -/
def Obligations.ShuffleSteps : Prop :=
  ∀ (s : State) (k : Ch) (a : Arr) (c : Chan) (x : Shuf), c = s.chan k.val → x = c.shuf a → c.memAwake = true →
    (x.step = 0 → x.halted = false → c.flag F.spShufEn = true → c.memGoing = false → x.dueAt ≤ s.dev.time →
      Gives (.shuffleRegionStart k a) s k (c.setShuf a { x with
        step := 1, prog := 0, region := x.next, prev := x.region, dueAt := s.dev.time + max 100 (c.fld F.spShufPeriod) * 100000 / arrRegions a }))
    ∧ ((c.flag F.spShufEn = false ∨ c.memGoing = true ∨ x.step ≠ 0 ∨ x.halted = true ∨ s.dev.time < x.dueAt) →
      Gives (.shuffleRegionStart k a) s k c)
    ∧ (x.step = 1 → 16 ≤ x.prog → Gives (.shuffleCopyComplete k a) s k (c.setShuf a { x with step := 2, prog := 0 }))
    ∧ (x.step = 2 → 320 ≤ x.prog → Gives (.shuffleTestComplete k a false) s k (c.setShuf a { x with step := 3, prog := 0 }))
    ∧ ((x.step ≠ 1 ∨ x.prog < 16) → Gives (.shuffleCopyComplete k a) s k c)
    ∧ ((x.step ≠ 2 ∨ x.prog < 320) → ∀ bad, Gives (.shuffleTestComplete k a bad) s k c)
    ∧ ((x.step ≠ 3 ∨ x.prog < 16) → Gives (.shuffleRestoreComplete k a) s k c)
    ∧ (x.step = 2 → 320 ≤ x.prog → c.copiesApart → x.spare = none → Leads (.shuffleTestComplete k a true) s k (fun b => (b.shuf a).spare = some x.region
        ∧ (b.shuf a).step = 0 ∧ (b.shuf a).halted = x.halted ∧ (b.shuf a).served x.region = .repair
        ∧ b.ev.sent = c.ev.sent ++ [{ src := 18, tile := evSender 18 }] ∧ ∀ y, y < scratchSize → b.byteAt y = c.byteAt y))
    ∧ (x.step = 2 → 320 ≤ x.prog → c.copiesApart → x.spare ≠ none → Leads (.shuffleTestComplete k a true) s k (fun b =>
        b.shuf a = { x with step := 0, prog := 0, halted := true, haltAt := x.region }
        ∧ b.ev.sent = c.ev.sent ++ [{ src := 18, tile := evSender 18 }] ∧ ∀ y, y < scratchSize → b.byteAt y = c.byteAt y))
    ∧ (x.step = 3 → 16 ≤ x.prog → Leads (.shuffleRestoreComplete k a) s k (fun b => (b.shuf a).step = 0 ∧ (b.shuf a).spare = x.spare
        ∧ (x.region < arrRegions a → (b.shuf a).next < arrRegions a ∧ (b.shuf a).spare ≠ some (b.shuf a).next)
        ∧ (x.region + 1 = arrRegions a → x.spare ≠ some 0 → (b.shuf a).next = 0 ∧ (b.shuf a).passes = x.passes + 1)
        ∧ (x.region + 1 < arrRegions a → x.spare ≠ some (x.region + 1) →
          (b.shuf a).next = x.region + 1 ∧ (b.shuf a).passes = x.passes)
        ∧ (x.region + 2 < arrRegions a → x.spare = some (x.region + 1) →
          (b.shuf a).next = x.region + 2 ∧ (b.shuf a).passes = x.passes)))
    ∧ (∀ (w : Word) (b : Tile), c.served (0x19400 + 8 * b.val) = true → a = .scratch b → wbit w 63 = true → wbits w 0 9 < 384 →
      (x.halted = true → Leads (.shufrepGo k .service b w) s k (fun d => d.shuf a = { x with spent := true }))
      ∧ (x.halted = false → x.spare = none → x.step = 0 → x.next ≠ wbits w 0 9 → Leads (.shufrepGo k .service b w) s k (fun d =>
        d.shuf a = { x with spare := some (wbits w 0 9) }))
      ∧ (x.halted = false → x.spare = none → Leads (.shufrepGo k .service b w) s k (fun d =>
        (d.shuf a).step = 0 ∧ (d.shuf a).spare = some (wbits w 0 9) ∧ (d.shuf a).halted = false ∧ (d.shuf a).next ≠ wbits w 0 9))
      ∧ (x.halted = false → x.spare = some (wbits w 0 9) → Leads (.shufrepGo k .service b w) s k (fun d => (d.shuf a).step = 0
        ∧ (d.shuf a).spare = x.spare ∧ (d.shuf a).halted = false))
      ∧ (x.halted = false → x.spare ≠ none → x.spare ≠ some (wbits w 0 9) → Leads (.shufrepGo k .service b w) s k (fun d => (d.shuf a).step = 0
        ∧ (d.shuf a).spare = x.spare ∧ (d.shuf a).region = wbits w 0 9 ∧ (d.shuf a).haltAt = wbits w 0 9 ∧ (d.shuf a).halted = true))
      ∧ Leads (.shufrepGo k .host b w) s k (fun d => d.sp = c.sp))

/-! ## Locks -/

/-- The lock units. A request without the rights of its group raises cause 0x2A; ACQ of a FREE lock takes it with GEN + 1, of another's
lock waits, of its own answers 1; TRYACQ never waits; REL of the holder frees the lock or makes a grant due; a due grant goes to the
oldest live waiter; what a poisoned lock word answers is poisoned; the lock of a holder that is gone is ABANDONED. Commands that it
concludes to answer a next state, on the conditions it states: lockUnitRequest, lockGrant, lockAbandon, lockWaiterRemoval. -/
def Obligations.LockUnits : Prop :=
  ∀ (s : State) (k : Ch) (c : Chan), c = s.chan k.val → c.spReady = true →
    (∀ (t : Tile) (p : NPkt) (r : Req) (i : Nat) (x : Lock) (id : CtxId) (v : BitVec 48) (e : Ecc) (d : Chan), c.arrived t.val 1 = some p → p.pay = .req r →
        i = lockIx r.addr.toNat → d = (c.takeArrived t.val 1).lockCode i e → x = d.lock i → x.due = false → r.who = .ctx id v →
      (r.kind.isLock = true → d.lockRights r (i / 64) = false → Gives (.lockUnitRequest k t e) s k
        ((d.inc F.lkStatDenied).causeFor c.xclk r 0x2A (BitVec.ofNat 32 i)))
      ∧ (d.lockRights r (i / 64) = true →
        ((r.kind = .acq ∨ (r.kind = .tryacq ∧ x.waiters = [])) → d.whoLive r.who = true → x.st = 0 →
          Leads (.lockUnitRequest k t e) s k (fun b => b.lock i = { x with
            st := 1, hkind := false, holder := id, hseq := v.truncate 16, gen := x.gen + 1, hgen := 0 }))
        ∧ (r.kind = .acq → d.whoLive r.who = true → x.st ≠ 0 → x.heldBy r.who = false → d.lockWaiters < 4096 →
          Gives (.lockUnitRequest k t e) s k (d.setLock i { x with waiters := x.waiters ++ [⟨r.who, r.reply⟩] }))
        ∧ ((r.kind = .acq ∨ r.kind = .tryacq) → d.whoLive r.who = true → x.heldBy r.who = true →
          Gives (.lockUnitRequest k t e) s k (d.reply (i / 64) r.reply (mkOpd 1 1 (d.lockBad i)) (mkOpd 1 1 (d.lockBad i))))
        ∧ (r.kind = .tryacq → d.whoLive r.who = true → x.st ≠ 0 → x.heldBy r.who = false →
          Gives (.lockUnitRequest k t e) s k (d.reply (i / 64) r.reply (mkOpd 0 1 (d.lockBad i)) (mkOpd 0 1 (d.lockBad i))))
        ∧ (r.kind = .rel → x.heldBy r.who = true → x.waiters = [] → Leads (.lockUnitRequest k t e) s k (fun b =>
          (b.lock i).st = 0 ∧ (b.lock i).holder = 0 ∧ (b.lock i).hseq = 0 ∧ (b.lock i).gen = x.gen ∧ (b.lock i).waiters = []))
        ∧ (r.kind = .rel → x.heldBy r.who = true → x.waiters ≠ [] → Leads (.lockUnitRequest k t e) s k (fun b =>
          b.lock i = { x with due := true }))
        ∧ (r.kind = .ldLock → Gives (.lockUnitRequest k t e) s k
          (d.reply (i / 64) r.reply (mkOpd x.word 6 (d.lockBad i)) (mkOpd x.word 6 (d.lockBad i))))))
    ∧ (∀ (i : LockId) (id : CtxId) (v : BitVec 48) (rep : Reply) (r : List LWait), (c.lock i.val).due = true →
        (c.lock i.val).waiters = ⟨.ctx id v, rep⟩ :: r → c.whoLive (.ctx id v) = true →
      Leads (.lockGrant k i) s k (fun b => b.lock i.val = { c.lock i.val with
        st := 1, hkind := false, holder := id, hseq := v.truncate 16, gen := (c.lock i.val).gen + 1, hgen := 0, due := false,
        waiters := r }))
    ∧ (∀ i : LockId, (c.lock i.val).st = 1 → (c.lock i.val).due = false → c.holderGone (c.lock i.val) = true →
      Leads (.lockAbandon k i) s k (fun b => b.lock i.val = { c.lock i.val with st := 2 } ∧ (∃ m ∈ b.ev.sent, m.src = 19)
        ∧ b.flag F.lkAbandValid = true ∧ (c.flag F.lkAbandValid = false → b.fld F.lkAbandIndex = i.val)))
    ∧ (∀ (i : LockId), (c.lock i.val).st = 1 → c.holderGone (c.lock i.val) = false → Gives (.lockAbandon k i) s k c)
    ∧ (∀ (n i j : Nat) (id : CtxId) (v : BitVec 48) (rep : Reply), waiterAt c.locks n = some (i, j) →
        (c.lock i).waiters[j]? = some ⟨.ctx id v, rep⟩ → c.whoLive (.ctx id v) = false →
      Gives (.lockWaiterRemoval k n) s k
        ((c.setLock i { c.lock i with waiters := dropNth (c.lock i).waiters j }).cancel id.toNat))

/-! ## GDDR7 -/

/-- Requests to the memory: one that reaches outside the usable range raises cause 0x28, one inside is accepted in service, one in an
MCLK, and held otherwise; a completed load answers its bytes, a store writes its bytes and no other, and a request waits for earlier
ones to its lines and for those that have aged, a load or an atomic also for context-cache fills, Cut-in and table walks; 1 µs without
a request powers the memory down in C1 and C2. EN of DM_CFG: set with a legal RATE and DENS it starts the training program at START
with STATE START, and with any other RATE or DENS it stays 0; cleared while no program runs and no request is accepted it loses the
contents and STATE reads IDLE, and otherwise the controller is to stop. What the end of a program leaves: STATE READY after success,
FAILED with EN 0 and source 20 after the failure of the first program; the periodic program counts in RETRAINS. Commands that it
concludes to answer a next state, on the conditions it states: gddr7RequestAccept, gddr7RequestComplete, gddr7PowerDown, dmEnable,
dmDisable, trainingProgramComplete. -/
def Obligations.Gddr7Service : Prop :=
  (∀ (s : State) (k : Ch) (c : Chan), c = s.chan k.val →
     (∀ (p : NPkt) (r : Req), c.arrived 28 5 = some p → p.pay = .req r → c.domUp 6 = true →
       ((c.range r.addr.toNat ≠ .dram ∨ c.range (r.addr.toNat + r.size - 1) ≠ .dram) → Gives (.gddr7RequestAccept k) s k
         (((c.takeArrived 28 5).countCause 0x28).causeFor c.xclk r 0x28 (detail28 r.addr.toNat)))
       ∧ (c.range r.addr.toNat = .dram → c.range (r.addr.toNat + r.size - 1) = .dram → c.dmState = 2 → c.dm.stopDue = false →
         c.dm.accAt ≠ some c.dm.mclk → c.dm.acc.length < 128 →
         Gives (.gddr7RequestAccept k) s k { c.takeArrived 28 5 with
           dm := { c.dm with acc := c.dm.acc ++ [{ req := r, at_ := c.dm.mclk }], accAt := some c.dm.mclk, powerDown := false,
                             idleSince := s.dev.time } })
       ∧ (c.range r.addr.toNat = .dram → c.range (r.addr.toNat + r.size - 1) = .dram →
         (c.dmState ≠ 2 ∨ c.dm.stopDue = true ∨ c.dm.accAt = some c.dm.mclk ∨ 128 ≤ c.dm.acc.length) →
         Gives (.gddr7RequestAccept k) s k c))
     ∧ (∀ (i : Nat) (q : Acpt) (d : Chan) (e : LineErrs), c.dm.acc[i]? = some q → c.dmState = 2 → dramBase ≤ q.req.addr.toNat →
         d = { c with dm := { c.dm with acc := dropNth c.dm.acc i, idleSince := s.dev.time } } →
       (((c.dm.acc.take i).any (fun p => sameLine q.req p.req) = true
           ∨ ((c.dmAged q) = false ∧ c.dm.acc.any (fun p => c.dmAged p) = true)
           ∨ ((c.dmAged q) = false ∧ q.req.kind ≠ .st ∧ c.dmFree = false)) → Gives (.gddr7RequestComplete k i e) s k c)
       ∧ ((c.dm.acc.take i).any (fun p => sameLine q.req p.req) = false →
           (c.dmAged q = true ∨ (c.dm.acc.any (fun p => c.dmAged p) = false ∧ (q.req.kind = .st ∨ c.dmFree = true))) → c.dm.stopDue = false →
         (q.req.kind = .ld → Gives (.gddr7RequestComplete k i e) s k ((d.dmRead c.xclk e q.req.addr.toNat q.req.size).reply (unitAt 28)
           q.req.reply
           (loadOpds q.req (memBytes (d.dmRead c.xclk e q.req.addr.toNat q.req.size).mem q.req.addr.toNat q.req.size)
             ((d.dmRead c.xclk e q.req.addr.toNat q.req.size).bytePoison q.req.addr.toNat q.req.size)).1
           (loadOpds q.req (memBytes (d.dmRead c.xclk e q.req.addr.toNat q.req.size).mem q.req.addr.toNat q.req.size)
             ((d.dmRead c.xclk e q.req.addr.toNat q.req.size).bytePoison q.req.addr.toNat q.req.size)).2))
         ∧ (e = [] → (d.dmRead c.xclk e q.req.addr.toNat q.req.size).mem = c.mem
           ∧ (d.dmRead c.xclk e q.req.addr.toNat q.req.size).poison = c.poison)
         ∧ (q.req.kind = .st → Leads (.gddr7RequestComplete k i e) s k (fun b => b.dm.acc = dropNth c.dm.acc i
           ∧ ∀ x, memByte b.mem x = if q.req.addr.toNat ≤ x ∧ x < q.req.addr.toNat + q.req.size
               then (storeBytes q.req).1.getD (x - q.req.addr.toNat) 0
               else memByte (d.dmMerge c.xclk e q.req.addr.toNat q.req.size).mem x))
         ∧ (e = [] → (d.dmMerge c.xclk e q.req.addr.toNat q.req.size).mem = c.mem)
         ∧ (q.req.kind = .xadd → Leads (.gddr7RequestComplete k i []) s k (fun b => b.dm.acc = dropNth c.dm.acc i
           ∧ b.rdWord q.req.addr.toNat = c.rdWord q.req.addr.toNat + q.req.d0.val
           ∧ ∀ x, (x < q.req.addr.toNat ∨ q.req.addr.toNat + 8 ≤ x) → memByte b.mem x = memByte c.mem x)))
       ∧ (c.dm.stopDue = true → c.dm.acc = [q] → (c.dmAged q = true ∨ q.req.kind = .st ∨ c.dmFree = true) → Leads (.gddr7RequestComplete k i e) s k (fun b => b.dmState = 0 ∧ b.dm.acc = []
           ∧ b.dm.stopDue = false)))
     ∧ ((c.pw.cst = 1 ∨ c.pw.cst = 2) → c.dm.acc = [] → c.dm.inq = [] → c.arrived 28 5 = none → c.dm.touched = false → c.dm.idleSince + 100 ≤ s.dev.time → c.domUp 6 = true →
       Gives (.gddr7PowerDown k) s k { c with dm := { c.dm with powerDown := true } }))
  ∧ (∀ (s : State) (k : Ch) (p : Party) (w : Word) (c : Chan), c = s.chan k.val →
       (c.served 0x1A000 = true → c.mayWrite p 0x1A000 = true →
         (c.flag F.dmCfgEn = false → wbit w 63 = true →
           ((wbits w 48 6 = 24 ∨ wbits w 48 6 = 28 ∨ wbits w 48 6 = 32 ∨ wbits w 48 6 = 36) → wbits w 56 2 ≤ 2 →
             Leads (.dmEnable k p w) s k (fun b => b.flag F.dmCfgEn = true ∧ b.dmState = 1 ∧ ∃ t, b.dm.train = some t
               ∧ t.step = c.fld F.dmTrcfgStart ∧ t.fails = 0 ∧ t.periodic = false ∧ t.stop = false
               ∧ ∀ i, i < 256 → t.words.getD i 0 = c.rd (0x1A800 + 8 * i)))
           ∧ ((¬(wbits w 48 6 = 24 ∨ wbits w 48 6 = 28 ∨ wbits w 48 6 = 32 ∨ wbits w 48 6 = 36) ∨ wbits w 56 2 = 3) → Leads (.dmEnable k p w) s k (fun b => b.flag F.dmCfgEn = false ∧ b.dmState = c.dmState)))
         ∧ (c.flag F.dmCfgEn = true → wbit w 63 = false →
           (c.dm.train = none → c.dmState ≠ 4 → c.dm.acc = [] →
             Leads (.dmDisable k p w) s k (fun b => b.dmState = 0 ∧ b.flag F.dmCfgEn = false ∧ b.dm.train = none ∧ b.dm.modes = []
               ∧ b.mem = c.mem.filter (fun e => decide (e.1 < dramBase))))
           ∧ (∀ t, c.dm.train = some t → Leads (.dmDisable k p w) s k (fun b => b.dmState = c.dmState ∧ b.flag F.dmCfgEn = false
               ∧ b.dm.train = some { t with stop := true } ∧ b.mem = c.mem))
           ∧ (c.dm.train = none → (c.dmState = 4 ∨ (c.dmState = 2 ∧ c.dm.acc ≠ [])) → Leads (.dmDisable k p w) s k (fun b =>
               b.dmState = c.dmState ∧ b.flag F.dmCfgEn = false ∧ b.dm = { c.dm with stopDue := true } ∧ b.mem = c.mem))))
       ∧ (∀ t, c.dm.ended = some (.success false t) → Leads (.trainingProgramComplete k) s k (fun b => b.dmState = 2
           ∧ b.dm.ended = none ∧ b.dm.lastTrain = s.dev.time))
       ∧ (∀ t, c.dm.ended = some (.failure false t) → Leads (.trainingProgramComplete k) s k (fun b => b.dmState = 5
           ∧ b.flag F.dmCfgEn = false ∧ b.dm.ended = none ∧ b.ev.sent = c.ev.sent ++ [{ src := 20, tile := evSender 20 }]))
       ∧ (∀ t, c.dm.stopDue = false → c.dm.ended = some (.success true t) → Leads (.trainingProgramComplete k) s k (fun b => b.dmState = 2
           ∧ b.fld F.dmTrstatRetrains = (c.fld F.dmTrstatRetrains + 1) % 2 ^ F.dmTrstatRetrains.len
           ∧ b.fld F.dmTrstatLastlen = min 0xFFFF (s.dev.time - t) ∧ b.ev = c.ev))
       ∧ (∀ t, c.dm.stopDue = false → c.dm.ended = some (.failure true t) → Leads (.trainingProgramComplete k) s k (fun b => b.dmState = 2
           ∧ b.fld F.dmTrstatRetrains = (c.fld F.dmTrstatRetrains + 1) % 2 ^ F.dmTrstatRetrains.len
           ∧ b.ev.sent = c.ev.sent ++ [{ src := 20, tile := evSender 20 }])))

/-- The steps of a training program: each command acts when its step is the present one, and a step that ends well is followed by the
next; a failed step is recorded in FAILSTEP and restarts its program, up to RETRY times; a periodic program that fails leaves the
settings before it; a program that is to stop ends with its present step, and the memory with it. The memory at work: a due periodic
program, refresh, the temperature and its refresh multiplier, the patrol scrub's reads, passes and counts, and the repair of a
candidate row. Commands that it concludes to answer a next state, on the conditions it states: trainEnd, mrw, check, trainWait,
trainSave, delta, hppr, zq, wck, rdtrain, wrtrain, vref, levels, periodicTraining, refresh, memoryTemperatureRead, patrolScrubRead,
rowRepair. -/
def Obligations.Gddr7Programs : Prop :=
  (∀ (s : State) (k : Ch) (c d : Chan) (t u : Training), c = s.chan k.val → c.dm.train = some t →
     u = { t with step := (t.step + 1) % 256, stepAt := s.dev.time } → u.op ≤ 0x0C → d = { c with dm := { c.dm with train := some u } } →
     (t.stop = false →
       (∀ e ∈ [(Instr.zq k true, 4), (.wck k true, 5), (.rdtrain k true, 6), (.wrtrain k true, 7), (.vref k true, 8),
           (.levels k true, 9)], t.op = e.2 → Gives e.1 s k d)
       ∧ (t.op = 0 → Gives (.trainEnd k) s k { c with dm := { c.dm with train := none, ended := some (.success t.periodic t.since) } })
       ∧ (t.op = 1 → t.b % 4 = 1 → Gives (.mrw k) s k { c with dm := { c.dm with
           train := some u, modes := tblIns c.dm.modes t.a (BitVec.ofNat 16 (t.c % 2 ^ 16)) } })
       ∧ (t.op = 2 → c.flag F.dmCfgTopo = false → (c.modeReg 0 t.a) &&& t.b = t.c &&& t.b → Gives (.check k) s k d)
       ∧ (t.op = 3 → t.stepAt + (t.c + 9) / 10 ≤ s.dev.time → Gives (.trainWait k) s k d)
       ∧ (t.op = 10 → Gives (.trainSave k) s k { c with dm := { c.dm with train := some u, saved := true } })
       ∧ (t.op = 11 → c.dm.saved = true → Gives (.delta k true) s k d)
       ∧ (t.op = 12 → Gives (.hppr k true) s k { c with dm := { c.dm with
           train := some u, hard := c.dm.hard ++ [⟨t.a.testBit 4, Fin.ofNat 16 t.a, BitVec.ofNat 18 t.c⟩] } })
       ∧ (∀ e ∈ [(Instr.zq k false, 4), (.wck k false, 5), (.rdtrain k false, 6), (.wrtrain k false, 7), (.vref k false, 8),
           (.levels k false, 9), (.delta k false, 11), (.hppr k false, 12)], t.op = e.2 →
         (c.fld F.dmTrcfgRetry ≤ t.fails → Leads e.1 s k (fun b => b.dm.train = none ∧ b.dm.ended = some (.failure t.periodic t.since)
           ∧ b.fld F.dmTrstatFailstep = t.step % 256
           ∧ (t.periodic = true → b.dm.modes = t.modes0 ∧ b.dm.saved = t.saved0)
           ∧ (t.periodic = false → b.dm.modes = c.dm.modes ∧ b.dm.saved = c.dm.saved)))
         ∧ (t.fails < c.fld F.dmTrcfgRetry →
             ({ t with step := if t.periodic then c.fld F.dmTrcfgPer else c.fld F.dmTrcfgStart } : Training).op ≤ 0x0C →
           Leads e.1 s k (fun b => b.fld F.dmTrstatFailstep = t.step % 256 ∧ ∃ v, b.dm.train = some v ∧ v.fails = t.fails + 1
             ∧ v.step = (if t.periodic then c.fld F.dmTrcfgPer else c.fld F.dmTrcfgStart) ∧ v.words = t.words))))
     ∧ (t.op = 3 → s.dev.time < t.stepAt + (t.c + 9) / 10 → Gives (.trainWait k) s k c)
     ∧ (t.stop = true → ∀ ok, ∀ e ∈ [(Instr.trainEnd k, 0), (.mrw k, 1), (.check k, 2), (.zq k ok, 4), (.wck k ok, 5), (.rdtrain k ok, 6),
         (.wrtrain k ok, 7), (.vref k ok, 8), (.levels k ok, 9), (.trainSave k, 10), (.delta k ok, 11), (.hppr k ok, 12)], t.op = e.2 →
       Leads e.1 s k (fun b => b.dmState = 0 ∧ b.dm.train = none ∧ b.dm.modes = []
         ∧ (e.2 = 12 → ok = true → b.dm.hard = c.dm.hard ++ [⟨t.a.testBit 4, Fin.ofNat 16 t.a, BitVec.ofNat 18 t.c⟩]))))
  ∧ (∀ (s : State) (k : Ch) (c : Chan), c = s.chan k.val →
       (c.dmState = 2 → c.dm.acc = [] → c.trainDue s.dev.time = true → Leads (.periodicTraining k) s k (fun b => b.dmState = 3
         ∧ b.dm.wbuf = [] ∧ ∃ t, b.dm.train = some t ∧ t.step = c.fld F.dmTrcfgPer ∧ t.periodic = true ∧ t.fails = 0
         ∧ t.modes0 = c.dm.modes ∧ t.saved0 = c.dm.saved))
       ∧ (c.dmState ≠ 2 ∨ c.dm.acc ≠ [] ∨ c.trainDue s.dev.time = false → Gives (.periodicTraining k) s k c)
       ∧ (∀ bank, Gives (.refresh k bank) s k c)
       ∧ (∀ temp : BitVec 8, c.dmState = 2 → Leads (.memoryTemperatureRead k temp) s k (fun b => b.fld F.dmRefTemp = temp.toNat
           ∧ b.fld F.dmRefMult = if (BitVec.ofNat 8 (c.fld F.dmRefT2)).toInt < temp.toInt then 2
               else if (BitVec.ofNat 8 (c.fld F.dmRefT1)).toInt < temp.toInt then 1 else 0))
       ∧ (∀ e, c.scrubDue s.dev.time = false → Gives (.patrolScrubRead k e) s k c)
       ∧ (c.scrubDue s.dev.time = true →
         (c.dm.scrubLine + 1 < c.dramSize / 64 → Leads (.patrolScrubRead k .clean) s k (fun b =>
           b.dm.scrubLine = c.dm.scrubLine + 1 ∧ b.mem = c.mem ∧ b.regs = c.regs ∧ b.dm.accAt = some c.dm.mclk
           ∧ (c.dm.scrubLine = 0 → b.dm.scrubAt = s.dev.time + max 1 (c.fld F.dmScrubPeriod) * (3600 * 100000000))
           ∧ (c.dm.scrubLine ≠ 0 → b.dm.scrubAt = c.dm.scrubAt)))
         ∧ (c.dramSize / 64 ≤ c.dm.scrubLine + 1 → Leads (.patrolScrubRead k .clean) s k (fun b => b.dm.scrubLine = 0
           ∧ b.dm.rowCorr = [] ∧ b.fld F.dmScrubPasses = (c.fld F.dmScrubPasses + 1) % 2 ^ 16))
         ∧ (c.dm.scrubLine + 1 < c.dramSize / 64 → Leads (.patrolScrubRead k .corrected) s k (fun b =>
           b.fld F.dmEccstatScrubcorr = min 0xFFFF (c.fld F.dmEccstatScrubcorr + 1) ∧ b.dm.scrubLine = c.dm.scrubLine + 1
           ∧ (max 1 (c.fld F.dmPprThresh) ≤ rowCount c.dm.rowCorr (c.rowId (dramBase + 64 * c.dm.scrubLine)) + 1 →
               c.rowId (dramBase + 64 * c.dm.scrubLine) ∈ b.dm.rowBad)))
         ∧ (c.dm.scrubLine + 1 < c.dramSize / 64 → Leads (.patrolScrubRead k .uncorrectable) s k (fun b =>
           b.fld F.dmEccstatScrubuncorr = min 0xFFFF (c.fld F.dmEccstatScrubuncorr + 1) ∧ b.dm.scrubLine = c.dm.scrubLine + 1
           ∧ c.rowId (dramBase + 64 * c.dm.scrubLine) ∈ b.dm.rowBad ∧ ∃ m ∈ b.ev.sent, m.src = 21)))
       ∧ (∀ row, row ∈ c.dm.rowBad → c.flag F.dmPprSoften = true → c.dmState = 2 →
         Leads (.rowRepair k row true) s k (fun b => b.fld F.dmPprRow = row.row.toNat ∧ b.fld F.dmPprBank = row.bank.val
           ∧ b.flag F.dmPprDev = row.dev ∧ row ∉ b.dm.rowBad ∧ b.ev.sent = c.ev.sent ++ [{ src := 22, tile := evSender 22 }])
         ∧ Leads (.rowRepair k row false) s k (fun b => b.flag F.dmPprExhausted = true ∧ row ∉ b.dm.rowBad
           ∧ b.ev.sent = c.ev.sent ++ [{ src := 22, tile := evSender 22 }])))

/-! ## Network and fabric -/

/-- A packet that its router serves moves one hop to the next router's buffer with the DL of R424, or out of the network at its tile; a
hop that fails CHECK leaves it at the head to be sent again, every resend is counted, and the sixteenth failure in a row of a link
raises source 23; a packet that is not served stays, and one whose tile sleeps asks for its domains. MODEL: that CHECK is not asked of
a packet that leaves through its L or G port is log entry 31. The head of a receive queue goes on into the network: to this device's
units, or to the port that its epoch's tables name; a malformed one is discarded. Commands that it concludes to answer a next state, on
the conditions it states: flitReceive, flitResend, receiveQueueRoute. -/
def Obligations.PacketsMove : Prop :=
  (∀ (s : State) (k : Ch) (rx : Rx) (p : NPkt) (r : List NPkt) (c : Chan) (i o n : Nat), c = s.chan k.val → c.domUp 5 = true →
     i = bufKey rx.r.val rx.inp.val rx.vc.val → o = outOf rx.r.val p → c.buf i = p :: r → n = hopBuf rx.r.val rx.inp.val p →
     (∀ cmd ∈ [(Instr.flitReceive k rx, false), (Instr.flitResend k rx, true)], p.failed = cmd.2 →
       (c.served? rx p = true → c.offer i true = [] → c.offer i false = [] →
         (o < 4 →
           Leads (cmd.1 true) s k (fun b => b.buf i = r ∧ b.linkFails (linkKey rx.r.val o) = 0
             ∧ b.buf n = c.buf n ++ [{ p with dl := hopDl rx.r.val rx.inp.val o p.dl, failed := false }]
             ∧ (cmd.2 = true → b.fld F.ntStatLinkretry
                 = min (2 ^ F.ntStatLinkretry.len - 1) (c.fld F.ntStatLinkretry + 1)))
           ∧ Leads (cmd.1 false) s k (fun b => b.buf i = { p with failed := true } :: r
             ∧ b.linkFails (linkKey rx.r.val o) = c.linkFails (linkKey rx.r.val o) + 1
             ∧ (c.linkFails (linkKey rx.r.val o) = 15 → b.ev.sent = c.ev.sent ++ [{ src := 23, tile := evSender 23 }])))
         ∧ (4 ≤ o → p.dkind = 5 → ∀ m, p.pay = .event m → ∀ ok,
           Leads (cmd.1 ok) s k (fun b => b.buf i = r ∧ b.ev.msgs = c.ev.msgs ++ [m] ∧ b.ev.sent = c.ev.sent))
         ∧ (4 ≤ o → (p.dkind = 1 ∨ p.dkind = 4 ∨ (p.dkind = 5 ∧ p.dtile ≠ 28)) → (∀ m, p.pay ≠ .event m) → ∀ ok,
           Leads (cmd.1 ok) s k (fun b => b.buf i = r ∧ b.arrived p.dtile p.dkind = some p))
         ∧ (4 ≤ o → p.dkind = 0 → p.acc = .none → ∀ tok, p.pay = .tok tok → ∀ ok,
           Leads (cmd.1 ok) s k (fun b => b.buf i = r
             ∧ b.arrived p.dtile 0 = some { p with word := c.instr (tagIp tok.tag) })))
       ∧ (c.served? rx p = false → (cmd.2 = true ∨ o < 4 ∨ c.mayDeliver p.dtile p.dkind = true) → ∀ ok, Gives (cmd.1 ok) s k c))
     ∧ (p.failed = false → 4 ≤ o → c.mayDeliver p.dtile p.dkind = false → ∀ ok,
         Gives (.flitReceive k rx ok) s k (c.holdAt p.dtile p.dkind)))
  ∧ (∀ (s : State) (k : Ch) (p : PortId) (j : Vc) (c : Chan) (q g : Nat) (t : Token), c = s.chan k.val → q = rxQueue p.val j.val →
       t = wordTok (c.qItem q (c.qRead q)) → c.domUp 5 = true → c.qGives q = true → tblFind (c.port p.val).refetch j.val = none →
       g = bufKey (gateTile p.val) 5 0 → c.gateRoom p.val = true → c.offer g false = [] →
       (malformed t = true → Leads (.receiveQueueRoute k p j parityGood) s k (fun b => b.net.bufs = c.net.bufs ∧ ∃ m ∈ b.ev.sent, m.src = 8))
       ∧ (malformed t = false → c.routeDim (tagDev t.tag) = none → Leads (.receiveQueueRoute k p j parityGood) s k (fun b =>
         (b.qptr q).unread = (c.qptr q).unread - c.qUnit q ∧ b.ms = c.ms
         ∧ b.buf g = c.buf g ++ [{ localPkt t (.qword q) with
             epoch := wordEpoch (c.qItem q (c.qRead q)),
             fvc := BitVec.ofNat 2 ((if tagKind t.tag = 0 then 0 else 2) + wordDl (c.qItem q (c.qRead q))) }]))
       ∧ (∀ o, malformed t = false → c.route (tagDev t.tag) (b2n (wordEpoch (c.qItem q (c.qRead q)))) p.val = .port o →
         Leads (.receiveQueueRoute k p j parityGood) s k (fun b => (b.qptr q).unread = (c.qptr q).unread - c.qUnit q
           ∧ ∃ x, b.buf g = c.buf g ++ [x] ∧ x.pay = .tok t ∧ x.dkind = 3 ∧ x.dtile = gateTile o ∧ x.ap = BitVec.ofNat 3 p.val))
       ∧ (∀ (v : BitVec 8) (n : Nat), c.qDup q = false → frameOf j.val (c.qRead q) (c.port p.val).rxFrames = some (v, n) →
         Leads (.receiveQueueRoute k p j { parityGood with a0 := true }) s k (fun b =>
           tblFind (b.port p.val).refetch j.val = some (v, n) ∧ (b.port p.val).ctl = (c.port p.val).ctl ++ [(7, v)]
           ∧ b.qptr q = c.qptr q)))

/-- The frames of a port. A DATA frame in sequence enters the receive queues and advances the expected SEQ; a frame that fails its
check, or is out of sequence, is answered once by NAK with the expected SEQ; a lost word is asked for by REFETCH and comes back in a
REDATA frame; the corrected codewords of a frame are counted, those of frames that come in state BOW among them. CONTROL frames:
whatever the code, the header acknowledges frames and returns credits; and what each code does. Commands that it concludes to answer a
next state, on the conditions it states: dataFrameReceive, redataFrameReceive, controlIdle, reservedFrameReceive, nak, sleepreq,
sleepack, sleepnak, drainreq, draindone, refetch. -/
def Obligations.PortFrames : Prop :=
  (∀ (s : State) (k : Ch) (p : PortId) (c : Chan) (x : Port), c = s.chan k.val → x = c.port p.val →
     (x.st = 3 → c.domUp 7 = true → ∀ (fr : Frame) (chk : FrameCheck), fr.wf = true →
       Gives (.dataFrameReceive k p fr chk) s k (c.countCheck p.val chk) ∧ Gives (.redataFrameReceive k p fr chk) s k (c.countCheck p.val chk)
       ∧ ∀ h : Hdr, Gives (.controlIdle k p h) s k (c.countCheck p.val h.chk))
     ∧ (c.takesFrames p.val = true → ∀ (fr : Frame) (chk : FrameCheck), fr.wf = true →
       (FrameGood chk = true → fr.seq = x.rxSeq → c.slotsFit p.val fr.slots = true → Leads (.dataFrameReceive k p fr chk) s k (fun b =>
         (b.port p.val).rxSeq = x.rxSeq + 1 ∧ (b.port p.val).nakSent = false ∧ b.net = c.net
         ∧ b.fld (F.fbErrFeccorr p.val) = min (2 ^ (F.fbErrFeccorr p.val).len - 1) (c.fld (F.fbErrFeccorr p.val) + chk.fixed)
         ∧ ∀ sl, fr.slots = [sl] → (b.qptr (rxQueue p.val sl.vc.toNat)).unread
             = (c.qptr (rxQueue p.val sl.vc.toNat)).unread + c.qUnit (rxQueue p.val sl.vc.toNat)))
       ∧ ((FrameGood chk = false ∨ fr.seq ≠ x.rxSeq) → x.nakSent = false →
         Leads (.dataFrameReceive k p fr chk) s k (fun b => (b.port p.val).ctl = x.ctl ++ [(1, x.rxSeq)]
           ∧ (b.port p.val).nakSent = true ∧ (b.port p.val).rxSeq = x.rxSeq ∧ b.qu = c.qu))
       ∧ (FrameGood chk = true → x.refetch = [] → Gives (.redataFrameReceive k p fr chk) s k (c.countCheck p.val chk))
       ∧ (∀ (j n : Nat) (sl : Slot) (mine : List Slot), FrameGood chk = true → x.refetch = [(j, (fr.seq, n))] →
           mine = fr.slots.filter (fun (v : Slot) => v.vc.toNat == j) → mine[mine.length - n]? = some sl →
         Leads (.redataFrameReceive k p fr chk) s k (fun b => (b.port p.val).refetch = []
           ∧ b.qWord (c.qAddr (rxQueue p.val j) (c.qRead (rxQueue p.val j)))
               = tokWord (tokReceived sl.tok) (fabricHi sl.epoch p.val (j % 2)) ∧ b.qu.ptrs = c.qu.ptrs)))
     ∧ (c.takesFrames p.val = true → ∀ (ftype : BitVec 3) (code : BitVec 8) (chk : FrameCheck), 4 ≤ ftype.toNat ∨ (ftype = 1 ∧ 8 ≤ code.toNat) →
       (FrameGood chk = true → Gives (.reservedFrameReceive k p ftype code chk) s k ((c.countCheck p.val chk).inc (F.fbErrCrcerr p.val)))
       ∧ (FrameGood chk = false → Gives (.reservedFrameReceive k p ftype code chk) s k ((c.countCheck p.val chk).badFrame p.val))))
  ∧ (∀ (s : State) (k : Ch) (p : PortId) (h : Hdr) (c d : Chan) (x : Port), c = s.chan k.val → c.takesFrames p.val = true →
       FrameGood h.chk = true → d = (c.countCheck p.val h.chk).header s.dev.time p.val h.ack h.crvc h.crcnt → x = d.port p.val →
       (tblGet x.credits h.crvc.toNat 0 = tblGet (c.port p.val).credits h.crvc.toNat 0 + h.crcnt.toNat)
       ∧ Gives (.controlIdle k p h) s k d
       ∧ (∀ a, x.replay ≠ [] → Leads (.nak k p h a) s k (fun b => (b.port p.val).resend = x.replay.map (fun f => f.seq)
           ∧ (b.port p.val).replay = x.replay ∧ (b.port p.val).ackAt = s.dev.time))
       ∧ (∀ a, x.replay = [] → Gives (.nak k p h a) s k d)
       ∧ Leads (.sleepreq k p h) s k (fun b => (b.port p.val).ctl = x.ctl ++ [(if d.maySleep s.dev.time p.val then 3 else 4, 0)])
       ∧ (x.sleepSent = true → Leads (.sleepack k p h) s k (fun b => (b.port p.val).pulses.getLsbD 10 = true))
       ∧ Gives (.sleepnak k p h) s k (d.setPort p.val { x with sleepSent := false, idleSince := s.dev.time })
       ∧ Leads (.drainreq k p h) s k (fun b => (b.port p.val).pulses.getLsbD 12 = true)
       ∧ Gives (.draindone k p h) s k (d.setPort p.val { x with drainDone := true })
       ∧ (∀ a, (∃ f ∈ x.replay, f.seq = a) → Gives (.refetch k p h a) s k (d.setPort p.val { x with redata := x.redata ++ [a] }))
       ∧ (∀ a, (∀ f ∈ x.replay, f.seq ≠ a) → Gives (.refetch k p h a) s k d))

/-- What a port sends: control frames in line first, then, where DATA is enabled, frames to send again and new tokens, then IDLE; every
frame goes out with its 1,024 bits. MODEL: this order, and the turns of the virtual channels, are log entry 31; what a frame that is
sent again keeps is log entry 30; the order of the bits of CRC-24 is log entry 50. Commands that it concludes to answer a next state,
on the conditions it states: frameTransmit. -/
def Obligations.FramesSent : Prop :=
  ∀ (s : State) (k : Ch) (p : PortId) (errs : QErrs) (c : Chan) (x : Port) (fr : FrameOut → Out), c = s.chan k.val →
    x = c.port p.val → (x.st = 4 ∨ x.st = 5) → c.domUp 7 = true → fr = (fun f => .frame p.val f f.bits) →
    (∀ code arg r, c.ctlDue p.val = some ((code, arg), r) → Leads (.frameTransmit k p errs) s k (fun b =>
      (b.port p.val).ctl = r ∧ ∃ v n, b.out = c.out ++ [fr (.ctl code arg x.rxAck v n)]))
    ∧ (∀ v r f, x.ctl = [] → x.dataOn = true → x.resend = v :: r → x.frame v = some f → Gives (.frameTransmit k p errs) s k
      { c.setPort p.val { x with resend := r } with out := c.out ++ [fr (.data f.seq x.rxAck f.crvc f.crcnt f.slots)] })
    ∧ (∀ v r f, x.ctl = [] → x.dataOn = true → x.resend = [] → x.redata = v :: r → x.frame v = some f →
      Leads (.frameTransmit k p errs) s k (fun b =>
        (b.port p.val).redata = r ∧ b.out = c.out ++ [fr (.redata f.seq x.rxAck f.slots)]))
    ∧ (∀ e, x.ctl = [] → x.resend = [] → x.redata = [] → c.dataFrame s.dev.time p.val errs = some e →
      Gives (.frameTransmit k p errs) s k e ∧ (e.port p.val).txSeq = x.txSeq + 1
      ∧ ∃ f, (e.port p.val).replay = x.replay ++ [f] ∧ f.seq = x.txSeq
        ∧ e.out = c.out ++ [fr (.data f.seq (e.port p.val).rxAck f.crvc f.crcnt f.slots)])
    ∧ (x.dataOn = false → c.dataFrame s.dev.time p.val errs = none)
    ∧ (x.ctl = [] → (x.dataOn = false ∨ (x.resend = [] ∧ x.redata = [])) → c.dataFrame s.dev.time p.val errs = none → x.st = 4 →
      Leads (.frameTransmit k p errs) s k (fun b => ∃ v n, b.out = c.out ++ [fr (.ctl 0 0 x.rxAck v n)]))
    ∧ (x.st = 5 → x.ctl = [] → x.resend = [] → x.redata = [] → c.dataFrame s.dev.time p.val errs = none → x.drainSent = false →
        c.txHeld p.val = 0 → x.replay = [] → Leads (.frameTransmit k p errs) s k (fun b => (b.port p.val).drainSent = true
        ∧ ∃ v n, b.out = c.out ++ [fr (.ctl 6 0 x.rxAck v n)]))

/-- The link state machine: the first entry whose state and event hold is taken, and the events of training, signal, timers, replay and
sleep; a Bow that passes the checks of R452 settles the partner, one that fails records the first failed check. MODEL: that a Bow of an
ACTIVE port is not judged again, and that the first check that fails gives the reason, are log entry 31; ACK of a Bow's header is log
entry 50. Commands that it concludes to answer a next state, on the conditions it states: lsmTransition, laneTrainingComplete, sigdet,
sigloss, stateTimerExpiry, replayTimeout, sleepIdleTimeout, bowSend, bowFrameReceive. -/
def Obligations.LinkStates : Prop :=
  ∀ (s : State) (k : Ch) (p : PortId) (c : Chan) (x : Port), c = s.chan k.val → x = c.port p.val →
    (∀ i errs, c.lsmEntry p.val = some i → c.domOpen 7 = true → Leads (.lsmTransition k p errs) s k (fun b =>
      (b.port p.val).st.toNat = (if c.fld (F.fbLsmTo i) = 7 then 0 else c.fld (F.fbLsmTo i))
      ∧ (b.port p.val).timer = (if c.fld (F.fbLsmTimer i) = 0 then none else some (s.dev.time + 100 * c.fld (F.fbLsmTimer i)))))
    ∧ (∀ ok, x.training = true → Leads (.laneTrainingComplete k p ok) s k (fun b => (b.port p.val).training = false
        ∧ (b.port p.val).pulses.getLsbD (if ok then 5 else 6) = true))
    ∧ (∀ ok, Leads (.sigdet k p ok) s k (fun b => b.port p.val = { x with sigDet := ok }
        ∧ (ok = true → c.pw.cst ≠ 0 → b.pw.wake = true)))
    ∧ (∀ ok, Gives (.sigloss k p ok) s k (c.setPort p.val { x with sigLoss := ok }))
    ∧ (∀ t, x.timer = some t → t ≤ s.dev.time → Leads (.stateTimerExpiry k p) s k (fun b => (b.port p.val).timer = none
        ∧ (b.port p.val).pulses.getLsbD 9 = true))
    ∧ (c.takesFrames p.val = true → x.ackAt + max 50 (c.fld (F.fbPcfgReplayt p.val)) ≤ s.dev.time → x.replay ≠ [] →
        Leads (.replayTimeout k p) s k (fun b => (b.port p.val).resend = x.replay.map (fun f => f.seq)
          ∧ (b.port p.val).ackAt = s.dev.time))
    ∧ (c.maySleep s.dev.time p.val = true → x.sleepSent = false → (∀ e ∈ x.ctl, e.1 ≠ 2) →
        Gives (.sleepIdleTimeout k p) s k (c.setPort p.val { x with ctl := x.ctl ++ [(2, 0)] }))
    ∧ (c.domUp 7 = true → x.st = 3 → x.bowDue = true → Leads (.bowSend k p) s k (fun b =>
        b.out = c.out ++ [.frame p.val (.bow (c.ownBow p.val)) (FrameOut.bow (c.ownBow p.val)).bits] ∧ (b.port p.val).bowDue = false
            ∧ (b.port p.val).bowAt = s.dev.time))
    ∧ (∀ b : Bow, c.takesFrames p.val = true → FrameGood b.chk = true → Leads (.bowFrameReceive k p b) s k (fun d =>
        d.port p.val = x ∧ d.rd (0x20018 + 256 * p.val) = b.serial))
    ∧ (∀ b : Bow, FrameGood b.chk = false →
      (c.takesFrames p.val = true → Gives (.bowFrameReceive k p b) s k ((c.countCheck p.val b.chk).badFrame p.val))
      ∧ (x.st = 3 → c.domUp 7 = true → Gives (.bowFrameReceive k p b) s k (c.countCheck p.val b.chk)))
    ∧ (∀ b : Bow, x.st = 3 → c.domUp 7 = true → FrameGood b.chk = true →
      (c.bowReason p.val b = 0 → Leads (.bowFrameReceive k p b) s k (fun d => (d.port p.val).got = true
        ∧ d.rd (0x20018 + 256 * p.val) = b.serial ∧ (b.got = true → (d.port p.val).pulses.getLsbD 7 = true
            ∧ (d.port p.val).peer = some b.serial)))
      ∧ (∀ r, c.bowReason p.val b = r → r ≠ 0 → Leads (.bowFrameReceive k p b) s k (fun d => d.fld (F.fbPstatBowfail p.val) = r
        ∧ (d.port p.val).pulses.getLsbD 8 = true ∧ (d.port p.val).got = x.got ∧ ∃ m ∈ d.ev.sent, m.src = 449 + 8 * p.val)))

/-- Commands of a port by FB_PCTLp, and a change of the routing epoch by NT_EPOCH, which takes a copy with VALID 1 only and acts from
the next XCLK. Commands that it concludes to answer a next state, on the conditions it states: portEnable, portDisable, forcedown,
wake, discard, ntEpochWrite. -/
def Obligations.PortCommands : Prop :=
  ∀ (s : State) (k : Ch) (y : Party) (p : PortId) (w : Word) (c : Chan) (x : Port), c = s.chan k.val → x = c.port p.val →
    (c.served (0x20000 + 256 * p.val) = true → c.mayWrite y (0x20000 + 256 * p.val) = true →
      (c.flag (F.fbPctlEn p.val) = false → wbit w 63 = true → Leads (.portEnable k y p w) s k (fun b =>
        b.flag (F.fbPctlEn p.val) = true ∧ (b.port p.val).pulses.getLsbD 0 = true))
      ∧ (c.flag (F.fbPctlEn p.val) = true → wbit w 63 = false → Leads (.portDisable k y p w) s k (fun b =>
        b.flag (F.fbPctlEn p.val) = false ∧ (b.port p.val).pulses.getLsbD 1 = true))
      ∧ (wbits w 0 4 = 1 → Leads (.forcedown k y p w) s k (fun b => (b.port p.val).pulses.getLsbD 2 = true))
      ∧ (wbits w 0 4 = 2 → Leads (.wake k y p w) s k (fun b => (b.port p.val).wakeCmd = true ∧ b.pending p.val 11 = true))
      ∧ (wbits w 0 4 = 3 → (x.st = 0 ∨ x.st = 1) → Leads (.discard k y p w) s k (fun b => (b.port p.val).replay = []
        ∧ (b.port p.val).resend = [] ∧ ∃ m ∈ b.ev.sent, m.src = 451 + 8 * p.val))
      ∧ (wbits w 0 4 = 3 → x.st ≠ 0 → x.st ≠ 1 → Leads (.discard k y p w) s k (fun b => (b.port p.val).replay = x.replay)))
    ∧ (c.served 0x1C000 = true → c.mayWrite y 0x1C000 = true →
      ((if wbits w 63 1 = 0 then wbit w 61 else wbit w 62) = true → Leads (.ntEpochWrite k y w) s k (fun b =>
        b.fld F.ntEpochCur = wbits w 63 1 ∧ b.curEpoch = c.curEpoch ∧ ∀ n, n ≠ c.xclk → ({ b with xclk := n } : Chan).curEpoch = wbits w 63 1))
      ∧ (wbits w 63 1 ≠ c.fld F.ntEpochCur → (if wbits w 63 1 = 0 then wbit w 61 else wbit w 62) = false →
        Leads (.ntEpochWrite k y w) s k (fun b => b.fld F.ntEpochCur = c.fld F.ntEpochCur)))

/-! ## Events -/

/-- The event controllers. A message of an enabled source adds to its COUNT, which stops at 255; of the eligible sources an even CCLK
selects the lowest below 64 and an odd one the next of the others after the last; the delivery takes with it COUNT as the CCLK before
left it, lands in an enabled caller's inbox, which shows it in the next CCLK and wakes a caller in WAITEV, or at a vector, or returns
to the source's COUNT in the next CCLK; a hold that is over is cleared. MODEL: the order of the device's own messages, and when the
service firmware takes its entries, are log entry 32; the device's CCLK is log entry 3. Commands that it concludes to answer a next
state, on the conditions it states: doorbellMessage, eventSelection, deliveryLanding, moderationHoldExpiry. -/
def Obligations.EventControllers : Prop :=
  ∀ (s : State) (k : Ch) (c : Chan) (dv : Dev), c = s.chan k.val → dv = s.dev →
    (∀ m r, c.ev.msgs = m :: r → c.domOpen 5 = true → c.ev.takenAt ≠ some c.cclk →
      (m.allowed = false → Gives (.doorbellMessage (.chan k)) s k
        (({ c with ev := { c.ev with msgs := r, takenAt := some c.cclk } } : Chan).inc F.evStatRefused))
      ∧ (m.allowed = true → c.flag (F.evSrcEn m.src) = true →
        Leads (.doorbellMessage (.chan k)) s k (fun b => b.ev.msgs = r
          ∧ (b.evSt m.src).count = min 255 ((c.evSt m.src).count + max 1 m.count)
          ∧ b.devEv = (if (m.src = 9 ∨ m.src = 13 ∨ m.src = 15) ∧ (c.caller 0).enabled = false then c.devEv ++ [0x20 + c.idx] else c.devEv)
          ∧ b.ev.sat = (if 255 < (c.evSt m.src).count + max 1 m.count then c.ev.sat ++ [m.src] else c.ev.sat))))
    ∧ (∀ m r, dv.ev.msgs = m :: r → dv.ev.takenAt ≠ some dv.cclk → m.allowed = true → dv.flag (F.deSrcEn (m.src % 256)) = true →
        LeadsDev (.doorbellMessage .dev) s (fun b => b.ev.msgs = r
          ∧ (b.ev.src (m.src % 256)).count = min 255 ((dv.ev.src (m.src % 256)).count + max 1 m.count)))
    ∧ (∀ q t, q < 1024 → 63 ≤ c.ev.lastSel → c.ev.lastSel < 1024 → c.domUp 5 = true → c.ev.selAt ≠ some c.cclk → c.eligible c.cclk q = true →
        c.evTarget q = some t →
        (q < 64 → (∀ j, j < q → c.eligible c.cclk j = false)
          ∧ (c.cclk % 2 = 0 ∨ ∀ j, 64 ≤ j → j < 1024 → c.eligible c.cclk j = false)) →
        (64 ≤ q → (∀ j, 64 ≤ j → j < 1024 → c.eligible c.cclk j = true →
              (q + 959 - c.ev.lastSel) % 960 ≤ (j + 959 - c.ev.lastSel) % 960)
          ∧ (c.cclk % 2 = 1 ∨ ∀ j, j < 64 → c.eligible c.cclk j = false)) →
      Leads (.eventSelection (.chan k)) s k (fun b => (b.evSt q).count = (c.evSt q).left c.cclk
        ∧ ((c.evSt q).freshAt ≠ some c.cclk → (b.evSt q).count = 0) ∧ (b.evSt q).inflight = 1
        ∧ b.ev.lastSel = (if 64 ≤ q then q else c.ev.lastSel)
        ∧ ∃ m, b.ev.deliv = c.ev.deliv ++ [m] ∧ m.src = q ∧ m.count = (c.ev.before q).count ∧ m.target = t
          ∧ m.fast = c.flag (F.evSrcClass q)))
    ∧ (∀ m r, c.ev.deliv = m :: r → c.domOpen 5 = true → m.at_ + 4 ≤ c.cclk →
      (∀ n, m.target = .caller n → (c.caller n).enabled = true → (c.caller n).inbox.length < 16 →
        Leads (.deliveryLanding (.chan k)) s k (fun b => b.ev.deliv = r ∧ (b.evSt m.src).inbox = true ∧ (b.evSt m.src).inflight = 0
          ∧ (b.caller n).inbox = (c.caller n).inbox ++ [{ src := m.src, count := m.count, fast := m.fast, fresh := true }]
          ∧ (b.caller n).st = (c.caller n).st))
      ∧ (∀ n, m.target = .caller n → (c.caller n).enabled = false ∨ 16 ≤ (c.caller n).inbox.length →
        Leads (.deliveryLanding (.chan k)) s k (fun b => b.ev.deliv = r ∧ b.callers = c.callers ∧ (b.evSt m.src).inflight = 0
          ∧ (b.evSt m.src).count = (c.evSt m.src).count ∧ b.ev.backs = c.ev.backs ++ [m]))
      ∧ (∀ v, m.target = .vector v →
        Leads (.deliveryLanding (.chan k)) s k (fun b => b.ev.deliv = r ∧ (b.evSt m.src).inflight = 0
          ∧ (((c.msix.vec v).mask = true ∨ c.msix.fmask = true) → b.out = c.out ∧ v ∈ b.msix.pba)
          ∧ ((c.msix.vec v).mask = false → c.msix.fmask = false → b.msix = c.msix
              ∧ b.out = c.out ++ [.msix v (c.msix.vec v).addr (c.msix.vec v).data]))))
    ∧ (∀ m, c.ev.backs = [m] → (c.evEdge.evSt m.src).count = min 255 ((c.evSt m.src).count + m.count) ∧ c.evEdge.ev.backs = []
        ∧ c.evEdge.fld F.evStatBounced = min (2 ^ F.evStatBounced.len - 1) (c.fld F.evStatBounced + 1))
    ∧ (∀ n : CallerId, (∀ e ∈ (c.evEdge.caller n.val).inbox, e.fresh = false)
        ∧ ((∃ e ∈ (c.caller n.val).inbox, e.fresh = true) → (c.caller n.val).st = .waitev → (c.evEdge.caller n.val).st = .running))
    ∧ (∀ q : SrcId, (c.evSt q.val).hold ≤ c.cclk →
      Leads (.moderationHoldExpiry (.chan k) q) s k (fun b => (b.evSt q.val).hold = 0 ∧ (b.evSt q.val).count = (c.evSt q.val).count))
    ∧ (∀ m r, dv.ev.deliv = m :: r → m.at_ + 4 ≤ dv.cclk →
      (∀ v, m.target = .vector v → (dv.msix.vec v).mask = false → dv.msix.fmask = false →
        LeadsDev (.deliveryLanding .dev) s (fun b => b.ev.deliv = r ∧ b.msix = dv.msix
          ∧ b.out = dv.out ++ [.msix v (dv.msix.vec v).addr (dv.msix.vec v).data]
          ∧ (b.ev.src m.src).hold = dv.cclk + 64 * dv.fld (F.deSrcModiv m.src)))
      ∧ (m.target = .service → dv.svcEnabled = true → dv.svc.inbox.length < 16 →
        LeadsDev (.deliveryLanding .dev) s (fun b => b.ev.deliv = r ∧ (b.ev.src m.src).inbox = true
          ∧ b.svc.inbox = dv.svc.inbox ++ [{ src := m.src, count := m.count, fast := m.fast, fresh := true }])))
    ∧ (∀ q : SrcId, q.val < 256 → (dv.ev.src q.val).hold ≤ dv.cclk →
      LeadsDev (.moderationHoldExpiry .dev q) s (fun b => (b.ev.src q.val).hold = 0 ∧ (b.ev.src q.val).count = (dv.ev.src q.val).count))

/-- What software and the pins do at the event controllers: a doorbell write is a message, allowed where its source is one the writer
may raise; CLEAR sets COUNT to 0; a mask that clears, of a vector or of the function, sends the messages that PBA bits kept; an edge
that TH_GPIO selects raises source 0x40 + g. Commands that it concludes to answer a next state, on the conditions it states:
evDoorbellWrite, deDoorbellWrite, evSrcClear, msixMaskClear, gpioEdge. -/
def Obligations.EventWrites : Prop :=
  ∀ (s : State) (k : Ch) (c : Chan) (dv : Dev), c = s.chan k.val → dv = s.dev →
    (∀ w : Word, c.pw.cst = 0 →
      Gives (.evDoorbellWrite k .host w) s k { c with ev := { c.ev with msgs := c.ev.msgs
        ++ [{ src := wbits w 0 10, count := wbits w 24 8, allowed := decide (512 ≤ wbits w 0 10 ∧ wbits w 0 10 < 768) }] } }
      ∧ Gives (.evDoorbellWrite k .supv w) s k { c with ev := { c.ev with msgs := c.ev.msgs
        ++ [{ src := wbits w 0 10, count := wbits w 24 8, allowed := decide (64 ≤ wbits w 0 10) }] } })
    ∧ (∀ (p : Party) (w : Word), c.pw.cst ≠ 0 → Leads (.evDoorbellWrite k p w) s k (fun b => b.pw.wake = true
        ∧ ∃ a, b.ev.msgs = c.ev.msgs ++ [{ src := wbits w 0 10, count := wbits w 24 8, allowed := a }]))
    ∧ (∀ (p : Party) (w : Word), dv.recovery = true → GivesDev (.deDoorbellWrite p w) s dv)
    ∧ (∀ w : Word, dv.recovery = false →
      GivesDev (.deDoorbellWrite .host w) s { dv with ev := { dv.ev with msgs := dv.ev.msgs
        ++ [{ src := wbits w 0 10, count := wbits w 24 8, allowed := decide (0x80 ≤ wbits w 0 10 ∧ wbits w 0 10 < 0x100) }] } })
    ∧ (∀ (p : Party) (q : SrcId) (w : Word), c.served (0x16000 + 8 * q.val) = true → c.mayWrite p (0x16000 + 8 * q.val) = true →
      Leads (.evSrcClear (.chan k) p q w) s k (fun b => b.flag (F.evSrcEn q.val) = wbit w 63 ∧ b.flag (F.evSrcMask q.val) = wbit w 62
        ∧ (b.evSt q.val).count = (if wbit w 8 then 0 else (c.evSt q.val).count) ∧ b.ev.msgs = c.ev.msgs ∧ b.ev.deliv = c.ev.deliv))
    ∧ (∀ (p : Party) (q : SrcId) (w : Word), q.val < 256 → dv.recovery = false →
      LeadsDev (.evSrcClear .dev p q w) s (fun b => (b.ev.src q.val).count = (if wbit w 8 then 0 else (dv.ev.src q.val).count)
        ∧ b.flag (F.deSrcEn q.val) = wbit w 63 ∧ b.flag (F.deSrcMask q.val) = wbit w 62 ∧ b.ev.msgs = dv.ev.msgs))
    ∧ (∀ (v : VecId) (fn : FnId), fn.val = 0 → v.val < 64 → dv.recovery = false →
      LeadsDev (.msixMaskClear fn v) s (fun b => (b.msix.vec v.val).mask = false
        ∧ (v.val ∈ dv.msix.pba → dv.msix.fmask = false → v.val ∉ b.msix.pba
            ∧ b.out = dv.out ++ [.msix v.val (dv.msix.vec v.val).addr (dv.msix.vec v.val).data])))
    ∧ (∀ (v : VecId) (fn : FnId), fn.val = k.val + 1 → c.served (msixCtl v.val) = true → c.mayWrite .host (msixCtl v.val) = true →
      Leads (.msixMaskClear fn v) s k (fun b => (b.msix.vec v.val).mask = false
        ∧ (v.val ∈ c.msix.pba → c.msix.fmask = false → v.val ∉ b.msix.pba
            ∧ b.out = c.out ++ [.msix v.val (c.msix.vec v.val).addr (c.msix.vec v.val).data])
        ∧ (v.val ∉ c.msix.pba → b.out = c.out ∧ b.msix.pba = c.msix.pba)))
    ∧ (∀ (v : VecId) (fn : FnId), fn.val = k.val + 1 →
      Leads (.msixMaskClear fn v .functionSet) s k (fun b => b.msix.fmask = true ∧ b.msix.pba = c.msix.pba ∧ b.out = c.out)
      ∧ Leads (.msixMaskClear fn v .functionClear) s k (fun b => b.msix.fmask = false
        ∧ (∀ u, u ∈ b.msix.pba ↔ (u ∈ c.msix.pba ∧ (c.msix.vec u).mask = true))
        ∧ b.out = c.out ++ (c.msix.pba.filter (fun u => !(c.msix.vec u).mask)).map
            (fun u => .msix u (c.msix.vec u).addr (c.msix.vec u).data)))
    ∧ (∀ (g : GpioId) (lvl : Bool), LeadsDev (.gpioEdge g lvl) s (fun b =>
        (∀ i, b.gpio.getLsbD i = if i = g.val then lvl else dv.gpio.getLsbD i)
        ∧ b.ev.msgs = (if (lvl ≠ dv.gpio.getLsbD g.val) ∧ (wbits (dv.rd 0x3010) (2 * g.val) 2).testBit (if lvl then 0 else 1) = true
            then dv.ev.msgs ++ [{ src := 0x40 + g.val }] else dv.ev.msgs)))

/-! ## Rings, copies and completions -/

/-- The records of a ring. A poll reads word 0 of the doorbell record; a PI of the ring's own EPOCH is taken, another counts as an
error, a failed read puts an ACTIVE or SLEEP ring into ERROR with source 64 + r, and the result of a read that the ring no longer waits
for is dropped; an idle ring writes SLEEP, reads once more, and sleeps unless PI has moved; a completion ring whose completions wait
writes FULL and reads its head; a kick wakes a ring and reads its record, and waits where the ring engine is off. MODEL: a DRAINING or
ABORTING ring keeps its state on a failed read by log entry 43, and the tags of a channel are log entry 53. The state of a ring. EN 1
of a DISABLED ring of a size from 64 to 65,536 entries that lies inside the host window makes it ACTIVE with CI 0, and one that does
not stays DISABLED; EN 0 drains it; ABORT kills its items and stops its copies; DISABLED follows once nothing is outstanding, with
source 64 + r and no completion for the entries from CI on. An enabled completion ring begins at HEAD and TAIL 0. Commands that it
concludes to answer a next state, on the conditions it states: ringPoll, recordReadComplete, ringIdleSleep, kick, ringEnable,
ringDisable, abort, ringDrained, completionRingEnable. -/
def Obligations.Rings : Prop :=
  (∀ (s : State) (k : Ch) (r : RingId) (c d : Chan) (x : Ring), c = s.chan k.val → x = c.ring r.val →
     (c.ringsOn = true → x.st = .active → x.reading = 0 → x.pollAt ≤ s.dev.time → c.tagsFree = true →
         c.xlateOpen (c.sqRec r.val) 8 = true →
         ∀ e, c.hwXlate (c.sqRec r.val) 8 false (c.walkCodes (c.sqRec r.val) 8) = (d, some (e, e)) →
       Leads (.ringPoll k r) s k (fun b => (b.ring r.val).reading = 1 ∧ (b.ring r.val).st = .active
         ∧ b.hw.reads = c.hw.reads ++ [(c.hw.nextId, true, r.val)]
         ∧ b.out = c.out ++ [.read (hostAddr e (c.sqRec r.val)) 8 c.hw.nextId (hwNs e)]))
     ∧ (∀ (id : Nat) (w : Word), c.ringsOn = true → c.readOf true r.val = some (id, false) →
       (wbits w 32 16 = c.fld (F.rgScfgEpoch r.val) → Leads (.recordReadComplete k (.submission r) (.ok w)) s k (fun b =>
         (b.ring r.val).avail = BitVec.ofNat 32 (wbits w 0 32) ∧ (b.ring r.val).reading = x.reading - 1 ∧ (b.ring r.val).ci = x.ci
         ∧ (b.ring r.val).st = x.st))
       ∧ (wbits w 32 16 ≠ c.fld (F.rgScfgEpoch r.val) → Leads (.recordReadComplete k (.submission r) (.ok w)) s k (fun b =>
         (b.ring r.val).avail = x.avail ∧ (b.ring r.val).piEpoch.toNat = wbits w 32 16
         ∧ b.fld F.chRgstatFetcherr = min (2 ^ F.chRgstatFetcherr.len - 1) (c.fld F.chRgstatFetcherr + 1)))
       ∧ ((x.st = .active ∨ x.st = .sleep) → Leads (.recordReadComplete k (.submission r) .failed) s k (fun b =>
         (b.ring r.val).st = .error ∧ (b.ring r.val).err = 1 ∧ (b.ring r.val).ci = x.ci ∧ ∃ m ∈ b.ev.sent, m.src = 64 + r.val))
       ∧ ((x.st = .draining ∨ x.st = .aborting) → Leads (.recordReadComplete k (.submission r) .failed) s k (fun b =>
         (b.ring r.val).st = x.st ∧ (b.ring r.val).err = 1 ∧ (b.ring r.val).ci = x.ci)))
     ∧ (∀ (id : Nat) (f : RecRead), c.ringsOn = true → c.readOf true r.val = some (id, true) →
       Gives (.recordReadComplete k (.submission r) f) s k (c.hwDone id))
     ∧ (∀ f, c.ringsOn = true → c.readOf true r.val = none → Gives (.recordReadComplete k (.submission r) f) s k c)
     ∧ (∀ (w : Word), c.ringsOn = true → wbits w 32 16 = c.fld (F.rgCcfgEpoch r.val) →
         ((∃ id, c.readOf false r.val = some (id, false))
           ∨ (c.readOf false r.val = none ∧ c.headDue s.dev.time r.val = true ∧ c.xlateOpen (c.cqRec r.val) 16 = true
             ∧ c.engineRead (c.cqRec r.val) 8 = (d, true))) →
       Leads (.recordReadComplete k (.completion r) (.ok w)) s k (fun b =>
         (b.cring r.val).head = BitVec.ofNat 32 (wbits w 0 32) ∧ (b.cring r.val).cpls = (c.cring r.val).cpls))
     ∧ (∀ (w : Word) (g : Chan), c.ringsOn = true → c.flag (F.rgCcfgEn r.val) = true → (c.cring r.val).error = false →
         (c.cring r.val).full = false → c.headWaits r.val = true → c.xlateOpen (c.cqRec r.val) 16 = true →
         g = (c.setCring r.val { c.cring r.val with full := true }).writeCdb r.val true → (g.cring r.val).error = false →
         g.engineRead (c.cqRec r.val) 8 = (d, true) → wbits w 32 16 = c.fld (F.rgCcfgEpoch r.val) →
       Leads (.ringIdleSleep k (.completion r) (.ok w)) s k (fun b => (b.cring r.val).head = BitVec.ofNat 32 (wbits w 0 32)
         ∧ (b.cring r.val).cpls = (c.cring r.val).cpls ∧ (b.cring r.val).full = !b.cqRoom r.val))
     ∧ (∀ w : Word, c.ringsOn = true → x.st = .active → x.reading = 0 → x.avail = x.ci → x.fetched = none →
         x.idleSince + c.fld (F.rgScfgIdle r.val) * 100 ≤ s.dev.time → c.xlateOpen (c.sqRec r.val) 16 = true →
         (c.writeSdb r.val true).engineRead (c.sqRec r.val) 8 = (d, true) →
         wbits w 32 16 = c.fld (F.rgScfgEpoch r.val) →
       (wbits w 0 32 = x.ci.toNat → Leads (.ringIdleSleep k (.submission r) (.ok w)) s k (fun b =>
         (b.ring r.val).st = .sleep ∧ (b.ring r.val).sleepW = true))
       ∧ (wbits w 0 32 ≠ x.ci.toNat → Leads (.ringIdleSleep k (.submission r) (.ok w)) s k (fun b =>
         (b.ring r.val).st = .active ∧ (b.ring r.val).sleepW = false ∧ (b.ring r.val).avail.toNat = wbits w 0 32)))
     ∧ (∀ w : Word, wbit w 8 = false → wbit w 7 = false → wbits w 0 7 = r.val → c.pw.cst = 0 →
       (c.ringsOn = true → c.kickOpen w = true → c.pw.kicks = [] → c.tagsFree = true → x.st = .sleep →
           ((c.setRing r.val { x with st := .active }).writeSdb r.val false).engineRead (c.sqRec r.val) 8 = (d, true) →
         Leads (.kick k w) s k (fun b => (b.ring r.val).st = .active ∧ (b.ring r.val).reading = x.reading + 1 ∧ (b.ring r.val).sleepW = false))
       ∧ (c.ringsOn = true → c.kickOpen w = true → c.pw.kicks = [] → c.tagsFree = true → x.st = .active →
           c.engineRead (c.sqRec r.val) 8 = (d, true) →
         Leads (.kick k w) s k (fun b => (b.ring r.val).st = .active ∧ (b.ring r.val).reading = x.reading + 1))
       ∧ (c.ringsOn = true → c.kickOpen w = true → c.pw.kicks = [] → x.st ≠ .sleep → x.st ≠ .active → Gives (.kick k w) s k c)
       ∧ (c.ringsOn = false → Gives (.kick k w) s k { c with pw := { c.pw with kicks := c.pw.kicks ++ [w] } })))
  ∧ (∀ (s : State) (k : Ch) (p : Party) (r : RingId) (w : Word) (c : Chan) (x : Ring), c = s.chan k.val → x = c.ring r.val →
       (c.served (0x10010 + 64 * r.val) = true → c.mayWrite p (0x10010 + 64 * r.val) = true → c.pw.cst = 0 →
         (c.flag (F.rgScfgEn r.val) = false → wbit w 63 = true → wbits w 52 4 ≠ 1 →
           (x.st = .disabled → 6 ≤ wbits w 56 5 → wbits w 56 5 ≤ 16 → inHost (c.sqBase r.val) (64 * 2 ^ wbits w 56 5) = true →
               inHost (c.sqRec r.val) 16 = true →
             Leads (.ringEnable k p r w) s k (fun b => (b.ring r.val).st = .active ∧ (b.ring r.val).ci = 0 ∧ (b.ring r.val).err = 0
               ∧ b.flag (F.rgScfgEn r.val) = true ∧ b.fld (F.rgScfgSize r.val) = wbits w 56 5 ∧ b.out = c.out))
           ∧ (x.st = .disabled → wbits w 56 5 < 6 ∨ 16 < wbits w 56 5 →
             Leads (.ringEnable k p r w) s k (fun b => b.rings = c.rings ∧ b.flag (F.rgScfgEn r.val) = false))
           ∧ (x.st ≠ .disabled → Gives (.ringEnable k p r w) s k c))
         ∧ (c.flag (F.rgScfgEn r.val) = true → wbit w 63 = false → wbits w 52 4 ≠ 1 → (x.st = .active ∨ x.st = .sleep ∨ x.st = .error) →
           Leads (.ringDisable k p r w) s k (fun b => (b.ring r.val).st = .draining ∧ b.flag (F.rgScfgEn r.val) = false
             ∧ (b.ring r.val).ci = x.ci))
         ∧ (c.flag (F.rgScfgEn r.val) = wbit w 63 → wbits w 52 4 = 1 → x.st ≠ .disabled →
           Leads (.abort k p r w) s k (fun b => (b.ring r.val).st = .aborting ∧ (b.ring r.val).fetched = none
             ∧ (b.qptr (512 + r.val)).unread = 0 ∧ (∀ i ∈ x.items, c.itemLive i = true → i.ctx ≠ 0 → (b.ctx i.ctx.toNat).st = .dead)
             ∧ ∀ e ∈ b.copies, e.2.ring = r.val → e.2.abort = true)))
       ∧ ((x.st = .draining ∨ x.st = .aborting) → x.out = 0 → (∀ e ∈ c.copies, e.2.ring ≠ r.val) →
         Leads (.ringDrained k r) s k (fun b => (b.ring r.val).st = .disabled ∧ (b.ring r.val).ci = x.ci
           ∧ (∀ e ∈ b.crings, ∀ y ∈ e.2.cpls, y.atCi r.val = false) ∧ ∃ m ∈ b.ev.sent, m.src = 64 + r.val))
       ∧ (c.served (0x12010 + 64 * r.val) = true → c.mayWrite p (0x12010 + 64 * r.val) = true → c.flag (F.rgCcfgEn r.val) = false →
           wbit w 63 = true → 6 ≤ wbits w 48 5 → wbits w 48 5 ≤ 16 → inHost (c.cqBase r.val) (32 * 2 ^ wbits w 48 5) = true →
           inHost (c.cqRec r.val) 16 = true →
         Leads (.completionRingEnable k p r w) s k (fun b => b.flag (F.rgCcfgEn r.val) = true ∧ (b.cring r.val).head = 0
           ∧ (b.cring r.val).tail = 0 ∧ (b.cring r.val).full = false ∧ (b.cring r.val).error = false)))

/-- The entry at CI. COPYIN, COPYOUT and LOAD wait for a copy slot; a NOP completes with status 0, a bad descriptor with 0x30 and its
DETAIL; a failed read puts the ring into ERROR; an accepted RUN makes its context LIVE, pushes its arguments into ring queue 512 + r
and moves CI by one; the oldest token of that queue is injected. Commands that it concludes to answer a next state, on the conditions
it states: nop, run, ringInjection, copyin, copyout, load, baddesc. -/
def Obligations.RingEntries : Prop :=
  ∀ (s : State) (k : Ch) (r : RingId) (c : Chan) (x : Ring) (q : Nat), c = s.chan k.val → x = c.ring r.val → q = c.cqOf r.val →
    (∀ (l : Line) (d : Chan), c.mayFetch r.val = true → c.xlateOpen (c.sqBase r.val + 64 * c.sqSlot r.val) 64 = true →
        c.engineRead (c.sqBase r.val + 64 * c.sqSlot r.val) 64 = (d, true) →
        (lineFence l = true → x.out = 0 ∧ x.busy = 0) →
      (∀ y ∈ [(Instr.copyin k r, 2), (Instr.copyout k r, 3), (Instr.load k r, 4)], lineOpc l = y.2 → lineBad l = none →
        Gives (y.1 (.ok l)) s k (d.setRing r.val { x with fetched := some l }))
      ∧ (lineOpc l = 5 → lineBad l = none → Leads (.nop k r (.ok l)) s k (fun b => (b.ring r.val).busy = x.busy + 1
          ∧ (b.ring r.val).ci = x.ci ∧ (b.cring q).cpls = (c.cring q).cpls
              ++ [{ sq := r.val, slot := BitVec.ofNat 16 (x.ci.toNat % 2 ^ c.fld (F.rgScfgSize r.val)), bumpCi := true }]))
      ∧ (∀ y ∈ [(Instr.copyin k r, [2]), (Instr.copyout k r, [3]), (Instr.load k r, [4]), (Instr.nop k r, [5]),
              (Instr.baddesc k r, 0 :: (List.range 250).map (fun i => i + 6))], lineOpc l ∈ y.2 → ∀ n, lineBad l = some n →
        Leads (y.1 (.ok l)) s k (fun b => (b.ring r.val).ci = x.ci ∧ (b.cring q).cpls = (c.cring q).cpls
            ++ [{ status := 0x30, detail := BitVec.ofNat 32 n, sq := r.val,
                  slot := BitVec.ofNat 16 (x.ci.toNat % 2 ^ c.fld (F.rgScfgSize r.val)), bumpCi := true }]
          ∧ b.fld F.chRgstatBaddesc = min (2 ^ F.chRgstatBaddesc.len - 1) (c.fld F.chRgstatBaddesc + 1)))
      ∧ (∀ y ∈ [Instr.copyin k r, Instr.copyout k r, Instr.load k r, Instr.nop k r, Instr.baddesc k r],
        Leads (y .failed) s k (fun b => (b.ring r.val).st = .error ∧ (b.ring r.val).err = 2 ∧ ∃ m ∈ b.ev.sent, m.src = 64 + r.val)))
    ∧ (∀ (l : Line) (a : Adm) (g : Grant) (id : Nat), id = g.id.toNat → x.fetched = some l →
        x.admitted = some a → x.grant = some g → c.ringsOn = true → c.positionRoom (c.fld (F.rgSctxFlow r.val)) = true →
      Leads (.run k r) s k (fun b => (b.ring r.val).ci = x.ci + 1 ∧ (b.ring r.val).fetched = none
        ∧ (b.ring r.val).items = x.items ++ [⟨g.id, BitVec.ofNat 16 (x.ci.toNat % 2 ^ c.fld (F.rgScfgSize r.val)), a.guar, a.tc, c.cu.seqNext⟩]
        ∧ (b.qptr (512 + r.val)).unread = (c.qptr (512 + r.val)).unread + min (lineNarg l) 4 * c.qUnit (512 + r.val)
        ∧ (b.ctx id).st = .live ∧ (b.ctx id).seq = c.cu.seqNext ∧ (b.ctx id).origin = 0 ∧ (b.ctx id).ring = BitVec.ofNat 8 r.val
        ∧ (b.ctx id).flow = BitVec.ofNat 6 (c.fld (F.rgSctxFlow r.val)) ∧ (b.ctx id).tempo = BitVec.ofNat 4 (c.fld (F.rgSctxTempo r.val))
        ∧ (b.ctx id).deadline = BitVec.ofNat 32 a.deadline ∧ (b.ctx id).cost = a.cost ∧ (b.ctx id).te.getLsbD 7 = false
        ∧ (b.ctx id).supv = c.flag (F.rgSctxSupv r.val) ∧ (b.ctx id).excTag = c.rd (0x10020 + 64 * r.val)))
    ∧ (∀ t : Token, t = wordTok (c.qItem (512 + r.val) (c.qRead (512 + r.val))) → c.ringsOn = true → x.badHead = false →
        c.qGives (512 + r.val) = true → c.injectRoom (unitAt tileRing) false 1 = true →
      Leads (.ringInjection k r parityGood) s k (fun b => (b.ring r.val).toks = x.toks.drop 1
        ∧ (b.qptr (512 + r.val)).unread = (c.qptr (512 + r.val)).unread - c.qUnit (512 + r.val)
        ∧ ∃ y, b.buf (bufKey tileRing 4 0) = c.buf (bufKey tileRing 4 0) ++ [y] ∧ y.pay = .tok t)
      ∧ Leads (.ringInjection k r { a0 := true, a1 := true, b0 := true, b1 := true }) s k (fun b => (b.ring r.val).badHead = true
        ∧ b.net = c.net ∧ b.qptr (512 + r.val) = c.qptr (512 + r.val)))

/-- Completions and copies. A token of a dead context of the ring engine becomes its completion, that of a POISONED one waits (the
model's choice, log entry 45), another is stray; a completion is two posted writes at TAIL, and raises source 192 + c with IRQ 1. A
copy slot takes an entry in round robin and CI moves on, or the copy ends as BADADDR; a part is read from or written to the host, the
last one completes the copy, and an aborted copy ends with 0x23. Commands that it concludes to answer a next state, on the conditions
it states: completionToken, completionWrite, copySlotGrant, copyPartComplete. -/
def Obligations.CompletionsAndCopies : Prop :=
  ∀ (s : State) (k : Ch) (c : Chan), c = s.chan k.val → c.ringsOn = true →
    (∀ r : RingId, c.qGives (640 + r.val) = true →
      (∀ x, c.cplOf r.val (c.qItem (640 + r.val) (c.qRead (640 + r.val))) = some x → c.flag (F.rgCcfgEn r.val) = true →
          (c.cring r.val).error = false → (c.cring r.val).cpls = [] → c.cqRoom r.val = true →
        Leads (.completionToken k r parityGood) s k (fun b => (b.cring r.val).cpls = [x]
          ∧ b.fld F.chRgstatStray = c.fld F.chRgstatStray))
      ∧ (c.poisoned (tagCtx (wordTok (c.qItem (640 + r.val) (c.qRead (640 + r.val)))).tag) = true →
        ∀ pf, Gives (.completionToken k r pf) s k c)
      ∧ (c.cplOf r.val (c.qItem (640 + r.val) (c.qRead (640 + r.val))) = none →
          c.poisoned (tagCtx (wordTok (c.qItem (640 + r.val) (c.qRead (640 + r.val)))).tag) = false →
        Leads (.completionToken k r parityGood) s k (fun b => (b.cring r.val).cpls = (c.cring r.val).cpls
          ∧ b.fld F.chRgstatStray = min (2 ^ F.chRgstatStray.len - 1) (c.fld F.chRgstatStray + 1))))
    ∧ (∀ (r : RingId) (x : Cpl) (more : List Cpl) (e : Word) (d : Chan) (a n : Nat) (errs : LineErrs), (c.cring r.val).cpls = x :: more →
        n = (c.cring r.val).tail.toNat → a = c.cqBase r.val + 32 * (n % 2 ^ c.fld (F.rgCcfgSize r.val)) →
        c.flag (F.rgCcfgEn r.val) = true → (c.cring r.val).error = false → c.cqRoom r.val = true → firstPage a 32 = 32 →
        c.xlateOpen a 32 = true → c.hwXlate a 32 true errs = (d, some (e, e)) →
      Leads (.completionWrite k r errs) s k (fun b => (b.cring r.val).cpls = more
        ∧ (b.cring r.val).tail = (c.cring r.val).tail + 1
        ∧ b.out = c.out ++ [.write (hostAddr e a) (((x.words s.dev.time (1 - n / 2 ^ c.fld (F.rgCcfgSize r.val) % 2)).take 3).flatMap
                (fun w => valBytes w.toNat 8)) false (hwNs e) (hwRo e),
              .write (hostAddr e (a + 24)) (((x.words s.dev.time (1 - n / 2 ^ c.fld (F.rgCcfgSize r.val) % 2)).drop 3).flatMap
                (fun w => valBytes w.toNat 8)) false (hwNs e) (hwRo e)]
        ∧ (x.item = true → (b.ring x.sq).out = (d.ring x.sq).out - 1 ∧ (b.ctx x.ctx.toNat).ring = 0xFF)
        ∧ (x.bumpCi = true → (b.ring x.sq).ci = (d.ring x.sq).ci + 1)
        ∧ (c.flag (F.rgCcfgIrq r.val) = true → ∃ m ∈ b.ev.sent, m.src = 192 + r.val)))
    ∧ (∀ (r i : Nat) (l : Line) (y : Copy), c.copyNext = some r → (∀ j, j < i → (tblFind c.copies j).isSome = true) → i < 8 →
        tblFind c.copies i = none → (c.ring r).fetched = some l → y = copyOf r (BitVec.ofNat 16 (c.sqSlot r)) l →
      Leads (.copySlotGrant k) s k (fun b => (b.ring r).fetched = none ∧ (b.ring r).ci = (c.ring r).ci + 1
          ∧ (b.ring r).busy = (c.ring r).busy + 1 ∧ b.copyRr = r
        ∧ (c.copyBad y = none → tblFind b.copies i = some y)
        ∧ (∀ n, c.copyBad y = some n → tblFind b.copies i = none
            ∧ (b.cring (c.cqOf r)).cpls = (c.cring (c.cqOf r)).cpls
                ++ [{ status := 0x31, detail := BitVec.ofNat 32 n, sq := r, slot := y.slot }])))
    ∧ (∀ (i : CopyId) (x : Copy) (part : Part) (a t n : Nat) (e : Word) (d : Chan), tblFind c.copies i.val = some x → part.wf = true →
        a = x.host.toNat + x.done → t = x.chan.toNat + x.done → n = partLen a (x.len - x.done) →
      (x.abort = true → x.kind ≠ .load → Leads (.copyPartComplete k i part) s k (fun b => tblFind b.copies i.val = none
        ∧ (b.cring (c.cqOf x.ring)).cpls = (c.cring (c.cqOf x.ring)).cpls
            ++ [{ status := 0x23, detail := BitVec.ofNat 32 x.done, sq := x.ring, slot := x.slot }] ∧ b.out = c.out ∧ b.mem = c.mem))
      ∧ (x.abort = false → x.kind = .copyin → x.poisonAt = none → c.partReady t n = true → part.data.length = n → part.err = false →
          part.poison = false → c.xlateOpen a n = true → c.hwXlate a n false part.errs = (d, some (e, e)) → t + n ≤ scratchSize → 0 < n →
          c.copiesApart →
        Leads (.copyPartComplete k i part) s k (fun b => (∀ j, j < n → b.byteAt (t + j) = part.data.getD j 0)
          ∧ (∀ j, inRam j → (j < t ∨ t + n ≤ j) → b.byteAt j = d.byteAt j) ∧ (part.errs = [] → d.mem = c.mem)
          ∧ (x.done + n < x.len → tblFind b.copies i.val = some { x with done := x.done + n })
          ∧ (x.done + n = x.len → tblFind b.copies i.val = none ∧ (b.cring (c.cqOf x.ring)).cpls
                = (c.cring (c.cqOf x.ring)).cpls ++ [{ sq := x.ring, slot := x.slot }])))
      ∧ (x.abort = false → x.kind = .copyout → c.partReady t n = true → firstPage a n = n →
          c.xlateOpen a n = true → c.hwXlate a n true part.errs = (d, some (e, e)) → t + n ≤ scratchSize → 0 < n →
        Leads (.copyPartComplete k i part) s k (fun b => (∀ j, memByte b.mem j = memByte d.mem j)
          ∧ b.out = c.out ++ [.write (hostAddr e a) (d.bytesAt t n)
              ((((d.partRead s.dev.time t n part.errs).bytePoison t n).take n).any id) (hwNs e) (hwRo e)])))

/-! ## The host window and the registers -/

/-- The host window. An access whose page may be read or written becomes a read or a posted write at the address of its entry, another
raises cause 0x2D, and a load waits for tags; the data of a load answer it, poisoned after an error, and poison of an open value after
a timeout. CH_HWTDATA reads and writes entry INDEX; EN 1 takes effect where the table fits, INVALL empties the cache, SYNC stays 1
while loads or reads of records are outstanding. MODEL: what a timed-out load returns is log entry 2, the tags of a channel and the
bits of AER are log entry 53, a table outside the usable GDDR7 is log entry 50, what supervisors' and other writes reach is log entry
33, and the contents of a table entry never written are log entry 5. The setup port reads and writes a word of the program store or a
register of the channel; the program store takes accesses once its clearing is over, and the service firmware then places the steward's
image; a function-level reset of PF0 resets its PCIe state only. Commands that it concludes to answer a next state, on the conditions
it states: hostWindowAccess, hostReadCompletion, hostCompletionTimeout, hwtdataWrite, hwtdataRead, hwctlEnable, invall, sync,
setupPortAccess, programStoreClearComplete, functionLevelReset. -/
def Obligations.HostWindow : Prop :=
  (∀ (s : State) (k : Ch) (c d : Chan), c = s.chan k.val →
     (∀ (q : NPkt) (r : Req) (errs : LineErrs) (e : Word), c.arrived tileRing 5 = some q → q.pay = .req r → c.domUp 5 = true →
         c.xlateOpen r.addr.toNat r.size = true →
       (r.kind = .st → (c.takeArrived tileRing 5).hwXlate r.addr.toNat r.size true errs = (d, some (e, e)) →
           firstPage r.addr.toNat r.size = r.size →
         Leads (.hostWindowAccess k errs) s k (fun b => b.out = c.out ++ [.write (hostAddr e r.addr.toNat) (storeBytes r).1
           ((storeBytes r).2.any id) (hwNs e) (hwRo e)] ∧ b.hw.outst = c.hw.outst))
       ∧ (r.kind ≠ .st → c.tagsFree = false → Gives (.hostWindowAccess k errs) s k c)
       ∧ (r.kind ≠ .st → c.tagsFree = true → (c.takeArrived tileRing 5).hwXlate r.addr.toNat r.size false errs = (d, some (e, e)) →
           firstPage r.addr.toNat r.size = r.size →
         Leads (.hostWindowAccess k errs) s k (fun b => b.hw.outst = c.hw.outst ++ [(c.hw.nextId, r)] ∧ b.hw.nextId = c.hw.nextId + 1
           ∧ b.out = c.out ++ [.read (hostAddr e r.addr.toNat) r.size c.hw.nextId (hwNs e)]))
       ∧ ((r.kind = .st ∨ c.tagsFree = true) → (c.takeArrived tileRing 5).hwXlate r.addr.toNat r.size (r.kind == .st) errs = (d, none) →
         Gives (.hostWindowAccess k errs) s k (d.causeFor c.xclk r 0x2D (detail28 r.addr.toNat))))
     ∧ (∀ (i : Nat) (r : Req) (d0 d1 : Word) (err : Bool) (g : Chan), g = (if err then c.aerNote 12 else c) → c.hw.outst.find? (fun x => x.1 == i) = some (i, r) →
       (r.size ≤ 8 → Gives (.hostReadCompletion k i d0 d1 err) s k ((g.hwDone i).reply (unitAt tileRing) r.reply
           (mkOpd (BitVec.ofNat 64 (d0.toNat % 2 ^ (8 * r.size))) r.ty.toNat err)
           (mkOpd (BitVec.ofNat 64 (d0.toNat % 2 ^ (8 * r.size))) r.ty.toNat err)))
       ∧ (r.size = 16 → Gives (.hostReadCompletion k i d0 d1 err) s k ((g.hwDone i).reply (unitAt tileRing) r.reply
           (mkOpd d0 r.ty.toNat err) (mkOpd d1 r.ty.toNat err)))
       ∧ (∃ o0 o1 : Opd, o0.poison = true ∧ o1.poison = true
           ∧ Gives (.hostCompletionTimeout k i) s k (((c.aerNote 14).hwDone i).reply (unitAt tileRing) r.reply o0 o1)))
     ∧ (∀ (p : Party) (w : Word) (a : Nat), c.served 0x198 = true → c.mayWrite p 0x198 = true → a = c.hwEntryAddr (c.fld F.chHwtidxIndex) →
         c.hwtOpen = true →
       (c.range a = .dram → Leads (.hwtdataWrite k p w) s k (fun b => b.rdWord a = w
           ∧ b.fld F.chHwtidxIndex = (c.fld F.chHwtidxIndex + 1) % 2 ^ 17 ∧ ∀ x ∈ b.hw.cache, x.1 ≠ c.fld F.chHwtidxIndex))
       ∧ (c.range a = .dram → Leads (.hwtdataRead k p) s k (fun b => b.readData = c.rdWord a ∧ (c.codes a 8 = [] → b.regs = c.regs ∧ b.mem = c.mem)))
       ∧ (c.range a ≠ .dram → Leads (.hwtdataRead k p) s k (fun b => b.readData = 0 ∧ b.regs = c.regs)))
     ∧ (∀ (p : Party) (w : Word), c.served 0x188 = true → c.mayWrite p 0x188 = true →
       (c.flag F.chHwctlEn = false → wbits w 0 2 = 0 → wbit w 63 = true →
         (c.hwTableFits = true → Leads (.hwctlEnable k p w) s k (fun b => b.flag F.chHwctlEn = true ∧ b.hw.cache = []))
         ∧ (c.hwTableFits = false → Leads (.hwctlEnable k p w) s k (fun b => b.flag F.chHwctlEn = false ∧ b.hw = c.hw)))
       ∧ (wbits w 0 2 = 1 → c.flag F.chHwctlEn = wbit w 63 → Leads (.invall k p w) s k (fun b => b.hw = { c.hw with cache := [] }
           ∧ b.flag F.chHwctlEn = wbit w 63))
       ∧ (wbits w 0 2 = 2 → c.flag F.chHwctlEn = wbit w 63 →
         (c.hw.outst = [] → c.hw.reads = [] → Leads (.sync k p w) s k (fun b => b.fld F.chHwctlSync = 0 ∧ b.hw = c.hw))
         ∧ (c.hw.outst ≠ [] ∨ c.hw.reads ≠ [] → Leads (.sync k p w) s k (fun b => b.fld F.chHwctlSync = 1
             ∧ b.hw = { c.hw with sync := some (c.hw.outst.map (fun x => x.1) ++ c.hw.reads.map (fun x => x.1)) })))))
  ∧ (∀ (s : State) (k : Ch) (c x : Chan) (q : NPkt) (r : Req) (a : Nat), c = s.chan k.val →
       (c.arrived tileCtx 4 = some q → q.pay = .req r → c.domUp 5 = true → a = r.addr.toNat → x = c.takeArrived tileCtx 4 →
         (c.range a = .prog → c.progClearing = false →
           (r.kind = .st → Gives (.setupPortAccess k) s k ((x.putInstr ((a - progBase) / 8) r.d0.val).reply (unitAt tileCtx) r.reply doneOpd doneOpd))
           ∧ (r.kind ≠ .st → Gives (.setupPortAccess k) s k (x.reply (unitAt tileCtx) r.reply (mkOpd (c.instr ((a - progBase) / 8)) r.ty.toNat false)
               (mkOpd (c.instr ((a - progBase) / 8)) r.ty.toNat false))))
         ∧ (c.range a = .setup → c.served (a - setupBase) = true → r.kind ≠ .st → Gives (.setupPortAccess k) s k
             (((x.readEffect (a - setupBase)).readClear (a - setupBase) 0 64).reply (unitAt tileCtx) r.reply (mkOpd (x.readReg s.dev (a - setupBase)) r.ty.toNat false)
               (mkOpd (x.readReg s.dev (a - setupBase)) r.ty.toNat false)))
         ∧ (c.range a = .setup → c.served (a - setupBase) = false → Gives (.setupPortAccess k) s k c)
         ∧ (c.range a = .setup → c.served (a - setupBase) = true → r.kind = .st → Gives (.setupPortAccess k) s k
             ((x.access s.dev { party := setupParty r, off := a - setupBase, w := some r.d0.val }).reply (unitAt tileCtx) r.reply doneOpd doneOpd))
         ∧ (c.range a = .prog → c.progClearing = true → Gives (.setupPortAccess k) s k c))
       ∧ (c.progClearing = true →
         ((c.pw.due = 0 ∨ c.asleep = true ∨ s.dev.restarting = true ∨ s.dev.recovery = true ∨ (c.pw.due = 9 ∧ s.dev.svc.steward = [])) →
           Gives (.programStoreClearComplete k) s k { c with progClearing := false })
         ∧ (s.dev.svc.steward.length ≤ 0x2000 → s.dev.restarting = false → s.dev.recovery = false → c.asleep = false → s.dev.svc.steward ≠ [] →
             c.pw.due = 9 →
           Leads (.programStoreClearComplete k) s k (fun b => b.progClearing = false ∧ b.pw.due = 0 ∧ b.rd 0x20900 = s.dev.ownDigest
             ∧ (∀ i, i < s.dev.svc.steward.length → b.instr (0xE000 + i) = s.dev.svc.steward.getD i 0)
             ∧ ∀ i, i < 0xE000 → b.instr i = c.instr i)))
       ∧ GivesDev (.functionLevelReset 0) s { s.dev with msix := {}, doe := {} })

/-- The registers of a channel. A write gives every RW field it addresses its bits, clears or sets what W1C and W1S say, and leaves
every other field and register; a read returns the register and clears its RC fields; a field that a 4-byte access addresses in part
keeps its value; host software reads 0 and writes nothing while READY is 0, and an access to a sleeping channel is held and wakes it;
the device number that CH_PLANE is written acts from the next XCLK. Commands that it concludes to answer a next state, on the
conditions it states: registerWrite, registerReadClear. -/
def Obligations.RegisterAccesses : Prop :=
  ∀ (s : State) (fn : FnId) (k : Ch) (c : Chan) (p : Party) (off : BitVec 20) (sz : AccSize) (w : Word) (o lo hi i : Nat) (d : RegDesc),
    fn.val = k.val + 1 → c = s.chan k.val → accSpan off.toNat sz = some (o, lo, hi) → reaches p o = true →
    regAt chanRegTable o = some (d, i) → c.pw.held = [] →
    (c.served o = true → c.mayWrite p o = true →
      (d.name ∉ ownWrites → Leads (.registerWrite fn p off sz w) s k (fun b =>
        (∀ f ∈ d.fields, wbits (b.rd o) f.1 f.2.1 =
          if inSpan lo hi f then
            (match fieldAccess d.name i f.1 f.2.2 with
             | .rw => wbits (accData lo w) f.1 f.2.1
             | .w1c => wbits (c.rd o) f.1 f.2.1 &&& (2 ^ f.2.1 - 1 - wbits (accData lo w) f.1 f.2.1)
             | .w1s => wbits (c.rd o) f.1 f.2.1 ||| wbits (accData lo w) f.1 f.2.1
             | .ro | .wo | .rc => wbits (c.rd o) f.1 f.2.1)
          else wbits (c.rd o) f.1 f.2.1)
        ∧ (∀ o', o' ≠ o → b.rd o' = c.rd o') ∧ b = { c.stir o with regs := b.regs }))
      ∧ Leads (.registerReadClear fn p off sz) s k (fun b =>
        b.readData = BitVec.ofNat 64 (wbits ((c.stir o).readReg s.dev o) lo (hi - lo))
        ∧ (∀ f ∈ d.fields, wbits (b.rd o) f.1 f.2.1 =
            if inSpan lo hi f = true ∧ fieldAccess d.name i f.1 f.2.2 = .rc then 0 else wbits (c.rd o) f.1 f.2.1)
        ∧ (o ≠ 0x198 → ∀ o', o' ≠ o → b.rd o' = c.rd o')
        ∧ b = { (c.stir o).readEffect o with regs := b.regs, readData := b.readData })
      ∧ (d.name = .chPlane → Leads (.registerWrite fn p off sz w) s k (fun b => b.devNo = c.devNo
        ∧ ∀ n, n ≠ c.xclk → ({ b with xclk := n } : Chan).devNo = b.fld F.chPlaneDev)))
    ∧ (c.served o = true → c.mayWrite p o = false →
      Gives (.registerReadClear fn p off sz) s k { c.stir o with readData := 0 }
      ∧ Gives (.registerWrite fn p off sz w) s k (c.stir o))
    ∧ (c.served o = false → Leads (.registerWrite fn p off sz w) s k (fun b => b.regs = c.regs ∧ (c.asleep = true → b.pw.wake = true)
        ∧ b.pw.held = [{ party := p, off := o, lo := lo, hi := hi, w := some (accData lo w) }]))

/-! ## Power -/

/-- The steps of the sequencing programs. A step whose time has come switches its part of the domain, counts as completed, and the
program goes on after the time that R594 gives it; a SWON that names no switch group powers nothing; END ends the program; the
switching off of MEM ends the way to C4 and loses GDDR7. MODEL: what SPINE and MEM lose with their power is log entry 33. Commands that
it concludes to answer a next state, on the conditions it states: swon, pwrEnd, swoff, clkgate, clkungate, isoon, isooff, rston,
rstoff, reton, retoff, pwrDrain, save, restore, selfref, srexit, pwrWait. -/
def Obligations.PowerSteps : Prop :=
  ∀ (s : State) (k : Ch) (d : DomId) (c : Chan) (g : Prog) (w : Word), c = s.chan k.val → w = c.seqWord g.pc → c.prog? d.val = some g →
    g.undo = none → g.since ≤ s.dev.time → (d.val = 6 → c.dm.train = none ∧ c.dm.ended = none) →
    (∀ r : Instr × Nat × (DomSt → DomSt), r ∈ [(Instr.clkgate k d, 0x01, fun x => { x with gated := true }),
        (Instr.clkungate k d, 0x02, fun x => { x with gated := false }), (Instr.isoon k d, 0x03, fun x => { x with clamped := true }),
        (Instr.isooff k d, 0x04, fun x => { x with clamped := false }), (Instr.rston k d, 0x05, fun x => { x with inReset := true }),
        (Instr.rstoff k d, 0x06, fun x => { x with inReset := false }), (Instr.swoff k d, 0x07, fun x => { x with off := true }),
        (Instr.swon k d, 0x08, fun x => { x with off := false }), (Instr.reton k d, 0x09, fun x => { x with retention := true }),
        (Instr.retoff k d, 0x0A, fun x => { x with retention := false }), (Instr.pwrDrain k d, 0x0B, id),
        (Instr.save k d, 0x0C, fun x => { x with saved := true }), (Instr.restore k d, 0x0D, fun x => { x with saved := false }),
        (Instr.selfref k d, 0x0E, id), (Instr.srexit k d, 0x0F, id), (Instr.pwrWait k d, 0x10, id)] →
      stepOp w = r.2.1 → stepOp (c.seqWord ((g.pc + 1) % 128)) ≤ 0x10 → ¬(d.val = 4 ∧ (c.dom 4).off = true ∧ r.2.1 = 0x0A) →
      (r.2.1 = 0x0B → g.noDrain = true ∨ (d.val ≠ 5 ∧ c.drained d.val = true)) → (r.2.1 = 0x0E → c.drained 6 = true) →
      (r.2.1 = 0x08 → stepA w ≠ 0) →
      Leads r.1 s k (fun b => b.dom d.val = r.2.2 (c.dom d.val) ∧ (∀ e, e ≠ d.val → ¬(r.2.1 = 0x07 ∧ d.val = 4 ∧ e = 5) → b.dom e = c.dom e)
        ∧ b.prog? d.val = some { g with pc := (g.pc + 1) % 128, done := w :: g.done, pnr := g.pnr || stepPnr w,
                                        since := s.dev.time + stepTime r.2.1 w }
        ∧ (r.2.1 = 0x07 → d.val < 4 → b.pw.seton.getLsbD d.val = false) ∧ (r.2.1 = 0x08 → d.val < 4 → b.pw.seton.getLsbD d.val = true)
        ∧ (r.2.1 = 0x0E → c.dmState = 2 → b.dmState = 4 ∧ b.dm.selfRefresh = true)
        ∧ (r.2.1 = 0x0F → c.dmState = 4 → b.dmState = 3 ∧ b.dm.selfRefresh = false)))
    ∧ (stepOp w = 0x08 → stepA w = 0 → Leads (.swon k d) s k (fun b => b.pw.doms = c.pw.doms ∧ b.pw.seton = c.pw.seton))
    ∧ (stepOp w = 0 → ¬(d.val = 5 ∧ g.up = true ∧ (c.dom 5).saved = true) → c.pw.cst = 0 → c.pw.goal = 0 → c.pw.wake = false → c.pw.wakeDoms = [] → c.pw.held = [] →
      Gives (.pwrEnd k d) s k (c.endProg d.val))
    ∧ (∀ s' c', c' = s'.chan k.val → d.val = 4 → c'.c4Due = true →
      Leads (.swoff k d) s' k (fun b => b.pw.cst = 4 ∧ b.pw.ready = false ∧ (b.dom 4).off = true ∧ b.dmState = 0
        ∧ (∀ a, dramBase ≤ a → memByte b.mem a = 0) ∧ ∀ a, a < dramBase → memByte b.mem a = memByte c'.mem a))

/-- The C-states. A quiet channel with AUTO 1 enters C1 after T1, starts the way to C2 after T2 and to C3 after T3, a quiet set parks
after TSET, C3 is entered only with the ports asleep, FABRIC going down before SPINE; a wake brings a channel out of C1 at once, and
out of C3 by way of the regulator's soft start. MODEL: log entry 33 says how transitions are taken. PWR_CTL: AUTO and SETAUTO are
written, and CMD 1 to 5 enters C4, sets and clears READY, wakes the channel and resets it. Host software only wakes while the steward
runs, and CMD 5 is the service core's. Commands that it concludes to answer a next state, on the conditions it states: c1Entry,
c2Entry, c3Entry, setPark, channelWake, setReady, clearReady, enterC4, wakeToC0, channelReset. -/
def Obligations.CStates : Prop :=
  (∀ (s : State) (k : Ch) (c : Chan), c = s.chan k.val → (∀ e < 8, stepOp (c.seqWord (c.fld (F.pwrDomDown e))) ≤ 0x10) →
     (c.flag F.pwrCtlAuto = true → c.pw.cst = 0 → c.steady = true → c.allQuiet = true →
       (c.fld F.pwrIdleT1 ≠ 0 → c.pw.idleSince + c.fld F.pwrIdleT1 ≤ c.xclk →
         Gives (.c1Entry k) s k { c with pw := { c.pw with cst := 1, goal := 1, c1At := s.dev.time } })
       ∧ ((c.fld F.pwrIdleT1 = 0 ∨ c.xclk < c.pw.idleSince + c.fld F.pwrIdleT1) → Gives (.c1Entry k) s k c))
     ∧ (c.flag F.pwrCtlAuto = true → c.pw.cst = 1 → c.steady = true → c.prog? 7 = none → c.fld F.pwrIdleT1 ≠ 0 → c.fld F.pwrIdleT2 ≠ 0 →
         c.pw.c1At + 100 * c.fld F.pwrIdleT2 ≤ s.dev.time → [0, 1, 2, 3].any c.domUp = true →
       Leads (.c2Entry k) s k (fun b => b.pw.goal = 2 ∧ b.pw.cst = 1 ∧ ∀ e < 4, c.domUp e = true →
         ∃ p, b.prog? e = some p ∧ p.up = false ∧ p.pc = c.fld (F.pwrDomDown e)))
     ∧ (c.flag F.pwrCtlAuto = true → c.pw.cst = 2 → c.steady = true → c.prog? 7 = none → c.fld F.pwrIdleT1 ≠ 0 → c.fld F.pwrIdleT2 ≠ 0 →
         c.fld F.pwrIdleT3 ≠ 0 → c.pw.c2At + 100 * c.fld F.pwrIdleT3 ≤ s.dev.time → c.ringsRest = true →
         [0, 1, 2, 3].any c.domUp = false → c.memUp = false → c.domUp 5 = true →
       (c.portsAsleep = false → Gives (.c3Entry k) s k c)
       ∧ (c.portsAsleep = true → c.domUp 7 = true → Leads (.c3Entry k) s k (fun b => b.pw.goal = 3 ∧ b.pw.cst = 2
         ∧ (∃ p, b.prog? 7 = some p ∧ p.up = false ∧ p.pc = c.fld (F.pwrDomDown 7)) ∧ b.prog? 5 = none))
       ∧ (c.portsAsleep = true → c.domUp 7 = false → Leads (.c3Entry k) s k (fun b => b.pw.goal = 3 ∧ b.pw.cst = 2
         ∧ ∃ p, b.prog? 5 = some p ∧ p.up = false ∧ p.pc = c.fld (F.pwrDomDown 5))))
     ∧ (∀ g : SetId, c.flag F.pwrCtlSetauto = true → c.pw.cst = 0 → c.pw.goal = 0 → c.fld F.pwrIdleTset ≠ 0 → c.domOpen g.val = true →
         c.setQuiet g.val = true → tblGet c.pw.setIdle g.val 0 + 100 * c.fld F.pwrIdleTset ≤ s.dev.time → g.val ∉ c.pw.wakeDoms →
       Leads (.setPark k g) s k (fun b => b.prog? g.val = some { up := false, pc := c.fld (F.pwrDomDown g.val), since := s.dev.time }))
     ∧ (c.pw.tripped = false → c.pw.wake = true → c.pw.progs = [] → c.pw.held = [] → c.pw.wakeDoms = [] →
       (c.pw.cst = 1 → c.pw.goal = 1 → (∀ e < 7, c.domUp e = true) → (c.dom 4).retention = false →
         Leads (.channelWake k) s k (fun b => b.pw.cst = 0 ∧ b.pw.goal = 0 ∧ b.pw.wake = false ∧ (c.pw.kicks = [] → b.pw.kicks = [])))
       ∧ (c.pw.cst = 3 → c.pw.goal = 3 → c.domUp 5 = false → c.pw.regAt = 0 → Gives (.channelWake k) s k
           { c with pw := { c.pw with goal := 0, regAt := s.dev.time + 500 } })))
  ∧ (∀ (s : State) (k : Ch) (p : Party) (w : Word) (c : Chan), c = s.chan k.val → c.pw.held = [] →
       ((p ≠ .host ∨ c.flag F.ccStewRun = false) →
         (wbits w 0 4 = 2 → Leads (.setReady k p w) s k (fun b => b.pw = { c.pw with ready := true } ∧ b.flag F.pwrCtlAuto = wbit w 63
           ∧ b.flag F.pwrCtlSetauto = wbit w 62))
         ∧ (wbits w 0 4 = 3 → Leads (.clearReady k p w) s k (fun b => b.pw = { c.pw with ready := false } ∧ b.flag F.pwrCtlAuto = wbit w 63
           ∧ b.flag F.pwrCtlSetauto = wbit w 62))
         ∧ (wbits w 0 4 = 1 → c.pw.cst = 0 → c.pw.goal = 0 → c.pw.progs = [] → (∀ e < 8, c.domUp e = true) →
             (∀ e < 8, stepOp (c.seqWord (c.fld (F.pwrDomDown e))) ≤ 0x10) →
           Leads (.enterC4 k p w) s k (fun b => b.pw.goal = 4 ∧ b.pw.cst = 1
             ∧ ∀ e ∈ [0, 1, 2, 3, 7], ∃ g, b.prog? e = some g ∧ g.up = false ∧ g.pc = c.fld (F.pwrDomDown e))))
       ∧ (p = .host → c.flag F.ccStewRun = true →
         (wbits w 0 4 = 1 → Gives (.enterC4 k p w) s k c) ∧ (wbits w 0 4 = 2 → Gives (.setReady k p w) s k c)
         ∧ (wbits w 0 4 = 3 → Gives (.clearReady k p w) s k c))
       ∧ (wbits w 0 4 = 4 → c.pw.cst = 1 → c.pw.goal = 1 → c.pw.tripped = false → c.pw.progs = [] → c.pw.wakeDoms = [] →
           (∀ e < 7, c.domUp e = true) → (c.dom 4).retention = false →
         Leads (.wakeToC0 k p w) s k (fun b => b.pw.cst = 0 ∧ b.pw.goal = 0 ∧ b.pw.wake = false))
       ∧ (wbits w 0 4 = 5 → (p = .service → c.pw.tripped = false → Leads (.channelReset k p w) s k (ResetLeaves c))
         ∧ (p ≠ .service → Leads (.channelReset k p w) s k (fun b => b.pw = c.pw ∧ b.callers = c.callers ∧ b.cu = c.cu))))

/-- Resets. A function-level reset of PF(k+1) resets channel k, PERST_N every channel and the HOST domain; POR_N runs the start-up:
with no service firmware that verifies the device is in recovery mode, without tables every channel stays off, else each channel is
fresh, and the slots measure the objects that are committed. MODEL: that POR_N is one step, and what its operand says, are log entry
36; what a reset makes of stand-ins is log entry 33. Commands that it concludes to answer a next state, on the conditions it states:
functionLevelReset, perstN, perstNRelease, trstN, porN. -/
def Obligations.Resets : Prop :=
  ∀ s : State,
    (∀ (k : Ch) (fn : FnId), fn.val = k.val + 1 → (s.chan k.val).pw.held = [] → (s.chan k.val).pw.tripped = false →
      Leads (.functionLevelReset fn) s k (fun b => ResetLeaves (s.chan k.val) b ∧ b.msix = {}))
    ∧ ((∀ j < 16, (s.chan j).pw.held = [] ∧ (s.chan j).pw.tripped = false) → ∃ t, exec .perstN s = .next t
        ∧ t.dev = { s.dev with perst := false, linkUp := false, msix := {}, doe := {} } ∧ t.pending = s.pending
        ∧ ∀ j < 16, ResetLeaves (s.chan j) (t.chan j) ∧ (t.chan j).msix = {})
    ∧ GivesDev .perstNRelease s { s.dev with perst := true, linkUp := true }
    ∧ GivesDev .trstN s { s.dev with tapReset := true }
    ∧ (∀ b : BootInfo, b.wf = true → ∃ t, exec (.porN b) s = .next t ∧ t.pending = s.pending
        ∧ t.dev.svc.flash = s.dev.svc.flash ∧ t.dev.svc.otpMin = s.dev.svc.otpMin
        ∧ (b.ok0 = false → b.ok1 = false → t.dev.recovery = true ∧ ∀ j < 16, (t.chan j).pw.cst = 4 ∧ (t.chan j).pw.tripped = true)
        ∧ ((b.ok0 = true ∨ b.ok1 = true) → t.dev.recovery = false ∧ t.dev.slot 0 = b.digests.getD 0 0 ∧ (s.dev.svc.active 1 = none → t.dev.slot 1 = b.digests.getD 1 0)
          ∧ (∀ r, s.dev.svc.active 1 = some r → (if r.bank then b.ok1 else b.ok0) = true → t.dev.slot 1 = r.digest)
          ∧ (b.tablesOk = false → t.dev.step = 4 ∧ ∀ j < 16, (t.chan j).pw.cst = 4)
          ∧ (b.tablesOk = true → t.dev.step = (if b.stewardOk then 9 else 8) ∧ (∀ n ∈ [2, 3, 4, 5], (n = 2 → b.stewardOk = true) →
                t.dev.slot n = ((s.dev.svc.active n).map (fun r => r.digest)).getD (b.digests.getD n 0))
            ∧ ∀ j < 16, (t.chan j).pw.cst = 0 ∧ (t.chan j).pw.ready = false
              ∧ (b.selfTest.getLsbD j = false → t.dev.chFail.getLsbD j = true))))

/-- Operating points, the power limiter, temperatures, clocks, rails and aging. MODEL: that CURMHZ is 0 until the first switch, which
waits for no GAP, and that a switch is one step, are log entry 33. Commands that it concludes to answer a next state, on the conditions
it states: operatingPointSwitch, powerLimiter, thermalSample, clk32kLoss, clk32kRestore, railAlarm, agingMeasurement, ageAdjustment. -/
def Obligations.PowerAndThermal : Prop :=
  ∀ (s : State) (dv : Dev), dv = s.dev →
    (∀ (k : Ch) (p : Nat × Nat) (c : Chan), c = s.chan k.val → c.pw.cst < 2 → c.point = some p →
      (p.1 = c.pw.mhz → Leads (.operatingPointSwitch k) s k (fun b =>
        b.pw.mhz = p.1 ∧ b.pw.mv = p.2 ∧ b.pw.lastSwitch = c.pw.lastSwitch))
      ∧ (p.1 ≠ c.pw.mhz → (c.pw.mhz = 0 ∨ c.pw.lastSwitch = 0 ∨ c.pw.lastSwitch + 100 * c.fld F.pwrOppGap ≤ dv.time) →
          Leads (.operatingPointSwitch k) s k (fun b => b.pw.mhz = p.1 ∧ b.pw.mv = p.2 ∧ b.pw.lastSwitch = dv.time))
      ∧ (p.1 ≠ c.pw.mhz → c.pw.mhz ≠ 0 → c.pw.lastSwitch ≠ 0 → dv.time < c.pw.lastSwitch + 100 * c.fld F.pwrOppGap →
          Gives (.operatingPointSwitch k) s k c))
    ∧ (∀ watts k, dv.fld F.thCfgPlim < watts → s.limTarget = some k → exec (.powerLimiter watts) s
        = .next (({ s with dev := { dv with lowMs := 0, limOrder := k :: dv.limOrder } } : State).setChan k
            { s.chan k with pw := { (s.chan k).pw with limited := (s.chan k).pw.limited + 1 } }))
    ∧ (∀ watts k r, watts * 100 < dv.fld F.thCfgPlim * 95 → dv.limOrder = k :: r → 9 ≤ dv.lowMs → exec (.powerLimiter watts) s
        = .next (({ s with dev := { dv with lowMs := 10, limOrder := r } } : State).setChan k
            { s.chan k with pw := { (s.chan k).pw with limited := (s.chan k).pw.limited - 1 } }))
    ∧ (∀ ts : List (BitVec 16), ts.length = 20 → ∃ t, exec (.thermalSample ts) s = .next t ∧ t.pending = s.pending
        ∧ (∀ i < 20, t.dev.rd (0x3100 + 8 * i) = BitVec.ofNat 64 (ts.getD i 0).toNat)
        ∧ (∀ j < 16, (8 * (dv.fld F.thCfgLimit : Int) < (ts.getD j 0).toInt → (t.chan j).pw.thermal = true)
            ∧ ((ts.getD j 0).toInt < 8 * (dv.fld F.thCfgLimit : Int) - 8 * (dv.fld F.thCfgHyst : Int) → (t.chan j).pw.thermal = false))
        ∧ ((∃ x ∈ ts, 8 * (dv.fld F.thCfgTrip : Int) < x.toInt) → t.dev.tripped = true ∧ ∀ j < 16, (t.chan j).pw.tripped = true
            ∧ (t.chan j).pw.goal = 4)
        ∧ ((∀ x ∈ ts, x.toInt ≤ 8 * (dv.fld F.thCfgTrip : Int)) → t.dev.tripped = dv.tripped ∧ ∀ j < 16, (t.chan j).pw.cst = (s.chan j).pw.cst))
    ∧ (dv.clk32 = true → GivesDev .clk32kLoss s ((({ dv with clk32 := false } : Dev).setFld F.thRailClk32 1).raise 0x31))
    ∧ GivesDev .clk32kRestore s { dv with clk32 := true }
    ∧ (∀ a : RailId, LeadsDev (.railAlarm a) s (fun b => (b.rd 0x3018).getLsbD a.val = true ∧ b.ev.msgs = dv.ev.msgs ++ [{ src := 0x31 }]))
    ∧ (∀ (k : Ch) (m : Aging), LeadsDev (.agingMeasurement k m) s (fun b => b.fld (F.thAgeSpine k.val) = m.spine.toNat
        ∧ b.fld (F.thAgeSet0 k.val) = m.set0.toNat ∧ b.fld (F.thAgeSet1 k.val) = m.set1.toNat ∧ b.fld (F.thAgeSet2 k.val) = m.set2.toNat
        ∧ b.fld (F.thAgeSet3 k.val) = m.set3.toNat))
    ∧ (∀ (k : Ch), dv.restarting = false → dv.recovery = false → dv.svc.ageDue k.val = false → exec (.ageAdjustment k) s = .next s)
    ∧ (∀ (k : Ch), dv.restarting = false → dv.recovery = false → dv.svc.ageDue k.val = true →
        ∃ t, exec (.ageAdjustment k) s = .next t ∧ t.pending = s.pending ∧ (∀ j, j ≠ k.val → t.chan j = s.chan j)
        ∧ ∀ i < 16, (t.chan k.val).fld (F.pwrCurveAge i) =
            if (s.chan k.val).flag (F.pwrCurveValid i) = true ∧ (s.chan k.val).fld (F.pwrCurveAge i) < 2 * ((dv.slowdown k.val + 9) / 10)
            then min ((s.chan k.val).fld (F.pwrCurveAge i) + 2) (min (2 * ((dv.slowdown k.val + 9) / 10)) 255)
            else (s.chan k.val).fld (F.pwrCurveAge i))

/-! ## The service core -/

/-- The life ledger (its layout in flash is the model's, log entry 34). HOURLY moves the service hours on and buffers its record; the
oldest buffered record is appended to the sector in use with the next SEQ, one that fails its read-back takes its place without a SEQ
and counts in FAIL; the oldest sector is erased once fewer than four are; ML_LSEL brings the record of a SEQ. Commands that it
concludes to answer a next state, on the conditions it states: hourly, ledgerRecordWrite, sectorReclaim, mlLselWrite. -/
def Obligations.LifeLedger : Prop :=
  ∀ (s : State) (dv : Dev), dv = s.dev → dv.restarting = false → dv.recovery = false →
    (∀ h : HourInfo, h.wf = true → ∃ t, exec (.hourly h) s = .next t ∧ t.pending = s.pending ∧ t.dev.svc.hours = dv.svc.hours + 1
      ∧ (dv.svc.buffer.length < 64 → ∃ r q, r ∈ t.dev.svc.buffer ∧ r.ty = 0x02 ∧ r.payload = h.hist.flatMap (fun n => valBytes n.toNat 4)
          ++ valBytes dv.above90s.toNat 4 ++ valBytes h.maxTj.toNat 2 ++ q))
    ∧ (∀ (ok : Bool) (b : LedgerBuf) (r : List LedgerBuf) (i : Nat), (∀ j, (s.chan j).notes = []) → s.margin = dv.rd 0x2300 →
        dv.svc.lwait = false → 4 ≤ dv.svc.erased → dv.svc.buffer = b :: r → dv.svc.place b.payload.length = some i →
      LeadsDev (.ledgerRecordWrite ok) s (fun d => d.svc.buffer = r ∧ d.svc.sector = i
        ∧ d.svc.recs i = dv.svc.recs i ++ [{ ty := b.ty, seq := dv.svc.seqNext, hours := dv.svc.hours, payload := b.payload, committed := ok }]
        ∧ (∀ j, j ≠ i → d.svc.recs j = dv.svc.recs j) ∧ (ok = true → d.svc.seqNext = dv.svc.seqNext + 1 ∧ d.svc.fail = dv.svc.fail)
        ∧ (ok = false → d.svc.seqNext = dv.svc.seqNext ∧ d.svc.fail = min 0xFFFF (dv.svc.fail + 1) ∧ ∃ m ∈ d.ev.msgs, m.src = 0x34)))
    ∧ (∀ i : Nat, dv.svc.erased < 4 → dv.svc.ringOrder.find? (fun j => !(dv.svc.recs j).isEmpty) = some i → dv.svc.toCopy i = [] →
      LeadsDev .sectorReclaim s (fun d => d.svc.recs i = [] ∧ ∀ j, j ≠ i → d.svc.recs j = dv.svc.recs j))
    ∧ (∀ (p : Party) (w : Word), p.inChannel = false → LeadsDev (.mlLselWrite p w) s (fun d => d.svc.ldone = true
        ∧ d.svc.lfound = (dv.svc.find (wbits w 0 32)).isSome
        ∧ d.svc.lbuf = ((dv.svc.find (wbits w 0 32)).map LedgerRec.bytes).getD [] ∧ d.svc.flash = dv.svc.flash))

/-- Updates (how the update engine keeps its objects is the model's, log entry 35). STAGE ends STAGED or FAILED with its reason; COMMIT
of the staged object writes a directory record that makes its other bank active, and BURN raises its least security version, while one
whose record fails its read-back leaves the bank and ends FAILED with reason 4; ACTIVATE of the service firmware restarts the service
core for 250 ms, that of the power tables serves the channels of CHMASK; ABORT fails with reason 7; a hand-over that reaches its limit
puts RESTART back and fails with reason 6. Commands that it concludes to answer a next state, on the conditions it states: stage,
commit, activate, updateAbort, handOverTimeout. -/
def Obligations.Updates : Prop :=
  ∀ (s : State) (p : Party) (w : Word) (v : Service), v = s.dev.svc → p.inChannel = false → s.dev.restarting = false →
    (∀ img : ImgInfo, wbits w 60 4 = 1 → v.up ≠ .staging → v.up ≠ .activating →
      LeadsDev (.stage p w img) s (fun d => d.svc.reason = s.dev.stageReason (wbits w 56 4) img ∧ d.svc.obj = wbits w 56 4
        ∧ d.svc.img = some img ∧ d.svc.chdone = 0 ∧ d.svc.up = (if s.dev.stageReason (wbits w 56 4) img = 0 then .staged else .failed)
        ∧ ∃ m ∈ d.ev.msgs, m.src = 0x32))
    ∧ (∀ i : ImgInfo, wbits w 60 4 = 2 → v.up = .staged → v.img = some i →
      (wbits w 56 4 = v.obj → LeadsDev (.commit p w) s (fun d => d.svc.up = .committed ∧ d.svc.reason = 0
        ∧ d.svc.dir = v.dir ++ [{ obj := v.obj, bank := !v.activeBank v.obj, digest := i.digest, committed := true }]
        ∧ d.svc.activeBank v.obj = !v.activeBank v.obj ∧ (∀ o, o ≠ v.obj → d.svc.activeBank o = v.activeBank o)
        ∧ tblGet d.svc.otpMin v.obj 0 = (if wbit w 55 = true ∧ (tblGet v.otpMin v.obj 0).toNat < i.svn.toNat then i.svn
            else tblGet v.otpMin v.obj 0)))
      ∧ (wbits w 56 4 = v.obj → LeadsDev (.commit p w false) s (fun d => d.svc.up = .failed ∧ d.svc.reason = 4
        ∧ (∀ o, d.svc.activeBank o = v.activeBank o) ∧ d.svc.otpMin = v.otpMin ∧ ∃ m ∈ d.ev.msgs, m.src = 0x35))
      ∧ (wbits w 56 4 ≠ v.obj → LeadsDev (.commit p w) s (fun d => d.svc.up = .failed ∧ d.svc.reason = 3 ∧ d.svc.dir = v.dir
        ∧ d.svc.otpMin = v.otpMin)))
    ∧ (∀ i : ImgInfo, wbits w 60 4 = 3 → v.up = .committed → v.img = some i → wbits w 56 4 = v.obj →
      (v.obj = 1 → LeadsDev (.activate p w) s (fun d => d.svc.up = .activating ∧ d.svc.restartEnd = s.dev.time + 25000000
        ∧ d.restarting = true ∧ d.time = s.dev.time))
      ∧ (∀ k : Ch, v.obj = 5 → wbits w 32 16 = 2 ^ k.val → (s.chan k.val).noProg [0, 1, 2, 3, 4, 5, 6, 7] = true →
        ∃ t, exec (.activate p w) s = .next t ∧ t.pending = s.pending ∧ t.dev.svc.up = .done ∧ t.dev.svc.chdone = BitVec.ofNat 16 (2 ^ k.val)
          ∧ t.dev.slot 5 = i.digest
          ∧ ∀ n < 128, stepOp ((t.chan k.val).seqWord n) = stepOp (Config.tableWord i.digest (s.chan k.val).idx (0x1400 + 8 * n))))
    ∧ (wbits w 60 4 = 4 → v.up = .staged → LeadsDev (.updateAbort p w) s (fun d => d.svc.up = .failed ∧ d.svc.reason = 7))
    ∧ (∀ (k : Ch) (old : Ip) (t0 : Nat) (i : ImgInfo), v.up = .activating → v.obj = 2 → v.img = some i → v.todo = [] →
        v.handOver = [(k.val, old, t0)] → t0 + 1000000 ≤ s.dev.time → (s.chan k.val).handedOver = false →
      ∃ t, exec (.handOverTimeout k) s = .next t ∧ t.pending = s.pending ∧ t.dev.svc.up = .failed ∧ t.dev.svc.reason = 6
        ∧ t.dev.svc.handOver = [] ∧ (t.chan k.val).fld F.ccStewRestart = old.toNat)

/-- The SPDM responder (the codes and fields of its messages are the model's, PRESUMED in log entry 37) answers a request whose
negotiation is complete, with an ERROR otherwise and while the service core restarts; a management read returns a register of the ML,
TH and UP blocks. Commands that it concludes to answer a next state, on the conditions it states: getVersion, getCapabilities,
negotiateAlgorithms, getDigests, getCertificate, challenge, getMeasurements, mctpRegisterRead. -/
def Obligations.Attestation : Prop :=
  ∀ (s : State) (tr : Spdm) (d : Dev), d = s.dev → d.recovery = false →
    (d.restarting = false →
      GivesDev (.getVersion tr) s ((d.setConn tr { version := true }).respond tr 0x04 [0x1200])
      ∧ ((d.conn tr).version = true → GivesDev (.getCapabilities tr) s ((d.setConn tr { d.conn tr with caps := true }).respond tr 0x61 [0x16]))
      ∧ ((d.conn tr).version = false → GivesDev (.getCapabilities tr) s (d.respond tr 0x7F [4]))
      ∧ ((d.conn tr).caps = true → GivesDev (.negotiateAlgorithms tr) s
          ((d.setConn tr { d.conn tr with algs := true }).respond tr 0x63 [1, 4, 0x80, 2]))
      ∧ ((d.conn tr).algs = true →
          GivesDev (.getDigests tr) s (d.respond tr 0x01 (1 :: digestWords (sha384 d.chain)))
          ∧ (∀ (off len : BitVec 16), off.toNat < d.chain.length → LeadsDev (.getCertificate tr 0 off len) s (fun b =>
              ∃ rest, b = d.respond tr 0x02 (BitVec.ofNat 64 ((d.chain.drop off.toNat).take len.toNat).length :: rest)))
          ∧ (∀ nonce : Nonce, ∃ sig, GivesDev (.challenge tr 0 nonce) s
              (d.respond tr 0x03 (digestWords (sha384 d.chain) ++ d.ownNonce ++ sig)))
          ∧ (∀ (idx : BitVec 8) (nonce : Nonce), 1 ≤ idx.toNat → idx.toNat ≤ 8 → ∃ sig, GivesDev (.getMeasurements tr idx nonce) s
              (d.respond tr 0x60 (1 :: d.measBlock (idx.toNat - 1) ++ d.ownNonce ++ sig))))
      ∧ ((d.conn tr).algs = false → GivesDev (.getDigests tr) s (d.respond tr 0x7F [4])))
    ∧ (d.restarting = true → ∀ c ∈ [Instr.getVersion tr, Instr.getCapabilities tr, Instr.negotiateAlgorithms tr, Instr.getDigests tr],
        GivesDev c s (d.respond tr 0x7F [3]))
    ∧ (∀ off : BitVec 20, off.toNat % 8 = 0 →
      (inMctp off.toNat = true → GivesDev (.mctpRegisterRead off) s { d with out := d.out ++ [.mctp (s.devRead off.toNat)] })
      ∧ (inMctp off.toNat = false → GivesDev (.mctpRegisterRead off) s { d with out := d.out ++ [.mctp 0] }))

/-! ## The whole block -/

/-- After reset nothing waits, TIME is 0, every register holds the reset value that its row states, no channel is READY, no ring is
enabled, no caller runs, and the device blocks are sound; memory reads 0, which is the model's choice for GDDR7 (log entry 5); that
every register without a stated value starts at 0 is its choice too (log entry 4). -/
def Obligations.ResetValues : Prop :=
  State.reset.pending = [] ∧ State.reset.dev.time = 0 ∧ State.reset.dev.Sound
  ∧ ∀ k : Ch, ∀ c, c = State.reset.chan k.val →
      c.Sound ∧ c.idx = k.val ∧ (∀ off, c.rd off = BitVec.ofNat 64 (chanReset k.val off)) ∧ c.pw.ready = false ∧ c.pw.cst = 0
      ∧ c.rd 0x118 = BitVec.ofNat 64 (k.val * 2 ^ 16) ∧ c.rd 0x2000 = 1 ∧ c.fld F.msWmHigh = 0x12000 ∧ c.fld F.msWmLow = 0xF000
      ∧ c.fld F.pwrIdleT1 = 64 ∧ c.fld F.pwrIdleT2 = 100 ∧ c.fld F.pwrIdleT3 = 200 ∧ c.fld F.pwrIdleTset = 50
      ∧ c.rd 0x1A000 = 0x0020000000000000 ∧ c.rd 0x1A018 = 0x5F55 ∧ c.rd 0x30200 = 0xE000 ∧ (∀ e < 8, c.rd (0x1C100 + 8 * e) = 0x7777777777777777)
      ∧ (∀ q < 512, c.qEn q = true ∧ c.qDup q = false ∧ c.qRetain q = true ∧ c.qCap q = 32)
      ∧ (∀ r < 128, (c.ring r).st = .disabled ∧ c.flag (F.rgScfgEn r) = false)
      ∧ (∀ n < 4, (c.caller n).st = .halted ∧ (c.caller n).phys = some n) ∧ (∀ a, memByte c.mem a = 0)
      ∧ (∀ i, c.instr i = BitVec.allOnes 64) ∧ c.progClearing = true ∧ c.sp.clearing = true

/-- No command changes the commands behind it, and a command for a channel changes neither another channel nor the device blocks. -/
def Obligations.ChannelsAreApart : Prop :=
  ∀ (c : Instr) (s t : State), exec c s = .next t → t.pending = s.pending
    ∧ (∀ k, channelOf c = some k → t.dev = s.dev ∧ ∀ j, j ≠ k.val → t.chan j = s.chan j)

/-- Every step keeps the device blocks sound: at most 64 records wait, FAIL stays within 16 bits, no COUNT passes 255, the service
core's inbox holds at most 16 entries. Every step keeps the channels sound: memory in its canonical form, no COUNT above 255, at most
16 entries in an inbox, in no queue more unread than held, and no region borrowed in a bank whose Shuffle has halted. No step but POR_N
sets TIME back. -/
def Obligations.DeviceStaysSound : Prop :=
  ∀ s t : State, step s = .next t →
    (s.dev.Sound → t.dev.Sound) ∧ ((∀ j, (s.chan j).Sound) → ∀ j, (t.chan j).Sound) ∧ ((∀ b r, s.pending ≠ .porN b :: r) → s.dev.time ≤ t.dev.time ∧ s.dev.xclk ≤ t.dev.xclk)
end

