-- ==== Sys2Proof/Laws/Tbl.lean ====
section
/-! SUPPORT. The laws of sparse tables: a read after a write, and the canonical form that every write keeps. -/

namespace Sys2Proof.Machine

theorem tblFind_ins {α : Type} (t : Tbl α) (k j : Nat) (v : α) : tblFind (tblIns t k v) j = if j = k then some v else tblFind t j := by
  induction t with
  | nil => by_cases h : j = k
           · simp [tblIns, tblFind, h]
           · simp [tblIns, tblFind, h, Ne.symm h]
  | cons e r ih =>
    obtain ⟨i, w⟩ := e
    by_cases h1 : k < i
    · by_cases h : j = k
      · simp [tblIns, h1, tblFind, h]
      · simp [tblIns, h1, tblFind, h, Ne.symm h]
    · by_cases h2 : k = i
      · subst h2
        by_cases h : j = k
        · simp [tblIns, tblFind, h]
        · simp [tblIns, tblFind, h, Ne.symm h]
      · by_cases h : j = k
        · subst h; simp [tblIns, h1, h2, tblFind, Ne.symm h2, ih]
        · simp [tblIns, h1, h2, tblFind, ih, h]

theorem tblFind_del {α : Type} (t : Tbl α) (k j : Nat) : tblFind (tblDel t k) j = if j = k then none else tblFind t j := by
  induction t with
  | nil => simp [tblDel, tblFind]
  | cons e r ih =>
    obtain ⟨i, w⟩ := e
    simp only [tblDel, List.filter_cons] at *
    by_cases h : i = k
    · subst h; by_cases h : j = i
      · rw [h] at ih ⊢; simpa [tblFind] using ih
      · simp [tblFind, ih, h, Ne.symm h]
    · by_cases h' : j = k
      · subst h'; simp [h, tblFind, ih]
      · simp [h, tblFind, ih, h']

/-- A read after a write of a table: the value written at its key, the old one at every other. -/
theorem tblGet_put {α : Type} [DecidableEq α] (t : Tbl α) (k j : Nat) (v d : α) :
    tblGet (tblPut t k v d) j d = if j = k then v else tblGet t j d := by
  simp only [tblGet, tblPut]
  split_ifs with h1 h2 h2 <;> simp_all [tblFind_ins, tblFind_del]

@[simp] theorem tblGet_put_same {α : Type} [DecidableEq α] (t : Tbl α) (k : Nat) (v d : α) : tblGet (tblPut t k v d) k d = v := by
  simp [tblGet_put]

theorem tblGet_put_ne {α : Type} [DecidableEq α] (t : Tbl α) {k j : Nat} (v d : α) (h : j ≠ k) :
    tblGet (tblPut t k v d) j d = tblGet t j d := by
  simp [tblGet_put, h]

@[simp] theorem tblGet_nil {α : Type} (k : Nat) (d : α) : tblGet [] k d = d := rfl

/-- The keys of a sorted table rise strictly. -/
theorem tblSorted_iff {α : Type} (t : Tbl α) : tblSorted t = true ↔ t.Pairwise (fun a b => a.1 < b.1) := by
  induction t with
  | nil => simp [tblSorted]
  | cons e r ih =>
    obtain ⟨i, w⟩ := e
    cases r with
    | nil => simp [tblSorted]
    | cons f r =>
      obtain ⟨j, u⟩ := f
      simp only [tblSorted, Bool.and_eq_true, decide_eq_true_eq, ih, List.pairwise_cons]
      constructor
      · rintro ⟨h, hr⟩
        refine ⟨?_, hr⟩
        intro b hb
        rcases List.mem_cons.1 hb with rfl | hb
        · exact h
        · exact h.trans (hr.1 b hb)
      · rintro ⟨h, hr⟩
        exact ⟨h (j, u) (by simp), hr⟩

theorem mem_tblIns {α : Type} (t : Tbl α) (k : Nat) (v : α) (e : Nat × α) (h : e ∈ tblIns t k v) : e = (k, v) ∨ e ∈ t := by
  induction t with
  | nil => simpa [tblIns] using h
  | cons f r ih =>
    obtain ⟨i, w⟩ := f
    simp only [tblIns] at h
    split_ifs at h with h1 h2
    · simpa using h
    · rcases List.mem_cons.1 h with h | h
      · exact .inl h
      · exact .inr (List.mem_cons_of_mem _ h)
    · rcases List.mem_cons.1 h with rfl | h
      · exact .inr (by simp)
      · exact (ih h).imp id (List.mem_cons_of_mem _)

theorem tblSorted_ins {α : Type} (t : Tbl α) (k : Nat) (v : α) (h : tblSorted t = true) : tblSorted (tblIns t k v) = true := by
  rw [tblSorted_iff] at *
  induction t with
  | nil => simp [tblIns]
  | cons f r ih =>
    obtain ⟨i, w⟩ := f
    have hp := List.pairwise_cons.1 h
    simp only [tblIns]
    split_ifs with h1 h2
    · refine List.pairwise_cons.2 ⟨?_, h⟩
      intro b hb
      rcases List.mem_cons.1 hb with rfl | hb
      · exact h1
      · exact h1.trans (hp.1 b hb)
    · subst h2; exact List.pairwise_cons.2 ⟨hp.1, hp.2⟩
    · refine List.pairwise_cons.2 ⟨?_, ih hp.2⟩
      intro b hb
      rcases mem_tblIns r k v b hb with rfl | hb
      · simp only; omega
      · exact hp.1 b hb

theorem tblSorted_filter {α : Type} (t : Tbl α) (p : Nat × α → Bool) (h : tblSorted t = true) : tblSorted (t.filter p) = true := by
  rw [tblSorted_iff] at *
  exact h.filter p

theorem tblSorted_put {α : Type} [DecidableEq α] (t : Tbl α) (k : Nat) (v d : α) (h : tblSorted t = true) :
    tblSorted (tblPut t k v d) = true := by
  simp only [tblPut]
  split_ifs
  · exact tblSorted_filter t _ h
  · exact tblSorted_ins t k v h

/-- A write lists no entry equal to the default. -/
theorem tblPut_ne_default {α : Type} [DecidableEq α] (t : Tbl α) (k : Nat) (v d : α) (h : ∀ e ∈ t, e.2 ≠ d) :
    ∀ e ∈ tblPut t k v d, e.2 ≠ d := by
  intro e he
  simp only [tblPut] at he
  split_ifs at he with hv
  · exact h e (List.mem_of_mem_filter he)
  · rcases mem_tblIns t k v e he with rfl | he
    · exact hv
    · exact h e he

end Sys2Proof.Machine
end

