-- ==== Sys2Proof/Laws/State.lean ====
section
/-! SUPPORT. What each update of a channel leaves: one lemma for each field and each reading, and the read after the write. -/

namespace Sys2Proof.Machine

set_option Elab.async false

/-! ### wr -/

@[simp] theorem Chan.wr_idx (c : Chan) (off : Nat) (w : Word) : (c.wr off w).idx = c.idx := rfl
@[simp] theorem Chan.wr_xclk (c : Chan) (off : Nat) (w : Word) : (c.wr off w).xclk = c.xclk := rfl
@[simp] theorem Chan.wr_prog (c : Chan) (off : Nat) (w : Word) : (c.wr off w).prog = c.prog := rfl
@[simp] theorem Chan.wr_progClearing (c : Chan) (off : Nat) (w : Word) : (c.wr off w).progClearing = c.progClearing := rfl
@[simp] theorem Chan.wr_mem (c : Chan) (off : Nat) (w : Word) : (c.wr off w).mem = c.mem := rfl
@[simp] theorem Chan.wr_poison (c : Chan) (off : Nat) (w : Word) : (c.wr off w).poison = c.poison := rfl
@[simp] theorem Chan.wr_cu (c : Chan) (off : Nat) (w : Word) : (c.wr off w).cu = c.cu := rfl
@[simp] theorem Chan.wr_ms (c : Chan) (off : Nat) (w : Word) : (c.wr off w).ms = c.ms := rfl
@[simp] theorem Chan.wr_duets (c : Chan) (off : Nat) (w : Word) : (c.wr off w).duets = c.duets := rfl
@[simp] theorem Chan.wr_qu (c : Chan) (off : Nat) (w : Word) : (c.wr off w).qu = c.qu := rfl
@[simp] theorem Chan.wr_fl (c : Chan) (off : Nat) (w : Word) : (c.wr off w).fl = c.fl := rfl
@[simp] theorem Chan.wr_sp (c : Chan) (off : Nat) (w : Word) : (c.wr off w).sp = c.sp := rfl
@[simp] theorem Chan.wr_locks (c : Chan) (off : Nat) (w : Word) : (c.wr off w).locks = c.locks := rfl
@[simp] theorem Chan.wr_dm (c : Chan) (off : Nat) (w : Word) : (c.wr off w).dm = c.dm := rfl
@[simp] theorem Chan.wr_net (c : Chan) (off : Nat) (w : Word) : (c.wr off w).net = c.net := rfl
@[simp] theorem Chan.wr_ports (c : Chan) (off : Nat) (w : Word) : (c.wr off w).ports = c.ports := rfl
@[simp] theorem Chan.wr_callers (c : Chan) (off : Nat) (w : Word) : (c.wr off w).callers = c.callers := rfl
@[simp] theorem Chan.wr_ev (c : Chan) (off : Nat) (w : Word) : (c.wr off w).ev = c.ev := rfl
@[simp] theorem Chan.wr_rings (c : Chan) (off : Nat) (w : Word) : (c.wr off w).rings = c.rings := rfl
@[simp] theorem Chan.wr_crings (c : Chan) (off : Nat) (w : Word) : (c.wr off w).crings = c.crings := rfl
@[simp] theorem Chan.wr_copies (c : Chan) (off : Nat) (w : Word) : (c.wr off w).copies = c.copies := rfl
@[simp] theorem Chan.wr_copyRr (c : Chan) (off : Nat) (w : Word) : (c.wr off w).copyRr = c.copyRr := rfl
@[simp] theorem Chan.wr_hw (c : Chan) (off : Nat) (w : Word) : (c.wr off w).hw = c.hw := rfl
@[simp] theorem Chan.wr_pw (c : Chan) (off : Nat) (w : Word) : (c.wr off w).pw = c.pw := rfl
@[simp] theorem Chan.wr_msix (c : Chan) (off : Nat) (w : Word) : (c.wr off w).msix = c.msix := rfl
@[simp] theorem Chan.wr_readData (c : Chan) (off : Nat) (w : Word) : (c.wr off w).readData = c.readData := rfl
@[simp] theorem Chan.wr_out (c : Chan) (off : Nat) (w : Word) : (c.wr off w).out = c.out := rfl
@[simp] theorem Chan.wr_excq (c : Chan) (off : Nat) (w : Word) : (c.wr off w).excq = c.excq := rfl
@[simp] theorem Chan.wr_late (c : Chan) (off : Nat) (w : Word) : (c.wr off w).late = c.late := rfl
@[simp] theorem Chan.wr_done (c : Chan) (off : Nat) (w : Word) : (c.wr off w).done = c.done := rfl
@[simp] theorem Chan.wr_devEv (c : Chan) (off : Nat) (w : Word) : (c.wr off w).devEv = c.devEv := rfl
@[simp] theorem Chan.wr_notes (c : Chan) (off : Nat) (w : Word) : (c.wr off w).notes = c.notes := rfl
@[simp] theorem Chan.wr_caller (c : Chan) (off : Nat) (w : Word) (m : Nat) : (c.wr off w).caller m = c.caller m := rfl
@[simp] theorem Chan.wr_duet (c : Chan) (off : Nat) (w : Word) (m : Nat) : (c.wr off w).duet m = c.duet m := rfl
@[simp] theorem Chan.wr_tile (c : Chan) (off : Nat) (w : Word) (m : Nat) : (c.wr off w).tile m = c.tile m := rfl
@[simp] theorem Chan.wr_port (c : Chan) (off : Nat) (w : Word) (m : Nat) : (c.wr off w).port m = c.port m := rfl
@[simp] theorem Chan.wr_ring (c : Chan) (off : Nat) (w : Word) (m : Nat) : (c.wr off w).ring m = c.ring m := rfl
@[simp] theorem Chan.wr_cring (c : Chan) (off : Nat) (w : Word) (m : Nat) : (c.wr off w).cring m = c.cring m := rfl
@[simp] theorem Chan.wr_loop (c : Chan) (off : Nat) (w : Word) (m : Nat) : (c.wr off w).loop m = c.loop m := rfl
@[simp] theorem Chan.wr_ord (c : Chan) (off : Nat) (w : Word) (m : Nat) : (c.wr off w).ord m = c.ord m := rfl
@[simp] theorem Chan.wr_solo (c : Chan) (off : Nat) (w : Word) (m : Nat) : (c.wr off w).solo m = c.solo m := rfl
@[simp] theorem Chan.wr_lock (c : Chan) (off : Nat) (w : Word) (m : Nat) : (c.wr off w).lock m = c.lock m := rfl
@[simp] theorem Chan.wr_dom (c : Chan) (off : Nat) (w : Word) (m : Nat) : (c.wr off w).dom m = c.dom m := rfl
@[simp] theorem Chan.wr_qptr (c : Chan) (off : Nat) (w : Word) (m : Nat) : (c.wr off w).qptr m = c.qptr m := rfl
@[simp] theorem Chan.wr_qWord (c : Chan) (off : Nat) (w : Word) (m : Nat) : (c.wr off w).qWord m = c.qWord m := rfl
@[simp] theorem Chan.wr_entry (c : Chan) (off : Nat) (w : Word) (y z : Nat) : (c.wr off w).entry y z = c.entry y z := rfl
@[simp] theorem Chan.wr_instr (c : Chan) (off : Nat) (w : Word) (m : Nat) : (c.wr off w).instr m = c.instr m := rfl
@[simp] theorem Chan.wr_ctx (c : Chan) (off : Nat) (w : Word) (m : Nat) : (c.wr off w).ctx m = c.ctx m := rfl
@[simp] theorem Chan.wr_progOf (c : Chan) (off : Nat) (w : Word) (m : Nat) : (c.wr off w).prog? m = c.prog? m := rfl
@[simp] theorem Chan.wr_rdWord (c : Chan) (off : Nat) (w : Word) (m : Nat) : (c.wr off w).rdWord m = c.rdWord m := rfl
@[simp] theorem Chan.wr_arrived (c : Chan) (off : Nat) (w : Word) (y z : Nat) : (c.wr off w).arrived y z = c.arrived y z := rfl

/-! ### setFld -/

@[simp] theorem Chan.setFld_idx (c : Chan) (f : Fd) (v : Nat) : (c.setFld f v).idx = c.idx := rfl
@[simp] theorem Chan.setFld_xclk (c : Chan) (f : Fd) (v : Nat) : (c.setFld f v).xclk = c.xclk := rfl
@[simp] theorem Chan.setFld_prog (c : Chan) (f : Fd) (v : Nat) : (c.setFld f v).prog = c.prog := rfl
@[simp] theorem Chan.setFld_progClearing (c : Chan) (f : Fd) (v : Nat) : (c.setFld f v).progClearing = c.progClearing := rfl
@[simp] theorem Chan.setFld_mem (c : Chan) (f : Fd) (v : Nat) : (c.setFld f v).mem = c.mem := rfl
@[simp] theorem Chan.setFld_poison (c : Chan) (f : Fd) (v : Nat) : (c.setFld f v).poison = c.poison := rfl
@[simp] theorem Chan.setFld_cu (c : Chan) (f : Fd) (v : Nat) : (c.setFld f v).cu = c.cu := rfl
@[simp] theorem Chan.setFld_ms (c : Chan) (f : Fd) (v : Nat) : (c.setFld f v).ms = c.ms := rfl
@[simp] theorem Chan.setFld_duets (c : Chan) (f : Fd) (v : Nat) : (c.setFld f v).duets = c.duets := rfl
@[simp] theorem Chan.setFld_qu (c : Chan) (f : Fd) (v : Nat) : (c.setFld f v).qu = c.qu := rfl
@[simp] theorem Chan.setFld_fl (c : Chan) (f : Fd) (v : Nat) : (c.setFld f v).fl = c.fl := rfl
@[simp] theorem Chan.setFld_sp (c : Chan) (f : Fd) (v : Nat) : (c.setFld f v).sp = c.sp := rfl
@[simp] theorem Chan.setFld_locks (c : Chan) (f : Fd) (v : Nat) : (c.setFld f v).locks = c.locks := rfl
@[simp] theorem Chan.setFld_dm (c : Chan) (f : Fd) (v : Nat) : (c.setFld f v).dm = c.dm := rfl
@[simp] theorem Chan.setFld_net (c : Chan) (f : Fd) (v : Nat) : (c.setFld f v).net = c.net := rfl
@[simp] theorem Chan.setFld_ports (c : Chan) (f : Fd) (v : Nat) : (c.setFld f v).ports = c.ports := rfl
@[simp] theorem Chan.setFld_callers (c : Chan) (f : Fd) (v : Nat) : (c.setFld f v).callers = c.callers := rfl
@[simp] theorem Chan.setFld_ev (c : Chan) (f : Fd) (v : Nat) : (c.setFld f v).ev = c.ev := rfl
@[simp] theorem Chan.setFld_rings (c : Chan) (f : Fd) (v : Nat) : (c.setFld f v).rings = c.rings := rfl
@[simp] theorem Chan.setFld_crings (c : Chan) (f : Fd) (v : Nat) : (c.setFld f v).crings = c.crings := rfl
@[simp] theorem Chan.setFld_copies (c : Chan) (f : Fd) (v : Nat) : (c.setFld f v).copies = c.copies := rfl
@[simp] theorem Chan.setFld_copyRr (c : Chan) (f : Fd) (v : Nat) : (c.setFld f v).copyRr = c.copyRr := rfl
@[simp] theorem Chan.setFld_hw (c : Chan) (f : Fd) (v : Nat) : (c.setFld f v).hw = c.hw := rfl
@[simp] theorem Chan.setFld_pw (c : Chan) (f : Fd) (v : Nat) : (c.setFld f v).pw = c.pw := rfl
@[simp] theorem Chan.setFld_msix (c : Chan) (f : Fd) (v : Nat) : (c.setFld f v).msix = c.msix := rfl
@[simp] theorem Chan.setFld_readData (c : Chan) (f : Fd) (v : Nat) : (c.setFld f v).readData = c.readData := rfl
@[simp] theorem Chan.setFld_out (c : Chan) (f : Fd) (v : Nat) : (c.setFld f v).out = c.out := rfl
@[simp] theorem Chan.setFld_excq (c : Chan) (f : Fd) (v : Nat) : (c.setFld f v).excq = c.excq := rfl
@[simp] theorem Chan.setFld_late (c : Chan) (f : Fd) (v : Nat) : (c.setFld f v).late = c.late := rfl
@[simp] theorem Chan.setFld_done (c : Chan) (f : Fd) (v : Nat) : (c.setFld f v).done = c.done := rfl
@[simp] theorem Chan.setFld_devEv (c : Chan) (f : Fd) (v : Nat) : (c.setFld f v).devEv = c.devEv := rfl
@[simp] theorem Chan.setFld_notes (c : Chan) (f : Fd) (v : Nat) : (c.setFld f v).notes = c.notes := rfl
@[simp] theorem Chan.setFld_caller (c : Chan) (f : Fd) (v : Nat) (m : Nat) : (c.setFld f v).caller m = c.caller m := rfl
@[simp] theorem Chan.setFld_duet (c : Chan) (f : Fd) (v : Nat) (m : Nat) : (c.setFld f v).duet m = c.duet m := rfl
@[simp] theorem Chan.setFld_tile (c : Chan) (f : Fd) (v : Nat) (m : Nat) : (c.setFld f v).tile m = c.tile m := rfl
@[simp] theorem Chan.setFld_port (c : Chan) (f : Fd) (v : Nat) (m : Nat) : (c.setFld f v).port m = c.port m := rfl
@[simp] theorem Chan.setFld_ring (c : Chan) (f : Fd) (v : Nat) (m : Nat) : (c.setFld f v).ring m = c.ring m := rfl
@[simp] theorem Chan.setFld_cring (c : Chan) (f : Fd) (v : Nat) (m : Nat) : (c.setFld f v).cring m = c.cring m := rfl
@[simp] theorem Chan.setFld_loop (c : Chan) (f : Fd) (v : Nat) (m : Nat) : (c.setFld f v).loop m = c.loop m := rfl
@[simp] theorem Chan.setFld_ord (c : Chan) (f : Fd) (v : Nat) (m : Nat) : (c.setFld f v).ord m = c.ord m := rfl
@[simp] theorem Chan.setFld_solo (c : Chan) (f : Fd) (v : Nat) (m : Nat) : (c.setFld f v).solo m = c.solo m := rfl
@[simp] theorem Chan.setFld_lock (c : Chan) (f : Fd) (v : Nat) (m : Nat) : (c.setFld f v).lock m = c.lock m := rfl
@[simp] theorem Chan.setFld_dom (c : Chan) (f : Fd) (v : Nat) (m : Nat) : (c.setFld f v).dom m = c.dom m := rfl
@[simp] theorem Chan.setFld_qptr (c : Chan) (f : Fd) (v : Nat) (m : Nat) : (c.setFld f v).qptr m = c.qptr m := rfl
@[simp] theorem Chan.setFld_qWord (c : Chan) (f : Fd) (v : Nat) (m : Nat) : (c.setFld f v).qWord m = c.qWord m := rfl
@[simp] theorem Chan.setFld_entry (c : Chan) (f : Fd) (v : Nat) (y z : Nat) : (c.setFld f v).entry y z = c.entry y z := rfl
@[simp] theorem Chan.setFld_instr (c : Chan) (f : Fd) (v : Nat) (m : Nat) : (c.setFld f v).instr m = c.instr m := rfl
@[simp] theorem Chan.setFld_ctx (c : Chan) (f : Fd) (v : Nat) (m : Nat) : (c.setFld f v).ctx m = c.ctx m := rfl
@[simp] theorem Chan.setFld_progOf (c : Chan) (f : Fd) (v : Nat) (m : Nat) : (c.setFld f v).prog? m = c.prog? m := rfl
@[simp] theorem Chan.setFld_rdWord (c : Chan) (f : Fd) (v : Nat) (m : Nat) : (c.setFld f v).rdWord m = c.rdWord m := rfl
@[simp] theorem Chan.setFld_arrived (c : Chan) (f : Fd) (v : Nat) (y z : Nat) : (c.setFld f v).arrived y z = c.arrived y z := rfl

/-! ### addSat -/

@[simp] theorem Chan.addSat_idx (c : Chan) (f : Fd) (n : Nat) : (c.addSat f n).idx = c.idx := rfl
@[simp] theorem Chan.addSat_xclk (c : Chan) (f : Fd) (n : Nat) : (c.addSat f n).xclk = c.xclk := rfl
@[simp] theorem Chan.addSat_prog (c : Chan) (f : Fd) (n : Nat) : (c.addSat f n).prog = c.prog := rfl
@[simp] theorem Chan.addSat_progClearing (c : Chan) (f : Fd) (n : Nat) : (c.addSat f n).progClearing = c.progClearing := rfl
@[simp] theorem Chan.addSat_mem (c : Chan) (f : Fd) (n : Nat) : (c.addSat f n).mem = c.mem := rfl
@[simp] theorem Chan.addSat_poison (c : Chan) (f : Fd) (n : Nat) : (c.addSat f n).poison = c.poison := rfl
@[simp] theorem Chan.addSat_cu (c : Chan) (f : Fd) (n : Nat) : (c.addSat f n).cu = c.cu := rfl
@[simp] theorem Chan.addSat_ms (c : Chan) (f : Fd) (n : Nat) : (c.addSat f n).ms = c.ms := rfl
@[simp] theorem Chan.addSat_duets (c : Chan) (f : Fd) (n : Nat) : (c.addSat f n).duets = c.duets := rfl
@[simp] theorem Chan.addSat_qu (c : Chan) (f : Fd) (n : Nat) : (c.addSat f n).qu = c.qu := rfl
@[simp] theorem Chan.addSat_fl (c : Chan) (f : Fd) (n : Nat) : (c.addSat f n).fl = c.fl := rfl
@[simp] theorem Chan.addSat_sp (c : Chan) (f : Fd) (n : Nat) : (c.addSat f n).sp = c.sp := rfl
@[simp] theorem Chan.addSat_locks (c : Chan) (f : Fd) (n : Nat) : (c.addSat f n).locks = c.locks := rfl
@[simp] theorem Chan.addSat_dm (c : Chan) (f : Fd) (n : Nat) : (c.addSat f n).dm = c.dm := rfl
@[simp] theorem Chan.addSat_net (c : Chan) (f : Fd) (n : Nat) : (c.addSat f n).net = c.net := rfl
@[simp] theorem Chan.addSat_ports (c : Chan) (f : Fd) (n : Nat) : (c.addSat f n).ports = c.ports := rfl
@[simp] theorem Chan.addSat_callers (c : Chan) (f : Fd) (n : Nat) : (c.addSat f n).callers = c.callers := rfl
@[simp] theorem Chan.addSat_ev (c : Chan) (f : Fd) (n : Nat) : (c.addSat f n).ev = c.ev := rfl
@[simp] theorem Chan.addSat_rings (c : Chan) (f : Fd) (n : Nat) : (c.addSat f n).rings = c.rings := rfl
@[simp] theorem Chan.addSat_crings (c : Chan) (f : Fd) (n : Nat) : (c.addSat f n).crings = c.crings := rfl
@[simp] theorem Chan.addSat_copies (c : Chan) (f : Fd) (n : Nat) : (c.addSat f n).copies = c.copies := rfl
@[simp] theorem Chan.addSat_copyRr (c : Chan) (f : Fd) (n : Nat) : (c.addSat f n).copyRr = c.copyRr := rfl
@[simp] theorem Chan.addSat_hw (c : Chan) (f : Fd) (n : Nat) : (c.addSat f n).hw = c.hw := rfl
@[simp] theorem Chan.addSat_pw (c : Chan) (f : Fd) (n : Nat) : (c.addSat f n).pw = c.pw := rfl
@[simp] theorem Chan.addSat_msix (c : Chan) (f : Fd) (n : Nat) : (c.addSat f n).msix = c.msix := rfl
@[simp] theorem Chan.addSat_readData (c : Chan) (f : Fd) (n : Nat) : (c.addSat f n).readData = c.readData := rfl
@[simp] theorem Chan.addSat_out (c : Chan) (f : Fd) (n : Nat) : (c.addSat f n).out = c.out := rfl
@[simp] theorem Chan.addSat_excq (c : Chan) (f : Fd) (n : Nat) : (c.addSat f n).excq = c.excq := rfl
@[simp] theorem Chan.addSat_late (c : Chan) (f : Fd) (n : Nat) : (c.addSat f n).late = c.late := rfl
@[simp] theorem Chan.addSat_done (c : Chan) (f : Fd) (n : Nat) : (c.addSat f n).done = c.done := rfl
@[simp] theorem Chan.addSat_devEv (c : Chan) (f : Fd) (n : Nat) : (c.addSat f n).devEv = c.devEv := rfl
@[simp] theorem Chan.addSat_notes (c : Chan) (f : Fd) (n : Nat) : (c.addSat f n).notes = c.notes := rfl
@[simp] theorem Chan.addSat_caller (c : Chan) (f : Fd) (n : Nat) (m : Nat) : (c.addSat f n).caller m = c.caller m := rfl
@[simp] theorem Chan.addSat_duet (c : Chan) (f : Fd) (n : Nat) (m : Nat) : (c.addSat f n).duet m = c.duet m := rfl
@[simp] theorem Chan.addSat_tile (c : Chan) (f : Fd) (n : Nat) (m : Nat) : (c.addSat f n).tile m = c.tile m := rfl
@[simp] theorem Chan.addSat_port (c : Chan) (f : Fd) (n : Nat) (m : Nat) : (c.addSat f n).port m = c.port m := rfl
@[simp] theorem Chan.addSat_ring (c : Chan) (f : Fd) (n : Nat) (m : Nat) : (c.addSat f n).ring m = c.ring m := rfl
@[simp] theorem Chan.addSat_cring (c : Chan) (f : Fd) (n : Nat) (m : Nat) : (c.addSat f n).cring m = c.cring m := rfl
@[simp] theorem Chan.addSat_loop (c : Chan) (f : Fd) (n : Nat) (m : Nat) : (c.addSat f n).loop m = c.loop m := rfl
@[simp] theorem Chan.addSat_ord (c : Chan) (f : Fd) (n : Nat) (m : Nat) : (c.addSat f n).ord m = c.ord m := rfl
@[simp] theorem Chan.addSat_solo (c : Chan) (f : Fd) (n : Nat) (m : Nat) : (c.addSat f n).solo m = c.solo m := rfl
@[simp] theorem Chan.addSat_lock (c : Chan) (f : Fd) (n : Nat) (m : Nat) : (c.addSat f n).lock m = c.lock m := rfl
@[simp] theorem Chan.addSat_dom (c : Chan) (f : Fd) (n : Nat) (m : Nat) : (c.addSat f n).dom m = c.dom m := rfl
@[simp] theorem Chan.addSat_qptr (c : Chan) (f : Fd) (n : Nat) (m : Nat) : (c.addSat f n).qptr m = c.qptr m := rfl
@[simp] theorem Chan.addSat_qWord (c : Chan) (f : Fd) (n : Nat) (m : Nat) : (c.addSat f n).qWord m = c.qWord m := rfl
@[simp] theorem Chan.addSat_entry (c : Chan) (f : Fd) (n : Nat) (y z : Nat) : (c.addSat f n).entry y z = c.entry y z := rfl
@[simp] theorem Chan.addSat_instr (c : Chan) (f : Fd) (n : Nat) (m : Nat) : (c.addSat f n).instr m = c.instr m := rfl
@[simp] theorem Chan.addSat_ctx (c : Chan) (f : Fd) (n : Nat) (m : Nat) : (c.addSat f n).ctx m = c.ctx m := rfl
@[simp] theorem Chan.addSat_progOf (c : Chan) (f : Fd) (n : Nat) (m : Nat) : (c.addSat f n).prog? m = c.prog? m := rfl
@[simp] theorem Chan.addSat_rdWord (c : Chan) (f : Fd) (n : Nat) (m : Nat) : (c.addSat f n).rdWord m = c.rdWord m := rfl
@[simp] theorem Chan.addSat_arrived (c : Chan) (f : Fd) (n : Nat) (y z : Nat) : (c.addSat f n).arrived y z = c.arrived y z := rfl

/-! ### inc -/

@[simp] theorem Chan.inc_idx (c : Chan) (f : Fd) : (c.inc f).idx = c.idx := rfl
@[simp] theorem Chan.inc_xclk (c : Chan) (f : Fd) : (c.inc f).xclk = c.xclk := rfl
@[simp] theorem Chan.inc_prog (c : Chan) (f : Fd) : (c.inc f).prog = c.prog := rfl
@[simp] theorem Chan.inc_progClearing (c : Chan) (f : Fd) : (c.inc f).progClearing = c.progClearing := rfl
@[simp] theorem Chan.inc_mem (c : Chan) (f : Fd) : (c.inc f).mem = c.mem := rfl
@[simp] theorem Chan.inc_poison (c : Chan) (f : Fd) : (c.inc f).poison = c.poison := rfl
@[simp] theorem Chan.inc_cu (c : Chan) (f : Fd) : (c.inc f).cu = c.cu := rfl
@[simp] theorem Chan.inc_ms (c : Chan) (f : Fd) : (c.inc f).ms = c.ms := rfl
@[simp] theorem Chan.inc_duets (c : Chan) (f : Fd) : (c.inc f).duets = c.duets := rfl
@[simp] theorem Chan.inc_qu (c : Chan) (f : Fd) : (c.inc f).qu = c.qu := rfl
@[simp] theorem Chan.inc_fl (c : Chan) (f : Fd) : (c.inc f).fl = c.fl := rfl
@[simp] theorem Chan.inc_sp (c : Chan) (f : Fd) : (c.inc f).sp = c.sp := rfl
@[simp] theorem Chan.inc_locks (c : Chan) (f : Fd) : (c.inc f).locks = c.locks := rfl
@[simp] theorem Chan.inc_dm (c : Chan) (f : Fd) : (c.inc f).dm = c.dm := rfl
@[simp] theorem Chan.inc_net (c : Chan) (f : Fd) : (c.inc f).net = c.net := rfl
@[simp] theorem Chan.inc_ports (c : Chan) (f : Fd) : (c.inc f).ports = c.ports := rfl
@[simp] theorem Chan.inc_callers (c : Chan) (f : Fd) : (c.inc f).callers = c.callers := rfl
@[simp] theorem Chan.inc_ev (c : Chan) (f : Fd) : (c.inc f).ev = c.ev := rfl
@[simp] theorem Chan.inc_rings (c : Chan) (f : Fd) : (c.inc f).rings = c.rings := rfl
@[simp] theorem Chan.inc_crings (c : Chan) (f : Fd) : (c.inc f).crings = c.crings := rfl
@[simp] theorem Chan.inc_copies (c : Chan) (f : Fd) : (c.inc f).copies = c.copies := rfl
@[simp] theorem Chan.inc_copyRr (c : Chan) (f : Fd) : (c.inc f).copyRr = c.copyRr := rfl
@[simp] theorem Chan.inc_hw (c : Chan) (f : Fd) : (c.inc f).hw = c.hw := rfl
@[simp] theorem Chan.inc_pw (c : Chan) (f : Fd) : (c.inc f).pw = c.pw := rfl
@[simp] theorem Chan.inc_msix (c : Chan) (f : Fd) : (c.inc f).msix = c.msix := rfl
@[simp] theorem Chan.inc_readData (c : Chan) (f : Fd) : (c.inc f).readData = c.readData := rfl
@[simp] theorem Chan.inc_out (c : Chan) (f : Fd) : (c.inc f).out = c.out := rfl
@[simp] theorem Chan.inc_excq (c : Chan) (f : Fd) : (c.inc f).excq = c.excq := rfl
@[simp] theorem Chan.inc_late (c : Chan) (f : Fd) : (c.inc f).late = c.late := rfl
@[simp] theorem Chan.inc_done (c : Chan) (f : Fd) : (c.inc f).done = c.done := rfl
@[simp] theorem Chan.inc_devEv (c : Chan) (f : Fd) : (c.inc f).devEv = c.devEv := rfl
@[simp] theorem Chan.inc_notes (c : Chan) (f : Fd) : (c.inc f).notes = c.notes := rfl
@[simp] theorem Chan.inc_caller (c : Chan) (f : Fd) (m : Nat) : (c.inc f).caller m = c.caller m := rfl
@[simp] theorem Chan.inc_duet (c : Chan) (f : Fd) (m : Nat) : (c.inc f).duet m = c.duet m := rfl
@[simp] theorem Chan.inc_tile (c : Chan) (f : Fd) (m : Nat) : (c.inc f).tile m = c.tile m := rfl
@[simp] theorem Chan.inc_port (c : Chan) (f : Fd) (m : Nat) : (c.inc f).port m = c.port m := rfl
@[simp] theorem Chan.inc_ring (c : Chan) (f : Fd) (m : Nat) : (c.inc f).ring m = c.ring m := rfl
@[simp] theorem Chan.inc_cring (c : Chan) (f : Fd) (m : Nat) : (c.inc f).cring m = c.cring m := rfl
@[simp] theorem Chan.inc_loop (c : Chan) (f : Fd) (m : Nat) : (c.inc f).loop m = c.loop m := rfl
@[simp] theorem Chan.inc_ord (c : Chan) (f : Fd) (m : Nat) : (c.inc f).ord m = c.ord m := rfl
@[simp] theorem Chan.inc_solo (c : Chan) (f : Fd) (m : Nat) : (c.inc f).solo m = c.solo m := rfl
@[simp] theorem Chan.inc_lock (c : Chan) (f : Fd) (m : Nat) : (c.inc f).lock m = c.lock m := rfl
@[simp] theorem Chan.inc_dom (c : Chan) (f : Fd) (m : Nat) : (c.inc f).dom m = c.dom m := rfl
@[simp] theorem Chan.inc_qptr (c : Chan) (f : Fd) (m : Nat) : (c.inc f).qptr m = c.qptr m := rfl
@[simp] theorem Chan.inc_qWord (c : Chan) (f : Fd) (m : Nat) : (c.inc f).qWord m = c.qWord m := rfl
@[simp] theorem Chan.inc_entry (c : Chan) (f : Fd) (y z : Nat) : (c.inc f).entry y z = c.entry y z := rfl
@[simp] theorem Chan.inc_instr (c : Chan) (f : Fd) (m : Nat) : (c.inc f).instr m = c.instr m := rfl
@[simp] theorem Chan.inc_ctx (c : Chan) (f : Fd) (m : Nat) : (c.inc f).ctx m = c.ctx m := rfl
@[simp] theorem Chan.inc_progOf (c : Chan) (f : Fd) (m : Nat) : (c.inc f).prog? m = c.prog? m := rfl
@[simp] theorem Chan.inc_rdWord (c : Chan) (f : Fd) (m : Nat) : (c.inc f).rdWord m = c.rdWord m := rfl
@[simp] theorem Chan.inc_arrived (c : Chan) (f : Fd) (y z : Nat) : (c.inc f).arrived y z = c.arrived y z := rfl

/-! ### setCaller -/

@[simp] theorem Chan.setCaller_idx (c : Chan) (n : Nat) (x : Caller) : (c.setCaller n x).idx = c.idx := rfl
@[simp] theorem Chan.setCaller_xclk (c : Chan) (n : Nat) (x : Caller) : (c.setCaller n x).xclk = c.xclk := rfl
@[simp] theorem Chan.setCaller_regs (c : Chan) (n : Nat) (x : Caller) : (c.setCaller n x).regs = c.regs := rfl
@[simp] theorem Chan.setCaller_prog (c : Chan) (n : Nat) (x : Caller) : (c.setCaller n x).prog = c.prog := rfl
@[simp] theorem Chan.setCaller_progClearing (c : Chan) (n : Nat) (x : Caller) : (c.setCaller n x).progClearing = c.progClearing := rfl
@[simp] theorem Chan.setCaller_mem (c : Chan) (n : Nat) (x : Caller) : (c.setCaller n x).mem = c.mem := rfl
@[simp] theorem Chan.setCaller_poison (c : Chan) (n : Nat) (x : Caller) : (c.setCaller n x).poison = c.poison := rfl
@[simp] theorem Chan.setCaller_cu (c : Chan) (n : Nat) (x : Caller) : (c.setCaller n x).cu = c.cu := rfl
@[simp] theorem Chan.setCaller_ms (c : Chan) (n : Nat) (x : Caller) : (c.setCaller n x).ms = c.ms := rfl
@[simp] theorem Chan.setCaller_duets (c : Chan) (n : Nat) (x : Caller) : (c.setCaller n x).duets = c.duets := rfl
@[simp] theorem Chan.setCaller_qu (c : Chan) (n : Nat) (x : Caller) : (c.setCaller n x).qu = c.qu := rfl
@[simp] theorem Chan.setCaller_fl (c : Chan) (n : Nat) (x : Caller) : (c.setCaller n x).fl = c.fl := rfl
@[simp] theorem Chan.setCaller_sp (c : Chan) (n : Nat) (x : Caller) : (c.setCaller n x).sp = c.sp := rfl
@[simp] theorem Chan.setCaller_locks (c : Chan) (n : Nat) (x : Caller) : (c.setCaller n x).locks = c.locks := rfl
@[simp] theorem Chan.setCaller_dm (c : Chan) (n : Nat) (x : Caller) : (c.setCaller n x).dm = c.dm := rfl
@[simp] theorem Chan.setCaller_net (c : Chan) (n : Nat) (x : Caller) : (c.setCaller n x).net = c.net := rfl
@[simp] theorem Chan.setCaller_ports (c : Chan) (n : Nat) (x : Caller) : (c.setCaller n x).ports = c.ports := rfl
@[simp] theorem Chan.setCaller_ev (c : Chan) (n : Nat) (x : Caller) : (c.setCaller n x).ev = c.ev := rfl
@[simp] theorem Chan.setCaller_rings (c : Chan) (n : Nat) (x : Caller) : (c.setCaller n x).rings = c.rings := rfl
@[simp] theorem Chan.setCaller_crings (c : Chan) (n : Nat) (x : Caller) : (c.setCaller n x).crings = c.crings := rfl
@[simp] theorem Chan.setCaller_copies (c : Chan) (n : Nat) (x : Caller) : (c.setCaller n x).copies = c.copies := rfl
@[simp] theorem Chan.setCaller_copyRr (c : Chan) (n : Nat) (x : Caller) : (c.setCaller n x).copyRr = c.copyRr := rfl
@[simp] theorem Chan.setCaller_hw (c : Chan) (n : Nat) (x : Caller) : (c.setCaller n x).hw = c.hw := rfl
@[simp] theorem Chan.setCaller_pw (c : Chan) (n : Nat) (x : Caller) : (c.setCaller n x).pw = c.pw := rfl
@[simp] theorem Chan.setCaller_msix (c : Chan) (n : Nat) (x : Caller) : (c.setCaller n x).msix = c.msix := rfl
@[simp] theorem Chan.setCaller_readData (c : Chan) (n : Nat) (x : Caller) : (c.setCaller n x).readData = c.readData := rfl
@[simp] theorem Chan.setCaller_out (c : Chan) (n : Nat) (x : Caller) : (c.setCaller n x).out = c.out := rfl
@[simp] theorem Chan.setCaller_excq (c : Chan) (n : Nat) (x : Caller) : (c.setCaller n x).excq = c.excq := rfl
@[simp] theorem Chan.setCaller_late (c : Chan) (n : Nat) (x : Caller) : (c.setCaller n x).late = c.late := rfl
@[simp] theorem Chan.setCaller_done (c : Chan) (n : Nat) (x : Caller) : (c.setCaller n x).done = c.done := rfl
@[simp] theorem Chan.setCaller_devEv (c : Chan) (n : Nat) (x : Caller) : (c.setCaller n x).devEv = c.devEv := rfl
@[simp] theorem Chan.setCaller_notes (c : Chan) (n : Nat) (x : Caller) : (c.setCaller n x).notes = c.notes := rfl
@[simp] theorem Chan.setCaller_rd (c : Chan) (n : Nat) (x : Caller) (o : Nat) : (c.setCaller n x).rd o = c.rd o := rfl
@[simp] theorem Chan.setCaller_fld (c : Chan) (n : Nat) (x : Caller) (g : Fd) : (c.setCaller n x).fld g = c.fld g := rfl
@[simp] theorem Chan.setCaller_flag (c : Chan) (n : Nat) (x : Caller) (g : Fd) : (c.setCaller n x).flag g = c.flag g := rfl
@[simp] theorem Chan.setCaller_duet (c : Chan) (n : Nat) (x : Caller) (m : Nat) : (c.setCaller n x).duet m = c.duet m := rfl
@[simp] theorem Chan.setCaller_tile (c : Chan) (n : Nat) (x : Caller) (m : Nat) : (c.setCaller n x).tile m = c.tile m := rfl
@[simp] theorem Chan.setCaller_port (c : Chan) (n : Nat) (x : Caller) (m : Nat) : (c.setCaller n x).port m = c.port m := rfl
@[simp] theorem Chan.setCaller_ring (c : Chan) (n : Nat) (x : Caller) (m : Nat) : (c.setCaller n x).ring m = c.ring m := rfl
@[simp] theorem Chan.setCaller_cring (c : Chan) (n : Nat) (x : Caller) (m : Nat) : (c.setCaller n x).cring m = c.cring m := rfl
@[simp] theorem Chan.setCaller_loop (c : Chan) (n : Nat) (x : Caller) (m : Nat) : (c.setCaller n x).loop m = c.loop m := rfl
@[simp] theorem Chan.setCaller_ord (c : Chan) (n : Nat) (x : Caller) (m : Nat) : (c.setCaller n x).ord m = c.ord m := rfl
@[simp] theorem Chan.setCaller_solo (c : Chan) (n : Nat) (x : Caller) (m : Nat) : (c.setCaller n x).solo m = c.solo m := rfl
@[simp] theorem Chan.setCaller_lock (c : Chan) (n : Nat) (x : Caller) (m : Nat) : (c.setCaller n x).lock m = c.lock m := rfl
@[simp] theorem Chan.setCaller_dom (c : Chan) (n : Nat) (x : Caller) (m : Nat) : (c.setCaller n x).dom m = c.dom m := rfl
@[simp] theorem Chan.setCaller_qptr (c : Chan) (n : Nat) (x : Caller) (m : Nat) : (c.setCaller n x).qptr m = c.qptr m := rfl
@[simp] theorem Chan.setCaller_qWord (c : Chan) (n : Nat) (x : Caller) (m : Nat) : (c.setCaller n x).qWord m = c.qWord m := rfl
@[simp] theorem Chan.setCaller_entry (c : Chan) (n : Nat) (x : Caller) (y z : Nat) : (c.setCaller n x).entry y z = c.entry y z := rfl
@[simp] theorem Chan.setCaller_instr (c : Chan) (n : Nat) (x : Caller) (m : Nat) : (c.setCaller n x).instr m = c.instr m := rfl
@[simp] theorem Chan.setCaller_ctx (c : Chan) (n : Nat) (x : Caller) (m : Nat) : (c.setCaller n x).ctx m = c.ctx m := rfl
@[simp] theorem Chan.setCaller_progOf (c : Chan) (n : Nat) (x : Caller) (m : Nat) : (c.setCaller n x).prog? m = c.prog? m := rfl
@[simp] theorem Chan.setCaller_rdWord (c : Chan) (n : Nat) (x : Caller) (m : Nat) : (c.setCaller n x).rdWord m = c.rdWord m := rfl
@[simp] theorem Chan.setCaller_arrived (c : Chan) (n : Nat) (x : Caller) (y z : Nat) : (c.setCaller n x).arrived y z = c.arrived y z := rfl

/-! ### setDuet -/

@[simp] theorem Chan.setDuet_idx (c : Chan) (d : Nat) (x : Duet) : (c.setDuet d x).idx = c.idx := rfl
@[simp] theorem Chan.setDuet_xclk (c : Chan) (d : Nat) (x : Duet) : (c.setDuet d x).xclk = c.xclk := rfl
@[simp] theorem Chan.setDuet_regs (c : Chan) (d : Nat) (x : Duet) : (c.setDuet d x).regs = c.regs := rfl
@[simp] theorem Chan.setDuet_prog (c : Chan) (d : Nat) (x : Duet) : (c.setDuet d x).prog = c.prog := rfl
@[simp] theorem Chan.setDuet_progClearing (c : Chan) (d : Nat) (x : Duet) : (c.setDuet d x).progClearing = c.progClearing := rfl
@[simp] theorem Chan.setDuet_mem (c : Chan) (d : Nat) (x : Duet) : (c.setDuet d x).mem = c.mem := rfl
@[simp] theorem Chan.setDuet_poison (c : Chan) (d : Nat) (x : Duet) : (c.setDuet d x).poison = c.poison := rfl
@[simp] theorem Chan.setDuet_cu (c : Chan) (d : Nat) (x : Duet) : (c.setDuet d x).cu = c.cu := rfl
@[simp] theorem Chan.setDuet_ms (c : Chan) (d : Nat) (x : Duet) : (c.setDuet d x).ms = c.ms := rfl
@[simp] theorem Chan.setDuet_qu (c : Chan) (d : Nat) (x : Duet) : (c.setDuet d x).qu = c.qu := rfl
@[simp] theorem Chan.setDuet_fl (c : Chan) (d : Nat) (x : Duet) : (c.setDuet d x).fl = c.fl := rfl
@[simp] theorem Chan.setDuet_sp (c : Chan) (d : Nat) (x : Duet) : (c.setDuet d x).sp = c.sp := rfl
@[simp] theorem Chan.setDuet_locks (c : Chan) (d : Nat) (x : Duet) : (c.setDuet d x).locks = c.locks := rfl
@[simp] theorem Chan.setDuet_dm (c : Chan) (d : Nat) (x : Duet) : (c.setDuet d x).dm = c.dm := rfl
@[simp] theorem Chan.setDuet_net (c : Chan) (d : Nat) (x : Duet) : (c.setDuet d x).net = c.net := rfl
@[simp] theorem Chan.setDuet_ports (c : Chan) (d : Nat) (x : Duet) : (c.setDuet d x).ports = c.ports := rfl
@[simp] theorem Chan.setDuet_callers (c : Chan) (d : Nat) (x : Duet) : (c.setDuet d x).callers = c.callers := rfl
@[simp] theorem Chan.setDuet_ev (c : Chan) (d : Nat) (x : Duet) : (c.setDuet d x).ev = c.ev := rfl
@[simp] theorem Chan.setDuet_rings (c : Chan) (d : Nat) (x : Duet) : (c.setDuet d x).rings = c.rings := rfl
@[simp] theorem Chan.setDuet_crings (c : Chan) (d : Nat) (x : Duet) : (c.setDuet d x).crings = c.crings := rfl
@[simp] theorem Chan.setDuet_copies (c : Chan) (d : Nat) (x : Duet) : (c.setDuet d x).copies = c.copies := rfl
@[simp] theorem Chan.setDuet_copyRr (c : Chan) (d : Nat) (x : Duet) : (c.setDuet d x).copyRr = c.copyRr := rfl
@[simp] theorem Chan.setDuet_hw (c : Chan) (d : Nat) (x : Duet) : (c.setDuet d x).hw = c.hw := rfl
@[simp] theorem Chan.setDuet_pw (c : Chan) (d : Nat) (x : Duet) : (c.setDuet d x).pw = c.pw := rfl
@[simp] theorem Chan.setDuet_msix (c : Chan) (d : Nat) (x : Duet) : (c.setDuet d x).msix = c.msix := rfl
@[simp] theorem Chan.setDuet_readData (c : Chan) (d : Nat) (x : Duet) : (c.setDuet d x).readData = c.readData := rfl
@[simp] theorem Chan.setDuet_out (c : Chan) (d : Nat) (x : Duet) : (c.setDuet d x).out = c.out := rfl
@[simp] theorem Chan.setDuet_excq (c : Chan) (d : Nat) (x : Duet) : (c.setDuet d x).excq = c.excq := rfl
@[simp] theorem Chan.setDuet_late (c : Chan) (d : Nat) (x : Duet) : (c.setDuet d x).late = c.late := rfl
@[simp] theorem Chan.setDuet_done (c : Chan) (d : Nat) (x : Duet) : (c.setDuet d x).done = c.done := rfl
@[simp] theorem Chan.setDuet_devEv (c : Chan) (d : Nat) (x : Duet) : (c.setDuet d x).devEv = c.devEv := rfl
@[simp] theorem Chan.setDuet_notes (c : Chan) (d : Nat) (x : Duet) : (c.setDuet d x).notes = c.notes := rfl
@[simp] theorem Chan.setDuet_rd (c : Chan) (d : Nat) (x : Duet) (o : Nat) : (c.setDuet d x).rd o = c.rd o := rfl
@[simp] theorem Chan.setDuet_fld (c : Chan) (d : Nat) (x : Duet) (g : Fd) : (c.setDuet d x).fld g = c.fld g := rfl
@[simp] theorem Chan.setDuet_flag (c : Chan) (d : Nat) (x : Duet) (g : Fd) : (c.setDuet d x).flag g = c.flag g := rfl
@[simp] theorem Chan.setDuet_caller (c : Chan) (d : Nat) (x : Duet) (m : Nat) : (c.setDuet d x).caller m = c.caller m := rfl
@[simp] theorem Chan.setDuet_tile (c : Chan) (d : Nat) (x : Duet) (m : Nat) : (c.setDuet d x).tile m = c.tile m := rfl
@[simp] theorem Chan.setDuet_port (c : Chan) (d : Nat) (x : Duet) (m : Nat) : (c.setDuet d x).port m = c.port m := rfl
@[simp] theorem Chan.setDuet_ring (c : Chan) (d : Nat) (x : Duet) (m : Nat) : (c.setDuet d x).ring m = c.ring m := rfl
@[simp] theorem Chan.setDuet_cring (c : Chan) (d : Nat) (x : Duet) (m : Nat) : (c.setDuet d x).cring m = c.cring m := rfl
@[simp] theorem Chan.setDuet_loop (c : Chan) (d : Nat) (x : Duet) (m : Nat) : (c.setDuet d x).loop m = c.loop m := rfl
@[simp] theorem Chan.setDuet_ord (c : Chan) (d : Nat) (x : Duet) (m : Nat) : (c.setDuet d x).ord m = c.ord m := rfl
@[simp] theorem Chan.setDuet_solo (c : Chan) (d : Nat) (x : Duet) (m : Nat) : (c.setDuet d x).solo m = c.solo m := rfl
@[simp] theorem Chan.setDuet_lock (c : Chan) (d : Nat) (x : Duet) (m : Nat) : (c.setDuet d x).lock m = c.lock m := rfl
@[simp] theorem Chan.setDuet_dom (c : Chan) (d : Nat) (x : Duet) (m : Nat) : (c.setDuet d x).dom m = c.dom m := rfl
@[simp] theorem Chan.setDuet_qptr (c : Chan) (d : Nat) (x : Duet) (m : Nat) : (c.setDuet d x).qptr m = c.qptr m := rfl
@[simp] theorem Chan.setDuet_qWord (c : Chan) (d : Nat) (x : Duet) (m : Nat) : (c.setDuet d x).qWord m = c.qWord m := rfl
@[simp] theorem Chan.setDuet_entry (c : Chan) (d : Nat) (x : Duet) (y z : Nat) : (c.setDuet d x).entry y z = c.entry y z := rfl
@[simp] theorem Chan.setDuet_instr (c : Chan) (d : Nat) (x : Duet) (m : Nat) : (c.setDuet d x).instr m = c.instr m := rfl
@[simp] theorem Chan.setDuet_ctx (c : Chan) (d : Nat) (x : Duet) (m : Nat) : (c.setDuet d x).ctx m = c.ctx m := rfl
@[simp] theorem Chan.setDuet_progOf (c : Chan) (d : Nat) (x : Duet) (m : Nat) : (c.setDuet d x).prog? m = c.prog? m := rfl
@[simp] theorem Chan.setDuet_rdWord (c : Chan) (d : Nat) (x : Duet) (m : Nat) : (c.setDuet d x).rdWord m = c.rdWord m := rfl
@[simp] theorem Chan.setDuet_arrived (c : Chan) (d : Nat) (x : Duet) (y z : Nat) : (c.setDuet d x).arrived y z = c.arrived y z := rfl
theorem Chan.setDuet_duet (c : Chan) (d : Nat) (x : Duet) (m : Nat) :
    (c.setDuet d x).duet m = if m = d then x else c.duet m := tblGet_put _ _ _ _ _
@[simp] theorem Chan.setDuet_duet_same (c : Chan) (d : Nat) (x : Duet) : (c.setDuet d x).duet d = x := tblGet_put_same _ _ _ _

/-! ### setTile -/

@[simp] theorem Chan.setTile_idx (c : Chan) (t : Nat) (x : TileSt) : (c.setTile t x).idx = c.idx := rfl
@[simp] theorem Chan.setTile_xclk (c : Chan) (t : Nat) (x : TileSt) : (c.setTile t x).xclk = c.xclk := rfl
@[simp] theorem Chan.setTile_regs (c : Chan) (t : Nat) (x : TileSt) : (c.setTile t x).regs = c.regs := rfl
@[simp] theorem Chan.setTile_prog (c : Chan) (t : Nat) (x : TileSt) : (c.setTile t x).prog = c.prog := rfl
@[simp] theorem Chan.setTile_progClearing (c : Chan) (t : Nat) (x : TileSt) : (c.setTile t x).progClearing = c.progClearing := rfl
@[simp] theorem Chan.setTile_mem (c : Chan) (t : Nat) (x : TileSt) : (c.setTile t x).mem = c.mem := rfl
@[simp] theorem Chan.setTile_poison (c : Chan) (t : Nat) (x : TileSt) : (c.setTile t x).poison = c.poison := rfl
@[simp] theorem Chan.setTile_cu (c : Chan) (t : Nat) (x : TileSt) : (c.setTile t x).cu = c.cu := rfl
@[simp] theorem Chan.setTile_ms_entries (c : Chan) (t : Nat) (x : TileSt) : (c.setTile t x).ms.entries = c.ms.entries := rfl
@[simp] theorem Chan.setTile_ms_pool (c : Chan) (t : Nat) (x : TileSt) : (c.setTile t x).ms.pool = c.ms.pool := rfl
@[simp] theorem Chan.setTile_ms_cutq (c : Chan) (t : Nat) (x : TileSt) : (c.setTile t x).ms.cutq = c.ms.cutq := rfl
@[simp] theorem Chan.setTile_ms_cutTried (c : Chan) (t : Nat) (x : TileSt) : (c.setTile t x).ms.cutTried = c.ms.cutTried := rfl
@[simp] theorem Chan.setTile_ms_births (c : Chan) (t : Nat) (x : TileSt) : (c.setTile t x).ms.births = c.ms.births := rfl
@[simp] theorem Chan.setTile_ms_stallKills (c : Chan) (t : Nat) (x : TileSt) : (c.setTile t x).ms.stallKills = c.ms.stallKills := rfl
@[simp] theorem Chan.setTile_ms_fullAt (c : Chan) (t : Nat) (x : TileSt) : (c.setTile t x).ms.fullAt = c.ms.fullAt := rfl
@[simp] theorem Chan.setTile_ms_stall (c : Chan) (t : Nat) (x : TileSt) : (c.setTile t x).ms.stall = c.ms.stall := rfl
@[simp] theorem Chan.setTile_ms_commitAt (c : Chan) (t : Nat) (x : TileSt) : (c.setTile t x).ms.commitAt = c.ms.commitAt := rfl
@[simp] theorem Chan.setTile_ms_moved (c : Chan) (t : Nat) (x : TileSt) : (c.setTile t x).ms.moved = c.ms.moved := rfl
@[simp] theorem Chan.setTile_duets (c : Chan) (t : Nat) (x : TileSt) : (c.setTile t x).duets = c.duets := rfl
@[simp] theorem Chan.setTile_qu (c : Chan) (t : Nat) (x : TileSt) : (c.setTile t x).qu = c.qu := rfl
@[simp] theorem Chan.setTile_fl (c : Chan) (t : Nat) (x : TileSt) : (c.setTile t x).fl = c.fl := rfl
@[simp] theorem Chan.setTile_sp (c : Chan) (t : Nat) (x : TileSt) : (c.setTile t x).sp = c.sp := rfl
@[simp] theorem Chan.setTile_locks (c : Chan) (t : Nat) (x : TileSt) : (c.setTile t x).locks = c.locks := rfl
@[simp] theorem Chan.setTile_dm (c : Chan) (t : Nat) (x : TileSt) : (c.setTile t x).dm = c.dm := rfl
@[simp] theorem Chan.setTile_net (c : Chan) (t : Nat) (x : TileSt) : (c.setTile t x).net = c.net := rfl
@[simp] theorem Chan.setTile_ports (c : Chan) (t : Nat) (x : TileSt) : (c.setTile t x).ports = c.ports := rfl
@[simp] theorem Chan.setTile_callers (c : Chan) (t : Nat) (x : TileSt) : (c.setTile t x).callers = c.callers := rfl
@[simp] theorem Chan.setTile_ev (c : Chan) (t : Nat) (x : TileSt) : (c.setTile t x).ev = c.ev := rfl
@[simp] theorem Chan.setTile_rings (c : Chan) (t : Nat) (x : TileSt) : (c.setTile t x).rings = c.rings := rfl
@[simp] theorem Chan.setTile_crings (c : Chan) (t : Nat) (x : TileSt) : (c.setTile t x).crings = c.crings := rfl
@[simp] theorem Chan.setTile_copies (c : Chan) (t : Nat) (x : TileSt) : (c.setTile t x).copies = c.copies := rfl
@[simp] theorem Chan.setTile_copyRr (c : Chan) (t : Nat) (x : TileSt) : (c.setTile t x).copyRr = c.copyRr := rfl
@[simp] theorem Chan.setTile_hw (c : Chan) (t : Nat) (x : TileSt) : (c.setTile t x).hw = c.hw := rfl
@[simp] theorem Chan.setTile_pw (c : Chan) (t : Nat) (x : TileSt) : (c.setTile t x).pw = c.pw := rfl
@[simp] theorem Chan.setTile_msix (c : Chan) (t : Nat) (x : TileSt) : (c.setTile t x).msix = c.msix := rfl
@[simp] theorem Chan.setTile_readData (c : Chan) (t : Nat) (x : TileSt) : (c.setTile t x).readData = c.readData := rfl
@[simp] theorem Chan.setTile_out (c : Chan) (t : Nat) (x : TileSt) : (c.setTile t x).out = c.out := rfl
@[simp] theorem Chan.setTile_excq (c : Chan) (t : Nat) (x : TileSt) : (c.setTile t x).excq = c.excq := rfl
@[simp] theorem Chan.setTile_late (c : Chan) (t : Nat) (x : TileSt) : (c.setTile t x).late = c.late := rfl
@[simp] theorem Chan.setTile_done (c : Chan) (t : Nat) (x : TileSt) : (c.setTile t x).done = c.done := rfl
@[simp] theorem Chan.setTile_devEv (c : Chan) (t : Nat) (x : TileSt) : (c.setTile t x).devEv = c.devEv := rfl
@[simp] theorem Chan.setTile_notes (c : Chan) (t : Nat) (x : TileSt) : (c.setTile t x).notes = c.notes := rfl
@[simp] theorem Chan.setTile_rd (c : Chan) (t : Nat) (x : TileSt) (o : Nat) : (c.setTile t x).rd o = c.rd o := rfl
@[simp] theorem Chan.setTile_fld (c : Chan) (t : Nat) (x : TileSt) (g : Fd) : (c.setTile t x).fld g = c.fld g := rfl
@[simp] theorem Chan.setTile_flag (c : Chan) (t : Nat) (x : TileSt) (g : Fd) : (c.setTile t x).flag g = c.flag g := rfl
@[simp] theorem Chan.setTile_caller (c : Chan) (t : Nat) (x : TileSt) (m : Nat) : (c.setTile t x).caller m = c.caller m := rfl
@[simp] theorem Chan.setTile_duet (c : Chan) (t : Nat) (x : TileSt) (m : Nat) : (c.setTile t x).duet m = c.duet m := rfl
@[simp] theorem Chan.setTile_port (c : Chan) (t : Nat) (x : TileSt) (m : Nat) : (c.setTile t x).port m = c.port m := rfl
@[simp] theorem Chan.setTile_ring (c : Chan) (t : Nat) (x : TileSt) (m : Nat) : (c.setTile t x).ring m = c.ring m := rfl
@[simp] theorem Chan.setTile_cring (c : Chan) (t : Nat) (x : TileSt) (m : Nat) : (c.setTile t x).cring m = c.cring m := rfl
@[simp] theorem Chan.setTile_loop (c : Chan) (t : Nat) (x : TileSt) (m : Nat) : (c.setTile t x).loop m = c.loop m := rfl
@[simp] theorem Chan.setTile_ord (c : Chan) (t : Nat) (x : TileSt) (m : Nat) : (c.setTile t x).ord m = c.ord m := rfl
@[simp] theorem Chan.setTile_solo (c : Chan) (t : Nat) (x : TileSt) (m : Nat) : (c.setTile t x).solo m = c.solo m := rfl
@[simp] theorem Chan.setTile_lock (c : Chan) (t : Nat) (x : TileSt) (m : Nat) : (c.setTile t x).lock m = c.lock m := rfl
@[simp] theorem Chan.setTile_dom (c : Chan) (t : Nat) (x : TileSt) (m : Nat) : (c.setTile t x).dom m = c.dom m := rfl
@[simp] theorem Chan.setTile_qptr (c : Chan) (t : Nat) (x : TileSt) (m : Nat) : (c.setTile t x).qptr m = c.qptr m := rfl
@[simp] theorem Chan.setTile_qWord (c : Chan) (t : Nat) (x : TileSt) (m : Nat) : (c.setTile t x).qWord m = c.qWord m := rfl
@[simp] theorem Chan.setTile_entry (c : Chan) (t : Nat) (x : TileSt) (y z : Nat) : (c.setTile t x).entry y z = c.entry y z := rfl
@[simp] theorem Chan.setTile_instr (c : Chan) (t : Nat) (x : TileSt) (m : Nat) : (c.setTile t x).instr m = c.instr m := rfl
@[simp] theorem Chan.setTile_ctx (c : Chan) (t : Nat) (x : TileSt) (m : Nat) : (c.setTile t x).ctx m = c.ctx m := rfl
@[simp] theorem Chan.setTile_progOf (c : Chan) (t : Nat) (x : TileSt) (m : Nat) : (c.setTile t x).prog? m = c.prog? m := rfl
@[simp] theorem Chan.setTile_rdWord (c : Chan) (t : Nat) (x : TileSt) (m : Nat) : (c.setTile t x).rdWord m = c.rdWord m := rfl
@[simp] theorem Chan.setTile_arrived (c : Chan) (t : Nat) (x : TileSt) (y z : Nat) : (c.setTile t x).arrived y z = c.arrived y z := rfl
theorem Chan.setTile_tile (c : Chan) (t : Nat) (x : TileSt) (m : Nat) :
    (c.setTile t x).tile m = if m = t then x else c.tile m := tblGet_put _ _ _ _ _
@[simp] theorem Chan.setTile_tile_same (c : Chan) (t : Nat) (x : TileSt) : (c.setTile t x).tile t = x := tblGet_put_same _ _ _ _

/-! ### setPort -/

@[simp] theorem Chan.setPort_idx (c : Chan) (p : Nat) (x : Port) : (c.setPort p x).idx = c.idx := rfl
@[simp] theorem Chan.setPort_xclk (c : Chan) (p : Nat) (x : Port) : (c.setPort p x).xclk = c.xclk := rfl
@[simp] theorem Chan.setPort_regs (c : Chan) (p : Nat) (x : Port) : (c.setPort p x).regs = c.regs := rfl
@[simp] theorem Chan.setPort_prog (c : Chan) (p : Nat) (x : Port) : (c.setPort p x).prog = c.prog := rfl
@[simp] theorem Chan.setPort_progClearing (c : Chan) (p : Nat) (x : Port) : (c.setPort p x).progClearing = c.progClearing := rfl
@[simp] theorem Chan.setPort_mem (c : Chan) (p : Nat) (x : Port) : (c.setPort p x).mem = c.mem := rfl
@[simp] theorem Chan.setPort_poison (c : Chan) (p : Nat) (x : Port) : (c.setPort p x).poison = c.poison := rfl
@[simp] theorem Chan.setPort_cu (c : Chan) (p : Nat) (x : Port) : (c.setPort p x).cu = c.cu := rfl
@[simp] theorem Chan.setPort_ms (c : Chan) (p : Nat) (x : Port) : (c.setPort p x).ms = c.ms := rfl
@[simp] theorem Chan.setPort_duets (c : Chan) (p : Nat) (x : Port) : (c.setPort p x).duets = c.duets := rfl
@[simp] theorem Chan.setPort_qu (c : Chan) (p : Nat) (x : Port) : (c.setPort p x).qu = c.qu := rfl
@[simp] theorem Chan.setPort_fl (c : Chan) (p : Nat) (x : Port) : (c.setPort p x).fl = c.fl := rfl
@[simp] theorem Chan.setPort_sp (c : Chan) (p : Nat) (x : Port) : (c.setPort p x).sp = c.sp := rfl
@[simp] theorem Chan.setPort_locks (c : Chan) (p : Nat) (x : Port) : (c.setPort p x).locks = c.locks := rfl
@[simp] theorem Chan.setPort_dm (c : Chan) (p : Nat) (x : Port) : (c.setPort p x).dm = c.dm := rfl
@[simp] theorem Chan.setPort_net (c : Chan) (p : Nat) (x : Port) : (c.setPort p x).net = c.net := rfl
@[simp] theorem Chan.setPort_callers (c : Chan) (p : Nat) (x : Port) : (c.setPort p x).callers = c.callers := rfl
@[simp] theorem Chan.setPort_ev (c : Chan) (p : Nat) (x : Port) : (c.setPort p x).ev = c.ev := rfl
@[simp] theorem Chan.setPort_rings (c : Chan) (p : Nat) (x : Port) : (c.setPort p x).rings = c.rings := rfl
@[simp] theorem Chan.setPort_crings (c : Chan) (p : Nat) (x : Port) : (c.setPort p x).crings = c.crings := rfl
@[simp] theorem Chan.setPort_copies (c : Chan) (p : Nat) (x : Port) : (c.setPort p x).copies = c.copies := rfl
@[simp] theorem Chan.setPort_copyRr (c : Chan) (p : Nat) (x : Port) : (c.setPort p x).copyRr = c.copyRr := rfl
@[simp] theorem Chan.setPort_hw (c : Chan) (p : Nat) (x : Port) : (c.setPort p x).hw = c.hw := rfl
@[simp] theorem Chan.setPort_pw (c : Chan) (p : Nat) (x : Port) : (c.setPort p x).pw = c.pw := rfl
@[simp] theorem Chan.setPort_msix (c : Chan) (p : Nat) (x : Port) : (c.setPort p x).msix = c.msix := rfl
@[simp] theorem Chan.setPort_readData (c : Chan) (p : Nat) (x : Port) : (c.setPort p x).readData = c.readData := rfl
@[simp] theorem Chan.setPort_out (c : Chan) (p : Nat) (x : Port) : (c.setPort p x).out = c.out := rfl
@[simp] theorem Chan.setPort_excq (c : Chan) (p : Nat) (x : Port) : (c.setPort p x).excq = c.excq := rfl
@[simp] theorem Chan.setPort_late (c : Chan) (p : Nat) (x : Port) : (c.setPort p x).late = c.late := rfl
@[simp] theorem Chan.setPort_done (c : Chan) (p : Nat) (x : Port) : (c.setPort p x).done = c.done := rfl
@[simp] theorem Chan.setPort_devEv (c : Chan) (p : Nat) (x : Port) : (c.setPort p x).devEv = c.devEv := rfl
@[simp] theorem Chan.setPort_notes (c : Chan) (p : Nat) (x : Port) : (c.setPort p x).notes = c.notes := rfl
@[simp] theorem Chan.setPort_rd (c : Chan) (p : Nat) (x : Port) (o : Nat) : (c.setPort p x).rd o = c.rd o := rfl
@[simp] theorem Chan.setPort_fld (c : Chan) (p : Nat) (x : Port) (g : Fd) : (c.setPort p x).fld g = c.fld g := rfl
@[simp] theorem Chan.setPort_flag (c : Chan) (p : Nat) (x : Port) (g : Fd) : (c.setPort p x).flag g = c.flag g := rfl
@[simp] theorem Chan.setPort_caller (c : Chan) (p : Nat) (x : Port) (m : Nat) : (c.setPort p x).caller m = c.caller m := rfl
@[simp] theorem Chan.setPort_duet (c : Chan) (p : Nat) (x : Port) (m : Nat) : (c.setPort p x).duet m = c.duet m := rfl
@[simp] theorem Chan.setPort_tile (c : Chan) (p : Nat) (x : Port) (m : Nat) : (c.setPort p x).tile m = c.tile m := rfl
@[simp] theorem Chan.setPort_ring (c : Chan) (p : Nat) (x : Port) (m : Nat) : (c.setPort p x).ring m = c.ring m := rfl
@[simp] theorem Chan.setPort_cring (c : Chan) (p : Nat) (x : Port) (m : Nat) : (c.setPort p x).cring m = c.cring m := rfl
@[simp] theorem Chan.setPort_loop (c : Chan) (p : Nat) (x : Port) (m : Nat) : (c.setPort p x).loop m = c.loop m := rfl
@[simp] theorem Chan.setPort_ord (c : Chan) (p : Nat) (x : Port) (m : Nat) : (c.setPort p x).ord m = c.ord m := rfl
@[simp] theorem Chan.setPort_solo (c : Chan) (p : Nat) (x : Port) (m : Nat) : (c.setPort p x).solo m = c.solo m := rfl
@[simp] theorem Chan.setPort_lock (c : Chan) (p : Nat) (x : Port) (m : Nat) : (c.setPort p x).lock m = c.lock m := rfl
@[simp] theorem Chan.setPort_dom (c : Chan) (p : Nat) (x : Port) (m : Nat) : (c.setPort p x).dom m = c.dom m := rfl
@[simp] theorem Chan.setPort_qptr (c : Chan) (p : Nat) (x : Port) (m : Nat) : (c.setPort p x).qptr m = c.qptr m := rfl
@[simp] theorem Chan.setPort_qWord (c : Chan) (p : Nat) (x : Port) (m : Nat) : (c.setPort p x).qWord m = c.qWord m := rfl
@[simp] theorem Chan.setPort_entry (c : Chan) (p : Nat) (x : Port) (y z : Nat) : (c.setPort p x).entry y z = c.entry y z := rfl
@[simp] theorem Chan.setPort_instr (c : Chan) (p : Nat) (x : Port) (m : Nat) : (c.setPort p x).instr m = c.instr m := rfl
@[simp] theorem Chan.setPort_ctx (c : Chan) (p : Nat) (x : Port) (m : Nat) : (c.setPort p x).ctx m = c.ctx m := rfl
@[simp] theorem Chan.setPort_progOf (c : Chan) (p : Nat) (x : Port) (m : Nat) : (c.setPort p x).prog? m = c.prog? m := rfl
@[simp] theorem Chan.setPort_rdWord (c : Chan) (p : Nat) (x : Port) (m : Nat) : (c.setPort p x).rdWord m = c.rdWord m := rfl
@[simp] theorem Chan.setPort_arrived (c : Chan) (p : Nat) (x : Port) (y z : Nat) : (c.setPort p x).arrived y z = c.arrived y z := rfl
theorem Chan.setPort_port (c : Chan) (p : Nat) (x : Port) (m : Nat) :
    (c.setPort p x).port m = if m = p then x else c.port m := tblGet_put _ _ _ _ _
@[simp] theorem Chan.setPort_port_same (c : Chan) (p : Nat) (x : Port) : (c.setPort p x).port p = x := tblGet_put_same _ _ _ _

/-! ### setRing -/

@[simp] theorem Chan.setRing_idx (c : Chan) (r : Nat) (x : Ring) : (c.setRing r x).idx = c.idx := rfl
@[simp] theorem Chan.setRing_xclk (c : Chan) (r : Nat) (x : Ring) : (c.setRing r x).xclk = c.xclk := rfl
@[simp] theorem Chan.setRing_regs (c : Chan) (r : Nat) (x : Ring) : (c.setRing r x).regs = c.regs := rfl
@[simp] theorem Chan.setRing_prog (c : Chan) (r : Nat) (x : Ring) : (c.setRing r x).prog = c.prog := rfl
@[simp] theorem Chan.setRing_progClearing (c : Chan) (r : Nat) (x : Ring) : (c.setRing r x).progClearing = c.progClearing := rfl
@[simp] theorem Chan.setRing_mem (c : Chan) (r : Nat) (x : Ring) : (c.setRing r x).mem = c.mem := rfl
@[simp] theorem Chan.setRing_poison (c : Chan) (r : Nat) (x : Ring) : (c.setRing r x).poison = c.poison := rfl
@[simp] theorem Chan.setRing_cu (c : Chan) (r : Nat) (x : Ring) : (c.setRing r x).cu = c.cu := rfl
@[simp] theorem Chan.setRing_ms (c : Chan) (r : Nat) (x : Ring) : (c.setRing r x).ms = c.ms := rfl
@[simp] theorem Chan.setRing_duets (c : Chan) (r : Nat) (x : Ring) : (c.setRing r x).duets = c.duets := rfl
@[simp] theorem Chan.setRing_qu (c : Chan) (r : Nat) (x : Ring) : (c.setRing r x).qu = c.qu := rfl
@[simp] theorem Chan.setRing_fl (c : Chan) (r : Nat) (x : Ring) : (c.setRing r x).fl = c.fl := rfl
@[simp] theorem Chan.setRing_sp (c : Chan) (r : Nat) (x : Ring) : (c.setRing r x).sp = c.sp := rfl
@[simp] theorem Chan.setRing_locks (c : Chan) (r : Nat) (x : Ring) : (c.setRing r x).locks = c.locks := rfl
@[simp] theorem Chan.setRing_dm (c : Chan) (r : Nat) (x : Ring) : (c.setRing r x).dm = c.dm := rfl
@[simp] theorem Chan.setRing_net (c : Chan) (r : Nat) (x : Ring) : (c.setRing r x).net = c.net := rfl
@[simp] theorem Chan.setRing_ports (c : Chan) (r : Nat) (x : Ring) : (c.setRing r x).ports = c.ports := rfl
@[simp] theorem Chan.setRing_callers (c : Chan) (r : Nat) (x : Ring) : (c.setRing r x).callers = c.callers := rfl
@[simp] theorem Chan.setRing_ev (c : Chan) (r : Nat) (x : Ring) : (c.setRing r x).ev = c.ev := rfl
@[simp] theorem Chan.setRing_crings (c : Chan) (r : Nat) (x : Ring) : (c.setRing r x).crings = c.crings := rfl
@[simp] theorem Chan.setRing_copies (c : Chan) (r : Nat) (x : Ring) : (c.setRing r x).copies = c.copies := rfl
@[simp] theorem Chan.setRing_copyRr (c : Chan) (r : Nat) (x : Ring) : (c.setRing r x).copyRr = c.copyRr := rfl
@[simp] theorem Chan.setRing_hw (c : Chan) (r : Nat) (x : Ring) : (c.setRing r x).hw = c.hw := rfl
@[simp] theorem Chan.setRing_pw (c : Chan) (r : Nat) (x : Ring) : (c.setRing r x).pw = c.pw := rfl
@[simp] theorem Chan.setRing_msix (c : Chan) (r : Nat) (x : Ring) : (c.setRing r x).msix = c.msix := rfl
@[simp] theorem Chan.setRing_readData (c : Chan) (r : Nat) (x : Ring) : (c.setRing r x).readData = c.readData := rfl
@[simp] theorem Chan.setRing_out (c : Chan) (r : Nat) (x : Ring) : (c.setRing r x).out = c.out := rfl
@[simp] theorem Chan.setRing_excq (c : Chan) (r : Nat) (x : Ring) : (c.setRing r x).excq = c.excq := rfl
@[simp] theorem Chan.setRing_late (c : Chan) (r : Nat) (x : Ring) : (c.setRing r x).late = c.late := rfl
@[simp] theorem Chan.setRing_done (c : Chan) (r : Nat) (x : Ring) : (c.setRing r x).done = c.done := rfl
@[simp] theorem Chan.setRing_devEv (c : Chan) (r : Nat) (x : Ring) : (c.setRing r x).devEv = c.devEv := rfl
@[simp] theorem Chan.setRing_notes (c : Chan) (r : Nat) (x : Ring) : (c.setRing r x).notes = c.notes := rfl
@[simp] theorem Chan.setRing_rd (c : Chan) (r : Nat) (x : Ring) (o : Nat) : (c.setRing r x).rd o = c.rd o := rfl
@[simp] theorem Chan.setRing_fld (c : Chan) (r : Nat) (x : Ring) (g : Fd) : (c.setRing r x).fld g = c.fld g := rfl
@[simp] theorem Chan.setRing_flag (c : Chan) (r : Nat) (x : Ring) (g : Fd) : (c.setRing r x).flag g = c.flag g := rfl
@[simp] theorem Chan.setRing_caller (c : Chan) (r : Nat) (x : Ring) (m : Nat) : (c.setRing r x).caller m = c.caller m := rfl
@[simp] theorem Chan.setRing_duet (c : Chan) (r : Nat) (x : Ring) (m : Nat) : (c.setRing r x).duet m = c.duet m := rfl
@[simp] theorem Chan.setRing_tile (c : Chan) (r : Nat) (x : Ring) (m : Nat) : (c.setRing r x).tile m = c.tile m := rfl
@[simp] theorem Chan.setRing_port (c : Chan) (r : Nat) (x : Ring) (m : Nat) : (c.setRing r x).port m = c.port m := rfl
@[simp] theorem Chan.setRing_cring (c : Chan) (r : Nat) (x : Ring) (m : Nat) : (c.setRing r x).cring m = c.cring m := rfl
@[simp] theorem Chan.setRing_loop (c : Chan) (r : Nat) (x : Ring) (m : Nat) : (c.setRing r x).loop m = c.loop m := rfl
@[simp] theorem Chan.setRing_ord (c : Chan) (r : Nat) (x : Ring) (m : Nat) : (c.setRing r x).ord m = c.ord m := rfl
@[simp] theorem Chan.setRing_solo (c : Chan) (r : Nat) (x : Ring) (m : Nat) : (c.setRing r x).solo m = c.solo m := rfl
@[simp] theorem Chan.setRing_lock (c : Chan) (r : Nat) (x : Ring) (m : Nat) : (c.setRing r x).lock m = c.lock m := rfl
@[simp] theorem Chan.setRing_dom (c : Chan) (r : Nat) (x : Ring) (m : Nat) : (c.setRing r x).dom m = c.dom m := rfl
@[simp] theorem Chan.setRing_qptr (c : Chan) (r : Nat) (x : Ring) (m : Nat) : (c.setRing r x).qptr m = c.qptr m := rfl
@[simp] theorem Chan.setRing_qWord (c : Chan) (r : Nat) (x : Ring) (m : Nat) : (c.setRing r x).qWord m = c.qWord m := rfl
@[simp] theorem Chan.setRing_entry (c : Chan) (r : Nat) (x : Ring) (y z : Nat) : (c.setRing r x).entry y z = c.entry y z := rfl
@[simp] theorem Chan.setRing_instr (c : Chan) (r : Nat) (x : Ring) (m : Nat) : (c.setRing r x).instr m = c.instr m := rfl
@[simp] theorem Chan.setRing_ctx (c : Chan) (r : Nat) (x : Ring) (m : Nat) : (c.setRing r x).ctx m = c.ctx m := rfl
@[simp] theorem Chan.setRing_progOf (c : Chan) (r : Nat) (x : Ring) (m : Nat) : (c.setRing r x).prog? m = c.prog? m := rfl
@[simp] theorem Chan.setRing_rdWord (c : Chan) (r : Nat) (x : Ring) (m : Nat) : (c.setRing r x).rdWord m = c.rdWord m := rfl
@[simp] theorem Chan.setRing_arrived (c : Chan) (r : Nat) (x : Ring) (y z : Nat) : (c.setRing r x).arrived y z = c.arrived y z := rfl
theorem Chan.setRing_ring (c : Chan) (r : Nat) (x : Ring) (m : Nat) :
    (c.setRing r x).ring m = if m = r then x else c.ring m := tblGet_put _ _ _ _ _
@[simp] theorem Chan.setRing_ring_same (c : Chan) (r : Nat) (x : Ring) : (c.setRing r x).ring r = x := tblGet_put_same _ _ _ _

/-! ### setCring -/

@[simp] theorem Chan.setCring_idx (c : Chan) (r : Nat) (x : CRing) : (c.setCring r x).idx = c.idx := rfl
@[simp] theorem Chan.setCring_xclk (c : Chan) (r : Nat) (x : CRing) : (c.setCring r x).xclk = c.xclk := rfl
@[simp] theorem Chan.setCring_regs (c : Chan) (r : Nat) (x : CRing) : (c.setCring r x).regs = c.regs := rfl
@[simp] theorem Chan.setCring_prog (c : Chan) (r : Nat) (x : CRing) : (c.setCring r x).prog = c.prog := rfl
@[simp] theorem Chan.setCring_progClearing (c : Chan) (r : Nat) (x : CRing) : (c.setCring r x).progClearing = c.progClearing := rfl
@[simp] theorem Chan.setCring_mem (c : Chan) (r : Nat) (x : CRing) : (c.setCring r x).mem = c.mem := rfl
@[simp] theorem Chan.setCring_poison (c : Chan) (r : Nat) (x : CRing) : (c.setCring r x).poison = c.poison := rfl
@[simp] theorem Chan.setCring_cu (c : Chan) (r : Nat) (x : CRing) : (c.setCring r x).cu = c.cu := rfl
@[simp] theorem Chan.setCring_ms (c : Chan) (r : Nat) (x : CRing) : (c.setCring r x).ms = c.ms := rfl
@[simp] theorem Chan.setCring_duets (c : Chan) (r : Nat) (x : CRing) : (c.setCring r x).duets = c.duets := rfl
@[simp] theorem Chan.setCring_qu (c : Chan) (r : Nat) (x : CRing) : (c.setCring r x).qu = c.qu := rfl
@[simp] theorem Chan.setCring_fl (c : Chan) (r : Nat) (x : CRing) : (c.setCring r x).fl = c.fl := rfl
@[simp] theorem Chan.setCring_sp (c : Chan) (r : Nat) (x : CRing) : (c.setCring r x).sp = c.sp := rfl
@[simp] theorem Chan.setCring_locks (c : Chan) (r : Nat) (x : CRing) : (c.setCring r x).locks = c.locks := rfl
@[simp] theorem Chan.setCring_dm (c : Chan) (r : Nat) (x : CRing) : (c.setCring r x).dm = c.dm := rfl
@[simp] theorem Chan.setCring_net (c : Chan) (r : Nat) (x : CRing) : (c.setCring r x).net = c.net := rfl
@[simp] theorem Chan.setCring_ports (c : Chan) (r : Nat) (x : CRing) : (c.setCring r x).ports = c.ports := rfl
@[simp] theorem Chan.setCring_callers (c : Chan) (r : Nat) (x : CRing) : (c.setCring r x).callers = c.callers := rfl
@[simp] theorem Chan.setCring_ev (c : Chan) (r : Nat) (x : CRing) : (c.setCring r x).ev = c.ev := rfl
@[simp] theorem Chan.setCring_rings (c : Chan) (r : Nat) (x : CRing) : (c.setCring r x).rings = c.rings := rfl
@[simp] theorem Chan.setCring_copies (c : Chan) (r : Nat) (x : CRing) : (c.setCring r x).copies = c.copies := rfl
@[simp] theorem Chan.setCring_copyRr (c : Chan) (r : Nat) (x : CRing) : (c.setCring r x).copyRr = c.copyRr := rfl
@[simp] theorem Chan.setCring_hw (c : Chan) (r : Nat) (x : CRing) : (c.setCring r x).hw = c.hw := rfl
@[simp] theorem Chan.setCring_pw (c : Chan) (r : Nat) (x : CRing) : (c.setCring r x).pw = c.pw := rfl
@[simp] theorem Chan.setCring_msix (c : Chan) (r : Nat) (x : CRing) : (c.setCring r x).msix = c.msix := rfl
@[simp] theorem Chan.setCring_readData (c : Chan) (r : Nat) (x : CRing) : (c.setCring r x).readData = c.readData := rfl
@[simp] theorem Chan.setCring_out (c : Chan) (r : Nat) (x : CRing) : (c.setCring r x).out = c.out := rfl
@[simp] theorem Chan.setCring_excq (c : Chan) (r : Nat) (x : CRing) : (c.setCring r x).excq = c.excq := rfl
@[simp] theorem Chan.setCring_late (c : Chan) (r : Nat) (x : CRing) : (c.setCring r x).late = c.late := rfl
@[simp] theorem Chan.setCring_done (c : Chan) (r : Nat) (x : CRing) : (c.setCring r x).done = c.done := rfl
@[simp] theorem Chan.setCring_devEv (c : Chan) (r : Nat) (x : CRing) : (c.setCring r x).devEv = c.devEv := rfl
@[simp] theorem Chan.setCring_notes (c : Chan) (r : Nat) (x : CRing) : (c.setCring r x).notes = c.notes := rfl
@[simp] theorem Chan.setCring_rd (c : Chan) (r : Nat) (x : CRing) (o : Nat) : (c.setCring r x).rd o = c.rd o := rfl
@[simp] theorem Chan.setCring_fld (c : Chan) (r : Nat) (x : CRing) (g : Fd) : (c.setCring r x).fld g = c.fld g := rfl
@[simp] theorem Chan.setCring_flag (c : Chan) (r : Nat) (x : CRing) (g : Fd) : (c.setCring r x).flag g = c.flag g := rfl
@[simp] theorem Chan.setCring_caller (c : Chan) (r : Nat) (x : CRing) (m : Nat) : (c.setCring r x).caller m = c.caller m := rfl
@[simp] theorem Chan.setCring_duet (c : Chan) (r : Nat) (x : CRing) (m : Nat) : (c.setCring r x).duet m = c.duet m := rfl
@[simp] theorem Chan.setCring_tile (c : Chan) (r : Nat) (x : CRing) (m : Nat) : (c.setCring r x).tile m = c.tile m := rfl
@[simp] theorem Chan.setCring_port (c : Chan) (r : Nat) (x : CRing) (m : Nat) : (c.setCring r x).port m = c.port m := rfl
@[simp] theorem Chan.setCring_ring (c : Chan) (r : Nat) (x : CRing) (m : Nat) : (c.setCring r x).ring m = c.ring m := rfl
@[simp] theorem Chan.setCring_loop (c : Chan) (r : Nat) (x : CRing) (m : Nat) : (c.setCring r x).loop m = c.loop m := rfl
@[simp] theorem Chan.setCring_ord (c : Chan) (r : Nat) (x : CRing) (m : Nat) : (c.setCring r x).ord m = c.ord m := rfl
@[simp] theorem Chan.setCring_solo (c : Chan) (r : Nat) (x : CRing) (m : Nat) : (c.setCring r x).solo m = c.solo m := rfl
@[simp] theorem Chan.setCring_lock (c : Chan) (r : Nat) (x : CRing) (m : Nat) : (c.setCring r x).lock m = c.lock m := rfl
@[simp] theorem Chan.setCring_dom (c : Chan) (r : Nat) (x : CRing) (m : Nat) : (c.setCring r x).dom m = c.dom m := rfl
@[simp] theorem Chan.setCring_qptr (c : Chan) (r : Nat) (x : CRing) (m : Nat) : (c.setCring r x).qptr m = c.qptr m := rfl
@[simp] theorem Chan.setCring_qWord (c : Chan) (r : Nat) (x : CRing) (m : Nat) : (c.setCring r x).qWord m = c.qWord m := rfl
@[simp] theorem Chan.setCring_entry (c : Chan) (r : Nat) (x : CRing) (y z : Nat) : (c.setCring r x).entry y z = c.entry y z := rfl
@[simp] theorem Chan.setCring_instr (c : Chan) (r : Nat) (x : CRing) (m : Nat) : (c.setCring r x).instr m = c.instr m := rfl
@[simp] theorem Chan.setCring_ctx (c : Chan) (r : Nat) (x : CRing) (m : Nat) : (c.setCring r x).ctx m = c.ctx m := rfl
@[simp] theorem Chan.setCring_progOf (c : Chan) (r : Nat) (x : CRing) (m : Nat) : (c.setCring r x).prog? m = c.prog? m := rfl
@[simp] theorem Chan.setCring_rdWord (c : Chan) (r : Nat) (x : CRing) (m : Nat) : (c.setCring r x).rdWord m = c.rdWord m := rfl
@[simp] theorem Chan.setCring_arrived (c : Chan) (r : Nat) (x : CRing) (y z : Nat) : (c.setCring r x).arrived y z = c.arrived y z := rfl
theorem Chan.setCring_cring (c : Chan) (r : Nat) (x : CRing) (m : Nat) :
    (c.setCring r x).cring m = if m = r then x else c.cring m := tblGet_put _ _ _ _ _
@[simp] theorem Chan.setCring_cring_same (c : Chan) (r : Nat) (x : CRing) : (c.setCring r x).cring r = x := tblGet_put_same _ _ _ _

/-! ### setLoop -/

@[simp] theorem Chan.setLoop_idx (c : Chan) (e : Nat) (x : Loop) : (c.setLoop e x).idx = c.idx := rfl
@[simp] theorem Chan.setLoop_xclk (c : Chan) (e : Nat) (x : Loop) : (c.setLoop e x).xclk = c.xclk := rfl
@[simp] theorem Chan.setLoop_regs (c : Chan) (e : Nat) (x : Loop) : (c.setLoop e x).regs = c.regs := rfl
@[simp] theorem Chan.setLoop_prog (c : Chan) (e : Nat) (x : Loop) : (c.setLoop e x).prog = c.prog := rfl
@[simp] theorem Chan.setLoop_progClearing (c : Chan) (e : Nat) (x : Loop) : (c.setLoop e x).progClearing = c.progClearing := rfl
@[simp] theorem Chan.setLoop_mem (c : Chan) (e : Nat) (x : Loop) : (c.setLoop e x).mem = c.mem := rfl
@[simp] theorem Chan.setLoop_poison (c : Chan) (e : Nat) (x : Loop) : (c.setLoop e x).poison = c.poison := rfl
@[simp] theorem Chan.setLoop_cu_tbl (c : Chan) (e : Nat) (x : Loop) : (c.setLoop e x).cu.tbl = c.cu.tbl := rfl
@[simp] theorem Chan.setLoop_cu_cached (c : Chan) (e : Nat) (x : Loop) : (c.setLoop e x).cu.cached = c.cu.cached := rfl
@[simp] theorem Chan.setLoop_cu_freeFront (c : Chan) (e : Nat) (x : Loop) : (c.setLoop e x).cu.freeFront = c.cu.freeFront := rfl
@[simp] theorem Chan.setLoop_cu_freeNext (c : Chan) (e : Nat) (x : Loop) : (c.setLoop e x).cu.freeNext = c.cu.freeNext := rfl
@[simp] theorem Chan.setLoop_cu_freeEnd (c : Chan) (e : Nat) (x : Loop) : (c.setLoop e x).cu.freeEnd = c.cu.freeEnd := rfl
@[simp] theorem Chan.setLoop_cu_freed (c : Chan) (e : Nat) (x : Loop) : (c.setLoop e x).cu.freed = c.cu.freed := rfl
@[simp] theorem Chan.setLoop_cu_lost (c : Chan) (e : Nat) (x : Loop) : (c.setLoop e x).cu.lost = c.cu.lost := rfl
@[simp] theorem Chan.setLoop_cu_freeHead (c : Chan) (e : Nat) (x : Loop) : (c.setLoop e x).cu.freeHead = c.cu.freeHead := rfl
@[simp] theorem Chan.setLoop_cu_ends (c : Chan) (e : Nat) (x : Loop) : (c.setLoop e x).cu.ends = c.cu.ends := rfl
@[simp] theorem Chan.setLoop_cu_seqNext (c : Chan) (e : Nat) (x : Loop) : (c.setLoop e x).cu.seqNext = c.cu.seqNext := rfl
@[simp] theorem Chan.setLoop_cu_building (c : Chan) (e : Nat) (x : Loop) : (c.setLoop e x).cu.building = c.cu.building := rfl
@[simp] theorem Chan.setLoop_cu_starting (c : Chan) (e : Nat) (x : Loop) : (c.setLoop e x).cu.starting = c.cu.starting := rfl
@[simp] theorem Chan.setLoop_cu_flushing (c : Chan) (e : Nat) (x : Loop) : (c.setLoop e x).cu.flushing = c.cu.flushing := rfl
@[simp] theorem Chan.setLoop_cu_sweep (c : Chan) (e : Nat) (x : Loop) : (c.setLoop e x).cu.sweep = c.cu.sweep := rfl
@[simp] theorem Chan.setLoop_cu_rr (c : Chan) (e : Nat) (x : Loop) : (c.setLoop e x).cu.rr = c.cu.rr := rfl
@[simp] theorem Chan.setLoop_cu_granted (c : Chan) (e : Nat) (x : Loop) : (c.setLoop e x).cu.granted = c.cu.granted := rfl
@[simp] theorem Chan.setLoop_ms (c : Chan) (e : Nat) (x : Loop) : (c.setLoop e x).ms = c.ms := rfl
@[simp] theorem Chan.setLoop_duets (c : Chan) (e : Nat) (x : Loop) : (c.setLoop e x).duets = c.duets := rfl
@[simp] theorem Chan.setLoop_qu (c : Chan) (e : Nat) (x : Loop) : (c.setLoop e x).qu = c.qu := rfl
@[simp] theorem Chan.setLoop_fl (c : Chan) (e : Nat) (x : Loop) : (c.setLoop e x).fl = c.fl := rfl
@[simp] theorem Chan.setLoop_sp (c : Chan) (e : Nat) (x : Loop) : (c.setLoop e x).sp = c.sp := rfl
@[simp] theorem Chan.setLoop_locks (c : Chan) (e : Nat) (x : Loop) : (c.setLoop e x).locks = c.locks := rfl
@[simp] theorem Chan.setLoop_dm (c : Chan) (e : Nat) (x : Loop) : (c.setLoop e x).dm = c.dm := rfl
@[simp] theorem Chan.setLoop_net (c : Chan) (e : Nat) (x : Loop) : (c.setLoop e x).net = c.net := rfl
@[simp] theorem Chan.setLoop_ports (c : Chan) (e : Nat) (x : Loop) : (c.setLoop e x).ports = c.ports := rfl
@[simp] theorem Chan.setLoop_callers (c : Chan) (e : Nat) (x : Loop) : (c.setLoop e x).callers = c.callers := rfl
@[simp] theorem Chan.setLoop_ev (c : Chan) (e : Nat) (x : Loop) : (c.setLoop e x).ev = c.ev := rfl
@[simp] theorem Chan.setLoop_rings (c : Chan) (e : Nat) (x : Loop) : (c.setLoop e x).rings = c.rings := rfl
@[simp] theorem Chan.setLoop_crings (c : Chan) (e : Nat) (x : Loop) : (c.setLoop e x).crings = c.crings := rfl
@[simp] theorem Chan.setLoop_copies (c : Chan) (e : Nat) (x : Loop) : (c.setLoop e x).copies = c.copies := rfl
@[simp] theorem Chan.setLoop_copyRr (c : Chan) (e : Nat) (x : Loop) : (c.setLoop e x).copyRr = c.copyRr := rfl
@[simp] theorem Chan.setLoop_hw (c : Chan) (e : Nat) (x : Loop) : (c.setLoop e x).hw = c.hw := rfl
@[simp] theorem Chan.setLoop_pw (c : Chan) (e : Nat) (x : Loop) : (c.setLoop e x).pw = c.pw := rfl
@[simp] theorem Chan.setLoop_msix (c : Chan) (e : Nat) (x : Loop) : (c.setLoop e x).msix = c.msix := rfl
@[simp] theorem Chan.setLoop_readData (c : Chan) (e : Nat) (x : Loop) : (c.setLoop e x).readData = c.readData := rfl
@[simp] theorem Chan.setLoop_out (c : Chan) (e : Nat) (x : Loop) : (c.setLoop e x).out = c.out := rfl
@[simp] theorem Chan.setLoop_excq (c : Chan) (e : Nat) (x : Loop) : (c.setLoop e x).excq = c.excq := rfl
@[simp] theorem Chan.setLoop_late (c : Chan) (e : Nat) (x : Loop) : (c.setLoop e x).late = c.late := rfl
@[simp] theorem Chan.setLoop_done (c : Chan) (e : Nat) (x : Loop) : (c.setLoop e x).done = c.done := rfl
@[simp] theorem Chan.setLoop_devEv (c : Chan) (e : Nat) (x : Loop) : (c.setLoop e x).devEv = c.devEv := rfl
@[simp] theorem Chan.setLoop_notes (c : Chan) (e : Nat) (x : Loop) : (c.setLoop e x).notes = c.notes := rfl
@[simp] theorem Chan.setLoop_rd (c : Chan) (e : Nat) (x : Loop) (o : Nat) : (c.setLoop e x).rd o = c.rd o := rfl
@[simp] theorem Chan.setLoop_fld (c : Chan) (e : Nat) (x : Loop) (g : Fd) : (c.setLoop e x).fld g = c.fld g := rfl
@[simp] theorem Chan.setLoop_flag (c : Chan) (e : Nat) (x : Loop) (g : Fd) : (c.setLoop e x).flag g = c.flag g := rfl
@[simp] theorem Chan.setLoop_caller (c : Chan) (e : Nat) (x : Loop) (m : Nat) : (c.setLoop e x).caller m = c.caller m := rfl
@[simp] theorem Chan.setLoop_duet (c : Chan) (e : Nat) (x : Loop) (m : Nat) : (c.setLoop e x).duet m = c.duet m := rfl
@[simp] theorem Chan.setLoop_tile (c : Chan) (e : Nat) (x : Loop) (m : Nat) : (c.setLoop e x).tile m = c.tile m := rfl
@[simp] theorem Chan.setLoop_port (c : Chan) (e : Nat) (x : Loop) (m : Nat) : (c.setLoop e x).port m = c.port m := rfl
@[simp] theorem Chan.setLoop_ring (c : Chan) (e : Nat) (x : Loop) (m : Nat) : (c.setLoop e x).ring m = c.ring m := rfl
@[simp] theorem Chan.setLoop_cring (c : Chan) (e : Nat) (x : Loop) (m : Nat) : (c.setLoop e x).cring m = c.cring m := rfl
@[simp] theorem Chan.setLoop_ord (c : Chan) (e : Nat) (x : Loop) (m : Nat) : (c.setLoop e x).ord m = c.ord m := rfl
@[simp] theorem Chan.setLoop_solo (c : Chan) (e : Nat) (x : Loop) (m : Nat) : (c.setLoop e x).solo m = c.solo m := rfl
@[simp] theorem Chan.setLoop_lock (c : Chan) (e : Nat) (x : Loop) (m : Nat) : (c.setLoop e x).lock m = c.lock m := rfl
@[simp] theorem Chan.setLoop_dom (c : Chan) (e : Nat) (x : Loop) (m : Nat) : (c.setLoop e x).dom m = c.dom m := rfl
@[simp] theorem Chan.setLoop_qptr (c : Chan) (e : Nat) (x : Loop) (m : Nat) : (c.setLoop e x).qptr m = c.qptr m := rfl
@[simp] theorem Chan.setLoop_qWord (c : Chan) (e : Nat) (x : Loop) (m : Nat) : (c.setLoop e x).qWord m = c.qWord m := rfl
@[simp] theorem Chan.setLoop_entry (c : Chan) (e : Nat) (x : Loop) (y z : Nat) : (c.setLoop e x).entry y z = c.entry y z := rfl
@[simp] theorem Chan.setLoop_instr (c : Chan) (e : Nat) (x : Loop) (m : Nat) : (c.setLoop e x).instr m = c.instr m := rfl
@[simp] theorem Chan.setLoop_ctx (c : Chan) (e : Nat) (x : Loop) (m : Nat) : (c.setLoop e x).ctx m = c.ctx m := rfl
@[simp] theorem Chan.setLoop_progOf (c : Chan) (e : Nat) (x : Loop) (m : Nat) : (c.setLoop e x).prog? m = c.prog? m := rfl
@[simp] theorem Chan.setLoop_rdWord (c : Chan) (e : Nat) (x : Loop) (m : Nat) : (c.setLoop e x).rdWord m = c.rdWord m := rfl
@[simp] theorem Chan.setLoop_arrived (c : Chan) (e : Nat) (x : Loop) (y z : Nat) : (c.setLoop e x).arrived y z = c.arrived y z := rfl

/-! ### dropLoop -/

@[simp] theorem Chan.dropLoop_idx (c : Chan) (e : Nat) : (c.dropLoop e).idx = c.idx := rfl
@[simp] theorem Chan.dropLoop_xclk (c : Chan) (e : Nat) : (c.dropLoop e).xclk = c.xclk := rfl
@[simp] theorem Chan.dropLoop_regs (c : Chan) (e : Nat) : (c.dropLoop e).regs = c.regs := rfl
@[simp] theorem Chan.dropLoop_prog (c : Chan) (e : Nat) : (c.dropLoop e).prog = c.prog := rfl
@[simp] theorem Chan.dropLoop_progClearing (c : Chan) (e : Nat) : (c.dropLoop e).progClearing = c.progClearing := rfl
@[simp] theorem Chan.dropLoop_mem (c : Chan) (e : Nat) : (c.dropLoop e).mem = c.mem := rfl
@[simp] theorem Chan.dropLoop_poison (c : Chan) (e : Nat) : (c.dropLoop e).poison = c.poison := rfl
@[simp] theorem Chan.dropLoop_cu_tbl (c : Chan) (e : Nat) : (c.dropLoop e).cu.tbl = c.cu.tbl := rfl
@[simp] theorem Chan.dropLoop_cu_cached (c : Chan) (e : Nat) : (c.dropLoop e).cu.cached = c.cu.cached := rfl
@[simp] theorem Chan.dropLoop_cu_freeFront (c : Chan) (e : Nat) : (c.dropLoop e).cu.freeFront = c.cu.freeFront := rfl
@[simp] theorem Chan.dropLoop_cu_freeNext (c : Chan) (e : Nat) : (c.dropLoop e).cu.freeNext = c.cu.freeNext := rfl
@[simp] theorem Chan.dropLoop_cu_freeEnd (c : Chan) (e : Nat) : (c.dropLoop e).cu.freeEnd = c.cu.freeEnd := rfl
@[simp] theorem Chan.dropLoop_cu_freed (c : Chan) (e : Nat) : (c.dropLoop e).cu.freed = c.cu.freed := rfl
@[simp] theorem Chan.dropLoop_cu_lost (c : Chan) (e : Nat) : (c.dropLoop e).cu.lost = c.cu.lost := rfl
@[simp] theorem Chan.dropLoop_cu_freeHead (c : Chan) (e : Nat) : (c.dropLoop e).cu.freeHead = c.cu.freeHead := rfl
@[simp] theorem Chan.dropLoop_cu_ends (c : Chan) (e : Nat) : (c.dropLoop e).cu.ends = c.cu.ends := rfl
@[simp] theorem Chan.dropLoop_cu_seqNext (c : Chan) (e : Nat) : (c.dropLoop e).cu.seqNext = c.cu.seqNext := rfl
@[simp] theorem Chan.dropLoop_cu_building (c : Chan) (e : Nat) : (c.dropLoop e).cu.building = c.cu.building := rfl
@[simp] theorem Chan.dropLoop_cu_starting (c : Chan) (e : Nat) : (c.dropLoop e).cu.starting = c.cu.starting := rfl
@[simp] theorem Chan.dropLoop_cu_flushing (c : Chan) (e : Nat) : (c.dropLoop e).cu.flushing = c.cu.flushing := rfl
@[simp] theorem Chan.dropLoop_cu_sweep (c : Chan) (e : Nat) : (c.dropLoop e).cu.sweep = c.cu.sweep := rfl
@[simp] theorem Chan.dropLoop_cu_rr (c : Chan) (e : Nat) : (c.dropLoop e).cu.rr = c.cu.rr := rfl
@[simp] theorem Chan.dropLoop_cu_granted (c : Chan) (e : Nat) : (c.dropLoop e).cu.granted = c.cu.granted := rfl
@[simp] theorem Chan.dropLoop_ms (c : Chan) (e : Nat) : (c.dropLoop e).ms = c.ms := rfl
@[simp] theorem Chan.dropLoop_duets (c : Chan) (e : Nat) : (c.dropLoop e).duets = c.duets := rfl
@[simp] theorem Chan.dropLoop_qu (c : Chan) (e : Nat) : (c.dropLoop e).qu = c.qu := rfl
@[simp] theorem Chan.dropLoop_fl (c : Chan) (e : Nat) : (c.dropLoop e).fl = c.fl := rfl
@[simp] theorem Chan.dropLoop_sp (c : Chan) (e : Nat) : (c.dropLoop e).sp = c.sp := rfl
@[simp] theorem Chan.dropLoop_locks (c : Chan) (e : Nat) : (c.dropLoop e).locks = c.locks := rfl
@[simp] theorem Chan.dropLoop_dm (c : Chan) (e : Nat) : (c.dropLoop e).dm = c.dm := rfl
@[simp] theorem Chan.dropLoop_net (c : Chan) (e : Nat) : (c.dropLoop e).net = c.net := rfl
@[simp] theorem Chan.dropLoop_ports (c : Chan) (e : Nat) : (c.dropLoop e).ports = c.ports := rfl
@[simp] theorem Chan.dropLoop_callers (c : Chan) (e : Nat) : (c.dropLoop e).callers = c.callers := rfl
@[simp] theorem Chan.dropLoop_ev (c : Chan) (e : Nat) : (c.dropLoop e).ev = c.ev := rfl
@[simp] theorem Chan.dropLoop_rings (c : Chan) (e : Nat) : (c.dropLoop e).rings = c.rings := rfl
@[simp] theorem Chan.dropLoop_crings (c : Chan) (e : Nat) : (c.dropLoop e).crings = c.crings := rfl
@[simp] theorem Chan.dropLoop_copies (c : Chan) (e : Nat) : (c.dropLoop e).copies = c.copies := rfl
@[simp] theorem Chan.dropLoop_copyRr (c : Chan) (e : Nat) : (c.dropLoop e).copyRr = c.copyRr := rfl
@[simp] theorem Chan.dropLoop_hw (c : Chan) (e : Nat) : (c.dropLoop e).hw = c.hw := rfl
@[simp] theorem Chan.dropLoop_pw (c : Chan) (e : Nat) : (c.dropLoop e).pw = c.pw := rfl
@[simp] theorem Chan.dropLoop_msix (c : Chan) (e : Nat) : (c.dropLoop e).msix = c.msix := rfl
@[simp] theorem Chan.dropLoop_readData (c : Chan) (e : Nat) : (c.dropLoop e).readData = c.readData := rfl
@[simp] theorem Chan.dropLoop_out (c : Chan) (e : Nat) : (c.dropLoop e).out = c.out := rfl
@[simp] theorem Chan.dropLoop_excq (c : Chan) (e : Nat) : (c.dropLoop e).excq = c.excq := rfl
@[simp] theorem Chan.dropLoop_late (c : Chan) (e : Nat) : (c.dropLoop e).late = c.late := rfl
@[simp] theorem Chan.dropLoop_done (c : Chan) (e : Nat) : (c.dropLoop e).done = c.done := rfl
@[simp] theorem Chan.dropLoop_devEv (c : Chan) (e : Nat) : (c.dropLoop e).devEv = c.devEv := rfl
@[simp] theorem Chan.dropLoop_notes (c : Chan) (e : Nat) : (c.dropLoop e).notes = c.notes := rfl
@[simp] theorem Chan.dropLoop_rd (c : Chan) (e : Nat) (o : Nat) : (c.dropLoop e).rd o = c.rd o := rfl
@[simp] theorem Chan.dropLoop_fld (c : Chan) (e : Nat) (g : Fd) : (c.dropLoop e).fld g = c.fld g := rfl
@[simp] theorem Chan.dropLoop_flag (c : Chan) (e : Nat) (g : Fd) : (c.dropLoop e).flag g = c.flag g := rfl
@[simp] theorem Chan.dropLoop_caller (c : Chan) (e : Nat) (m : Nat) : (c.dropLoop e).caller m = c.caller m := rfl
@[simp] theorem Chan.dropLoop_duet (c : Chan) (e : Nat) (m : Nat) : (c.dropLoop e).duet m = c.duet m := rfl
@[simp] theorem Chan.dropLoop_tile (c : Chan) (e : Nat) (m : Nat) : (c.dropLoop e).tile m = c.tile m := rfl
@[simp] theorem Chan.dropLoop_port (c : Chan) (e : Nat) (m : Nat) : (c.dropLoop e).port m = c.port m := rfl
@[simp] theorem Chan.dropLoop_ring (c : Chan) (e : Nat) (m : Nat) : (c.dropLoop e).ring m = c.ring m := rfl
@[simp] theorem Chan.dropLoop_cring (c : Chan) (e : Nat) (m : Nat) : (c.dropLoop e).cring m = c.cring m := rfl
@[simp] theorem Chan.dropLoop_ord (c : Chan) (e : Nat) (m : Nat) : (c.dropLoop e).ord m = c.ord m := rfl
@[simp] theorem Chan.dropLoop_solo (c : Chan) (e : Nat) (m : Nat) : (c.dropLoop e).solo m = c.solo m := rfl
@[simp] theorem Chan.dropLoop_lock (c : Chan) (e : Nat) (m : Nat) : (c.dropLoop e).lock m = c.lock m := rfl
@[simp] theorem Chan.dropLoop_dom (c : Chan) (e : Nat) (m : Nat) : (c.dropLoop e).dom m = c.dom m := rfl
@[simp] theorem Chan.dropLoop_qptr (c : Chan) (e : Nat) (m : Nat) : (c.dropLoop e).qptr m = c.qptr m := rfl
@[simp] theorem Chan.dropLoop_qWord (c : Chan) (e : Nat) (m : Nat) : (c.dropLoop e).qWord m = c.qWord m := rfl
@[simp] theorem Chan.dropLoop_entry (c : Chan) (e : Nat) (y z : Nat) : (c.dropLoop e).entry y z = c.entry y z := rfl
@[simp] theorem Chan.dropLoop_instr (c : Chan) (e : Nat) (m : Nat) : (c.dropLoop e).instr m = c.instr m := rfl
@[simp] theorem Chan.dropLoop_ctx (c : Chan) (e : Nat) (m : Nat) : (c.dropLoop e).ctx m = c.ctx m := rfl
@[simp] theorem Chan.dropLoop_progOf (c : Chan) (e : Nat) (m : Nat) : (c.dropLoop e).prog? m = c.prog? m := rfl
@[simp] theorem Chan.dropLoop_rdWord (c : Chan) (e : Nat) (m : Nat) : (c.dropLoop e).rdWord m = c.rdWord m := rfl
@[simp] theorem Chan.dropLoop_arrived (c : Chan) (e : Nat) (y z : Nat) : (c.dropLoop e).arrived y z = c.arrived y z := rfl

/-! ### setOrd -/

@[simp] theorem Chan.setOrd_idx (c : Chan) (n : Nat) (x : Machine.Ord) : (c.setOrd n x).idx = c.idx := rfl
@[simp] theorem Chan.setOrd_xclk (c : Chan) (n : Nat) (x : Machine.Ord) : (c.setOrd n x).xclk = c.xclk := rfl
@[simp] theorem Chan.setOrd_regs (c : Chan) (n : Nat) (x : Machine.Ord) : (c.setOrd n x).regs = c.regs := rfl
@[simp] theorem Chan.setOrd_prog (c : Chan) (n : Nat) (x : Machine.Ord) : (c.setOrd n x).prog = c.prog := rfl
@[simp] theorem Chan.setOrd_progClearing (c : Chan) (n : Nat) (x : Machine.Ord) : (c.setOrd n x).progClearing = c.progClearing := rfl
@[simp] theorem Chan.setOrd_mem (c : Chan) (n : Nat) (x : Machine.Ord) : (c.setOrd n x).mem = c.mem := rfl
@[simp] theorem Chan.setOrd_poison (c : Chan) (n : Nat) (x : Machine.Ord) : (c.setOrd n x).poison = c.poison := rfl
@[simp] theorem Chan.setOrd_cu (c : Chan) (n : Nat) (x : Machine.Ord) : (c.setOrd n x).cu = c.cu := rfl
@[simp] theorem Chan.setOrd_ms (c : Chan) (n : Nat) (x : Machine.Ord) : (c.setOrd n x).ms = c.ms := rfl
@[simp] theorem Chan.setOrd_duets (c : Chan) (n : Nat) (x : Machine.Ord) : (c.setOrd n x).duets = c.duets := rfl
@[simp] theorem Chan.setOrd_qu (c : Chan) (n : Nat) (x : Machine.Ord) : (c.setOrd n x).qu = c.qu := rfl
@[simp] theorem Chan.setOrd_fl_solo (c : Chan) (n : Nat) (x : Machine.Ord) : (c.setOrd n x).fl.solo = c.fl.solo := rfl
@[simp] theorem Chan.setOrd_fl_lists (c : Chan) (n : Nat) (x : Machine.Ord) : (c.setOrd n x).fl.lists = c.fl.lists := rfl
@[simp] theorem Chan.setOrd_fl_f (c : Chan) (n : Nat) (x : Machine.Ord) : (c.setOrd n x).fl.f = c.fl.f := rfl
@[simp] theorem Chan.setOrd_sp (c : Chan) (n : Nat) (x : Machine.Ord) : (c.setOrd n x).sp = c.sp := rfl
@[simp] theorem Chan.setOrd_locks (c : Chan) (n : Nat) (x : Machine.Ord) : (c.setOrd n x).locks = c.locks := rfl
@[simp] theorem Chan.setOrd_dm (c : Chan) (n : Nat) (x : Machine.Ord) : (c.setOrd n x).dm = c.dm := rfl
@[simp] theorem Chan.setOrd_net (c : Chan) (n : Nat) (x : Machine.Ord) : (c.setOrd n x).net = c.net := rfl
@[simp] theorem Chan.setOrd_ports (c : Chan) (n : Nat) (x : Machine.Ord) : (c.setOrd n x).ports = c.ports := rfl
@[simp] theorem Chan.setOrd_callers (c : Chan) (n : Nat) (x : Machine.Ord) : (c.setOrd n x).callers = c.callers := rfl
@[simp] theorem Chan.setOrd_ev (c : Chan) (n : Nat) (x : Machine.Ord) : (c.setOrd n x).ev = c.ev := rfl
@[simp] theorem Chan.setOrd_rings (c : Chan) (n : Nat) (x : Machine.Ord) : (c.setOrd n x).rings = c.rings := rfl
@[simp] theorem Chan.setOrd_crings (c : Chan) (n : Nat) (x : Machine.Ord) : (c.setOrd n x).crings = c.crings := rfl
@[simp] theorem Chan.setOrd_copies (c : Chan) (n : Nat) (x : Machine.Ord) : (c.setOrd n x).copies = c.copies := rfl
@[simp] theorem Chan.setOrd_copyRr (c : Chan) (n : Nat) (x : Machine.Ord) : (c.setOrd n x).copyRr = c.copyRr := rfl
@[simp] theorem Chan.setOrd_hw (c : Chan) (n : Nat) (x : Machine.Ord) : (c.setOrd n x).hw = c.hw := rfl
@[simp] theorem Chan.setOrd_pw (c : Chan) (n : Nat) (x : Machine.Ord) : (c.setOrd n x).pw = c.pw := rfl
@[simp] theorem Chan.setOrd_msix (c : Chan) (n : Nat) (x : Machine.Ord) : (c.setOrd n x).msix = c.msix := rfl
@[simp] theorem Chan.setOrd_readData (c : Chan) (n : Nat) (x : Machine.Ord) : (c.setOrd n x).readData = c.readData := rfl
@[simp] theorem Chan.setOrd_out (c : Chan) (n : Nat) (x : Machine.Ord) : (c.setOrd n x).out = c.out := rfl
@[simp] theorem Chan.setOrd_excq (c : Chan) (n : Nat) (x : Machine.Ord) : (c.setOrd n x).excq = c.excq := rfl
@[simp] theorem Chan.setOrd_late (c : Chan) (n : Nat) (x : Machine.Ord) : (c.setOrd n x).late = c.late := rfl
@[simp] theorem Chan.setOrd_done (c : Chan) (n : Nat) (x : Machine.Ord) : (c.setOrd n x).done = c.done := rfl
@[simp] theorem Chan.setOrd_devEv (c : Chan) (n : Nat) (x : Machine.Ord) : (c.setOrd n x).devEv = c.devEv := rfl
@[simp] theorem Chan.setOrd_notes (c : Chan) (n : Nat) (x : Machine.Ord) : (c.setOrd n x).notes = c.notes := rfl
@[simp] theorem Chan.setOrd_rd (c : Chan) (n : Nat) (x : Machine.Ord) (o : Nat) : (c.setOrd n x).rd o = c.rd o := rfl
@[simp] theorem Chan.setOrd_fld (c : Chan) (n : Nat) (x : Machine.Ord) (g : Fd) : (c.setOrd n x).fld g = c.fld g := rfl
@[simp] theorem Chan.setOrd_flag (c : Chan) (n : Nat) (x : Machine.Ord) (g : Fd) : (c.setOrd n x).flag g = c.flag g := rfl
@[simp] theorem Chan.setOrd_caller (c : Chan) (n : Nat) (x : Machine.Ord) (m : Nat) : (c.setOrd n x).caller m = c.caller m := rfl
@[simp] theorem Chan.setOrd_duet (c : Chan) (n : Nat) (x : Machine.Ord) (m : Nat) : (c.setOrd n x).duet m = c.duet m := rfl
@[simp] theorem Chan.setOrd_tile (c : Chan) (n : Nat) (x : Machine.Ord) (m : Nat) : (c.setOrd n x).tile m = c.tile m := rfl
@[simp] theorem Chan.setOrd_port (c : Chan) (n : Nat) (x : Machine.Ord) (m : Nat) : (c.setOrd n x).port m = c.port m := rfl
@[simp] theorem Chan.setOrd_ring (c : Chan) (n : Nat) (x : Machine.Ord) (m : Nat) : (c.setOrd n x).ring m = c.ring m := rfl
@[simp] theorem Chan.setOrd_cring (c : Chan) (n : Nat) (x : Machine.Ord) (m : Nat) : (c.setOrd n x).cring m = c.cring m := rfl
@[simp] theorem Chan.setOrd_loop (c : Chan) (n : Nat) (x : Machine.Ord) (m : Nat) : (c.setOrd n x).loop m = c.loop m := rfl
@[simp] theorem Chan.setOrd_solo (c : Chan) (n : Nat) (x : Machine.Ord) (m : Nat) : (c.setOrd n x).solo m = c.solo m := rfl
@[simp] theorem Chan.setOrd_lock (c : Chan) (n : Nat) (x : Machine.Ord) (m : Nat) : (c.setOrd n x).lock m = c.lock m := rfl
@[simp] theorem Chan.setOrd_dom (c : Chan) (n : Nat) (x : Machine.Ord) (m : Nat) : (c.setOrd n x).dom m = c.dom m := rfl
@[simp] theorem Chan.setOrd_qptr (c : Chan) (n : Nat) (x : Machine.Ord) (m : Nat) : (c.setOrd n x).qptr m = c.qptr m := rfl
@[simp] theorem Chan.setOrd_qWord (c : Chan) (n : Nat) (x : Machine.Ord) (m : Nat) : (c.setOrd n x).qWord m = c.qWord m := rfl
@[simp] theorem Chan.setOrd_entry (c : Chan) (n : Nat) (x : Machine.Ord) (y z : Nat) : (c.setOrd n x).entry y z = c.entry y z := rfl
@[simp] theorem Chan.setOrd_instr (c : Chan) (n : Nat) (x : Machine.Ord) (m : Nat) : (c.setOrd n x).instr m = c.instr m := rfl
@[simp] theorem Chan.setOrd_ctx (c : Chan) (n : Nat) (x : Machine.Ord) (m : Nat) : (c.setOrd n x).ctx m = c.ctx m := rfl
@[simp] theorem Chan.setOrd_progOf (c : Chan) (n : Nat) (x : Machine.Ord) (m : Nat) : (c.setOrd n x).prog? m = c.prog? m := rfl
@[simp] theorem Chan.setOrd_rdWord (c : Chan) (n : Nat) (x : Machine.Ord) (m : Nat) : (c.setOrd n x).rdWord m = c.rdWord m := rfl
@[simp] theorem Chan.setOrd_arrived (c : Chan) (n : Nat) (x : Machine.Ord) (y z : Nat) : (c.setOrd n x).arrived y z = c.arrived y z := rfl
theorem Chan.setOrd_ord (c : Chan) (n : Nat) (x : Machine.Ord) (m : Nat) :
    (c.setOrd n x).ord m = if m = n then x else c.ord m := tblGet_put _ _ _ _ _
@[simp] theorem Chan.setOrd_ord_same (c : Chan) (n : Nat) (x : Machine.Ord) : (c.setOrd n x).ord n = x := tblGet_put_same _ _ _ _

/-! ### setSolo -/

@[simp] theorem Chan.setSolo_idx (c : Chan) (q : Nat) (x : SoloSlot) : (c.setSolo q x).idx = c.idx := rfl
@[simp] theorem Chan.setSolo_xclk (c : Chan) (q : Nat) (x : SoloSlot) : (c.setSolo q x).xclk = c.xclk := rfl
@[simp] theorem Chan.setSolo_regs (c : Chan) (q : Nat) (x : SoloSlot) : (c.setSolo q x).regs = c.regs := rfl
@[simp] theorem Chan.setSolo_prog (c : Chan) (q : Nat) (x : SoloSlot) : (c.setSolo q x).prog = c.prog := rfl
@[simp] theorem Chan.setSolo_progClearing (c : Chan) (q : Nat) (x : SoloSlot) : (c.setSolo q x).progClearing = c.progClearing := rfl
@[simp] theorem Chan.setSolo_mem (c : Chan) (q : Nat) (x : SoloSlot) : (c.setSolo q x).mem = c.mem := rfl
@[simp] theorem Chan.setSolo_poison (c : Chan) (q : Nat) (x : SoloSlot) : (c.setSolo q x).poison = c.poison := rfl
@[simp] theorem Chan.setSolo_cu (c : Chan) (q : Nat) (x : SoloSlot) : (c.setSolo q x).cu = c.cu := rfl
@[simp] theorem Chan.setSolo_ms (c : Chan) (q : Nat) (x : SoloSlot) : (c.setSolo q x).ms = c.ms := rfl
@[simp] theorem Chan.setSolo_duets (c : Chan) (q : Nat) (x : SoloSlot) : (c.setSolo q x).duets = c.duets := rfl
@[simp] theorem Chan.setSolo_qu (c : Chan) (q : Nat) (x : SoloSlot) : (c.setSolo q x).qu = c.qu := rfl
@[simp] theorem Chan.setSolo_fl_ords (c : Chan) (q : Nat) (x : SoloSlot) : (c.setSolo q x).fl.ords = c.fl.ords := rfl
@[simp] theorem Chan.setSolo_fl_lists (c : Chan) (q : Nat) (x : SoloSlot) : (c.setSolo q x).fl.lists = c.fl.lists := rfl
@[simp] theorem Chan.setSolo_fl_f (c : Chan) (q : Nat) (x : SoloSlot) : (c.setSolo q x).fl.f = c.fl.f := rfl
@[simp] theorem Chan.setSolo_sp (c : Chan) (q : Nat) (x : SoloSlot) : (c.setSolo q x).sp = c.sp := rfl
@[simp] theorem Chan.setSolo_locks (c : Chan) (q : Nat) (x : SoloSlot) : (c.setSolo q x).locks = c.locks := rfl
@[simp] theorem Chan.setSolo_dm (c : Chan) (q : Nat) (x : SoloSlot) : (c.setSolo q x).dm = c.dm := rfl
@[simp] theorem Chan.setSolo_net (c : Chan) (q : Nat) (x : SoloSlot) : (c.setSolo q x).net = c.net := rfl
@[simp] theorem Chan.setSolo_ports (c : Chan) (q : Nat) (x : SoloSlot) : (c.setSolo q x).ports = c.ports := rfl
@[simp] theorem Chan.setSolo_callers (c : Chan) (q : Nat) (x : SoloSlot) : (c.setSolo q x).callers = c.callers := rfl
@[simp] theorem Chan.setSolo_ev (c : Chan) (q : Nat) (x : SoloSlot) : (c.setSolo q x).ev = c.ev := rfl
@[simp] theorem Chan.setSolo_rings (c : Chan) (q : Nat) (x : SoloSlot) : (c.setSolo q x).rings = c.rings := rfl
@[simp] theorem Chan.setSolo_crings (c : Chan) (q : Nat) (x : SoloSlot) : (c.setSolo q x).crings = c.crings := rfl
@[simp] theorem Chan.setSolo_copies (c : Chan) (q : Nat) (x : SoloSlot) : (c.setSolo q x).copies = c.copies := rfl
@[simp] theorem Chan.setSolo_copyRr (c : Chan) (q : Nat) (x : SoloSlot) : (c.setSolo q x).copyRr = c.copyRr := rfl
@[simp] theorem Chan.setSolo_hw (c : Chan) (q : Nat) (x : SoloSlot) : (c.setSolo q x).hw = c.hw := rfl
@[simp] theorem Chan.setSolo_pw (c : Chan) (q : Nat) (x : SoloSlot) : (c.setSolo q x).pw = c.pw := rfl
@[simp] theorem Chan.setSolo_msix (c : Chan) (q : Nat) (x : SoloSlot) : (c.setSolo q x).msix = c.msix := rfl
@[simp] theorem Chan.setSolo_readData (c : Chan) (q : Nat) (x : SoloSlot) : (c.setSolo q x).readData = c.readData := rfl
@[simp] theorem Chan.setSolo_out (c : Chan) (q : Nat) (x : SoloSlot) : (c.setSolo q x).out = c.out := rfl
@[simp] theorem Chan.setSolo_excq (c : Chan) (q : Nat) (x : SoloSlot) : (c.setSolo q x).excq = c.excq := rfl
@[simp] theorem Chan.setSolo_late (c : Chan) (q : Nat) (x : SoloSlot) : (c.setSolo q x).late = c.late := rfl
@[simp] theorem Chan.setSolo_done (c : Chan) (q : Nat) (x : SoloSlot) : (c.setSolo q x).done = c.done := rfl
@[simp] theorem Chan.setSolo_devEv (c : Chan) (q : Nat) (x : SoloSlot) : (c.setSolo q x).devEv = c.devEv := rfl
@[simp] theorem Chan.setSolo_notes (c : Chan) (q : Nat) (x : SoloSlot) : (c.setSolo q x).notes = c.notes := rfl
@[simp] theorem Chan.setSolo_rd (c : Chan) (q : Nat) (x : SoloSlot) (o : Nat) : (c.setSolo q x).rd o = c.rd o := rfl
@[simp] theorem Chan.setSolo_fld (c : Chan) (q : Nat) (x : SoloSlot) (g : Fd) : (c.setSolo q x).fld g = c.fld g := rfl
@[simp] theorem Chan.setSolo_flag (c : Chan) (q : Nat) (x : SoloSlot) (g : Fd) : (c.setSolo q x).flag g = c.flag g := rfl
@[simp] theorem Chan.setSolo_caller (c : Chan) (q : Nat) (x : SoloSlot) (m : Nat) : (c.setSolo q x).caller m = c.caller m := rfl
@[simp] theorem Chan.setSolo_duet (c : Chan) (q : Nat) (x : SoloSlot) (m : Nat) : (c.setSolo q x).duet m = c.duet m := rfl
@[simp] theorem Chan.setSolo_tile (c : Chan) (q : Nat) (x : SoloSlot) (m : Nat) : (c.setSolo q x).tile m = c.tile m := rfl
@[simp] theorem Chan.setSolo_port (c : Chan) (q : Nat) (x : SoloSlot) (m : Nat) : (c.setSolo q x).port m = c.port m := rfl
@[simp] theorem Chan.setSolo_ring (c : Chan) (q : Nat) (x : SoloSlot) (m : Nat) : (c.setSolo q x).ring m = c.ring m := rfl
@[simp] theorem Chan.setSolo_cring (c : Chan) (q : Nat) (x : SoloSlot) (m : Nat) : (c.setSolo q x).cring m = c.cring m := rfl
@[simp] theorem Chan.setSolo_loop (c : Chan) (q : Nat) (x : SoloSlot) (m : Nat) : (c.setSolo q x).loop m = c.loop m := rfl
@[simp] theorem Chan.setSolo_ord (c : Chan) (q : Nat) (x : SoloSlot) (m : Nat) : (c.setSolo q x).ord m = c.ord m := rfl
@[simp] theorem Chan.setSolo_lock (c : Chan) (q : Nat) (x : SoloSlot) (m : Nat) : (c.setSolo q x).lock m = c.lock m := rfl
@[simp] theorem Chan.setSolo_dom (c : Chan) (q : Nat) (x : SoloSlot) (m : Nat) : (c.setSolo q x).dom m = c.dom m := rfl
@[simp] theorem Chan.setSolo_qptr (c : Chan) (q : Nat) (x : SoloSlot) (m : Nat) : (c.setSolo q x).qptr m = c.qptr m := rfl
@[simp] theorem Chan.setSolo_qWord (c : Chan) (q : Nat) (x : SoloSlot) (m : Nat) : (c.setSolo q x).qWord m = c.qWord m := rfl
@[simp] theorem Chan.setSolo_entry (c : Chan) (q : Nat) (x : SoloSlot) (y z : Nat) : (c.setSolo q x).entry y z = c.entry y z := rfl
@[simp] theorem Chan.setSolo_instr (c : Chan) (q : Nat) (x : SoloSlot) (m : Nat) : (c.setSolo q x).instr m = c.instr m := rfl
@[simp] theorem Chan.setSolo_ctx (c : Chan) (q : Nat) (x : SoloSlot) (m : Nat) : (c.setSolo q x).ctx m = c.ctx m := rfl
@[simp] theorem Chan.setSolo_progOf (c : Chan) (q : Nat) (x : SoloSlot) (m : Nat) : (c.setSolo q x).prog? m = c.prog? m := rfl
@[simp] theorem Chan.setSolo_rdWord (c : Chan) (q : Nat) (x : SoloSlot) (m : Nat) : (c.setSolo q x).rdWord m = c.rdWord m := rfl
@[simp] theorem Chan.setSolo_arrived (c : Chan) (q : Nat) (x : SoloSlot) (y z : Nat) : (c.setSolo q x).arrived y z = c.arrived y z := rfl
theorem Chan.setSolo_solo (c : Chan) (q : Nat) (x : SoloSlot) (m : Nat) :
    (c.setSolo q x).solo m = if m = q then x else c.solo m := tblGet_put _ _ _ _ _
@[simp] theorem Chan.setSolo_solo_same (c : Chan) (q : Nat) (x : SoloSlot) : (c.setSolo q x).solo q = x := tblGet_put_same _ _ _ _

/-! ### setLock -/

@[simp] theorem Chan.setLock_idx (c : Chan) (i : Nat) (x : Lock) : (c.setLock i x).idx = c.idx := rfl
@[simp] theorem Chan.setLock_xclk (c : Chan) (i : Nat) (x : Lock) : (c.setLock i x).xclk = c.xclk := rfl
@[simp] theorem Chan.setLock_regs (c : Chan) (i : Nat) (x : Lock) : (c.setLock i x).regs = c.regs := rfl
@[simp] theorem Chan.setLock_prog (c : Chan) (i : Nat) (x : Lock) : (c.setLock i x).prog = c.prog := rfl
@[simp] theorem Chan.setLock_progClearing (c : Chan) (i : Nat) (x : Lock) : (c.setLock i x).progClearing = c.progClearing := rfl
@[simp] theorem Chan.setLock_mem (c : Chan) (i : Nat) (x : Lock) : (c.setLock i x).mem = c.mem := rfl
@[simp] theorem Chan.setLock_poison (c : Chan) (i : Nat) (x : Lock) : (c.setLock i x).poison = c.poison := rfl
@[simp] theorem Chan.setLock_cu (c : Chan) (i : Nat) (x : Lock) : (c.setLock i x).cu = c.cu := rfl
@[simp] theorem Chan.setLock_ms (c : Chan) (i : Nat) (x : Lock) : (c.setLock i x).ms = c.ms := rfl
@[simp] theorem Chan.setLock_duets (c : Chan) (i : Nat) (x : Lock) : (c.setLock i x).duets = c.duets := rfl
@[simp] theorem Chan.setLock_qu (c : Chan) (i : Nat) (x : Lock) : (c.setLock i x).qu = c.qu := rfl
@[simp] theorem Chan.setLock_fl (c : Chan) (i : Nat) (x : Lock) : (c.setLock i x).fl = c.fl := rfl
@[simp] theorem Chan.setLock_sp (c : Chan) (i : Nat) (x : Lock) : (c.setLock i x).sp = c.sp := rfl
@[simp] theorem Chan.setLock_dm (c : Chan) (i : Nat) (x : Lock) : (c.setLock i x).dm = c.dm := rfl
@[simp] theorem Chan.setLock_net (c : Chan) (i : Nat) (x : Lock) : (c.setLock i x).net = c.net := rfl
@[simp] theorem Chan.setLock_ports (c : Chan) (i : Nat) (x : Lock) : (c.setLock i x).ports = c.ports := rfl
@[simp] theorem Chan.setLock_callers (c : Chan) (i : Nat) (x : Lock) : (c.setLock i x).callers = c.callers := rfl
@[simp] theorem Chan.setLock_ev (c : Chan) (i : Nat) (x : Lock) : (c.setLock i x).ev = c.ev := rfl
@[simp] theorem Chan.setLock_rings (c : Chan) (i : Nat) (x : Lock) : (c.setLock i x).rings = c.rings := rfl
@[simp] theorem Chan.setLock_crings (c : Chan) (i : Nat) (x : Lock) : (c.setLock i x).crings = c.crings := rfl
@[simp] theorem Chan.setLock_copies (c : Chan) (i : Nat) (x : Lock) : (c.setLock i x).copies = c.copies := rfl
@[simp] theorem Chan.setLock_copyRr (c : Chan) (i : Nat) (x : Lock) : (c.setLock i x).copyRr = c.copyRr := rfl
@[simp] theorem Chan.setLock_hw (c : Chan) (i : Nat) (x : Lock) : (c.setLock i x).hw = c.hw := rfl
@[simp] theorem Chan.setLock_pw (c : Chan) (i : Nat) (x : Lock) : (c.setLock i x).pw = c.pw := rfl
@[simp] theorem Chan.setLock_msix (c : Chan) (i : Nat) (x : Lock) : (c.setLock i x).msix = c.msix := rfl
@[simp] theorem Chan.setLock_readData (c : Chan) (i : Nat) (x : Lock) : (c.setLock i x).readData = c.readData := rfl
@[simp] theorem Chan.setLock_out (c : Chan) (i : Nat) (x : Lock) : (c.setLock i x).out = c.out := rfl
@[simp] theorem Chan.setLock_excq (c : Chan) (i : Nat) (x : Lock) : (c.setLock i x).excq = c.excq := rfl
@[simp] theorem Chan.setLock_late (c : Chan) (i : Nat) (x : Lock) : (c.setLock i x).late = c.late := rfl
@[simp] theorem Chan.setLock_done (c : Chan) (i : Nat) (x : Lock) : (c.setLock i x).done = c.done := rfl
@[simp] theorem Chan.setLock_devEv (c : Chan) (i : Nat) (x : Lock) : (c.setLock i x).devEv = c.devEv := rfl
@[simp] theorem Chan.setLock_notes (c : Chan) (i : Nat) (x : Lock) : (c.setLock i x).notes = c.notes := rfl
@[simp] theorem Chan.setLock_rd (c : Chan) (i : Nat) (x : Lock) (o : Nat) : (c.setLock i x).rd o = c.rd o := rfl
@[simp] theorem Chan.setLock_fld (c : Chan) (i : Nat) (x : Lock) (g : Fd) : (c.setLock i x).fld g = c.fld g := rfl
@[simp] theorem Chan.setLock_flag (c : Chan) (i : Nat) (x : Lock) (g : Fd) : (c.setLock i x).flag g = c.flag g := rfl
@[simp] theorem Chan.setLock_caller (c : Chan) (i : Nat) (x : Lock) (m : Nat) : (c.setLock i x).caller m = c.caller m := rfl
@[simp] theorem Chan.setLock_duet (c : Chan) (i : Nat) (x : Lock) (m : Nat) : (c.setLock i x).duet m = c.duet m := rfl
@[simp] theorem Chan.setLock_tile (c : Chan) (i : Nat) (x : Lock) (m : Nat) : (c.setLock i x).tile m = c.tile m := rfl
@[simp] theorem Chan.setLock_port (c : Chan) (i : Nat) (x : Lock) (m : Nat) : (c.setLock i x).port m = c.port m := rfl
@[simp] theorem Chan.setLock_ring (c : Chan) (i : Nat) (x : Lock) (m : Nat) : (c.setLock i x).ring m = c.ring m := rfl
@[simp] theorem Chan.setLock_cring (c : Chan) (i : Nat) (x : Lock) (m : Nat) : (c.setLock i x).cring m = c.cring m := rfl
@[simp] theorem Chan.setLock_loop (c : Chan) (i : Nat) (x : Lock) (m : Nat) : (c.setLock i x).loop m = c.loop m := rfl
@[simp] theorem Chan.setLock_ord (c : Chan) (i : Nat) (x : Lock) (m : Nat) : (c.setLock i x).ord m = c.ord m := rfl
@[simp] theorem Chan.setLock_solo (c : Chan) (i : Nat) (x : Lock) (m : Nat) : (c.setLock i x).solo m = c.solo m := rfl
@[simp] theorem Chan.setLock_dom (c : Chan) (i : Nat) (x : Lock) (m : Nat) : (c.setLock i x).dom m = c.dom m := rfl
@[simp] theorem Chan.setLock_qptr (c : Chan) (i : Nat) (x : Lock) (m : Nat) : (c.setLock i x).qptr m = c.qptr m := rfl
@[simp] theorem Chan.setLock_qWord (c : Chan) (i : Nat) (x : Lock) (m : Nat) : (c.setLock i x).qWord m = c.qWord m := rfl
@[simp] theorem Chan.setLock_entry (c : Chan) (i : Nat) (x : Lock) (y z : Nat) : (c.setLock i x).entry y z = c.entry y z := rfl
@[simp] theorem Chan.setLock_instr (c : Chan) (i : Nat) (x : Lock) (m : Nat) : (c.setLock i x).instr m = c.instr m := rfl
@[simp] theorem Chan.setLock_ctx (c : Chan) (i : Nat) (x : Lock) (m : Nat) : (c.setLock i x).ctx m = c.ctx m := rfl
@[simp] theorem Chan.setLock_progOf (c : Chan) (i : Nat) (x : Lock) (m : Nat) : (c.setLock i x).prog? m = c.prog? m := rfl
@[simp] theorem Chan.setLock_rdWord (c : Chan) (i : Nat) (x : Lock) (m : Nat) : (c.setLock i x).rdWord m = c.rdWord m := rfl
@[simp] theorem Chan.setLock_arrived (c : Chan) (i : Nat) (x : Lock) (y z : Nat) : (c.setLock i x).arrived y z = c.arrived y z := rfl
theorem Chan.setLock_lock (c : Chan) (i : Nat) (x : Lock) (m : Nat) :
    (c.setLock i x).lock m = if m = i then x else c.lock m := tblGet_put _ _ _ _ _
@[simp] theorem Chan.setLock_lock_same (c : Chan) (i : Nat) (x : Lock) : (c.setLock i x).lock i = x := tblGet_put_same _ _ _ _

/-! ### setDom -/

@[simp] theorem Chan.setDom_idx (c : Chan) (d : Nat) (x : DomSt) : (c.setDom d x).idx = c.idx := rfl
@[simp] theorem Chan.setDom_xclk (c : Chan) (d : Nat) (x : DomSt) : (c.setDom d x).xclk = c.xclk := rfl
@[simp] theorem Chan.setDom_regs (c : Chan) (d : Nat) (x : DomSt) : (c.setDom d x).regs = c.regs := rfl
@[simp] theorem Chan.setDom_prog (c : Chan) (d : Nat) (x : DomSt) : (c.setDom d x).prog = c.prog := rfl
@[simp] theorem Chan.setDom_progClearing (c : Chan) (d : Nat) (x : DomSt) : (c.setDom d x).progClearing = c.progClearing := rfl
@[simp] theorem Chan.setDom_mem (c : Chan) (d : Nat) (x : DomSt) : (c.setDom d x).mem = c.mem := rfl
@[simp] theorem Chan.setDom_poison (c : Chan) (d : Nat) (x : DomSt) : (c.setDom d x).poison = c.poison := rfl
@[simp] theorem Chan.setDom_cu (c : Chan) (d : Nat) (x : DomSt) : (c.setDom d x).cu = c.cu := rfl
@[simp] theorem Chan.setDom_ms (c : Chan) (d : Nat) (x : DomSt) : (c.setDom d x).ms = c.ms := rfl
@[simp] theorem Chan.setDom_duets (c : Chan) (d : Nat) (x : DomSt) : (c.setDom d x).duets = c.duets := rfl
@[simp] theorem Chan.setDom_qu (c : Chan) (d : Nat) (x : DomSt) : (c.setDom d x).qu = c.qu := rfl
@[simp] theorem Chan.setDom_fl (c : Chan) (d : Nat) (x : DomSt) : (c.setDom d x).fl = c.fl := rfl
@[simp] theorem Chan.setDom_sp (c : Chan) (d : Nat) (x : DomSt) : (c.setDom d x).sp = c.sp := rfl
@[simp] theorem Chan.setDom_locks (c : Chan) (d : Nat) (x : DomSt) : (c.setDom d x).locks = c.locks := rfl
@[simp] theorem Chan.setDom_dm (c : Chan) (d : Nat) (x : DomSt) : (c.setDom d x).dm = c.dm := rfl
@[simp] theorem Chan.setDom_net (c : Chan) (d : Nat) (x : DomSt) : (c.setDom d x).net = c.net := rfl
@[simp] theorem Chan.setDom_ports (c : Chan) (d : Nat) (x : DomSt) : (c.setDom d x).ports = c.ports := rfl
@[simp] theorem Chan.setDom_callers (c : Chan) (d : Nat) (x : DomSt) : (c.setDom d x).callers = c.callers := rfl
@[simp] theorem Chan.setDom_ev (c : Chan) (d : Nat) (x : DomSt) : (c.setDom d x).ev = c.ev := rfl
@[simp] theorem Chan.setDom_rings (c : Chan) (d : Nat) (x : DomSt) : (c.setDom d x).rings = c.rings := rfl
@[simp] theorem Chan.setDom_crings (c : Chan) (d : Nat) (x : DomSt) : (c.setDom d x).crings = c.crings := rfl
@[simp] theorem Chan.setDom_copies (c : Chan) (d : Nat) (x : DomSt) : (c.setDom d x).copies = c.copies := rfl
@[simp] theorem Chan.setDom_copyRr (c : Chan) (d : Nat) (x : DomSt) : (c.setDom d x).copyRr = c.copyRr := rfl
@[simp] theorem Chan.setDom_hw (c : Chan) (d : Nat) (x : DomSt) : (c.setDom d x).hw = c.hw := rfl
@[simp] theorem Chan.setDom_pw_cst (c : Chan) (d : Nat) (x : DomSt) : (c.setDom d x).pw.cst = c.pw.cst := rfl
@[simp] theorem Chan.setDom_pw_ready (c : Chan) (d : Nat) (x : DomSt) : (c.setDom d x).pw.ready = c.pw.ready := rfl
@[simp] theorem Chan.setDom_pw_seton (c : Chan) (d : Nat) (x : DomSt) : (c.setDom d x).pw.seton = c.pw.seton := rfl
@[simp] theorem Chan.setDom_pw_abandon (c : Chan) (d : Nat) (x : DomSt) : (c.setDom d x).pw.abandon = c.pw.abandon := rfl
@[simp] theorem Chan.setDom_pw_drainto (c : Chan) (d : Nat) (x : DomSt) : (c.setDom d x).pw.drainto = c.pw.drainto := rfl
@[simp] theorem Chan.setDom_pw_progs (c : Chan) (d : Nat) (x : DomSt) : (c.setDom d x).pw.progs = c.pw.progs := rfl
@[simp] theorem Chan.setDom_pw_goal (c : Chan) (d : Nat) (x : DomSt) : (c.setDom d x).pw.goal = c.pw.goal := rfl
@[simp] theorem Chan.setDom_pw_idleSince (c : Chan) (d : Nat) (x : DomSt) : (c.setDom d x).pw.idleSince = c.pw.idleSince := rfl
@[simp] theorem Chan.setDom_pw_c1At (c : Chan) (d : Nat) (x : DomSt) : (c.setDom d x).pw.c1At = c.pw.c1At := rfl
@[simp] theorem Chan.setDom_pw_c2At (c : Chan) (d : Nat) (x : DomSt) : (c.setDom d x).pw.c2At = c.pw.c2At := rfl
@[simp] theorem Chan.setDom_pw_setIdle (c : Chan) (d : Nat) (x : DomSt) : (c.setDom d x).pw.setIdle = c.pw.setIdle := rfl
@[simp] theorem Chan.setDom_pw_wake (c : Chan) (d : Nat) (x : DomSt) : (c.setDom d x).pw.wake = c.pw.wake := rfl
@[simp] theorem Chan.setDom_pw_wakeDoms (c : Chan) (d : Nat) (x : DomSt) : (c.setDom d x).pw.wakeDoms = c.pw.wakeDoms := rfl
@[simp] theorem Chan.setDom_pw_regAt (c : Chan) (d : Nat) (x : DomSt) : (c.setDom d x).pw.regAt = c.pw.regAt := rfl
@[simp] theorem Chan.setDom_pw_held (c : Chan) (d : Nat) (x : DomSt) : (c.setDom d x).pw.held = c.pw.held := rfl
@[simp] theorem Chan.setDom_pw_kicks (c : Chan) (d : Nat) (x : DomSt) : (c.setDom d x).pw.kicks = c.pw.kicks := rfl
@[simp] theorem Chan.setDom_pw_tripped (c : Chan) (d : Nat) (x : DomSt) : (c.setDom d x).pw.tripped = c.pw.tripped := rfl
@[simp] theorem Chan.setDom_pw_due (c : Chan) (d : Nat) (x : DomSt) : (c.setDom d x).pw.due = c.pw.due := rfl
@[simp] theorem Chan.setDom_pw_mhz (c : Chan) (d : Nat) (x : DomSt) : (c.setDom d x).pw.mhz = c.pw.mhz := rfl
@[simp] theorem Chan.setDom_pw_mv (c : Chan) (d : Nat) (x : DomSt) : (c.setDom d x).pw.mv = c.pw.mv := rfl
@[simp] theorem Chan.setDom_pw_lastSwitch (c : Chan) (d : Nat) (x : DomSt) : (c.setDom d x).pw.lastSwitch = c.pw.lastSwitch := rfl
@[simp] theorem Chan.setDom_pw_limited (c : Chan) (d : Nat) (x : DomSt) : (c.setDom d x).pw.limited = c.pw.limited := rfl
@[simp] theorem Chan.setDom_pw_thermal (c : Chan) (d : Nat) (x : DomSt) : (c.setDom d x).pw.thermal = c.pw.thermal := rfl
@[simp] theorem Chan.setDom_pw_cap (c : Chan) (d : Nat) (x : DomSt) : (c.setDom d x).pw.cap = c.pw.cap := rfl
@[simp] theorem Chan.setDom_msix (c : Chan) (d : Nat) (x : DomSt) : (c.setDom d x).msix = c.msix := rfl
@[simp] theorem Chan.setDom_readData (c : Chan) (d : Nat) (x : DomSt) : (c.setDom d x).readData = c.readData := rfl
@[simp] theorem Chan.setDom_out (c : Chan) (d : Nat) (x : DomSt) : (c.setDom d x).out = c.out := rfl
@[simp] theorem Chan.setDom_excq (c : Chan) (d : Nat) (x : DomSt) : (c.setDom d x).excq = c.excq := rfl
@[simp] theorem Chan.setDom_late (c : Chan) (d : Nat) (x : DomSt) : (c.setDom d x).late = c.late := rfl
@[simp] theorem Chan.setDom_done (c : Chan) (d : Nat) (x : DomSt) : (c.setDom d x).done = c.done := rfl
@[simp] theorem Chan.setDom_devEv (c : Chan) (d : Nat) (x : DomSt) : (c.setDom d x).devEv = c.devEv := rfl
@[simp] theorem Chan.setDom_notes (c : Chan) (d : Nat) (x : DomSt) : (c.setDom d x).notes = c.notes := rfl
@[simp] theorem Chan.setDom_rd (c : Chan) (d : Nat) (x : DomSt) (o : Nat) : (c.setDom d x).rd o = c.rd o := rfl
@[simp] theorem Chan.setDom_fld (c : Chan) (d : Nat) (x : DomSt) (g : Fd) : (c.setDom d x).fld g = c.fld g := rfl
@[simp] theorem Chan.setDom_flag (c : Chan) (d : Nat) (x : DomSt) (g : Fd) : (c.setDom d x).flag g = c.flag g := rfl
@[simp] theorem Chan.setDom_caller (c : Chan) (d : Nat) (x : DomSt) (m : Nat) : (c.setDom d x).caller m = c.caller m := rfl
@[simp] theorem Chan.setDom_duet (c : Chan) (d : Nat) (x : DomSt) (m : Nat) : (c.setDom d x).duet m = c.duet m := rfl
@[simp] theorem Chan.setDom_tile (c : Chan) (d : Nat) (x : DomSt) (m : Nat) : (c.setDom d x).tile m = c.tile m := rfl
@[simp] theorem Chan.setDom_port (c : Chan) (d : Nat) (x : DomSt) (m : Nat) : (c.setDom d x).port m = c.port m := rfl
@[simp] theorem Chan.setDom_ring (c : Chan) (d : Nat) (x : DomSt) (m : Nat) : (c.setDom d x).ring m = c.ring m := rfl
@[simp] theorem Chan.setDom_cring (c : Chan) (d : Nat) (x : DomSt) (m : Nat) : (c.setDom d x).cring m = c.cring m := rfl
@[simp] theorem Chan.setDom_loop (c : Chan) (d : Nat) (x : DomSt) (m : Nat) : (c.setDom d x).loop m = c.loop m := rfl
@[simp] theorem Chan.setDom_ord (c : Chan) (d : Nat) (x : DomSt) (m : Nat) : (c.setDom d x).ord m = c.ord m := rfl
@[simp] theorem Chan.setDom_solo (c : Chan) (d : Nat) (x : DomSt) (m : Nat) : (c.setDom d x).solo m = c.solo m := rfl
@[simp] theorem Chan.setDom_lock (c : Chan) (d : Nat) (x : DomSt) (m : Nat) : (c.setDom d x).lock m = c.lock m := rfl
@[simp] theorem Chan.setDom_qptr (c : Chan) (d : Nat) (x : DomSt) (m : Nat) : (c.setDom d x).qptr m = c.qptr m := rfl
@[simp] theorem Chan.setDom_qWord (c : Chan) (d : Nat) (x : DomSt) (m : Nat) : (c.setDom d x).qWord m = c.qWord m := rfl
@[simp] theorem Chan.setDom_entry (c : Chan) (d : Nat) (x : DomSt) (y z : Nat) : (c.setDom d x).entry y z = c.entry y z := rfl
@[simp] theorem Chan.setDom_instr (c : Chan) (d : Nat) (x : DomSt) (m : Nat) : (c.setDom d x).instr m = c.instr m := rfl
@[simp] theorem Chan.setDom_ctx (c : Chan) (d : Nat) (x : DomSt) (m : Nat) : (c.setDom d x).ctx m = c.ctx m := rfl
@[simp] theorem Chan.setDom_progOf (c : Chan) (d : Nat) (x : DomSt) (m : Nat) : (c.setDom d x).prog? m = c.prog? m := rfl
@[simp] theorem Chan.setDom_rdWord (c : Chan) (d : Nat) (x : DomSt) (m : Nat) : (c.setDom d x).rdWord m = c.rdWord m := rfl
@[simp] theorem Chan.setDom_arrived (c : Chan) (d : Nat) (x : DomSt) (y z : Nat) : (c.setDom d x).arrived y z = c.arrived y z := rfl
theorem Chan.setDom_dom (c : Chan) (d : Nat) (x : DomSt) (m : Nat) :
    (c.setDom d x).dom m = if m = d then x else c.dom m := tblGet_put _ _ _ _ _
@[simp] theorem Chan.setDom_dom_same (c : Chan) (d : Nat) (x : DomSt) : (c.setDom d x).dom d = x := tblGet_put_same _ _ _ _

/-! ### setQptr -/

@[simp] theorem Chan.setQptr_idx (c : Chan) (q : Nat) (x : QPtr) : (c.setQptr q x).idx = c.idx := rfl
@[simp] theorem Chan.setQptr_xclk (c : Chan) (q : Nat) (x : QPtr) : (c.setQptr q x).xclk = c.xclk := rfl
@[simp] theorem Chan.setQptr_regs (c : Chan) (q : Nat) (x : QPtr) : (c.setQptr q x).regs = c.regs := rfl
@[simp] theorem Chan.setQptr_prog (c : Chan) (q : Nat) (x : QPtr) : (c.setQptr q x).prog = c.prog := rfl
@[simp] theorem Chan.setQptr_progClearing (c : Chan) (q : Nat) (x : QPtr) : (c.setQptr q x).progClearing = c.progClearing := rfl
@[simp] theorem Chan.setQptr_mem (c : Chan) (q : Nat) (x : QPtr) : (c.setQptr q x).mem = c.mem := rfl
@[simp] theorem Chan.setQptr_poison (c : Chan) (q : Nat) (x : QPtr) : (c.setQptr q x).poison = c.poison := rfl
@[simp] theorem Chan.setQptr_cu (c : Chan) (q : Nat) (x : QPtr) : (c.setQptr q x).cu = c.cu := rfl
@[simp] theorem Chan.setQptr_ms (c : Chan) (q : Nat) (x : QPtr) : (c.setQptr q x).ms = c.ms := rfl
@[simp] theorem Chan.setQptr_duets (c : Chan) (q : Nat) (x : QPtr) : (c.setQptr q x).duets = c.duets := rfl
@[simp] theorem Chan.setQptr_qu_store (c : Chan) (q : Nat) (x : QPtr) : (c.setQptr q x).qu.store = c.qu.store := rfl
@[simp] theorem Chan.setQptr_qu_waiters (c : Chan) (q : Nat) (x : QPtr) : (c.setQptr q x).qu.waiters = c.qu.waiters := rfl
@[simp] theorem Chan.setQptr_qu_touched (c : Chan) (q : Nat) (x : QPtr) : (c.setQptr q x).qu.touched = c.qu.touched := rfl
@[simp] theorem Chan.setQptr_qu_waits (c : Chan) (q : Nat) (x : QPtr) : (c.setQptr q x).qu.waits = c.qu.waits := rfl
@[simp] theorem Chan.setQptr_fl (c : Chan) (q : Nat) (x : QPtr) : (c.setQptr q x).fl = c.fl := rfl
@[simp] theorem Chan.setQptr_sp (c : Chan) (q : Nat) (x : QPtr) : (c.setQptr q x).sp = c.sp := rfl
@[simp] theorem Chan.setQptr_locks (c : Chan) (q : Nat) (x : QPtr) : (c.setQptr q x).locks = c.locks := rfl
@[simp] theorem Chan.setQptr_dm (c : Chan) (q : Nat) (x : QPtr) : (c.setQptr q x).dm = c.dm := rfl
@[simp] theorem Chan.setQptr_net (c : Chan) (q : Nat) (x : QPtr) : (c.setQptr q x).net = c.net := rfl
@[simp] theorem Chan.setQptr_ports (c : Chan) (q : Nat) (x : QPtr) : (c.setQptr q x).ports = c.ports := rfl
@[simp] theorem Chan.setQptr_callers (c : Chan) (q : Nat) (x : QPtr) : (c.setQptr q x).callers = c.callers := rfl
@[simp] theorem Chan.setQptr_ev (c : Chan) (q : Nat) (x : QPtr) : (c.setQptr q x).ev = c.ev := rfl
@[simp] theorem Chan.setQptr_rings (c : Chan) (q : Nat) (x : QPtr) : (c.setQptr q x).rings = c.rings := rfl
@[simp] theorem Chan.setQptr_crings (c : Chan) (q : Nat) (x : QPtr) : (c.setQptr q x).crings = c.crings := rfl
@[simp] theorem Chan.setQptr_copies (c : Chan) (q : Nat) (x : QPtr) : (c.setQptr q x).copies = c.copies := rfl
@[simp] theorem Chan.setQptr_copyRr (c : Chan) (q : Nat) (x : QPtr) : (c.setQptr q x).copyRr = c.copyRr := rfl
@[simp] theorem Chan.setQptr_hw (c : Chan) (q : Nat) (x : QPtr) : (c.setQptr q x).hw = c.hw := rfl
@[simp] theorem Chan.setQptr_pw (c : Chan) (q : Nat) (x : QPtr) : (c.setQptr q x).pw = c.pw := rfl
@[simp] theorem Chan.setQptr_msix (c : Chan) (q : Nat) (x : QPtr) : (c.setQptr q x).msix = c.msix := rfl
@[simp] theorem Chan.setQptr_readData (c : Chan) (q : Nat) (x : QPtr) : (c.setQptr q x).readData = c.readData := rfl
@[simp] theorem Chan.setQptr_out (c : Chan) (q : Nat) (x : QPtr) : (c.setQptr q x).out = c.out := rfl
@[simp] theorem Chan.setQptr_excq (c : Chan) (q : Nat) (x : QPtr) : (c.setQptr q x).excq = c.excq := rfl
@[simp] theorem Chan.setQptr_late (c : Chan) (q : Nat) (x : QPtr) : (c.setQptr q x).late = c.late := rfl
@[simp] theorem Chan.setQptr_done (c : Chan) (q : Nat) (x : QPtr) : (c.setQptr q x).done = c.done := rfl
@[simp] theorem Chan.setQptr_devEv (c : Chan) (q : Nat) (x : QPtr) : (c.setQptr q x).devEv = c.devEv := rfl
@[simp] theorem Chan.setQptr_notes (c : Chan) (q : Nat) (x : QPtr) : (c.setQptr q x).notes = c.notes := rfl
@[simp] theorem Chan.setQptr_rd (c : Chan) (q : Nat) (x : QPtr) (o : Nat) : (c.setQptr q x).rd o = c.rd o := rfl
@[simp] theorem Chan.setQptr_fld (c : Chan) (q : Nat) (x : QPtr) (g : Fd) : (c.setQptr q x).fld g = c.fld g := rfl
@[simp] theorem Chan.setQptr_flag (c : Chan) (q : Nat) (x : QPtr) (g : Fd) : (c.setQptr q x).flag g = c.flag g := rfl
@[simp] theorem Chan.setQptr_caller (c : Chan) (q : Nat) (x : QPtr) (m : Nat) : (c.setQptr q x).caller m = c.caller m := rfl
@[simp] theorem Chan.setQptr_duet (c : Chan) (q : Nat) (x : QPtr) (m : Nat) : (c.setQptr q x).duet m = c.duet m := rfl
@[simp] theorem Chan.setQptr_tile (c : Chan) (q : Nat) (x : QPtr) (m : Nat) : (c.setQptr q x).tile m = c.tile m := rfl
@[simp] theorem Chan.setQptr_port (c : Chan) (q : Nat) (x : QPtr) (m : Nat) : (c.setQptr q x).port m = c.port m := rfl
@[simp] theorem Chan.setQptr_ring (c : Chan) (q : Nat) (x : QPtr) (m : Nat) : (c.setQptr q x).ring m = c.ring m := rfl
@[simp] theorem Chan.setQptr_cring (c : Chan) (q : Nat) (x : QPtr) (m : Nat) : (c.setQptr q x).cring m = c.cring m := rfl
@[simp] theorem Chan.setQptr_loop (c : Chan) (q : Nat) (x : QPtr) (m : Nat) : (c.setQptr q x).loop m = c.loop m := rfl
@[simp] theorem Chan.setQptr_ord (c : Chan) (q : Nat) (x : QPtr) (m : Nat) : (c.setQptr q x).ord m = c.ord m := rfl
@[simp] theorem Chan.setQptr_solo (c : Chan) (q : Nat) (x : QPtr) (m : Nat) : (c.setQptr q x).solo m = c.solo m := rfl
@[simp] theorem Chan.setQptr_lock (c : Chan) (q : Nat) (x : QPtr) (m : Nat) : (c.setQptr q x).lock m = c.lock m := rfl
@[simp] theorem Chan.setQptr_dom (c : Chan) (q : Nat) (x : QPtr) (m : Nat) : (c.setQptr q x).dom m = c.dom m := rfl
@[simp] theorem Chan.setQptr_qWord (c : Chan) (q : Nat) (x : QPtr) (m : Nat) : (c.setQptr q x).qWord m = c.qWord m := rfl
@[simp] theorem Chan.setQptr_entry (c : Chan) (q : Nat) (x : QPtr) (y z : Nat) : (c.setQptr q x).entry y z = c.entry y z := rfl
@[simp] theorem Chan.setQptr_instr (c : Chan) (q : Nat) (x : QPtr) (m : Nat) : (c.setQptr q x).instr m = c.instr m := rfl
@[simp] theorem Chan.setQptr_ctx (c : Chan) (q : Nat) (x : QPtr) (m : Nat) : (c.setQptr q x).ctx m = c.ctx m := rfl
@[simp] theorem Chan.setQptr_progOf (c : Chan) (q : Nat) (x : QPtr) (m : Nat) : (c.setQptr q x).prog? m = c.prog? m := rfl
@[simp] theorem Chan.setQptr_rdWord (c : Chan) (q : Nat) (x : QPtr) (m : Nat) : (c.setQptr q x).rdWord m = c.rdWord m := rfl
@[simp] theorem Chan.setQptr_arrived (c : Chan) (q : Nat) (x : QPtr) (y z : Nat) : (c.setQptr q x).arrived y z = c.arrived y z := rfl
theorem Chan.setQptr_qptr (c : Chan) (q : Nat) (x : QPtr) (m : Nat) :
    (c.setQptr q x).qptr m = if m = q then x else c.qptr m := tblGet_put _ _ _ _ _
@[simp] theorem Chan.setQptr_qptr_same (c : Chan) (q : Nat) (x : QPtr) : (c.setQptr q x).qptr q = x := tblGet_put_same _ _ _ _

/-! ### setQWord -/

@[simp] theorem Chan.setQWord_idx (c : Chan) (a : Nat) (w : BitVec 144) : (c.setQWord a w).idx = c.idx := rfl
@[simp] theorem Chan.setQWord_xclk (c : Chan) (a : Nat) (w : BitVec 144) : (c.setQWord a w).xclk = c.xclk := rfl
@[simp] theorem Chan.setQWord_regs (c : Chan) (a : Nat) (w : BitVec 144) : (c.setQWord a w).regs = c.regs := rfl
@[simp] theorem Chan.setQWord_prog (c : Chan) (a : Nat) (w : BitVec 144) : (c.setQWord a w).prog = c.prog := rfl
@[simp] theorem Chan.setQWord_progClearing (c : Chan) (a : Nat) (w : BitVec 144) : (c.setQWord a w).progClearing = c.progClearing := rfl
@[simp] theorem Chan.setQWord_mem (c : Chan) (a : Nat) (w : BitVec 144) : (c.setQWord a w).mem = c.mem := rfl
@[simp] theorem Chan.setQWord_poison (c : Chan) (a : Nat) (w : BitVec 144) : (c.setQWord a w).poison = c.poison := rfl
@[simp] theorem Chan.setQWord_cu (c : Chan) (a : Nat) (w : BitVec 144) : (c.setQWord a w).cu = c.cu := rfl
@[simp] theorem Chan.setQWord_ms (c : Chan) (a : Nat) (w : BitVec 144) : (c.setQWord a w).ms = c.ms := rfl
@[simp] theorem Chan.setQWord_duets (c : Chan) (a : Nat) (w : BitVec 144) : (c.setQWord a w).duets = c.duets := rfl
@[simp] theorem Chan.setQWord_qu_ptrs (c : Chan) (a : Nat) (w : BitVec 144) : (c.setQWord a w).qu.ptrs = c.qu.ptrs := rfl
@[simp] theorem Chan.setQWord_qu_waiters (c : Chan) (a : Nat) (w : BitVec 144) : (c.setQWord a w).qu.waiters = c.qu.waiters := rfl
@[simp] theorem Chan.setQWord_qu_touched (c : Chan) (a : Nat) (w : BitVec 144) : (c.setQWord a w).qu.touched = c.qu.touched := rfl
@[simp] theorem Chan.setQWord_qu_waits (c : Chan) (a : Nat) (w : BitVec 144) : (c.setQWord a w).qu.waits = c.qu.waits := rfl
@[simp] theorem Chan.setQWord_fl (c : Chan) (a : Nat) (w : BitVec 144) : (c.setQWord a w).fl = c.fl := rfl
@[simp] theorem Chan.setQWord_sp (c : Chan) (a : Nat) (w : BitVec 144) : (c.setQWord a w).sp = c.sp := rfl
@[simp] theorem Chan.setQWord_locks (c : Chan) (a : Nat) (w : BitVec 144) : (c.setQWord a w).locks = c.locks := rfl
@[simp] theorem Chan.setQWord_dm (c : Chan) (a : Nat) (w : BitVec 144) : (c.setQWord a w).dm = c.dm := rfl
@[simp] theorem Chan.setQWord_net (c : Chan) (a : Nat) (w : BitVec 144) : (c.setQWord a w).net = c.net := rfl
@[simp] theorem Chan.setQWord_ports (c : Chan) (a : Nat) (w : BitVec 144) : (c.setQWord a w).ports = c.ports := rfl
@[simp] theorem Chan.setQWord_callers (c : Chan) (a : Nat) (w : BitVec 144) : (c.setQWord a w).callers = c.callers := rfl
@[simp] theorem Chan.setQWord_ev (c : Chan) (a : Nat) (w : BitVec 144) : (c.setQWord a w).ev = c.ev := rfl
@[simp] theorem Chan.setQWord_rings (c : Chan) (a : Nat) (w : BitVec 144) : (c.setQWord a w).rings = c.rings := rfl
@[simp] theorem Chan.setQWord_crings (c : Chan) (a : Nat) (w : BitVec 144) : (c.setQWord a w).crings = c.crings := rfl
@[simp] theorem Chan.setQWord_copies (c : Chan) (a : Nat) (w : BitVec 144) : (c.setQWord a w).copies = c.copies := rfl
@[simp] theorem Chan.setQWord_copyRr (c : Chan) (a : Nat) (w : BitVec 144) : (c.setQWord a w).copyRr = c.copyRr := rfl
@[simp] theorem Chan.setQWord_hw (c : Chan) (a : Nat) (w : BitVec 144) : (c.setQWord a w).hw = c.hw := rfl
@[simp] theorem Chan.setQWord_pw (c : Chan) (a : Nat) (w : BitVec 144) : (c.setQWord a w).pw = c.pw := rfl
@[simp] theorem Chan.setQWord_msix (c : Chan) (a : Nat) (w : BitVec 144) : (c.setQWord a w).msix = c.msix := rfl
@[simp] theorem Chan.setQWord_readData (c : Chan) (a : Nat) (w : BitVec 144) : (c.setQWord a w).readData = c.readData := rfl
@[simp] theorem Chan.setQWord_out (c : Chan) (a : Nat) (w : BitVec 144) : (c.setQWord a w).out = c.out := rfl
@[simp] theorem Chan.setQWord_excq (c : Chan) (a : Nat) (w : BitVec 144) : (c.setQWord a w).excq = c.excq := rfl
@[simp] theorem Chan.setQWord_late (c : Chan) (a : Nat) (w : BitVec 144) : (c.setQWord a w).late = c.late := rfl
@[simp] theorem Chan.setQWord_done (c : Chan) (a : Nat) (w : BitVec 144) : (c.setQWord a w).done = c.done := rfl
@[simp] theorem Chan.setQWord_devEv (c : Chan) (a : Nat) (w : BitVec 144) : (c.setQWord a w).devEv = c.devEv := rfl
@[simp] theorem Chan.setQWord_notes (c : Chan) (a : Nat) (w : BitVec 144) : (c.setQWord a w).notes = c.notes := rfl
@[simp] theorem Chan.setQWord_rd (c : Chan) (a : Nat) (w : BitVec 144) (o : Nat) : (c.setQWord a w).rd o = c.rd o := rfl
@[simp] theorem Chan.setQWord_fld (c : Chan) (a : Nat) (w : BitVec 144) (g : Fd) : (c.setQWord a w).fld g = c.fld g := rfl
@[simp] theorem Chan.setQWord_flag (c : Chan) (a : Nat) (w : BitVec 144) (g : Fd) : (c.setQWord a w).flag g = c.flag g := rfl
@[simp] theorem Chan.setQWord_caller (c : Chan) (a : Nat) (w : BitVec 144) (m : Nat) : (c.setQWord a w).caller m = c.caller m := rfl
@[simp] theorem Chan.setQWord_duet (c : Chan) (a : Nat) (w : BitVec 144) (m : Nat) : (c.setQWord a w).duet m = c.duet m := rfl
@[simp] theorem Chan.setQWord_tile (c : Chan) (a : Nat) (w : BitVec 144) (m : Nat) : (c.setQWord a w).tile m = c.tile m := rfl
@[simp] theorem Chan.setQWord_port (c : Chan) (a : Nat) (w : BitVec 144) (m : Nat) : (c.setQWord a w).port m = c.port m := rfl
@[simp] theorem Chan.setQWord_ring (c : Chan) (a : Nat) (w : BitVec 144) (m : Nat) : (c.setQWord a w).ring m = c.ring m := rfl
@[simp] theorem Chan.setQWord_cring (c : Chan) (a : Nat) (w : BitVec 144) (m : Nat) : (c.setQWord a w).cring m = c.cring m := rfl
@[simp] theorem Chan.setQWord_loop (c : Chan) (a : Nat) (w : BitVec 144) (m : Nat) : (c.setQWord a w).loop m = c.loop m := rfl
@[simp] theorem Chan.setQWord_ord (c : Chan) (a : Nat) (w : BitVec 144) (m : Nat) : (c.setQWord a w).ord m = c.ord m := rfl
@[simp] theorem Chan.setQWord_solo (c : Chan) (a : Nat) (w : BitVec 144) (m : Nat) : (c.setQWord a w).solo m = c.solo m := rfl
@[simp] theorem Chan.setQWord_lock (c : Chan) (a : Nat) (w : BitVec 144) (m : Nat) : (c.setQWord a w).lock m = c.lock m := rfl
@[simp] theorem Chan.setQWord_dom (c : Chan) (a : Nat) (w : BitVec 144) (m : Nat) : (c.setQWord a w).dom m = c.dom m := rfl
@[simp] theorem Chan.setQWord_qptr (c : Chan) (a : Nat) (w : BitVec 144) (m : Nat) : (c.setQWord a w).qptr m = c.qptr m := rfl
@[simp] theorem Chan.setQWord_entry (c : Chan) (a : Nat) (w : BitVec 144) (y z : Nat) : (c.setQWord a w).entry y z = c.entry y z := rfl
@[simp] theorem Chan.setQWord_instr (c : Chan) (a : Nat) (w : BitVec 144) (m : Nat) : (c.setQWord a w).instr m = c.instr m := rfl
@[simp] theorem Chan.setQWord_ctx (c : Chan) (a : Nat) (w : BitVec 144) (m : Nat) : (c.setQWord a w).ctx m = c.ctx m := rfl
@[simp] theorem Chan.setQWord_progOf (c : Chan) (a : Nat) (w : BitVec 144) (m : Nat) : (c.setQWord a w).prog? m = c.prog? m := rfl
@[simp] theorem Chan.setQWord_rdWord (c : Chan) (a : Nat) (w : BitVec 144) (m : Nat) : (c.setQWord a w).rdWord m = c.rdWord m := rfl
@[simp] theorem Chan.setQWord_arrived (c : Chan) (a : Nat) (w : BitVec 144) (y z : Nat) :
    (c.setQWord a w).arrived y z = c.arrived y z := rfl

/-! ### setEntry -/

@[simp] theorem Chan.setEntry_idx (c : Chan) (t e : Nat) (x : MEntry) : (c.setEntry t e x).idx = c.idx := rfl
@[simp] theorem Chan.setEntry_xclk (c : Chan) (t e : Nat) (x : MEntry) : (c.setEntry t e x).xclk = c.xclk := rfl
@[simp] theorem Chan.setEntry_regs (c : Chan) (t e : Nat) (x : MEntry) : (c.setEntry t e x).regs = c.regs := rfl
@[simp] theorem Chan.setEntry_prog (c : Chan) (t e : Nat) (x : MEntry) : (c.setEntry t e x).prog = c.prog := rfl
@[simp] theorem Chan.setEntry_progClearing (c : Chan) (t e : Nat) (x : MEntry) : (c.setEntry t e x).progClearing = c.progClearing := rfl
@[simp] theorem Chan.setEntry_mem (c : Chan) (t e : Nat) (x : MEntry) : (c.setEntry t e x).mem = c.mem := rfl
@[simp] theorem Chan.setEntry_poison (c : Chan) (t e : Nat) (x : MEntry) : (c.setEntry t e x).poison = c.poison := rfl
@[simp] theorem Chan.setEntry_cu (c : Chan) (t e : Nat) (x : MEntry) : (c.setEntry t e x).cu = c.cu := rfl
@[simp] theorem Chan.setEntry_ms_tiles (c : Chan) (t e : Nat) (x : MEntry) : (c.setEntry t e x).ms.tiles = c.ms.tiles := rfl
@[simp] theorem Chan.setEntry_ms_pool (c : Chan) (t e : Nat) (x : MEntry) : (c.setEntry t e x).ms.pool = c.ms.pool := rfl
@[simp] theorem Chan.setEntry_ms_cutq (c : Chan) (t e : Nat) (x : MEntry) : (c.setEntry t e x).ms.cutq = c.ms.cutq := rfl
@[simp] theorem Chan.setEntry_ms_cutTried (c : Chan) (t e : Nat) (x : MEntry) : (c.setEntry t e x).ms.cutTried = c.ms.cutTried := rfl
@[simp] theorem Chan.setEntry_ms_births (c : Chan) (t e : Nat) (x : MEntry) : (c.setEntry t e x).ms.births = c.ms.births := rfl
@[simp] theorem Chan.setEntry_ms_stallKills (c : Chan) (t e : Nat) (x : MEntry) : (c.setEntry t e x).ms.stallKills = c.ms.stallKills := rfl
@[simp] theorem Chan.setEntry_ms_fullAt (c : Chan) (t e : Nat) (x : MEntry) : (c.setEntry t e x).ms.fullAt = c.ms.fullAt := rfl
@[simp] theorem Chan.setEntry_ms_stall (c : Chan) (t e : Nat) (x : MEntry) : (c.setEntry t e x).ms.stall = c.ms.stall := rfl
@[simp] theorem Chan.setEntry_ms_commitAt (c : Chan) (t e : Nat) (x : MEntry) : (c.setEntry t e x).ms.commitAt = c.ms.commitAt := rfl
@[simp] theorem Chan.setEntry_ms_moved (c : Chan) (t e : Nat) (x : MEntry) : (c.setEntry t e x).ms.moved = c.ms.moved := rfl
@[simp] theorem Chan.setEntry_duets (c : Chan) (t e : Nat) (x : MEntry) : (c.setEntry t e x).duets = c.duets := rfl
@[simp] theorem Chan.setEntry_qu (c : Chan) (t e : Nat) (x : MEntry) : (c.setEntry t e x).qu = c.qu := rfl
@[simp] theorem Chan.setEntry_fl (c : Chan) (t e : Nat) (x : MEntry) : (c.setEntry t e x).fl = c.fl := rfl
@[simp] theorem Chan.setEntry_sp (c : Chan) (t e : Nat) (x : MEntry) : (c.setEntry t e x).sp = c.sp := rfl
@[simp] theorem Chan.setEntry_locks (c : Chan) (t e : Nat) (x : MEntry) : (c.setEntry t e x).locks = c.locks := rfl
@[simp] theorem Chan.setEntry_dm (c : Chan) (t e : Nat) (x : MEntry) : (c.setEntry t e x).dm = c.dm := rfl
@[simp] theorem Chan.setEntry_net (c : Chan) (t e : Nat) (x : MEntry) : (c.setEntry t e x).net = c.net := rfl
@[simp] theorem Chan.setEntry_ports (c : Chan) (t e : Nat) (x : MEntry) : (c.setEntry t e x).ports = c.ports := rfl
@[simp] theorem Chan.setEntry_callers (c : Chan) (t e : Nat) (x : MEntry) : (c.setEntry t e x).callers = c.callers := rfl
@[simp] theorem Chan.setEntry_ev (c : Chan) (t e : Nat) (x : MEntry) : (c.setEntry t e x).ev = c.ev := rfl
@[simp] theorem Chan.setEntry_rings (c : Chan) (t e : Nat) (x : MEntry) : (c.setEntry t e x).rings = c.rings := rfl
@[simp] theorem Chan.setEntry_crings (c : Chan) (t e : Nat) (x : MEntry) : (c.setEntry t e x).crings = c.crings := rfl
@[simp] theorem Chan.setEntry_copies (c : Chan) (t e : Nat) (x : MEntry) : (c.setEntry t e x).copies = c.copies := rfl
@[simp] theorem Chan.setEntry_copyRr (c : Chan) (t e : Nat) (x : MEntry) : (c.setEntry t e x).copyRr = c.copyRr := rfl
@[simp] theorem Chan.setEntry_hw (c : Chan) (t e : Nat) (x : MEntry) : (c.setEntry t e x).hw = c.hw := rfl
@[simp] theorem Chan.setEntry_pw (c : Chan) (t e : Nat) (x : MEntry) : (c.setEntry t e x).pw = c.pw := rfl
@[simp] theorem Chan.setEntry_msix (c : Chan) (t e : Nat) (x : MEntry) : (c.setEntry t e x).msix = c.msix := rfl
@[simp] theorem Chan.setEntry_readData (c : Chan) (t e : Nat) (x : MEntry) : (c.setEntry t e x).readData = c.readData := rfl
@[simp] theorem Chan.setEntry_out (c : Chan) (t e : Nat) (x : MEntry) : (c.setEntry t e x).out = c.out := rfl
@[simp] theorem Chan.setEntry_excq (c : Chan) (t e : Nat) (x : MEntry) : (c.setEntry t e x).excq = c.excq := rfl
@[simp] theorem Chan.setEntry_late (c : Chan) (t e : Nat) (x : MEntry) : (c.setEntry t e x).late = c.late := rfl
@[simp] theorem Chan.setEntry_done (c : Chan) (t e : Nat) (x : MEntry) : (c.setEntry t e x).done = c.done := rfl
@[simp] theorem Chan.setEntry_devEv (c : Chan) (t e : Nat) (x : MEntry) : (c.setEntry t e x).devEv = c.devEv := rfl
@[simp] theorem Chan.setEntry_notes (c : Chan) (t e : Nat) (x : MEntry) : (c.setEntry t e x).notes = c.notes := rfl
@[simp] theorem Chan.setEntry_rd (c : Chan) (t e : Nat) (x : MEntry) (o : Nat) : (c.setEntry t e x).rd o = c.rd o := rfl
@[simp] theorem Chan.setEntry_fld (c : Chan) (t e : Nat) (x : MEntry) (g : Fd) : (c.setEntry t e x).fld g = c.fld g := rfl
@[simp] theorem Chan.setEntry_flag (c : Chan) (t e : Nat) (x : MEntry) (g : Fd) : (c.setEntry t e x).flag g = c.flag g := rfl
@[simp] theorem Chan.setEntry_caller (c : Chan) (t e : Nat) (x : MEntry) (m : Nat) : (c.setEntry t e x).caller m = c.caller m := rfl
@[simp] theorem Chan.setEntry_duet (c : Chan) (t e : Nat) (x : MEntry) (m : Nat) : (c.setEntry t e x).duet m = c.duet m := rfl
@[simp] theorem Chan.setEntry_tile (c : Chan) (t e : Nat) (x : MEntry) (m : Nat) : (c.setEntry t e x).tile m = c.tile m := rfl
@[simp] theorem Chan.setEntry_port (c : Chan) (t e : Nat) (x : MEntry) (m : Nat) : (c.setEntry t e x).port m = c.port m := rfl
@[simp] theorem Chan.setEntry_ring (c : Chan) (t e : Nat) (x : MEntry) (m : Nat) : (c.setEntry t e x).ring m = c.ring m := rfl
@[simp] theorem Chan.setEntry_cring (c : Chan) (t e : Nat) (x : MEntry) (m : Nat) : (c.setEntry t e x).cring m = c.cring m := rfl
@[simp] theorem Chan.setEntry_loop (c : Chan) (t e : Nat) (x : MEntry) (m : Nat) : (c.setEntry t e x).loop m = c.loop m := rfl
@[simp] theorem Chan.setEntry_ord (c : Chan) (t e : Nat) (x : MEntry) (m : Nat) : (c.setEntry t e x).ord m = c.ord m := rfl
@[simp] theorem Chan.setEntry_solo (c : Chan) (t e : Nat) (x : MEntry) (m : Nat) : (c.setEntry t e x).solo m = c.solo m := rfl
@[simp] theorem Chan.setEntry_lock (c : Chan) (t e : Nat) (x : MEntry) (m : Nat) : (c.setEntry t e x).lock m = c.lock m := rfl
@[simp] theorem Chan.setEntry_dom (c : Chan) (t e : Nat) (x : MEntry) (m : Nat) : (c.setEntry t e x).dom m = c.dom m := rfl
@[simp] theorem Chan.setEntry_qptr (c : Chan) (t e : Nat) (x : MEntry) (m : Nat) : (c.setEntry t e x).qptr m = c.qptr m := rfl
@[simp] theorem Chan.setEntry_qWord (c : Chan) (t e : Nat) (x : MEntry) (m : Nat) : (c.setEntry t e x).qWord m = c.qWord m := rfl
@[simp] theorem Chan.setEntry_instr (c : Chan) (t e : Nat) (x : MEntry) (m : Nat) : (c.setEntry t e x).instr m = c.instr m := rfl
@[simp] theorem Chan.setEntry_ctx (c : Chan) (t e : Nat) (x : MEntry) (m : Nat) : (c.setEntry t e x).ctx m = c.ctx m := rfl
@[simp] theorem Chan.setEntry_progOf (c : Chan) (t e : Nat) (x : MEntry) (m : Nat) : (c.setEntry t e x).prog? m = c.prog? m := rfl
@[simp] theorem Chan.setEntry_rdWord (c : Chan) (t e : Nat) (x : MEntry) (m : Nat) : (c.setEntry t e x).rdWord m = c.rdWord m := rfl
@[simp] theorem Chan.setEntry_arrived (c : Chan) (t e : Nat) (x : MEntry) (y z : Nat) :
    (c.setEntry t e x).arrived y z = c.arrived y z := rfl

/-! ### dropEntry -/

@[simp] theorem Chan.dropEntry_idx (c : Chan) (t e : Nat) : (c.dropEntry t e).idx = c.idx := rfl
@[simp] theorem Chan.dropEntry_xclk (c : Chan) (t e : Nat) : (c.dropEntry t e).xclk = c.xclk := rfl
@[simp] theorem Chan.dropEntry_regs (c : Chan) (t e : Nat) : (c.dropEntry t e).regs = c.regs := rfl
@[simp] theorem Chan.dropEntry_prog (c : Chan) (t e : Nat) : (c.dropEntry t e).prog = c.prog := rfl
@[simp] theorem Chan.dropEntry_progClearing (c : Chan) (t e : Nat) : (c.dropEntry t e).progClearing = c.progClearing := rfl
@[simp] theorem Chan.dropEntry_mem (c : Chan) (t e : Nat) : (c.dropEntry t e).mem = c.mem := rfl
@[simp] theorem Chan.dropEntry_poison (c : Chan) (t e : Nat) : (c.dropEntry t e).poison = c.poison := rfl
@[simp] theorem Chan.dropEntry_cu (c : Chan) (t e : Nat) : (c.dropEntry t e).cu = c.cu := rfl
@[simp] theorem Chan.dropEntry_ms_tiles (c : Chan) (t e : Nat) : (c.dropEntry t e).ms.tiles = c.ms.tiles := rfl
@[simp] theorem Chan.dropEntry_ms_pool (c : Chan) (t e : Nat) : (c.dropEntry t e).ms.pool = c.ms.pool := rfl
@[simp] theorem Chan.dropEntry_ms_cutq (c : Chan) (t e : Nat) : (c.dropEntry t e).ms.cutq = c.ms.cutq := rfl
@[simp] theorem Chan.dropEntry_ms_cutTried (c : Chan) (t e : Nat) : (c.dropEntry t e).ms.cutTried = c.ms.cutTried := rfl
@[simp] theorem Chan.dropEntry_ms_births (c : Chan) (t e : Nat) : (c.dropEntry t e).ms.births = c.ms.births := rfl
@[simp] theorem Chan.dropEntry_ms_stallKills (c : Chan) (t e : Nat) : (c.dropEntry t e).ms.stallKills = c.ms.stallKills := rfl
@[simp] theorem Chan.dropEntry_ms_fullAt (c : Chan) (t e : Nat) : (c.dropEntry t e).ms.fullAt = c.ms.fullAt := rfl
@[simp] theorem Chan.dropEntry_ms_stall (c : Chan) (t e : Nat) : (c.dropEntry t e).ms.stall = c.ms.stall := rfl
@[simp] theorem Chan.dropEntry_ms_commitAt (c : Chan) (t e : Nat) : (c.dropEntry t e).ms.commitAt = c.ms.commitAt := rfl
@[simp] theorem Chan.dropEntry_ms_moved (c : Chan) (t e : Nat) : (c.dropEntry t e).ms.moved = c.ms.moved := rfl
@[simp] theorem Chan.dropEntry_duets (c : Chan) (t e : Nat) : (c.dropEntry t e).duets = c.duets := rfl
@[simp] theorem Chan.dropEntry_qu (c : Chan) (t e : Nat) : (c.dropEntry t e).qu = c.qu := rfl
@[simp] theorem Chan.dropEntry_fl (c : Chan) (t e : Nat) : (c.dropEntry t e).fl = c.fl := rfl
@[simp] theorem Chan.dropEntry_sp (c : Chan) (t e : Nat) : (c.dropEntry t e).sp = c.sp := rfl
@[simp] theorem Chan.dropEntry_locks (c : Chan) (t e : Nat) : (c.dropEntry t e).locks = c.locks := rfl
@[simp] theorem Chan.dropEntry_dm (c : Chan) (t e : Nat) : (c.dropEntry t e).dm = c.dm := rfl
@[simp] theorem Chan.dropEntry_net (c : Chan) (t e : Nat) : (c.dropEntry t e).net = c.net := rfl
@[simp] theorem Chan.dropEntry_ports (c : Chan) (t e : Nat) : (c.dropEntry t e).ports = c.ports := rfl
@[simp] theorem Chan.dropEntry_callers (c : Chan) (t e : Nat) : (c.dropEntry t e).callers = c.callers := rfl
@[simp] theorem Chan.dropEntry_ev (c : Chan) (t e : Nat) : (c.dropEntry t e).ev = c.ev := rfl
@[simp] theorem Chan.dropEntry_rings (c : Chan) (t e : Nat) : (c.dropEntry t e).rings = c.rings := rfl
@[simp] theorem Chan.dropEntry_crings (c : Chan) (t e : Nat) : (c.dropEntry t e).crings = c.crings := rfl
@[simp] theorem Chan.dropEntry_copies (c : Chan) (t e : Nat) : (c.dropEntry t e).copies = c.copies := rfl
@[simp] theorem Chan.dropEntry_copyRr (c : Chan) (t e : Nat) : (c.dropEntry t e).copyRr = c.copyRr := rfl
@[simp] theorem Chan.dropEntry_hw (c : Chan) (t e : Nat) : (c.dropEntry t e).hw = c.hw := rfl
@[simp] theorem Chan.dropEntry_pw (c : Chan) (t e : Nat) : (c.dropEntry t e).pw = c.pw := rfl
@[simp] theorem Chan.dropEntry_msix (c : Chan) (t e : Nat) : (c.dropEntry t e).msix = c.msix := rfl
@[simp] theorem Chan.dropEntry_readData (c : Chan) (t e : Nat) : (c.dropEntry t e).readData = c.readData := rfl
@[simp] theorem Chan.dropEntry_out (c : Chan) (t e : Nat) : (c.dropEntry t e).out = c.out := rfl
@[simp] theorem Chan.dropEntry_excq (c : Chan) (t e : Nat) : (c.dropEntry t e).excq = c.excq := rfl
@[simp] theorem Chan.dropEntry_late (c : Chan) (t e : Nat) : (c.dropEntry t e).late = c.late := rfl
@[simp] theorem Chan.dropEntry_done (c : Chan) (t e : Nat) : (c.dropEntry t e).done = c.done := rfl
@[simp] theorem Chan.dropEntry_devEv (c : Chan) (t e : Nat) : (c.dropEntry t e).devEv = c.devEv := rfl
@[simp] theorem Chan.dropEntry_notes (c : Chan) (t e : Nat) : (c.dropEntry t e).notes = c.notes := rfl
@[simp] theorem Chan.dropEntry_rd (c : Chan) (t e : Nat) (o : Nat) : (c.dropEntry t e).rd o = c.rd o := rfl
@[simp] theorem Chan.dropEntry_fld (c : Chan) (t e : Nat) (g : Fd) : (c.dropEntry t e).fld g = c.fld g := rfl
@[simp] theorem Chan.dropEntry_flag (c : Chan) (t e : Nat) (g : Fd) : (c.dropEntry t e).flag g = c.flag g := rfl
@[simp] theorem Chan.dropEntry_caller (c : Chan) (t e : Nat) (m : Nat) : (c.dropEntry t e).caller m = c.caller m := rfl
@[simp] theorem Chan.dropEntry_duet (c : Chan) (t e : Nat) (m : Nat) : (c.dropEntry t e).duet m = c.duet m := rfl
@[simp] theorem Chan.dropEntry_tile (c : Chan) (t e : Nat) (m : Nat) : (c.dropEntry t e).tile m = c.tile m := rfl
@[simp] theorem Chan.dropEntry_port (c : Chan) (t e : Nat) (m : Nat) : (c.dropEntry t e).port m = c.port m := rfl
@[simp] theorem Chan.dropEntry_ring (c : Chan) (t e : Nat) (m : Nat) : (c.dropEntry t e).ring m = c.ring m := rfl
@[simp] theorem Chan.dropEntry_cring (c : Chan) (t e : Nat) (m : Nat) : (c.dropEntry t e).cring m = c.cring m := rfl
@[simp] theorem Chan.dropEntry_loop (c : Chan) (t e : Nat) (m : Nat) : (c.dropEntry t e).loop m = c.loop m := rfl
@[simp] theorem Chan.dropEntry_ord (c : Chan) (t e : Nat) (m : Nat) : (c.dropEntry t e).ord m = c.ord m := rfl
@[simp] theorem Chan.dropEntry_solo (c : Chan) (t e : Nat) (m : Nat) : (c.dropEntry t e).solo m = c.solo m := rfl
@[simp] theorem Chan.dropEntry_lock (c : Chan) (t e : Nat) (m : Nat) : (c.dropEntry t e).lock m = c.lock m := rfl
@[simp] theorem Chan.dropEntry_dom (c : Chan) (t e : Nat) (m : Nat) : (c.dropEntry t e).dom m = c.dom m := rfl
@[simp] theorem Chan.dropEntry_qptr (c : Chan) (t e : Nat) (m : Nat) : (c.dropEntry t e).qptr m = c.qptr m := rfl
@[simp] theorem Chan.dropEntry_qWord (c : Chan) (t e : Nat) (m : Nat) : (c.dropEntry t e).qWord m = c.qWord m := rfl
@[simp] theorem Chan.dropEntry_instr (c : Chan) (t e : Nat) (m : Nat) : (c.dropEntry t e).instr m = c.instr m := rfl
@[simp] theorem Chan.dropEntry_ctx (c : Chan) (t e : Nat) (m : Nat) : (c.dropEntry t e).ctx m = c.ctx m := rfl
@[simp] theorem Chan.dropEntry_progOf (c : Chan) (t e : Nat) (m : Nat) : (c.dropEntry t e).prog? m = c.prog? m := rfl
@[simp] theorem Chan.dropEntry_rdWord (c : Chan) (t e : Nat) (m : Nat) : (c.dropEntry t e).rdWord m = c.rdWord m := rfl
@[simp] theorem Chan.dropEntry_arrived (c : Chan) (t e : Nat) (y z : Nat) : (c.dropEntry t e).arrived y z = c.arrived y z := rfl

/-! ### setInstr -/

@[simp] theorem Chan.setInstr_idx (c : Chan) (ip : Nat) (w : Word) : (c.setInstr ip w).idx = c.idx := rfl
@[simp] theorem Chan.setInstr_xclk (c : Chan) (ip : Nat) (w : Word) : (c.setInstr ip w).xclk = c.xclk := rfl
@[simp] theorem Chan.setInstr_regs (c : Chan) (ip : Nat) (w : Word) : (c.setInstr ip w).regs = c.regs := rfl
@[simp] theorem Chan.setInstr_progClearing (c : Chan) (ip : Nat) (w : Word) : (c.setInstr ip w).progClearing = c.progClearing := rfl
@[simp] theorem Chan.setInstr_mem (c : Chan) (ip : Nat) (w : Word) : (c.setInstr ip w).mem = c.mem := rfl
@[simp] theorem Chan.setInstr_poison (c : Chan) (ip : Nat) (w : Word) : (c.setInstr ip w).poison = c.poison := rfl
@[simp] theorem Chan.setInstr_cu (c : Chan) (ip : Nat) (w : Word) : (c.setInstr ip w).cu = c.cu := rfl
@[simp] theorem Chan.setInstr_ms (c : Chan) (ip : Nat) (w : Word) : (c.setInstr ip w).ms = c.ms := rfl
@[simp] theorem Chan.setInstr_duets (c : Chan) (ip : Nat) (w : Word) : (c.setInstr ip w).duets = c.duets := rfl
@[simp] theorem Chan.setInstr_qu (c : Chan) (ip : Nat) (w : Word) : (c.setInstr ip w).qu = c.qu := rfl
@[simp] theorem Chan.setInstr_fl (c : Chan) (ip : Nat) (w : Word) : (c.setInstr ip w).fl = c.fl := rfl
@[simp] theorem Chan.setInstr_sp (c : Chan) (ip : Nat) (w : Word) : (c.setInstr ip w).sp = c.sp := rfl
@[simp] theorem Chan.setInstr_locks (c : Chan) (ip : Nat) (w : Word) : (c.setInstr ip w).locks = c.locks := rfl
@[simp] theorem Chan.setInstr_dm (c : Chan) (ip : Nat) (w : Word) : (c.setInstr ip w).dm = c.dm := rfl
@[simp] theorem Chan.setInstr_net (c : Chan) (ip : Nat) (w : Word) : (c.setInstr ip w).net = c.net := rfl
@[simp] theorem Chan.setInstr_ports (c : Chan) (ip : Nat) (w : Word) : (c.setInstr ip w).ports = c.ports := rfl
@[simp] theorem Chan.setInstr_callers (c : Chan) (ip : Nat) (w : Word) : (c.setInstr ip w).callers = c.callers := rfl
@[simp] theorem Chan.setInstr_ev (c : Chan) (ip : Nat) (w : Word) : (c.setInstr ip w).ev = c.ev := rfl
@[simp] theorem Chan.setInstr_rings (c : Chan) (ip : Nat) (w : Word) : (c.setInstr ip w).rings = c.rings := rfl
@[simp] theorem Chan.setInstr_crings (c : Chan) (ip : Nat) (w : Word) : (c.setInstr ip w).crings = c.crings := rfl
@[simp] theorem Chan.setInstr_copies (c : Chan) (ip : Nat) (w : Word) : (c.setInstr ip w).copies = c.copies := rfl
@[simp] theorem Chan.setInstr_copyRr (c : Chan) (ip : Nat) (w : Word) : (c.setInstr ip w).copyRr = c.copyRr := rfl
@[simp] theorem Chan.setInstr_hw (c : Chan) (ip : Nat) (w : Word) : (c.setInstr ip w).hw = c.hw := rfl
@[simp] theorem Chan.setInstr_pw (c : Chan) (ip : Nat) (w : Word) : (c.setInstr ip w).pw = c.pw := rfl
@[simp] theorem Chan.setInstr_msix (c : Chan) (ip : Nat) (w : Word) : (c.setInstr ip w).msix = c.msix := rfl
@[simp] theorem Chan.setInstr_readData (c : Chan) (ip : Nat) (w : Word) : (c.setInstr ip w).readData = c.readData := rfl
@[simp] theorem Chan.setInstr_out (c : Chan) (ip : Nat) (w : Word) : (c.setInstr ip w).out = c.out := rfl
@[simp] theorem Chan.setInstr_excq (c : Chan) (ip : Nat) (w : Word) : (c.setInstr ip w).excq = c.excq := rfl
@[simp] theorem Chan.setInstr_late (c : Chan) (ip : Nat) (w : Word) : (c.setInstr ip w).late = c.late := rfl
@[simp] theorem Chan.setInstr_done (c : Chan) (ip : Nat) (w : Word) : (c.setInstr ip w).done = c.done := rfl
@[simp] theorem Chan.setInstr_devEv (c : Chan) (ip : Nat) (w : Word) : (c.setInstr ip w).devEv = c.devEv := rfl
@[simp] theorem Chan.setInstr_notes (c : Chan) (ip : Nat) (w : Word) : (c.setInstr ip w).notes = c.notes := rfl
@[simp] theorem Chan.setInstr_rd (c : Chan) (ip : Nat) (w : Word) (o : Nat) : (c.setInstr ip w).rd o = c.rd o := rfl
@[simp] theorem Chan.setInstr_fld (c : Chan) (ip : Nat) (w : Word) (g : Fd) : (c.setInstr ip w).fld g = c.fld g := rfl
@[simp] theorem Chan.setInstr_flag (c : Chan) (ip : Nat) (w : Word) (g : Fd) : (c.setInstr ip w).flag g = c.flag g := rfl
@[simp] theorem Chan.setInstr_caller (c : Chan) (ip : Nat) (w : Word) (m : Nat) : (c.setInstr ip w).caller m = c.caller m := rfl
@[simp] theorem Chan.setInstr_duet (c : Chan) (ip : Nat) (w : Word) (m : Nat) : (c.setInstr ip w).duet m = c.duet m := rfl
@[simp] theorem Chan.setInstr_tile (c : Chan) (ip : Nat) (w : Word) (m : Nat) : (c.setInstr ip w).tile m = c.tile m := rfl
@[simp] theorem Chan.setInstr_port (c : Chan) (ip : Nat) (w : Word) (m : Nat) : (c.setInstr ip w).port m = c.port m := rfl
@[simp] theorem Chan.setInstr_ring (c : Chan) (ip : Nat) (w : Word) (m : Nat) : (c.setInstr ip w).ring m = c.ring m := rfl
@[simp] theorem Chan.setInstr_cring (c : Chan) (ip : Nat) (w : Word) (m : Nat) : (c.setInstr ip w).cring m = c.cring m := rfl
@[simp] theorem Chan.setInstr_loop (c : Chan) (ip : Nat) (w : Word) (m : Nat) : (c.setInstr ip w).loop m = c.loop m := rfl
@[simp] theorem Chan.setInstr_ord (c : Chan) (ip : Nat) (w : Word) (m : Nat) : (c.setInstr ip w).ord m = c.ord m := rfl
@[simp] theorem Chan.setInstr_solo (c : Chan) (ip : Nat) (w : Word) (m : Nat) : (c.setInstr ip w).solo m = c.solo m := rfl
@[simp] theorem Chan.setInstr_lock (c : Chan) (ip : Nat) (w : Word) (m : Nat) : (c.setInstr ip w).lock m = c.lock m := rfl
@[simp] theorem Chan.setInstr_dom (c : Chan) (ip : Nat) (w : Word) (m : Nat) : (c.setInstr ip w).dom m = c.dom m := rfl
@[simp] theorem Chan.setInstr_qptr (c : Chan) (ip : Nat) (w : Word) (m : Nat) : (c.setInstr ip w).qptr m = c.qptr m := rfl
@[simp] theorem Chan.setInstr_qWord (c : Chan) (ip : Nat) (w : Word) (m : Nat) : (c.setInstr ip w).qWord m = c.qWord m := rfl
@[simp] theorem Chan.setInstr_entry (c : Chan) (ip : Nat) (w : Word) (y z : Nat) : (c.setInstr ip w).entry y z = c.entry y z := rfl
@[simp] theorem Chan.setInstr_ctx (c : Chan) (ip : Nat) (w : Word) (m : Nat) : (c.setInstr ip w).ctx m = c.ctx m := rfl
@[simp] theorem Chan.setInstr_progOf (c : Chan) (ip : Nat) (w : Word) (m : Nat) : (c.setInstr ip w).prog? m = c.prog? m := rfl
@[simp] theorem Chan.setInstr_rdWord (c : Chan) (ip : Nat) (w : Word) (m : Nat) : (c.setInstr ip w).rdWord m = c.rdWord m := rfl
@[simp] theorem Chan.setInstr_arrived (c : Chan) (ip : Nat) (w : Word) (y z : Nat) : (c.setInstr ip w).arrived y z = c.arrived y z := rfl

/-! ### setCtx -/

@[simp] theorem Chan.setCtx_idx (c : Chan) (id : Nat) (x : Ctx) : (c.setCtx id x).idx = c.idx := rfl
@[simp] theorem Chan.setCtx_xclk (c : Chan) (id : Nat) (x : Ctx) : (c.setCtx id x).xclk = c.xclk := rfl
@[simp] theorem Chan.setCtx_regs (c : Chan) (id : Nat) (x : Ctx) : (c.setCtx id x).regs = c.regs := rfl
@[simp] theorem Chan.setCtx_prog (c : Chan) (id : Nat) (x : Ctx) : (c.setCtx id x).prog = c.prog := rfl
@[simp] theorem Chan.setCtx_progClearing (c : Chan) (id : Nat) (x : Ctx) : (c.setCtx id x).progClearing = c.progClearing := rfl
@[simp] theorem Chan.setCtx_mem (c : Chan) (id : Nat) (x : Ctx) : (c.setCtx id x).mem = c.mem := rfl
@[simp] theorem Chan.setCtx_poison (c : Chan) (id : Nat) (x : Ctx) : (c.setCtx id x).poison = c.poison := rfl
@[simp] theorem Chan.setCtx_cu_cached (c : Chan) (id : Nat) (x : Ctx) : (c.setCtx id x).cu.cached = c.cu.cached := rfl
@[simp] theorem Chan.setCtx_cu_freeFront (c : Chan) (id : Nat) (x : Ctx) : (c.setCtx id x).cu.freeFront = c.cu.freeFront := rfl
@[simp] theorem Chan.setCtx_cu_freeNext (c : Chan) (id : Nat) (x : Ctx) : (c.setCtx id x).cu.freeNext = c.cu.freeNext := rfl
@[simp] theorem Chan.setCtx_cu_freeEnd (c : Chan) (id : Nat) (x : Ctx) : (c.setCtx id x).cu.freeEnd = c.cu.freeEnd := rfl
@[simp] theorem Chan.setCtx_cu_freed (c : Chan) (id : Nat) (x : Ctx) : (c.setCtx id x).cu.freed = c.cu.freed := rfl
@[simp] theorem Chan.setCtx_cu_lost (c : Chan) (id : Nat) (x : Ctx) : (c.setCtx id x).cu.lost = c.cu.lost := rfl
@[simp] theorem Chan.setCtx_cu_freeHead (c : Chan) (id : Nat) (x : Ctx) : (c.setCtx id x).cu.freeHead = c.cu.freeHead := rfl
@[simp] theorem Chan.setCtx_cu_ends (c : Chan) (id : Nat) (x : Ctx) : (c.setCtx id x).cu.ends = c.cu.ends := rfl
@[simp] theorem Chan.setCtx_cu_seqNext (c : Chan) (id : Nat) (x : Ctx) : (c.setCtx id x).cu.seqNext = c.cu.seqNext := rfl
@[simp] theorem Chan.setCtx_cu_building (c : Chan) (id : Nat) (x : Ctx) : (c.setCtx id x).cu.building = c.cu.building := rfl
@[simp] theorem Chan.setCtx_cu_starting (c : Chan) (id : Nat) (x : Ctx) : (c.setCtx id x).cu.starting = c.cu.starting := rfl
@[simp] theorem Chan.setCtx_cu_flushing (c : Chan) (id : Nat) (x : Ctx) : (c.setCtx id x).cu.flushing = c.cu.flushing := rfl
@[simp] theorem Chan.setCtx_cu_sweep (c : Chan) (id : Nat) (x : Ctx) : (c.setCtx id x).cu.sweep = c.cu.sweep := rfl
@[simp] theorem Chan.setCtx_cu_loops (c : Chan) (id : Nat) (x : Ctx) : (c.setCtx id x).cu.loops = c.cu.loops := rfl
@[simp] theorem Chan.setCtx_cu_rr (c : Chan) (id : Nat) (x : Ctx) : (c.setCtx id x).cu.rr = c.cu.rr := rfl
@[simp] theorem Chan.setCtx_cu_granted (c : Chan) (id : Nat) (x : Ctx) : (c.setCtx id x).cu.granted = c.cu.granted := rfl
@[simp] theorem Chan.setCtx_ms (c : Chan) (id : Nat) (x : Ctx) : (c.setCtx id x).ms = c.ms := rfl
@[simp] theorem Chan.setCtx_duets (c : Chan) (id : Nat) (x : Ctx) : (c.setCtx id x).duets = c.duets := rfl
@[simp] theorem Chan.setCtx_qu (c : Chan) (id : Nat) (x : Ctx) : (c.setCtx id x).qu = c.qu := rfl
@[simp] theorem Chan.setCtx_fl (c : Chan) (id : Nat) (x : Ctx) : (c.setCtx id x).fl = c.fl := rfl
@[simp] theorem Chan.setCtx_sp (c : Chan) (id : Nat) (x : Ctx) : (c.setCtx id x).sp = c.sp := rfl
@[simp] theorem Chan.setCtx_locks (c : Chan) (id : Nat) (x : Ctx) : (c.setCtx id x).locks = c.locks := rfl
@[simp] theorem Chan.setCtx_dm (c : Chan) (id : Nat) (x : Ctx) : (c.setCtx id x).dm = c.dm := rfl
@[simp] theorem Chan.setCtx_net (c : Chan) (id : Nat) (x : Ctx) : (c.setCtx id x).net = c.net := rfl
@[simp] theorem Chan.setCtx_ports (c : Chan) (id : Nat) (x : Ctx) : (c.setCtx id x).ports = c.ports := rfl
@[simp] theorem Chan.setCtx_callers (c : Chan) (id : Nat) (x : Ctx) : (c.setCtx id x).callers = c.callers := rfl
@[simp] theorem Chan.setCtx_ev (c : Chan) (id : Nat) (x : Ctx) : (c.setCtx id x).ev = c.ev := rfl
@[simp] theorem Chan.setCtx_rings (c : Chan) (id : Nat) (x : Ctx) : (c.setCtx id x).rings = c.rings := rfl
@[simp] theorem Chan.setCtx_crings (c : Chan) (id : Nat) (x : Ctx) : (c.setCtx id x).crings = c.crings := rfl
@[simp] theorem Chan.setCtx_copies (c : Chan) (id : Nat) (x : Ctx) : (c.setCtx id x).copies = c.copies := rfl
@[simp] theorem Chan.setCtx_copyRr (c : Chan) (id : Nat) (x : Ctx) : (c.setCtx id x).copyRr = c.copyRr := rfl
@[simp] theorem Chan.setCtx_hw (c : Chan) (id : Nat) (x : Ctx) : (c.setCtx id x).hw = c.hw := rfl
@[simp] theorem Chan.setCtx_pw (c : Chan) (id : Nat) (x : Ctx) : (c.setCtx id x).pw = c.pw := rfl
@[simp] theorem Chan.setCtx_msix (c : Chan) (id : Nat) (x : Ctx) : (c.setCtx id x).msix = c.msix := rfl
@[simp] theorem Chan.setCtx_readData (c : Chan) (id : Nat) (x : Ctx) : (c.setCtx id x).readData = c.readData := rfl
@[simp] theorem Chan.setCtx_out (c : Chan) (id : Nat) (x : Ctx) : (c.setCtx id x).out = c.out := rfl
@[simp] theorem Chan.setCtx_excq (c : Chan) (id : Nat) (x : Ctx) : (c.setCtx id x).excq = c.excq := rfl
@[simp] theorem Chan.setCtx_late (c : Chan) (id : Nat) (x : Ctx) : (c.setCtx id x).late = c.late := rfl
@[simp] theorem Chan.setCtx_done (c : Chan) (id : Nat) (x : Ctx) : (c.setCtx id x).done = c.done := rfl
@[simp] theorem Chan.setCtx_devEv (c : Chan) (id : Nat) (x : Ctx) : (c.setCtx id x).devEv = c.devEv := rfl
@[simp] theorem Chan.setCtx_notes (c : Chan) (id : Nat) (x : Ctx) : (c.setCtx id x).notes = c.notes := rfl
@[simp] theorem Chan.setCtx_rd (c : Chan) (id : Nat) (x : Ctx) (o : Nat) : (c.setCtx id x).rd o = c.rd o := rfl
@[simp] theorem Chan.setCtx_fld (c : Chan) (id : Nat) (x : Ctx) (g : Fd) : (c.setCtx id x).fld g = c.fld g := rfl
@[simp] theorem Chan.setCtx_flag (c : Chan) (id : Nat) (x : Ctx) (g : Fd) : (c.setCtx id x).flag g = c.flag g := rfl
@[simp] theorem Chan.setCtx_caller (c : Chan) (id : Nat) (x : Ctx) (m : Nat) : (c.setCtx id x).caller m = c.caller m := rfl
@[simp] theorem Chan.setCtx_duet (c : Chan) (id : Nat) (x : Ctx) (m : Nat) : (c.setCtx id x).duet m = c.duet m := rfl
@[simp] theorem Chan.setCtx_tile (c : Chan) (id : Nat) (x : Ctx) (m : Nat) : (c.setCtx id x).tile m = c.tile m := rfl
@[simp] theorem Chan.setCtx_port (c : Chan) (id : Nat) (x : Ctx) (m : Nat) : (c.setCtx id x).port m = c.port m := rfl
@[simp] theorem Chan.setCtx_ring (c : Chan) (id : Nat) (x : Ctx) (m : Nat) : (c.setCtx id x).ring m = c.ring m := rfl
@[simp] theorem Chan.setCtx_cring (c : Chan) (id : Nat) (x : Ctx) (m : Nat) : (c.setCtx id x).cring m = c.cring m := rfl
@[simp] theorem Chan.setCtx_loop (c : Chan) (id : Nat) (x : Ctx) (m : Nat) : (c.setCtx id x).loop m = c.loop m := rfl
@[simp] theorem Chan.setCtx_ord (c : Chan) (id : Nat) (x : Ctx) (m : Nat) : (c.setCtx id x).ord m = c.ord m := rfl
@[simp] theorem Chan.setCtx_solo (c : Chan) (id : Nat) (x : Ctx) (m : Nat) : (c.setCtx id x).solo m = c.solo m := rfl
@[simp] theorem Chan.setCtx_lock (c : Chan) (id : Nat) (x : Ctx) (m : Nat) : (c.setCtx id x).lock m = c.lock m := rfl
@[simp] theorem Chan.setCtx_dom (c : Chan) (id : Nat) (x : Ctx) (m : Nat) : (c.setCtx id x).dom m = c.dom m := rfl
@[simp] theorem Chan.setCtx_qptr (c : Chan) (id : Nat) (x : Ctx) (m : Nat) : (c.setCtx id x).qptr m = c.qptr m := rfl
@[simp] theorem Chan.setCtx_qWord (c : Chan) (id : Nat) (x : Ctx) (m : Nat) : (c.setCtx id x).qWord m = c.qWord m := rfl
@[simp] theorem Chan.setCtx_entry (c : Chan) (id : Nat) (x : Ctx) (y z : Nat) : (c.setCtx id x).entry y z = c.entry y z := rfl
@[simp] theorem Chan.setCtx_instr (c : Chan) (id : Nat) (x : Ctx) (m : Nat) : (c.setCtx id x).instr m = c.instr m := rfl
@[simp] theorem Chan.setCtx_progOf (c : Chan) (id : Nat) (x : Ctx) (m : Nat) : (c.setCtx id x).prog? m = c.prog? m := rfl
@[simp] theorem Chan.setCtx_rdWord (c : Chan) (id : Nat) (x : Ctx) (m : Nat) : (c.setCtx id x).rdWord m = c.rdWord m := rfl
@[simp] theorem Chan.setCtx_arrived (c : Chan) (id : Nat) (x : Ctx) (y z : Nat) : (c.setCtx id x).arrived y z = c.arrived y z := rfl
theorem Chan.setCtx_ctx (c : Chan) (id : Nat) (x : Ctx) (m : Nat) :
    (c.setCtx id x).ctx m = if m = id then x else c.ctx m := tblGet_put _ _ _ _ _
@[simp] theorem Chan.setCtx_ctx_same (c : Chan) (id : Nat) (x : Ctx) : (c.setCtx id x).ctx id = x := tblGet_put_same _ _ _ _

/-! ### setProg -/

@[simp] theorem Chan.setProg_idx (c : Chan) (d : Nat) (x : Prog) : (c.setProg d x).idx = c.idx := rfl
@[simp] theorem Chan.setProg_xclk (c : Chan) (d : Nat) (x : Prog) : (c.setProg d x).xclk = c.xclk := rfl
@[simp] theorem Chan.setProg_regs (c : Chan) (d : Nat) (x : Prog) : (c.setProg d x).regs = c.regs := rfl
@[simp] theorem Chan.setProg_prog (c : Chan) (d : Nat) (x : Prog) : (c.setProg d x).prog = c.prog := rfl
@[simp] theorem Chan.setProg_progClearing (c : Chan) (d : Nat) (x : Prog) : (c.setProg d x).progClearing = c.progClearing := rfl
@[simp] theorem Chan.setProg_mem (c : Chan) (d : Nat) (x : Prog) : (c.setProg d x).mem = c.mem := rfl
@[simp] theorem Chan.setProg_poison (c : Chan) (d : Nat) (x : Prog) : (c.setProg d x).poison = c.poison := rfl
@[simp] theorem Chan.setProg_cu (c : Chan) (d : Nat) (x : Prog) : (c.setProg d x).cu = c.cu := rfl
@[simp] theorem Chan.setProg_ms (c : Chan) (d : Nat) (x : Prog) : (c.setProg d x).ms = c.ms := rfl
@[simp] theorem Chan.setProg_duets (c : Chan) (d : Nat) (x : Prog) : (c.setProg d x).duets = c.duets := rfl
@[simp] theorem Chan.setProg_qu (c : Chan) (d : Nat) (x : Prog) : (c.setProg d x).qu = c.qu := rfl
@[simp] theorem Chan.setProg_fl (c : Chan) (d : Nat) (x : Prog) : (c.setProg d x).fl = c.fl := rfl
@[simp] theorem Chan.setProg_sp (c : Chan) (d : Nat) (x : Prog) : (c.setProg d x).sp = c.sp := rfl
@[simp] theorem Chan.setProg_locks (c : Chan) (d : Nat) (x : Prog) : (c.setProg d x).locks = c.locks := rfl
@[simp] theorem Chan.setProg_dm (c : Chan) (d : Nat) (x : Prog) : (c.setProg d x).dm = c.dm := rfl
@[simp] theorem Chan.setProg_net (c : Chan) (d : Nat) (x : Prog) : (c.setProg d x).net = c.net := rfl
@[simp] theorem Chan.setProg_ports (c : Chan) (d : Nat) (x : Prog) : (c.setProg d x).ports = c.ports := rfl
@[simp] theorem Chan.setProg_callers (c : Chan) (d : Nat) (x : Prog) : (c.setProg d x).callers = c.callers := rfl
@[simp] theorem Chan.setProg_ev (c : Chan) (d : Nat) (x : Prog) : (c.setProg d x).ev = c.ev := rfl
@[simp] theorem Chan.setProg_rings (c : Chan) (d : Nat) (x : Prog) : (c.setProg d x).rings = c.rings := rfl
@[simp] theorem Chan.setProg_crings (c : Chan) (d : Nat) (x : Prog) : (c.setProg d x).crings = c.crings := rfl
@[simp] theorem Chan.setProg_copies (c : Chan) (d : Nat) (x : Prog) : (c.setProg d x).copies = c.copies := rfl
@[simp] theorem Chan.setProg_copyRr (c : Chan) (d : Nat) (x : Prog) : (c.setProg d x).copyRr = c.copyRr := rfl
@[simp] theorem Chan.setProg_hw (c : Chan) (d : Nat) (x : Prog) : (c.setProg d x).hw = c.hw := rfl
@[simp] theorem Chan.setProg_pw_cst (c : Chan) (d : Nat) (x : Prog) : (c.setProg d x).pw.cst = c.pw.cst := rfl
@[simp] theorem Chan.setProg_pw_ready (c : Chan) (d : Nat) (x : Prog) : (c.setProg d x).pw.ready = c.pw.ready := rfl
@[simp] theorem Chan.setProg_pw_seton (c : Chan) (d : Nat) (x : Prog) : (c.setProg d x).pw.seton = c.pw.seton := rfl
@[simp] theorem Chan.setProg_pw_abandon (c : Chan) (d : Nat) (x : Prog) : (c.setProg d x).pw.abandon = c.pw.abandon := rfl
@[simp] theorem Chan.setProg_pw_drainto (c : Chan) (d : Nat) (x : Prog) : (c.setProg d x).pw.drainto = c.pw.drainto := rfl
@[simp] theorem Chan.setProg_pw_doms (c : Chan) (d : Nat) (x : Prog) : (c.setProg d x).pw.doms = c.pw.doms := rfl
@[simp] theorem Chan.setProg_pw_goal (c : Chan) (d : Nat) (x : Prog) : (c.setProg d x).pw.goal = c.pw.goal := rfl
@[simp] theorem Chan.setProg_pw_idleSince (c : Chan) (d : Nat) (x : Prog) : (c.setProg d x).pw.idleSince = c.pw.idleSince := rfl
@[simp] theorem Chan.setProg_pw_c1At (c : Chan) (d : Nat) (x : Prog) : (c.setProg d x).pw.c1At = c.pw.c1At := rfl
@[simp] theorem Chan.setProg_pw_c2At (c : Chan) (d : Nat) (x : Prog) : (c.setProg d x).pw.c2At = c.pw.c2At := rfl
@[simp] theorem Chan.setProg_pw_setIdle (c : Chan) (d : Nat) (x : Prog) : (c.setProg d x).pw.setIdle = c.pw.setIdle := rfl
@[simp] theorem Chan.setProg_pw_wake (c : Chan) (d : Nat) (x : Prog) : (c.setProg d x).pw.wake = c.pw.wake := rfl
@[simp] theorem Chan.setProg_pw_wakeDoms (c : Chan) (d : Nat) (x : Prog) : (c.setProg d x).pw.wakeDoms = c.pw.wakeDoms := rfl
@[simp] theorem Chan.setProg_pw_regAt (c : Chan) (d : Nat) (x : Prog) : (c.setProg d x).pw.regAt = c.pw.regAt := rfl
@[simp] theorem Chan.setProg_pw_held (c : Chan) (d : Nat) (x : Prog) : (c.setProg d x).pw.held = c.pw.held := rfl
@[simp] theorem Chan.setProg_pw_kicks (c : Chan) (d : Nat) (x : Prog) : (c.setProg d x).pw.kicks = c.pw.kicks := rfl
@[simp] theorem Chan.setProg_pw_tripped (c : Chan) (d : Nat) (x : Prog) : (c.setProg d x).pw.tripped = c.pw.tripped := rfl
@[simp] theorem Chan.setProg_pw_due (c : Chan) (d : Nat) (x : Prog) : (c.setProg d x).pw.due = c.pw.due := rfl
@[simp] theorem Chan.setProg_pw_mhz (c : Chan) (d : Nat) (x : Prog) : (c.setProg d x).pw.mhz = c.pw.mhz := rfl
@[simp] theorem Chan.setProg_pw_mv (c : Chan) (d : Nat) (x : Prog) : (c.setProg d x).pw.mv = c.pw.mv := rfl
@[simp] theorem Chan.setProg_pw_lastSwitch (c : Chan) (d : Nat) (x : Prog) : (c.setProg d x).pw.lastSwitch = c.pw.lastSwitch := rfl
@[simp] theorem Chan.setProg_pw_limited (c : Chan) (d : Nat) (x : Prog) : (c.setProg d x).pw.limited = c.pw.limited := rfl
@[simp] theorem Chan.setProg_pw_thermal (c : Chan) (d : Nat) (x : Prog) : (c.setProg d x).pw.thermal = c.pw.thermal := rfl
@[simp] theorem Chan.setProg_pw_cap (c : Chan) (d : Nat) (x : Prog) : (c.setProg d x).pw.cap = c.pw.cap := rfl
@[simp] theorem Chan.setProg_msix (c : Chan) (d : Nat) (x : Prog) : (c.setProg d x).msix = c.msix := rfl
@[simp] theorem Chan.setProg_readData (c : Chan) (d : Nat) (x : Prog) : (c.setProg d x).readData = c.readData := rfl
@[simp] theorem Chan.setProg_out (c : Chan) (d : Nat) (x : Prog) : (c.setProg d x).out = c.out := rfl
@[simp] theorem Chan.setProg_excq (c : Chan) (d : Nat) (x : Prog) : (c.setProg d x).excq = c.excq := rfl
@[simp] theorem Chan.setProg_late (c : Chan) (d : Nat) (x : Prog) : (c.setProg d x).late = c.late := rfl
@[simp] theorem Chan.setProg_done (c : Chan) (d : Nat) (x : Prog) : (c.setProg d x).done = c.done := rfl
@[simp] theorem Chan.setProg_devEv (c : Chan) (d : Nat) (x : Prog) : (c.setProg d x).devEv = c.devEv := rfl
@[simp] theorem Chan.setProg_notes (c : Chan) (d : Nat) (x : Prog) : (c.setProg d x).notes = c.notes := rfl
@[simp] theorem Chan.setProg_rd (c : Chan) (d : Nat) (x : Prog) (o : Nat) : (c.setProg d x).rd o = c.rd o := rfl
@[simp] theorem Chan.setProg_fld (c : Chan) (d : Nat) (x : Prog) (g : Fd) : (c.setProg d x).fld g = c.fld g := rfl
@[simp] theorem Chan.setProg_flag (c : Chan) (d : Nat) (x : Prog) (g : Fd) : (c.setProg d x).flag g = c.flag g := rfl
@[simp] theorem Chan.setProg_caller (c : Chan) (d : Nat) (x : Prog) (m : Nat) : (c.setProg d x).caller m = c.caller m := rfl
@[simp] theorem Chan.setProg_duet (c : Chan) (d : Nat) (x : Prog) (m : Nat) : (c.setProg d x).duet m = c.duet m := rfl
@[simp] theorem Chan.setProg_tile (c : Chan) (d : Nat) (x : Prog) (m : Nat) : (c.setProg d x).tile m = c.tile m := rfl
@[simp] theorem Chan.setProg_port (c : Chan) (d : Nat) (x : Prog) (m : Nat) : (c.setProg d x).port m = c.port m := rfl
@[simp] theorem Chan.setProg_ring (c : Chan) (d : Nat) (x : Prog) (m : Nat) : (c.setProg d x).ring m = c.ring m := rfl
@[simp] theorem Chan.setProg_cring (c : Chan) (d : Nat) (x : Prog) (m : Nat) : (c.setProg d x).cring m = c.cring m := rfl
@[simp] theorem Chan.setProg_loop (c : Chan) (d : Nat) (x : Prog) (m : Nat) : (c.setProg d x).loop m = c.loop m := rfl
@[simp] theorem Chan.setProg_ord (c : Chan) (d : Nat) (x : Prog) (m : Nat) : (c.setProg d x).ord m = c.ord m := rfl
@[simp] theorem Chan.setProg_solo (c : Chan) (d : Nat) (x : Prog) (m : Nat) : (c.setProg d x).solo m = c.solo m := rfl
@[simp] theorem Chan.setProg_lock (c : Chan) (d : Nat) (x : Prog) (m : Nat) : (c.setProg d x).lock m = c.lock m := rfl
@[simp] theorem Chan.setProg_dom (c : Chan) (d : Nat) (x : Prog) (m : Nat) : (c.setProg d x).dom m = c.dom m := rfl
@[simp] theorem Chan.setProg_qptr (c : Chan) (d : Nat) (x : Prog) (m : Nat) : (c.setProg d x).qptr m = c.qptr m := rfl
@[simp] theorem Chan.setProg_qWord (c : Chan) (d : Nat) (x : Prog) (m : Nat) : (c.setProg d x).qWord m = c.qWord m := rfl
@[simp] theorem Chan.setProg_entry (c : Chan) (d : Nat) (x : Prog) (y z : Nat) : (c.setProg d x).entry y z = c.entry y z := rfl
@[simp] theorem Chan.setProg_instr (c : Chan) (d : Nat) (x : Prog) (m : Nat) : (c.setProg d x).instr m = c.instr m := rfl
@[simp] theorem Chan.setProg_ctx (c : Chan) (d : Nat) (x : Prog) (m : Nat) : (c.setProg d x).ctx m = c.ctx m := rfl
@[simp] theorem Chan.setProg_rdWord (c : Chan) (d : Nat) (x : Prog) (m : Nat) : (c.setProg d x).rdWord m = c.rdWord m := rfl
@[simp] theorem Chan.setProg_arrived (c : Chan) (d : Nat) (x : Prog) (y z : Nat) : (c.setProg d x).arrived y z = c.arrived y z := rfl

/-! ### endProg -/

@[simp] theorem Chan.endProg_idx (c : Chan) (d : Nat) : (c.endProg d).idx = c.idx := rfl
@[simp] theorem Chan.endProg_xclk (c : Chan) (d : Nat) : (c.endProg d).xclk = c.xclk := rfl
@[simp] theorem Chan.endProg_regs (c : Chan) (d : Nat) : (c.endProg d).regs = c.regs := rfl
@[simp] theorem Chan.endProg_prog (c : Chan) (d : Nat) : (c.endProg d).prog = c.prog := rfl
@[simp] theorem Chan.endProg_progClearing (c : Chan) (d : Nat) : (c.endProg d).progClearing = c.progClearing := rfl
@[simp] theorem Chan.endProg_mem (c : Chan) (d : Nat) : (c.endProg d).mem = c.mem := rfl
@[simp] theorem Chan.endProg_poison (c : Chan) (d : Nat) : (c.endProg d).poison = c.poison := rfl
@[simp] theorem Chan.endProg_cu (c : Chan) (d : Nat) : (c.endProg d).cu = c.cu := rfl
@[simp] theorem Chan.endProg_ms (c : Chan) (d : Nat) : (c.endProg d).ms = c.ms := rfl
@[simp] theorem Chan.endProg_duets (c : Chan) (d : Nat) : (c.endProg d).duets = c.duets := rfl
@[simp] theorem Chan.endProg_qu (c : Chan) (d : Nat) : (c.endProg d).qu = c.qu := rfl
@[simp] theorem Chan.endProg_fl (c : Chan) (d : Nat) : (c.endProg d).fl = c.fl := rfl
@[simp] theorem Chan.endProg_sp (c : Chan) (d : Nat) : (c.endProg d).sp = c.sp := rfl
@[simp] theorem Chan.endProg_locks (c : Chan) (d : Nat) : (c.endProg d).locks = c.locks := rfl
@[simp] theorem Chan.endProg_dm (c : Chan) (d : Nat) : (c.endProg d).dm = c.dm := rfl
@[simp] theorem Chan.endProg_net (c : Chan) (d : Nat) : (c.endProg d).net = c.net := rfl
@[simp] theorem Chan.endProg_ports (c : Chan) (d : Nat) : (c.endProg d).ports = c.ports := rfl
@[simp] theorem Chan.endProg_callers (c : Chan) (d : Nat) : (c.endProg d).callers = c.callers := rfl
@[simp] theorem Chan.endProg_ev (c : Chan) (d : Nat) : (c.endProg d).ev = c.ev := rfl
@[simp] theorem Chan.endProg_rings (c : Chan) (d : Nat) : (c.endProg d).rings = c.rings := rfl
@[simp] theorem Chan.endProg_crings (c : Chan) (d : Nat) : (c.endProg d).crings = c.crings := rfl
@[simp] theorem Chan.endProg_copies (c : Chan) (d : Nat) : (c.endProg d).copies = c.copies := rfl
@[simp] theorem Chan.endProg_copyRr (c : Chan) (d : Nat) : (c.endProg d).copyRr = c.copyRr := rfl
@[simp] theorem Chan.endProg_hw (c : Chan) (d : Nat) : (c.endProg d).hw = c.hw := rfl
@[simp] theorem Chan.endProg_pw_cst (c : Chan) (d : Nat) : (c.endProg d).pw.cst = c.pw.cst := rfl
@[simp] theorem Chan.endProg_pw_ready (c : Chan) (d : Nat) : (c.endProg d).pw.ready = c.pw.ready := rfl
@[simp] theorem Chan.endProg_pw_seton (c : Chan) (d : Nat) : (c.endProg d).pw.seton = c.pw.seton := rfl
@[simp] theorem Chan.endProg_pw_abandon (c : Chan) (d : Nat) : (c.endProg d).pw.abandon = c.pw.abandon := rfl
@[simp] theorem Chan.endProg_pw_drainto (c : Chan) (d : Nat) : (c.endProg d).pw.drainto = c.pw.drainto := rfl
@[simp] theorem Chan.endProg_pw_doms (c : Chan) (d : Nat) : (c.endProg d).pw.doms = c.pw.doms := rfl
@[simp] theorem Chan.endProg_pw_goal (c : Chan) (d : Nat) : (c.endProg d).pw.goal = c.pw.goal := rfl
@[simp] theorem Chan.endProg_pw_idleSince (c : Chan) (d : Nat) : (c.endProg d).pw.idleSince = c.pw.idleSince := rfl
@[simp] theorem Chan.endProg_pw_c1At (c : Chan) (d : Nat) : (c.endProg d).pw.c1At = c.pw.c1At := rfl
@[simp] theorem Chan.endProg_pw_c2At (c : Chan) (d : Nat) : (c.endProg d).pw.c2At = c.pw.c2At := rfl
@[simp] theorem Chan.endProg_pw_setIdle (c : Chan) (d : Nat) : (c.endProg d).pw.setIdle = c.pw.setIdle := rfl
@[simp] theorem Chan.endProg_pw_wake (c : Chan) (d : Nat) : (c.endProg d).pw.wake = c.pw.wake := rfl
@[simp] theorem Chan.endProg_pw_wakeDoms (c : Chan) (d : Nat) : (c.endProg d).pw.wakeDoms = c.pw.wakeDoms := rfl
@[simp] theorem Chan.endProg_pw_regAt (c : Chan) (d : Nat) : (c.endProg d).pw.regAt = c.pw.regAt := rfl
@[simp] theorem Chan.endProg_pw_held (c : Chan) (d : Nat) : (c.endProg d).pw.held = c.pw.held := rfl
@[simp] theorem Chan.endProg_pw_kicks (c : Chan) (d : Nat) : (c.endProg d).pw.kicks = c.pw.kicks := rfl
@[simp] theorem Chan.endProg_pw_tripped (c : Chan) (d : Nat) : (c.endProg d).pw.tripped = c.pw.tripped := rfl
@[simp] theorem Chan.endProg_pw_due (c : Chan) (d : Nat) : (c.endProg d).pw.due = c.pw.due := rfl
@[simp] theorem Chan.endProg_pw_mhz (c : Chan) (d : Nat) : (c.endProg d).pw.mhz = c.pw.mhz := rfl
@[simp] theorem Chan.endProg_pw_mv (c : Chan) (d : Nat) : (c.endProg d).pw.mv = c.pw.mv := rfl
@[simp] theorem Chan.endProg_pw_lastSwitch (c : Chan) (d : Nat) : (c.endProg d).pw.lastSwitch = c.pw.lastSwitch := rfl
@[simp] theorem Chan.endProg_pw_limited (c : Chan) (d : Nat) : (c.endProg d).pw.limited = c.pw.limited := rfl
@[simp] theorem Chan.endProg_pw_thermal (c : Chan) (d : Nat) : (c.endProg d).pw.thermal = c.pw.thermal := rfl
@[simp] theorem Chan.endProg_pw_cap (c : Chan) (d : Nat) : (c.endProg d).pw.cap = c.pw.cap := rfl
@[simp] theorem Chan.endProg_msix (c : Chan) (d : Nat) : (c.endProg d).msix = c.msix := rfl
@[simp] theorem Chan.endProg_readData (c : Chan) (d : Nat) : (c.endProg d).readData = c.readData := rfl
@[simp] theorem Chan.endProg_out (c : Chan) (d : Nat) : (c.endProg d).out = c.out := rfl
@[simp] theorem Chan.endProg_excq (c : Chan) (d : Nat) : (c.endProg d).excq = c.excq := rfl
@[simp] theorem Chan.endProg_late (c : Chan) (d : Nat) : (c.endProg d).late = c.late := rfl
@[simp] theorem Chan.endProg_done (c : Chan) (d : Nat) : (c.endProg d).done = c.done := rfl
@[simp] theorem Chan.endProg_devEv (c : Chan) (d : Nat) : (c.endProg d).devEv = c.devEv := rfl
@[simp] theorem Chan.endProg_notes (c : Chan) (d : Nat) : (c.endProg d).notes = c.notes := rfl
@[simp] theorem Chan.endProg_rd (c : Chan) (d : Nat) (o : Nat) : (c.endProg d).rd o = c.rd o := rfl
@[simp] theorem Chan.endProg_fld (c : Chan) (d : Nat) (g : Fd) : (c.endProg d).fld g = c.fld g := rfl
@[simp] theorem Chan.endProg_flag (c : Chan) (d : Nat) (g : Fd) : (c.endProg d).flag g = c.flag g := rfl
@[simp] theorem Chan.endProg_caller (c : Chan) (d : Nat) (m : Nat) : (c.endProg d).caller m = c.caller m := rfl
@[simp] theorem Chan.endProg_duet (c : Chan) (d : Nat) (m : Nat) : (c.endProg d).duet m = c.duet m := rfl
@[simp] theorem Chan.endProg_tile (c : Chan) (d : Nat) (m : Nat) : (c.endProg d).tile m = c.tile m := rfl
@[simp] theorem Chan.endProg_port (c : Chan) (d : Nat) (m : Nat) : (c.endProg d).port m = c.port m := rfl
@[simp] theorem Chan.endProg_ring (c : Chan) (d : Nat) (m : Nat) : (c.endProg d).ring m = c.ring m := rfl
@[simp] theorem Chan.endProg_cring (c : Chan) (d : Nat) (m : Nat) : (c.endProg d).cring m = c.cring m := rfl
@[simp] theorem Chan.endProg_loop (c : Chan) (d : Nat) (m : Nat) : (c.endProg d).loop m = c.loop m := rfl
@[simp] theorem Chan.endProg_ord (c : Chan) (d : Nat) (m : Nat) : (c.endProg d).ord m = c.ord m := rfl
@[simp] theorem Chan.endProg_solo (c : Chan) (d : Nat) (m : Nat) : (c.endProg d).solo m = c.solo m := rfl
@[simp] theorem Chan.endProg_lock (c : Chan) (d : Nat) (m : Nat) : (c.endProg d).lock m = c.lock m := rfl
@[simp] theorem Chan.endProg_dom (c : Chan) (d : Nat) (m : Nat) : (c.endProg d).dom m = c.dom m := rfl
@[simp] theorem Chan.endProg_qptr (c : Chan) (d : Nat) (m : Nat) : (c.endProg d).qptr m = c.qptr m := rfl
@[simp] theorem Chan.endProg_qWord (c : Chan) (d : Nat) (m : Nat) : (c.endProg d).qWord m = c.qWord m := rfl
@[simp] theorem Chan.endProg_entry (c : Chan) (d : Nat) (y z : Nat) : (c.endProg d).entry y z = c.entry y z := rfl
@[simp] theorem Chan.endProg_instr (c : Chan) (d : Nat) (m : Nat) : (c.endProg d).instr m = c.instr m := rfl
@[simp] theorem Chan.endProg_ctx (c : Chan) (d : Nat) (m : Nat) : (c.endProg d).ctx m = c.ctx m := rfl
@[simp] theorem Chan.endProg_rdWord (c : Chan) (d : Nat) (m : Nat) : (c.endProg d).rdWord m = c.rdWord m := rfl
@[simp] theorem Chan.endProg_arrived (c : Chan) (d : Nat) (y z : Nat) : (c.endProg d).arrived y z = c.arrived y z := rfl

/-! ### setShuf -/

@[simp] theorem Chan.setShuf_idx (c : Chan) (a : Arr) (x : Shuf) : (c.setShuf a x).idx = c.idx := rfl
@[simp] theorem Chan.setShuf_xclk (c : Chan) (a : Arr) (x : Shuf) : (c.setShuf a x).xclk = c.xclk := rfl
@[simp] theorem Chan.setShuf_regs (c : Chan) (a : Arr) (x : Shuf) : (c.setShuf a x).regs = c.regs := rfl
@[simp] theorem Chan.setShuf_prog (c : Chan) (a : Arr) (x : Shuf) : (c.setShuf a x).prog = c.prog := rfl
@[simp] theorem Chan.setShuf_progClearing (c : Chan) (a : Arr) (x : Shuf) : (c.setShuf a x).progClearing = c.progClearing := rfl
@[simp] theorem Chan.setShuf_mem (c : Chan) (a : Arr) (x : Shuf) : (c.setShuf a x).mem = c.mem := rfl
@[simp] theorem Chan.setShuf_poison (c : Chan) (a : Arr) (x : Shuf) : (c.setShuf a x).poison = c.poison := rfl
@[simp] theorem Chan.setShuf_cu (c : Chan) (a : Arr) (x : Shuf) : (c.setShuf a x).cu = c.cu := rfl
@[simp] theorem Chan.setShuf_ms (c : Chan) (a : Arr) (x : Shuf) : (c.setShuf a x).ms = c.ms := rfl
@[simp] theorem Chan.setShuf_duets (c : Chan) (a : Arr) (x : Shuf) : (c.setShuf a x).duets = c.duets := rfl
@[simp] theorem Chan.setShuf_qu (c : Chan) (a : Arr) (x : Shuf) : (c.setShuf a x).qu = c.qu := rfl
@[simp] theorem Chan.setShuf_fl (c : Chan) (a : Arr) (x : Shuf) : (c.setShuf a x).fl = c.fl := rfl
@[simp] theorem Chan.setShuf_sp_clearing (c : Chan) (a : Arr) (x : Shuf) : (c.setShuf a x).sp.clearing = c.sp.clearing := rfl
@[simp] theorem Chan.setShuf_sp_splits (c : Chan) (a : Arr) (x : Shuf) : (c.setShuf a x).sp.splits = c.sp.splits := rfl
@[simp] theorem Chan.setShuf_sp_splitNext (c : Chan) (a : Arr) (x : Shuf) : (c.setShuf a x).sp.splitNext = c.sp.splitNext := rfl
@[simp] theorem Chan.setShuf_sp_waiting (c : Chan) (a : Arr) (x : Shuf) : (c.setShuf a x).sp.waiting = c.sp.waiting := rfl
@[simp] theorem Chan.setShuf_locks (c : Chan) (a : Arr) (x : Shuf) : (c.setShuf a x).locks = c.locks := rfl
@[simp] theorem Chan.setShuf_dm (c : Chan) (a : Arr) (x : Shuf) : (c.setShuf a x).dm = c.dm := rfl
@[simp] theorem Chan.setShuf_net (c : Chan) (a : Arr) (x : Shuf) : (c.setShuf a x).net = c.net := rfl
@[simp] theorem Chan.setShuf_ports (c : Chan) (a : Arr) (x : Shuf) : (c.setShuf a x).ports = c.ports := rfl
@[simp] theorem Chan.setShuf_callers (c : Chan) (a : Arr) (x : Shuf) : (c.setShuf a x).callers = c.callers := rfl
@[simp] theorem Chan.setShuf_ev (c : Chan) (a : Arr) (x : Shuf) : (c.setShuf a x).ev = c.ev := rfl
@[simp] theorem Chan.setShuf_rings (c : Chan) (a : Arr) (x : Shuf) : (c.setShuf a x).rings = c.rings := rfl
@[simp] theorem Chan.setShuf_crings (c : Chan) (a : Arr) (x : Shuf) : (c.setShuf a x).crings = c.crings := rfl
@[simp] theorem Chan.setShuf_copies (c : Chan) (a : Arr) (x : Shuf) : (c.setShuf a x).copies = c.copies := rfl
@[simp] theorem Chan.setShuf_copyRr (c : Chan) (a : Arr) (x : Shuf) : (c.setShuf a x).copyRr = c.copyRr := rfl
@[simp] theorem Chan.setShuf_hw (c : Chan) (a : Arr) (x : Shuf) : (c.setShuf a x).hw = c.hw := rfl
@[simp] theorem Chan.setShuf_pw (c : Chan) (a : Arr) (x : Shuf) : (c.setShuf a x).pw = c.pw := rfl
@[simp] theorem Chan.setShuf_msix (c : Chan) (a : Arr) (x : Shuf) : (c.setShuf a x).msix = c.msix := rfl
@[simp] theorem Chan.setShuf_readData (c : Chan) (a : Arr) (x : Shuf) : (c.setShuf a x).readData = c.readData := rfl
@[simp] theorem Chan.setShuf_out (c : Chan) (a : Arr) (x : Shuf) : (c.setShuf a x).out = c.out := rfl
@[simp] theorem Chan.setShuf_excq (c : Chan) (a : Arr) (x : Shuf) : (c.setShuf a x).excq = c.excq := rfl
@[simp] theorem Chan.setShuf_late (c : Chan) (a : Arr) (x : Shuf) : (c.setShuf a x).late = c.late := rfl
@[simp] theorem Chan.setShuf_done (c : Chan) (a : Arr) (x : Shuf) : (c.setShuf a x).done = c.done := rfl
@[simp] theorem Chan.setShuf_devEv (c : Chan) (a : Arr) (x : Shuf) : (c.setShuf a x).devEv = c.devEv := rfl
@[simp] theorem Chan.setShuf_notes (c : Chan) (a : Arr) (x : Shuf) : (c.setShuf a x).notes = c.notes := rfl
@[simp] theorem Chan.setShuf_rd (c : Chan) (a : Arr) (x : Shuf) (o : Nat) : (c.setShuf a x).rd o = c.rd o := rfl
@[simp] theorem Chan.setShuf_fld (c : Chan) (a : Arr) (x : Shuf) (g : Fd) : (c.setShuf a x).fld g = c.fld g := rfl
@[simp] theorem Chan.setShuf_flag (c : Chan) (a : Arr) (x : Shuf) (g : Fd) : (c.setShuf a x).flag g = c.flag g := rfl
@[simp] theorem Chan.setShuf_caller (c : Chan) (a : Arr) (x : Shuf) (m : Nat) : (c.setShuf a x).caller m = c.caller m := rfl
@[simp] theorem Chan.setShuf_duet (c : Chan) (a : Arr) (x : Shuf) (m : Nat) : (c.setShuf a x).duet m = c.duet m := rfl
@[simp] theorem Chan.setShuf_tile (c : Chan) (a : Arr) (x : Shuf) (m : Nat) : (c.setShuf a x).tile m = c.tile m := rfl
@[simp] theorem Chan.setShuf_port (c : Chan) (a : Arr) (x : Shuf) (m : Nat) : (c.setShuf a x).port m = c.port m := rfl
@[simp] theorem Chan.setShuf_ring (c : Chan) (a : Arr) (x : Shuf) (m : Nat) : (c.setShuf a x).ring m = c.ring m := rfl
@[simp] theorem Chan.setShuf_cring (c : Chan) (a : Arr) (x : Shuf) (m : Nat) : (c.setShuf a x).cring m = c.cring m := rfl
@[simp] theorem Chan.setShuf_loop (c : Chan) (a : Arr) (x : Shuf) (m : Nat) : (c.setShuf a x).loop m = c.loop m := rfl
@[simp] theorem Chan.setShuf_ord (c : Chan) (a : Arr) (x : Shuf) (m : Nat) : (c.setShuf a x).ord m = c.ord m := rfl
@[simp] theorem Chan.setShuf_solo (c : Chan) (a : Arr) (x : Shuf) (m : Nat) : (c.setShuf a x).solo m = c.solo m := rfl
@[simp] theorem Chan.setShuf_lock (c : Chan) (a : Arr) (x : Shuf) (m : Nat) : (c.setShuf a x).lock m = c.lock m := rfl
@[simp] theorem Chan.setShuf_dom (c : Chan) (a : Arr) (x : Shuf) (m : Nat) : (c.setShuf a x).dom m = c.dom m := rfl
@[simp] theorem Chan.setShuf_qptr (c : Chan) (a : Arr) (x : Shuf) (m : Nat) : (c.setShuf a x).qptr m = c.qptr m := rfl
@[simp] theorem Chan.setShuf_qWord (c : Chan) (a : Arr) (x : Shuf) (m : Nat) : (c.setShuf a x).qWord m = c.qWord m := rfl
@[simp] theorem Chan.setShuf_entry (c : Chan) (a : Arr) (x : Shuf) (y z : Nat) : (c.setShuf a x).entry y z = c.entry y z := rfl
@[simp] theorem Chan.setShuf_instr (c : Chan) (a : Arr) (x : Shuf) (m : Nat) : (c.setShuf a x).instr m = c.instr m := rfl
@[simp] theorem Chan.setShuf_ctx (c : Chan) (a : Arr) (x : Shuf) (m : Nat) : (c.setShuf a x).ctx m = c.ctx m := rfl
@[simp] theorem Chan.setShuf_progOf (c : Chan) (a : Arr) (x : Shuf) (m : Nat) : (c.setShuf a x).prog? m = c.prog? m := rfl
@[simp] theorem Chan.setShuf_rdWord (c : Chan) (a : Arr) (x : Shuf) (m : Nat) : (c.setShuf a x).rdWord m = c.rdWord m := rfl
@[simp] theorem Chan.setShuf_arrived (c : Chan) (a : Arr) (x : Shuf) (y z : Nat) : (c.setShuf a x).arrived y z = c.arrived y z := rfl

/-! ### raise -/

@[simp] theorem Chan.raise_idx (c : Chan) (src n : Nat) : (c.raise src n).idx = c.idx := rfl
@[simp] theorem Chan.raise_xclk (c : Chan) (src n : Nat) : (c.raise src n).xclk = c.xclk := rfl
@[simp] theorem Chan.raise_regs (c : Chan) (src n : Nat) : (c.raise src n).regs = c.regs := rfl
@[simp] theorem Chan.raise_prog (c : Chan) (src n : Nat) : (c.raise src n).prog = c.prog := rfl
@[simp] theorem Chan.raise_progClearing (c : Chan) (src n : Nat) : (c.raise src n).progClearing = c.progClearing := rfl
@[simp] theorem Chan.raise_mem (c : Chan) (src n : Nat) : (c.raise src n).mem = c.mem := rfl
@[simp] theorem Chan.raise_poison (c : Chan) (src n : Nat) : (c.raise src n).poison = c.poison := rfl
@[simp] theorem Chan.raise_cu (c : Chan) (src n : Nat) : (c.raise src n).cu = c.cu := rfl
@[simp] theorem Chan.raise_ms (c : Chan) (src n : Nat) : (c.raise src n).ms = c.ms := rfl
@[simp] theorem Chan.raise_duets (c : Chan) (src n : Nat) : (c.raise src n).duets = c.duets := rfl
@[simp] theorem Chan.raise_qu (c : Chan) (src n : Nat) : (c.raise src n).qu = c.qu := rfl
@[simp] theorem Chan.raise_fl (c : Chan) (src n : Nat) : (c.raise src n).fl = c.fl := rfl
@[simp] theorem Chan.raise_sp (c : Chan) (src n : Nat) : (c.raise src n).sp = c.sp := rfl
@[simp] theorem Chan.raise_locks (c : Chan) (src n : Nat) : (c.raise src n).locks = c.locks := rfl
@[simp] theorem Chan.raise_dm (c : Chan) (src n : Nat) : (c.raise src n).dm = c.dm := rfl
@[simp] theorem Chan.raise_net (c : Chan) (src n : Nat) : (c.raise src n).net = c.net := rfl
@[simp] theorem Chan.raise_ports (c : Chan) (src n : Nat) : (c.raise src n).ports = c.ports := rfl
@[simp] theorem Chan.raise_callers (c : Chan) (src n : Nat) : (c.raise src n).callers = c.callers := rfl
@[simp] theorem Chan.raise_ev_msgs (c : Chan) (src n : Nat) : (c.raise src n).ev.msgs = c.ev.msgs := rfl
@[simp] theorem Chan.raise_ev_srcs (c : Chan) (src n : Nat) : (c.raise src n).ev.srcs = c.ev.srcs := rfl
@[simp] theorem Chan.raise_ev_deliv (c : Chan) (src n : Nat) : (c.raise src n).ev.deliv = c.ev.deliv := rfl
@[simp] theorem Chan.raise_ev_lastSel (c : Chan) (src n : Nat) : (c.raise src n).ev.lastSel = c.ev.lastSel := rfl
@[simp] theorem Chan.raise_ev_takenAt (c : Chan) (src n : Nat) : (c.raise src n).ev.takenAt = c.ev.takenAt := rfl
@[simp] theorem Chan.raise_ev_selAt (c : Chan) (src n : Nat) : (c.raise src n).ev.selAt = c.ev.selAt := rfl
@[simp] theorem Chan.raise_ev_was (c : Chan) (src n : Nat) : (c.raise src n).ev.was = c.ev.was := rfl
@[simp] theorem Chan.raise_ev_tgts (c : Chan) (src n : Nat) : (c.raise src n).ev.tgts = c.ev.tgts := rfl
@[simp] theorem Chan.raise_ev_backs (c : Chan) (src n : Nat) : (c.raise src n).ev.backs = c.ev.backs := rfl
@[simp] theorem Chan.raise_ev_sat (c : Chan) (src n : Nat) : (c.raise src n).ev.sat = c.ev.sat := rfl
@[simp] theorem Chan.raise_rings (c : Chan) (src n : Nat) : (c.raise src n).rings = c.rings := rfl
@[simp] theorem Chan.raise_crings (c : Chan) (src n : Nat) : (c.raise src n).crings = c.crings := rfl
@[simp] theorem Chan.raise_copies (c : Chan) (src n : Nat) : (c.raise src n).copies = c.copies := rfl
@[simp] theorem Chan.raise_copyRr (c : Chan) (src n : Nat) : (c.raise src n).copyRr = c.copyRr := rfl
@[simp] theorem Chan.raise_hw (c : Chan) (src n : Nat) : (c.raise src n).hw = c.hw := rfl
@[simp] theorem Chan.raise_pw (c : Chan) (src n : Nat) : (c.raise src n).pw = c.pw := rfl
@[simp] theorem Chan.raise_msix (c : Chan) (src n : Nat) : (c.raise src n).msix = c.msix := rfl
@[simp] theorem Chan.raise_readData (c : Chan) (src n : Nat) : (c.raise src n).readData = c.readData := rfl
@[simp] theorem Chan.raise_out (c : Chan) (src n : Nat) : (c.raise src n).out = c.out := rfl
@[simp] theorem Chan.raise_excq (c : Chan) (src n : Nat) : (c.raise src n).excq = c.excq := rfl
@[simp] theorem Chan.raise_late (c : Chan) (src n : Nat) : (c.raise src n).late = c.late := rfl
@[simp] theorem Chan.raise_done (c : Chan) (src n : Nat) : (c.raise src n).done = c.done := rfl
@[simp] theorem Chan.raise_devEv (c : Chan) (src n : Nat) : (c.raise src n).devEv = c.devEv := rfl
@[simp] theorem Chan.raise_rd (c : Chan) (src n : Nat) (o : Nat) : (c.raise src n).rd o = c.rd o := rfl
@[simp] theorem Chan.raise_fld (c : Chan) (src n : Nat) (g : Fd) : (c.raise src n).fld g = c.fld g := rfl
@[simp] theorem Chan.raise_flag (c : Chan) (src n : Nat) (g : Fd) : (c.raise src n).flag g = c.flag g := rfl
@[simp] theorem Chan.raise_caller (c : Chan) (src n : Nat) (m : Nat) : (c.raise src n).caller m = c.caller m := rfl
@[simp] theorem Chan.raise_duet (c : Chan) (src n : Nat) (m : Nat) : (c.raise src n).duet m = c.duet m := rfl
@[simp] theorem Chan.raise_tile (c : Chan) (src n : Nat) (m : Nat) : (c.raise src n).tile m = c.tile m := rfl
@[simp] theorem Chan.raise_port (c : Chan) (src n : Nat) (m : Nat) : (c.raise src n).port m = c.port m := rfl
@[simp] theorem Chan.raise_ring (c : Chan) (src n : Nat) (m : Nat) : (c.raise src n).ring m = c.ring m := rfl
@[simp] theorem Chan.raise_cring (c : Chan) (src n : Nat) (m : Nat) : (c.raise src n).cring m = c.cring m := rfl
@[simp] theorem Chan.raise_loop (c : Chan) (src n : Nat) (m : Nat) : (c.raise src n).loop m = c.loop m := rfl
@[simp] theorem Chan.raise_ord (c : Chan) (src n : Nat) (m : Nat) : (c.raise src n).ord m = c.ord m := rfl
@[simp] theorem Chan.raise_solo (c : Chan) (src n : Nat) (m : Nat) : (c.raise src n).solo m = c.solo m := rfl
@[simp] theorem Chan.raise_lock (c : Chan) (src n : Nat) (m : Nat) : (c.raise src n).lock m = c.lock m := rfl
@[simp] theorem Chan.raise_dom (c : Chan) (src n : Nat) (m : Nat) : (c.raise src n).dom m = c.dom m := rfl
@[simp] theorem Chan.raise_qptr (c : Chan) (src n : Nat) (m : Nat) : (c.raise src n).qptr m = c.qptr m := rfl
@[simp] theorem Chan.raise_qWord (c : Chan) (src n : Nat) (m : Nat) : (c.raise src n).qWord m = c.qWord m := rfl
@[simp] theorem Chan.raise_entry (c : Chan) (src n : Nat) (y z : Nat) : (c.raise src n).entry y z = c.entry y z := rfl
@[simp] theorem Chan.raise_instr (c : Chan) (src n : Nat) (m : Nat) : (c.raise src n).instr m = c.instr m := rfl
@[simp] theorem Chan.raise_ctx (c : Chan) (src n : Nat) (m : Nat) : (c.raise src n).ctx m = c.ctx m := rfl
@[simp] theorem Chan.raise_progOf (c : Chan) (src n : Nat) (m : Nat) : (c.raise src n).prog? m = c.prog? m := rfl
@[simp] theorem Chan.raise_rdWord (c : Chan) (src n : Nat) (m : Nat) : (c.raise src n).rdWord m = c.rdWord m := rfl
@[simp] theorem Chan.raise_arrived (c : Chan) (src n : Nat) (y z : Nat) : (c.raise src n).arrived y z = c.arrived y z := rfl

/-! ### raiseDev -/

@[simp] theorem Chan.raiseDev_idx (c : Chan) (src : Nat) : (c.raiseDev src).idx = c.idx := rfl
@[simp] theorem Chan.raiseDev_xclk (c : Chan) (src : Nat) : (c.raiseDev src).xclk = c.xclk := rfl
@[simp] theorem Chan.raiseDev_regs (c : Chan) (src : Nat) : (c.raiseDev src).regs = c.regs := rfl
@[simp] theorem Chan.raiseDev_prog (c : Chan) (src : Nat) : (c.raiseDev src).prog = c.prog := rfl
@[simp] theorem Chan.raiseDev_progClearing (c : Chan) (src : Nat) : (c.raiseDev src).progClearing = c.progClearing := rfl
@[simp] theorem Chan.raiseDev_mem (c : Chan) (src : Nat) : (c.raiseDev src).mem = c.mem := rfl
@[simp] theorem Chan.raiseDev_poison (c : Chan) (src : Nat) : (c.raiseDev src).poison = c.poison := rfl
@[simp] theorem Chan.raiseDev_cu (c : Chan) (src : Nat) : (c.raiseDev src).cu = c.cu := rfl
@[simp] theorem Chan.raiseDev_ms (c : Chan) (src : Nat) : (c.raiseDev src).ms = c.ms := rfl
@[simp] theorem Chan.raiseDev_duets (c : Chan) (src : Nat) : (c.raiseDev src).duets = c.duets := rfl
@[simp] theorem Chan.raiseDev_qu (c : Chan) (src : Nat) : (c.raiseDev src).qu = c.qu := rfl
@[simp] theorem Chan.raiseDev_fl (c : Chan) (src : Nat) : (c.raiseDev src).fl = c.fl := rfl
@[simp] theorem Chan.raiseDev_sp (c : Chan) (src : Nat) : (c.raiseDev src).sp = c.sp := rfl
@[simp] theorem Chan.raiseDev_locks (c : Chan) (src : Nat) : (c.raiseDev src).locks = c.locks := rfl
@[simp] theorem Chan.raiseDev_dm (c : Chan) (src : Nat) : (c.raiseDev src).dm = c.dm := rfl
@[simp] theorem Chan.raiseDev_net (c : Chan) (src : Nat) : (c.raiseDev src).net = c.net := rfl
@[simp] theorem Chan.raiseDev_ports (c : Chan) (src : Nat) : (c.raiseDev src).ports = c.ports := rfl
@[simp] theorem Chan.raiseDev_callers (c : Chan) (src : Nat) : (c.raiseDev src).callers = c.callers := rfl
@[simp] theorem Chan.raiseDev_ev (c : Chan) (src : Nat) : (c.raiseDev src).ev = c.ev := rfl
@[simp] theorem Chan.raiseDev_rings (c : Chan) (src : Nat) : (c.raiseDev src).rings = c.rings := rfl
@[simp] theorem Chan.raiseDev_crings (c : Chan) (src : Nat) : (c.raiseDev src).crings = c.crings := rfl
@[simp] theorem Chan.raiseDev_copies (c : Chan) (src : Nat) : (c.raiseDev src).copies = c.copies := rfl
@[simp] theorem Chan.raiseDev_copyRr (c : Chan) (src : Nat) : (c.raiseDev src).copyRr = c.copyRr := rfl
@[simp] theorem Chan.raiseDev_hw (c : Chan) (src : Nat) : (c.raiseDev src).hw = c.hw := rfl
@[simp] theorem Chan.raiseDev_pw (c : Chan) (src : Nat) : (c.raiseDev src).pw = c.pw := rfl
@[simp] theorem Chan.raiseDev_msix (c : Chan) (src : Nat) : (c.raiseDev src).msix = c.msix := rfl
@[simp] theorem Chan.raiseDev_readData (c : Chan) (src : Nat) : (c.raiseDev src).readData = c.readData := rfl
@[simp] theorem Chan.raiseDev_out (c : Chan) (src : Nat) : (c.raiseDev src).out = c.out := rfl
@[simp] theorem Chan.raiseDev_excq (c : Chan) (src : Nat) : (c.raiseDev src).excq = c.excq := rfl
@[simp] theorem Chan.raiseDev_late (c : Chan) (src : Nat) : (c.raiseDev src).late = c.late := rfl
@[simp] theorem Chan.raiseDev_done (c : Chan) (src : Nat) : (c.raiseDev src).done = c.done := rfl
@[simp] theorem Chan.raiseDev_notes (c : Chan) (src : Nat) : (c.raiseDev src).notes = c.notes := rfl
@[simp] theorem Chan.raiseDev_rd (c : Chan) (src : Nat) (o : Nat) : (c.raiseDev src).rd o = c.rd o := rfl
@[simp] theorem Chan.raiseDev_fld (c : Chan) (src : Nat) (g : Fd) : (c.raiseDev src).fld g = c.fld g := rfl
@[simp] theorem Chan.raiseDev_flag (c : Chan) (src : Nat) (g : Fd) : (c.raiseDev src).flag g = c.flag g := rfl
@[simp] theorem Chan.raiseDev_caller (c : Chan) (src : Nat) (m : Nat) : (c.raiseDev src).caller m = c.caller m := rfl
@[simp] theorem Chan.raiseDev_duet (c : Chan) (src : Nat) (m : Nat) : (c.raiseDev src).duet m = c.duet m := rfl
@[simp] theorem Chan.raiseDev_tile (c : Chan) (src : Nat) (m : Nat) : (c.raiseDev src).tile m = c.tile m := rfl
@[simp] theorem Chan.raiseDev_port (c : Chan) (src : Nat) (m : Nat) : (c.raiseDev src).port m = c.port m := rfl
@[simp] theorem Chan.raiseDev_ring (c : Chan) (src : Nat) (m : Nat) : (c.raiseDev src).ring m = c.ring m := rfl
@[simp] theorem Chan.raiseDev_cring (c : Chan) (src : Nat) (m : Nat) : (c.raiseDev src).cring m = c.cring m := rfl
@[simp] theorem Chan.raiseDev_loop (c : Chan) (src : Nat) (m : Nat) : (c.raiseDev src).loop m = c.loop m := rfl
@[simp] theorem Chan.raiseDev_ord (c : Chan) (src : Nat) (m : Nat) : (c.raiseDev src).ord m = c.ord m := rfl
@[simp] theorem Chan.raiseDev_solo (c : Chan) (src : Nat) (m : Nat) : (c.raiseDev src).solo m = c.solo m := rfl
@[simp] theorem Chan.raiseDev_lock (c : Chan) (src : Nat) (m : Nat) : (c.raiseDev src).lock m = c.lock m := rfl
@[simp] theorem Chan.raiseDev_dom (c : Chan) (src : Nat) (m : Nat) : (c.raiseDev src).dom m = c.dom m := rfl
@[simp] theorem Chan.raiseDev_qptr (c : Chan) (src : Nat) (m : Nat) : (c.raiseDev src).qptr m = c.qptr m := rfl
@[simp] theorem Chan.raiseDev_qWord (c : Chan) (src : Nat) (m : Nat) : (c.raiseDev src).qWord m = c.qWord m := rfl
@[simp] theorem Chan.raiseDev_entry (c : Chan) (src : Nat) (y z : Nat) : (c.raiseDev src).entry y z = c.entry y z := rfl
@[simp] theorem Chan.raiseDev_instr (c : Chan) (src : Nat) (m : Nat) : (c.raiseDev src).instr m = c.instr m := rfl
@[simp] theorem Chan.raiseDev_ctx (c : Chan) (src : Nat) (m : Nat) : (c.raiseDev src).ctx m = c.ctx m := rfl
@[simp] theorem Chan.raiseDev_progOf (c : Chan) (src : Nat) (m : Nat) : (c.raiseDev src).prog? m = c.prog? m := rfl
@[simp] theorem Chan.raiseDev_rdWord (c : Chan) (src : Nat) (m : Nat) : (c.raiseDev src).rdWord m = c.rdWord m := rfl
@[simp] theorem Chan.raiseDev_arrived (c : Chan) (src : Nat) (y z : Nat) : (c.raiseDev src).arrived y z = c.arrived y z := rfl

/-! ### wrWord -/

@[simp] theorem Chan.wrWord_idx (c : Chan) (a : Nat) (w : Word) : (c.wrWord a w).idx = c.idx := rfl
@[simp] theorem Chan.wrWord_xclk (c : Chan) (a : Nat) (w : Word) : (c.wrWord a w).xclk = c.xclk := rfl
@[simp] theorem Chan.wrWord_regs (c : Chan) (a : Nat) (w : Word) : (c.wrWord a w).regs = c.regs := rfl
@[simp] theorem Chan.wrWord_prog (c : Chan) (a : Nat) (w : Word) : (c.wrWord a w).prog = c.prog := rfl
@[simp] theorem Chan.wrWord_progClearing (c : Chan) (a : Nat) (w : Word) : (c.wrWord a w).progClearing = c.progClearing := rfl
@[simp] theorem Chan.wrWord_cu (c : Chan) (a : Nat) (w : Word) : (c.wrWord a w).cu = c.cu := rfl
@[simp] theorem Chan.wrWord_ms (c : Chan) (a : Nat) (w : Word) : (c.wrWord a w).ms = c.ms := rfl
@[simp] theorem Chan.wrWord_duets (c : Chan) (a : Nat) (w : Word) : (c.wrWord a w).duets = c.duets := rfl
@[simp] theorem Chan.wrWord_qu (c : Chan) (a : Nat) (w : Word) : (c.wrWord a w).qu = c.qu := rfl
@[simp] theorem Chan.wrWord_fl (c : Chan) (a : Nat) (w : Word) : (c.wrWord a w).fl = c.fl := rfl
@[simp] theorem Chan.wrWord_sp (c : Chan) (a : Nat) (w : Word) : (c.wrWord a w).sp = c.sp := rfl
@[simp] theorem Chan.wrWord_locks (c : Chan) (a : Nat) (w : Word) : (c.wrWord a w).locks = c.locks := rfl
@[simp] theorem Chan.wrWord_dm (c : Chan) (a : Nat) (w : Word) : (c.wrWord a w).dm = c.dm := rfl
@[simp] theorem Chan.wrWord_net (c : Chan) (a : Nat) (w : Word) : (c.wrWord a w).net = c.net := rfl
@[simp] theorem Chan.wrWord_ports (c : Chan) (a : Nat) (w : Word) : (c.wrWord a w).ports = c.ports := rfl
@[simp] theorem Chan.wrWord_callers (c : Chan) (a : Nat) (w : Word) : (c.wrWord a w).callers = c.callers := rfl
@[simp] theorem Chan.wrWord_ev (c : Chan) (a : Nat) (w : Word) : (c.wrWord a w).ev = c.ev := rfl
@[simp] theorem Chan.wrWord_rings (c : Chan) (a : Nat) (w : Word) : (c.wrWord a w).rings = c.rings := rfl
@[simp] theorem Chan.wrWord_crings (c : Chan) (a : Nat) (w : Word) : (c.wrWord a w).crings = c.crings := rfl
@[simp] theorem Chan.wrWord_copies (c : Chan) (a : Nat) (w : Word) : (c.wrWord a w).copies = c.copies := rfl
@[simp] theorem Chan.wrWord_copyRr (c : Chan) (a : Nat) (w : Word) : (c.wrWord a w).copyRr = c.copyRr := rfl
@[simp] theorem Chan.wrWord_hw (c : Chan) (a : Nat) (w : Word) : (c.wrWord a w).hw = c.hw := rfl
@[simp] theorem Chan.wrWord_pw (c : Chan) (a : Nat) (w : Word) : (c.wrWord a w).pw = c.pw := rfl
@[simp] theorem Chan.wrWord_msix (c : Chan) (a : Nat) (w : Word) : (c.wrWord a w).msix = c.msix := rfl
@[simp] theorem Chan.wrWord_readData (c : Chan) (a : Nat) (w : Word) : (c.wrWord a w).readData = c.readData := rfl
@[simp] theorem Chan.wrWord_out (c : Chan) (a : Nat) (w : Word) : (c.wrWord a w).out = c.out := rfl
@[simp] theorem Chan.wrWord_excq (c : Chan) (a : Nat) (w : Word) : (c.wrWord a w).excq = c.excq := rfl
@[simp] theorem Chan.wrWord_late (c : Chan) (a : Nat) (w : Word) : (c.wrWord a w).late = c.late := rfl
@[simp] theorem Chan.wrWord_done (c : Chan) (a : Nat) (w : Word) : (c.wrWord a w).done = c.done := rfl
@[simp] theorem Chan.wrWord_devEv (c : Chan) (a : Nat) (w : Word) : (c.wrWord a w).devEv = c.devEv := rfl
@[simp] theorem Chan.wrWord_notes (c : Chan) (a : Nat) (w : Word) : (c.wrWord a w).notes = c.notes := rfl
@[simp] theorem Chan.wrWord_rd (c : Chan) (a : Nat) (w : Word) (o : Nat) : (c.wrWord a w).rd o = c.rd o := rfl
@[simp] theorem Chan.wrWord_fld (c : Chan) (a : Nat) (w : Word) (g : Fd) : (c.wrWord a w).fld g = c.fld g := rfl
@[simp] theorem Chan.wrWord_flag (c : Chan) (a : Nat) (w : Word) (g : Fd) : (c.wrWord a w).flag g = c.flag g := rfl
@[simp] theorem Chan.wrWord_caller (c : Chan) (a : Nat) (w : Word) (m : Nat) : (c.wrWord a w).caller m = c.caller m := rfl
@[simp] theorem Chan.wrWord_duet (c : Chan) (a : Nat) (w : Word) (m : Nat) : (c.wrWord a w).duet m = c.duet m := rfl
@[simp] theorem Chan.wrWord_tile (c : Chan) (a : Nat) (w : Word) (m : Nat) : (c.wrWord a w).tile m = c.tile m := rfl
@[simp] theorem Chan.wrWord_port (c : Chan) (a : Nat) (w : Word) (m : Nat) : (c.wrWord a w).port m = c.port m := rfl
@[simp] theorem Chan.wrWord_ring (c : Chan) (a : Nat) (w : Word) (m : Nat) : (c.wrWord a w).ring m = c.ring m := rfl
@[simp] theorem Chan.wrWord_cring (c : Chan) (a : Nat) (w : Word) (m : Nat) : (c.wrWord a w).cring m = c.cring m := rfl
@[simp] theorem Chan.wrWord_loop (c : Chan) (a : Nat) (w : Word) (m : Nat) : (c.wrWord a w).loop m = c.loop m := rfl
@[simp] theorem Chan.wrWord_ord (c : Chan) (a : Nat) (w : Word) (m : Nat) : (c.wrWord a w).ord m = c.ord m := rfl
@[simp] theorem Chan.wrWord_solo (c : Chan) (a : Nat) (w : Word) (m : Nat) : (c.wrWord a w).solo m = c.solo m := rfl
@[simp] theorem Chan.wrWord_lock (c : Chan) (a : Nat) (w : Word) (m : Nat) : (c.wrWord a w).lock m = c.lock m := rfl
@[simp] theorem Chan.wrWord_dom (c : Chan) (a : Nat) (w : Word) (m : Nat) : (c.wrWord a w).dom m = c.dom m := rfl
@[simp] theorem Chan.wrWord_qptr (c : Chan) (a : Nat) (w : Word) (m : Nat) : (c.wrWord a w).qptr m = c.qptr m := rfl
@[simp] theorem Chan.wrWord_qWord (c : Chan) (a : Nat) (w : Word) (m : Nat) : (c.wrWord a w).qWord m = c.qWord m := rfl
@[simp] theorem Chan.wrWord_entry (c : Chan) (a : Nat) (w : Word) (y z : Nat) : (c.wrWord a w).entry y z = c.entry y z := rfl
@[simp] theorem Chan.wrWord_instr (c : Chan) (a : Nat) (w : Word) (m : Nat) : (c.wrWord a w).instr m = c.instr m := rfl
@[simp] theorem Chan.wrWord_ctx (c : Chan) (a : Nat) (w : Word) (m : Nat) : (c.wrWord a w).ctx m = c.ctx m := rfl
@[simp] theorem Chan.wrWord_progOf (c : Chan) (a : Nat) (w : Word) (m : Nat) : (c.wrWord a w).prog? m = c.prog? m := rfl
@[simp] theorem Chan.wrWord_arrived (c : Chan) (a : Nat) (w : Word) (y z : Nat) : (c.wrWord a w).arrived y z = c.arrived y z := rfl

/-! ### setPoison -/

@[simp] theorem Chan.setPoison_idx (c : Chan) (a : Nat) (p : Bool) : (c.setPoison a p).idx = c.idx := rfl
@[simp] theorem Chan.setPoison_xclk (c : Chan) (a : Nat) (p : Bool) : (c.setPoison a p).xclk = c.xclk := rfl
@[simp] theorem Chan.setPoison_regs (c : Chan) (a : Nat) (p : Bool) : (c.setPoison a p).regs = c.regs := rfl
@[simp] theorem Chan.setPoison_prog (c : Chan) (a : Nat) (p : Bool) : (c.setPoison a p).prog = c.prog := rfl
@[simp] theorem Chan.setPoison_progClearing (c : Chan) (a : Nat) (p : Bool) : (c.setPoison a p).progClearing = c.progClearing := rfl
@[simp] theorem Chan.setPoison_mem (c : Chan) (a : Nat) (p : Bool) : (c.setPoison a p).mem = c.mem := rfl
@[simp] theorem Chan.setPoison_cu (c : Chan) (a : Nat) (p : Bool) : (c.setPoison a p).cu = c.cu := rfl
@[simp] theorem Chan.setPoison_ms (c : Chan) (a : Nat) (p : Bool) : (c.setPoison a p).ms = c.ms := rfl
@[simp] theorem Chan.setPoison_duets (c : Chan) (a : Nat) (p : Bool) : (c.setPoison a p).duets = c.duets := rfl
@[simp] theorem Chan.setPoison_qu (c : Chan) (a : Nat) (p : Bool) : (c.setPoison a p).qu = c.qu := rfl
@[simp] theorem Chan.setPoison_fl (c : Chan) (a : Nat) (p : Bool) : (c.setPoison a p).fl = c.fl := rfl
@[simp] theorem Chan.setPoison_sp (c : Chan) (a : Nat) (p : Bool) : (c.setPoison a p).sp = c.sp := rfl
@[simp] theorem Chan.setPoison_locks (c : Chan) (a : Nat) (p : Bool) : (c.setPoison a p).locks = c.locks := rfl
@[simp] theorem Chan.setPoison_dm (c : Chan) (a : Nat) (p : Bool) : (c.setPoison a p).dm = c.dm := rfl
@[simp] theorem Chan.setPoison_net (c : Chan) (a : Nat) (p : Bool) : (c.setPoison a p).net = c.net := rfl
@[simp] theorem Chan.setPoison_ports (c : Chan) (a : Nat) (p : Bool) : (c.setPoison a p).ports = c.ports := rfl
@[simp] theorem Chan.setPoison_callers (c : Chan) (a : Nat) (p : Bool) : (c.setPoison a p).callers = c.callers := rfl
@[simp] theorem Chan.setPoison_ev (c : Chan) (a : Nat) (p : Bool) : (c.setPoison a p).ev = c.ev := rfl
@[simp] theorem Chan.setPoison_rings (c : Chan) (a : Nat) (p : Bool) : (c.setPoison a p).rings = c.rings := rfl
@[simp] theorem Chan.setPoison_crings (c : Chan) (a : Nat) (p : Bool) : (c.setPoison a p).crings = c.crings := rfl
@[simp] theorem Chan.setPoison_copies (c : Chan) (a : Nat) (p : Bool) : (c.setPoison a p).copies = c.copies := rfl
@[simp] theorem Chan.setPoison_copyRr (c : Chan) (a : Nat) (p : Bool) : (c.setPoison a p).copyRr = c.copyRr := rfl
@[simp] theorem Chan.setPoison_hw (c : Chan) (a : Nat) (p : Bool) : (c.setPoison a p).hw = c.hw := rfl
@[simp] theorem Chan.setPoison_pw (c : Chan) (a : Nat) (p : Bool) : (c.setPoison a p).pw = c.pw := rfl
@[simp] theorem Chan.setPoison_msix (c : Chan) (a : Nat) (p : Bool) : (c.setPoison a p).msix = c.msix := rfl
@[simp] theorem Chan.setPoison_readData (c : Chan) (a : Nat) (p : Bool) : (c.setPoison a p).readData = c.readData := rfl
@[simp] theorem Chan.setPoison_out (c : Chan) (a : Nat) (p : Bool) : (c.setPoison a p).out = c.out := rfl
@[simp] theorem Chan.setPoison_excq (c : Chan) (a : Nat) (p : Bool) : (c.setPoison a p).excq = c.excq := rfl
@[simp] theorem Chan.setPoison_late (c : Chan) (a : Nat) (p : Bool) : (c.setPoison a p).late = c.late := rfl
@[simp] theorem Chan.setPoison_done (c : Chan) (a : Nat) (p : Bool) : (c.setPoison a p).done = c.done := rfl
@[simp] theorem Chan.setPoison_devEv (c : Chan) (a : Nat) (p : Bool) : (c.setPoison a p).devEv = c.devEv := rfl
@[simp] theorem Chan.setPoison_notes (c : Chan) (a : Nat) (p : Bool) : (c.setPoison a p).notes = c.notes := rfl
@[simp] theorem Chan.setPoison_rd (c : Chan) (a : Nat) (p : Bool) (o : Nat) : (c.setPoison a p).rd o = c.rd o := rfl
@[simp] theorem Chan.setPoison_fld (c : Chan) (a : Nat) (p : Bool) (g : Fd) : (c.setPoison a p).fld g = c.fld g := rfl
@[simp] theorem Chan.setPoison_flag (c : Chan) (a : Nat) (p : Bool) (g : Fd) : (c.setPoison a p).flag g = c.flag g := rfl
@[simp] theorem Chan.setPoison_caller (c : Chan) (a : Nat) (p : Bool) (m : Nat) : (c.setPoison a p).caller m = c.caller m := rfl
@[simp] theorem Chan.setPoison_duet (c : Chan) (a : Nat) (p : Bool) (m : Nat) : (c.setPoison a p).duet m = c.duet m := rfl
@[simp] theorem Chan.setPoison_tile (c : Chan) (a : Nat) (p : Bool) (m : Nat) : (c.setPoison a p).tile m = c.tile m := rfl
@[simp] theorem Chan.setPoison_port (c : Chan) (a : Nat) (p : Bool) (m : Nat) : (c.setPoison a p).port m = c.port m := rfl
@[simp] theorem Chan.setPoison_ring (c : Chan) (a : Nat) (p : Bool) (m : Nat) : (c.setPoison a p).ring m = c.ring m := rfl
@[simp] theorem Chan.setPoison_cring (c : Chan) (a : Nat) (p : Bool) (m : Nat) : (c.setPoison a p).cring m = c.cring m := rfl
@[simp] theorem Chan.setPoison_loop (c : Chan) (a : Nat) (p : Bool) (m : Nat) : (c.setPoison a p).loop m = c.loop m := rfl
@[simp] theorem Chan.setPoison_ord (c : Chan) (a : Nat) (p : Bool) (m : Nat) : (c.setPoison a p).ord m = c.ord m := rfl
@[simp] theorem Chan.setPoison_solo (c : Chan) (a : Nat) (p : Bool) (m : Nat) : (c.setPoison a p).solo m = c.solo m := rfl
@[simp] theorem Chan.setPoison_lock (c : Chan) (a : Nat) (p : Bool) (m : Nat) : (c.setPoison a p).lock m = c.lock m := rfl
@[simp] theorem Chan.setPoison_dom (c : Chan) (a : Nat) (p : Bool) (m : Nat) : (c.setPoison a p).dom m = c.dom m := rfl
@[simp] theorem Chan.setPoison_qptr (c : Chan) (a : Nat) (p : Bool) (m : Nat) : (c.setPoison a p).qptr m = c.qptr m := rfl
@[simp] theorem Chan.setPoison_qWord (c : Chan) (a : Nat) (p : Bool) (m : Nat) : (c.setPoison a p).qWord m = c.qWord m := rfl
@[simp] theorem Chan.setPoison_entry (c : Chan) (a : Nat) (p : Bool) (y z : Nat) : (c.setPoison a p).entry y z = c.entry y z := rfl
@[simp] theorem Chan.setPoison_instr (c : Chan) (a : Nat) (p : Bool) (m : Nat) : (c.setPoison a p).instr m = c.instr m := rfl
@[simp] theorem Chan.setPoison_ctx (c : Chan) (a : Nat) (p : Bool) (m : Nat) : (c.setPoison a p).ctx m = c.ctx m := rfl
@[simp] theorem Chan.setPoison_progOf (c : Chan) (a : Nat) (p : Bool) (m : Nat) : (c.setPoison a p).prog? m = c.prog? m := rfl
@[simp] theorem Chan.setPoison_rdWord (c : Chan) (a : Nat) (p : Bool) (m : Nat) : (c.setPoison a p).rdWord m = c.rdWord m := rfl
@[simp] theorem Chan.setPoison_arrived (c : Chan) (a : Nat) (p : Bool) (y z : Nat) : (c.setPoison a p).arrived y z = c.arrived y z := rfl

/-! ### takeArrived -/

@[simp] theorem Chan.takeArrived_idx (c : Chan) (tile kind : Nat) : (c.takeArrived tile kind).idx = c.idx := rfl
@[simp] theorem Chan.takeArrived_xclk (c : Chan) (tile kind : Nat) : (c.takeArrived tile kind).xclk = c.xclk := rfl
@[simp] theorem Chan.takeArrived_regs (c : Chan) (tile kind : Nat) : (c.takeArrived tile kind).regs = c.regs := rfl
@[simp] theorem Chan.takeArrived_prog (c : Chan) (tile kind : Nat) : (c.takeArrived tile kind).prog = c.prog := rfl
@[simp] theorem Chan.takeArrived_progClearing (c : Chan) (tile kind : Nat) : (c.takeArrived tile kind).progClearing = c.progClearing := rfl
@[simp] theorem Chan.takeArrived_mem (c : Chan) (tile kind : Nat) : (c.takeArrived tile kind).mem = c.mem := rfl
@[simp] theorem Chan.takeArrived_poison (c : Chan) (tile kind : Nat) : (c.takeArrived tile kind).poison = c.poison := rfl
@[simp] theorem Chan.takeArrived_cu (c : Chan) (tile kind : Nat) : (c.takeArrived tile kind).cu = c.cu := rfl
@[simp] theorem Chan.takeArrived_ms (c : Chan) (tile kind : Nat) : (c.takeArrived tile kind).ms = c.ms := rfl
@[simp] theorem Chan.takeArrived_duets (c : Chan) (tile kind : Nat) : (c.takeArrived tile kind).duets = c.duets := rfl
@[simp] theorem Chan.takeArrived_qu (c : Chan) (tile kind : Nat) : (c.takeArrived tile kind).qu = c.qu := rfl
@[simp] theorem Chan.takeArrived_fl (c : Chan) (tile kind : Nat) : (c.takeArrived tile kind).fl = c.fl := rfl
@[simp] theorem Chan.takeArrived_sp (c : Chan) (tile kind : Nat) : (c.takeArrived tile kind).sp = c.sp := rfl
@[simp] theorem Chan.takeArrived_locks (c : Chan) (tile kind : Nat) : (c.takeArrived tile kind).locks = c.locks := rfl
@[simp] theorem Chan.takeArrived_dm (c : Chan) (tile kind : Nat) : (c.takeArrived tile kind).dm = c.dm := rfl
@[simp] theorem Chan.takeArrived_net_bufs (c : Chan) (tile kind : Nat) : (c.takeArrived tile kind).net.bufs = c.net.bufs := rfl
@[simp] theorem Chan.takeArrived_net_offers (c : Chan) (tile kind : Nat) : (c.takeArrived tile kind).net.offers = c.net.offers := rfl
@[simp] theorem Chan.takeArrived_net_unitLast (c : Chan) (tile kind : Nat) : (c.takeArrived tile kind).net.unitLast = c.net.unitLast := rfl
@[simp] theorem Chan.takeArrived_net_rr (c : Chan) (tile kind : Nat) : (c.takeArrived tile kind).net.rr = c.net.rr := rfl
@[simp] theorem Chan.takeArrived_net_fails (c : Chan) (tile kind : Nat) : (c.takeArrived tile kind).net.fails = c.net.fails := rfl
@[simp] theorem Chan.takeArrived_net_flip (c : Chan) (tile kind : Nat) : (c.takeArrived tile kind).net.flip = c.net.flip := rfl
@[simp] theorem Chan.takeArrived_ports (c : Chan) (tile kind : Nat) : (c.takeArrived tile kind).ports = c.ports := rfl
@[simp] theorem Chan.takeArrived_callers (c : Chan) (tile kind : Nat) : (c.takeArrived tile kind).callers = c.callers := rfl
@[simp] theorem Chan.takeArrived_ev (c : Chan) (tile kind : Nat) : (c.takeArrived tile kind).ev = c.ev := rfl
@[simp] theorem Chan.takeArrived_rings (c : Chan) (tile kind : Nat) : (c.takeArrived tile kind).rings = c.rings := rfl
@[simp] theorem Chan.takeArrived_crings (c : Chan) (tile kind : Nat) : (c.takeArrived tile kind).crings = c.crings := rfl
@[simp] theorem Chan.takeArrived_copies (c : Chan) (tile kind : Nat) : (c.takeArrived tile kind).copies = c.copies := rfl
@[simp] theorem Chan.takeArrived_copyRr (c : Chan) (tile kind : Nat) : (c.takeArrived tile kind).copyRr = c.copyRr := rfl
@[simp] theorem Chan.takeArrived_hw (c : Chan) (tile kind : Nat) : (c.takeArrived tile kind).hw = c.hw := rfl
@[simp] theorem Chan.takeArrived_pw (c : Chan) (tile kind : Nat) : (c.takeArrived tile kind).pw = c.pw := rfl
@[simp] theorem Chan.takeArrived_msix (c : Chan) (tile kind : Nat) : (c.takeArrived tile kind).msix = c.msix := rfl
@[simp] theorem Chan.takeArrived_readData (c : Chan) (tile kind : Nat) : (c.takeArrived tile kind).readData = c.readData := rfl
@[simp] theorem Chan.takeArrived_out (c : Chan) (tile kind : Nat) : (c.takeArrived tile kind).out = c.out := rfl
@[simp] theorem Chan.takeArrived_excq (c : Chan) (tile kind : Nat) : (c.takeArrived tile kind).excq = c.excq := rfl
@[simp] theorem Chan.takeArrived_late (c : Chan) (tile kind : Nat) : (c.takeArrived tile kind).late = c.late := rfl
@[simp] theorem Chan.takeArrived_done (c : Chan) (tile kind : Nat) : (c.takeArrived tile kind).done = c.done := rfl
@[simp] theorem Chan.takeArrived_devEv (c : Chan) (tile kind : Nat) : (c.takeArrived tile kind).devEv = c.devEv := rfl
@[simp] theorem Chan.takeArrived_notes (c : Chan) (tile kind : Nat) : (c.takeArrived tile kind).notes = c.notes := rfl
@[simp] theorem Chan.takeArrived_rd (c : Chan) (tile kind : Nat) (o : Nat) : (c.takeArrived tile kind).rd o = c.rd o := rfl
@[simp] theorem Chan.takeArrived_fld (c : Chan) (tile kind : Nat) (g : Fd) : (c.takeArrived tile kind).fld g = c.fld g := rfl
@[simp] theorem Chan.takeArrived_flag (c : Chan) (tile kind : Nat) (g : Fd) : (c.takeArrived tile kind).flag g = c.flag g := rfl
@[simp] theorem Chan.takeArrived_caller (c : Chan) (tile kind : Nat) (m : Nat) : (c.takeArrived tile kind).caller m = c.caller m := rfl
@[simp] theorem Chan.takeArrived_duet (c : Chan) (tile kind : Nat) (m : Nat) : (c.takeArrived tile kind).duet m = c.duet m := rfl
@[simp] theorem Chan.takeArrived_tile (c : Chan) (tile kind : Nat) (m : Nat) : (c.takeArrived tile kind).tile m = c.tile m := rfl
@[simp] theorem Chan.takeArrived_port (c : Chan) (tile kind : Nat) (m : Nat) : (c.takeArrived tile kind).port m = c.port m := rfl
@[simp] theorem Chan.takeArrived_ring (c : Chan) (tile kind : Nat) (m : Nat) : (c.takeArrived tile kind).ring m = c.ring m := rfl
@[simp] theorem Chan.takeArrived_cring (c : Chan) (tile kind : Nat) (m : Nat) : (c.takeArrived tile kind).cring m = c.cring m := rfl
@[simp] theorem Chan.takeArrived_loop (c : Chan) (tile kind : Nat) (m : Nat) : (c.takeArrived tile kind).loop m = c.loop m := rfl
@[simp] theorem Chan.takeArrived_ord (c : Chan) (tile kind : Nat) (m : Nat) : (c.takeArrived tile kind).ord m = c.ord m := rfl
@[simp] theorem Chan.takeArrived_solo (c : Chan) (tile kind : Nat) (m : Nat) : (c.takeArrived tile kind).solo m = c.solo m := rfl
@[simp] theorem Chan.takeArrived_lock (c : Chan) (tile kind : Nat) (m : Nat) : (c.takeArrived tile kind).lock m = c.lock m := rfl
@[simp] theorem Chan.takeArrived_dom (c : Chan) (tile kind : Nat) (m : Nat) : (c.takeArrived tile kind).dom m = c.dom m := rfl
@[simp] theorem Chan.takeArrived_qptr (c : Chan) (tile kind : Nat) (m : Nat) : (c.takeArrived tile kind).qptr m = c.qptr m := rfl
@[simp] theorem Chan.takeArrived_qWord (c : Chan) (tile kind : Nat) (m : Nat) : (c.takeArrived tile kind).qWord m = c.qWord m := rfl
@[simp] theorem Chan.takeArrived_entry (c : Chan) (tile kind : Nat) (y z : Nat) : (c.takeArrived tile kind).entry y z = c.entry y z := rfl
@[simp] theorem Chan.takeArrived_instr (c : Chan) (tile kind : Nat) (m : Nat) : (c.takeArrived tile kind).instr m = c.instr m := rfl
@[simp] theorem Chan.takeArrived_ctx (c : Chan) (tile kind : Nat) (m : Nat) : (c.takeArrived tile kind).ctx m = c.ctx m := rfl
@[simp] theorem Chan.takeArrived_progOf (c : Chan) (tile kind : Nat) (m : Nat) : (c.takeArrived tile kind).prog? m = c.prog? m := rfl
@[simp] theorem Chan.takeArrived_rdWord (c : Chan) (tile kind : Nat) (m : Nat) : (c.takeArrived tile kind).rdWord m = c.rdWord m := rfl

/-! ### Readings of what is written -/

theorem Chan.wr_rd (c : Chan) (off o : Nat) (w : Word) : (c.wr off w).rd o = if o = off then w else c.rd o := by
  simp only [Chan.rd, Chan.wr, Chan.rst]
  by_cases h : o = off
  · subst h; simp
  · rw [if_neg h, tblGet, tblGet, tblPut]
    split_ifs <;> simp [tblFind_ins, tblFind_del, h]

theorem Chan.setCaller_caller (c : Chan) (n m : Nat) (x : Caller) : (c.setCaller n x).caller m = if m = n then x else c.caller m := by
  simp only [Chan.caller, Chan.setCaller]
  by_cases h : m = n
  · subst h; simp
  · rw [if_neg h, tblGet, tblGet, tblPut]
    split_ifs <;> simp [tblFind_ins, tblFind_del, h]

@[simp] theorem Chan.setCaller_caller_same (c : Chan) (n : Nat) (x : Caller) : (c.setCaller n x).caller n = x := by
  simp [Chan.setCaller_caller]

theorem Chan.setQWord_qWord (c : Chan) (a m : Nat) (w : BitVec 144) : (c.setQWord a w).qWord m = if m = a then w else c.qWord m :=
  tblGet_put _ _ _ _ _

theorem Chan.setLoop_loop (c : Chan) (e m : Nat) (x : Loop) : (c.setLoop e x).loop m = if m = e then some x else c.loop m :=
  tblFind_ins _ _ _ _

theorem Chan.dropLoop_loop (c : Chan) (e m : Nat) : (c.dropLoop e).loop m = if m = e then none else c.loop m := tblFind_del _ _ _

theorem Chan.setProg_progOf (c : Chan) (d m : Nat) (x : Prog) : (c.setProg d x).prog? m = if m = d then some x else c.prog? m :=
  tblFind_ins _ _ _ _

theorem Chan.endProg_progOf (c : Chan) (d m : Nat) : (c.endProg d).prog? m = if m = d then none else c.prog? m := tblFind_del _ _ _

theorem Chan.setEntry_entry (c : Chan) (t e u v : Nat) (x : MEntry) :
    (c.setEntry t e x).entry u v = if u * 1536 + v = t * 1536 + e then some x else c.entry u v := tblFind_ins _ _ _ _

theorem Chan.dropEntry_entry (c : Chan) (t e u v : Nat) :
    (c.dropEntry t e).entry u v = if u * 1536 + v = t * 1536 + e then none else c.entry u v := tblFind_del _ _ _

theorem Chan.takeArrived_arrived (c : Chan) (t k u v : Nat) :
    (c.takeArrived t k).arrived u v = if u * 8 + v = t * 8 + k then none else c.arrived u v := tblFind_del _ _ _

theorem Chan.setInstr_instr (c : Chan) (ip m : Nat) (w : Word) :
    (c.setInstr ip w).instr m = if m % 2 ^ 16 = ip % 2 ^ 16 then w else c.instr m := tblGet_put _ _ _ _ _

@[simp] theorem Chan.raise_msgs (c : Chan) (src n : Nat) : (c.raise src n).ev.sent = c.ev.sent ++ [{ src := src, count := n, tile := evSender src }] := rfl

@[simp] theorem Chan.raiseDev_devEv (c : Chan) (src : Nat) : (c.raiseDev src).devEv = c.devEv ++ [src] := rfl

/-! ### Channels of the state -/

@[simp] theorem State.setChan_dev (s : State) (k : Nat) (c : Chan) : (s.setChan k c).dev = s.dev := rfl

@[simp] theorem State.setChan_pending (s : State) (k : Nat) (c : Chan) : (s.setChan k c).pending = s.pending := rfl

theorem State.setChan_chan (s : State) (k j : Nat) (c : Chan) : (s.setChan k c).chan j = if j = k then c else s.chan j := by
  simp only [State.chan, State.setChan]
  by_cases h : j = k
  · subst h; simp
  · rw [if_neg h, tblGet, tblGet, tblPut]
    split_ifs <;> simp [tblFind_ins, tblFind_del, h]

@[simp] theorem State.setChan_chan_same (s : State) (k : Nat) (c : Chan) : (s.setChan k c).chan k = c := by
  simp [State.setChan_chan]

theorem State.setChan_chan_ne (s : State) {k j : Nat} (c : Chan) (h : j ≠ k) : (s.setChan k c).chan j = s.chan j := by
  simp [State.setChan_chan, h]

@[simp] theorem State.dev_chan (s : State) (d : Dev) (k : Nat) : ({ s with dev := d } : State).chan k = s.chan k := rfl

@[simp] theorem State.pending_chan (s : State) (l : List Instr) (k : Nat) : ({ s with pending := l } : State).chan k = s.chan k := rfl

@[simp] theorem State.reset_chan (k : Nat) : State.reset.chan k = Chan.fresh k := rfl

/-! ### The device blocks -/

theorem Dev.wr_rd (d : Dev) (off o : Nat) (w : Word) : (d.wr off w).rd o = if o = off then w else d.rd o := by
  simp only [Dev.rd, Dev.wr]
  by_cases h : o = off
  · subst h; simp
  · rw [if_neg h, tblGet, tblGet, tblPut]
    split_ifs <;> simp [tblFind_ins, tblFind_del, h]

@[simp] theorem Dev.wr_xclk (d : Dev) (off : Nat) (w : Word) : (d.wr off w).xclk = d.xclk := rfl
@[simp] theorem Dev.wr_time (d : Dev) (off : Nat) (w : Word) : (d.wr off w).time = d.time := rfl
@[simp] theorem Dev.wr_ev (d : Dev) (off : Nat) (w : Word) : (d.wr off w).ev = d.ev := rfl
@[simp] theorem Dev.wr_msix (d : Dev) (off : Nat) (w : Word) : (d.wr off w).msix = d.msix := rfl
@[simp] theorem Dev.wr_slots (d : Dev) (off : Nat) (w : Word) : (d.wr off w).slots = d.slots := rfl
@[simp] theorem Dev.wr_mlGen (d : Dev) (off : Nat) (w : Word) : (d.wr off w).mlGen = d.mlGen := rfl
@[simp] theorem Dev.wr_svc (d : Dev) (off : Nat) (w : Word) : (d.wr off w).svc = d.svc := rfl
@[simp] theorem Dev.wr_doe (d : Dev) (off : Nat) (w : Word) : (d.wr off w).doe = d.doe := rfl
@[simp] theorem Dev.wr_mctp (d : Dev) (off : Nat) (w : Word) : (d.wr off w).mctp = d.mctp := rfl
@[simp] theorem Dev.wr_gpio (d : Dev) (off : Nat) (w : Word) : (d.wr off w).gpio = d.gpio := rfl
@[simp] theorem Dev.wr_por (d : Dev) (off : Nat) (w : Word) : (d.wr off w).por = d.por := rfl
@[simp] theorem Dev.wr_perst (d : Dev) (off : Nat) (w : Word) : (d.wr off w).perst = d.perst := rfl
@[simp] theorem Dev.wr_tapReset (d : Dev) (off : Nat) (w : Word) : (d.wr off w).tapReset = d.tapReset := rfl
@[simp] theorem Dev.wr_clk32 (d : Dev) (off : Nat) (w : Word) : (d.wr off w).clk32 = d.clk32 := rfl
@[simp] theorem Dev.wr_recovery (d : Dev) (off : Nat) (w : Word) : (d.wr off w).recovery = d.recovery := rfl
@[simp] theorem Dev.wr_linkUp (d : Dev) (off : Nat) (w : Word) : (d.wr off w).linkUp = d.linkUp := rfl
@[simp] theorem Dev.wr_tripAlert (d : Dev) (off : Nat) (w : Word) : (d.wr off w).tripAlert = d.tripAlert := rfl
@[simp] theorem Dev.wr_chFail (d : Dev) (off : Nat) (w : Word) : (d.wr off w).chFail = d.chFail := rfl
@[simp] theorem Dev.wr_step (d : Dev) (off : Nat) (w : Word) : (d.wr off w).step = d.step := rfl
@[simp] theorem Dev.wr_boot (d : Dev) (off : Nat) (w : Word) : (d.wr off w).boot = d.boot := rfl
@[simp] theorem Dev.wr_svBank (d : Dev) (off : Nat) (w : Word) : (d.wr off w).svBank = d.svBank := rfl
@[simp] theorem Dev.wr_above90 (d : Dev) (off : Nat) (w : Word) : (d.wr off w).above90 = d.above90 := rfl
@[simp] theorem Dev.wr_above90s (d : Dev) (off : Nat) (w : Word) : (d.wr off w).above90s = d.above90s := rfl
@[simp] theorem Dev.wr_warn (d : Dev) (off : Nat) (w : Word) : (d.wr off w).warn = d.warn := rfl
@[simp] theorem Dev.wr_warnNow (d : Dev) (off : Nat) (w : Word) : (d.wr off w).warnNow = d.warnNow := rfl
@[simp] theorem Dev.wr_tjSum (d : Dev) (off : Nat) (w : Word) : (d.wr off w).tjSum = d.tjSum := rfl
@[simp] theorem Dev.wr_tjCount (d : Dev) (off : Nat) (w : Word) : (d.wr off w).tjCount = d.tjCount := rfl
@[simp] theorem Dev.wr_tjHot (d : Dev) (off : Nat) (w : Word) : (d.wr off w).tjHot = d.tjHot := rfl
@[simp] theorem Dev.wr_tj105 (d : Dev) (off : Nat) (w : Word) : (d.wr off w).tj105 = d.tj105 := rfl
@[simp] theorem Dev.wr_tripped (d : Dev) (off : Nat) (w : Word) : (d.wr off w).tripped = d.tripped := rfl
@[simp] theorem Dev.wr_lowMs (d : Dev) (off : Nat) (w : Word) : (d.wr off w).lowMs = d.lowMs := rfl
@[simp] theorem Dev.wr_limOrder (d : Dev) (off : Nat) (w : Word) : (d.wr off w).limOrder = d.limOrder := rfl
@[simp] theorem Dev.wr_readData (d : Dev) (off : Nat) (w : Word) : (d.wr off w).readData = d.readData := rfl
@[simp] theorem Dev.wr_out (d : Dev) (off : Nat) (w : Word) : (d.wr off w).out = d.out := rfl
@[simp] theorem Dev.raise_xclk (d : Dev) (src : Nat) : (d.raise src).xclk = d.xclk := rfl
@[simp] theorem Dev.raise_time (d : Dev) (src : Nat) : (d.raise src).time = d.time := rfl
@[simp] theorem Dev.raise_regs (d : Dev) (src : Nat) : (d.raise src).regs = d.regs := rfl
@[simp] theorem Dev.raise_msix (d : Dev) (src : Nat) : (d.raise src).msix = d.msix := rfl
@[simp] theorem Dev.raise_slots (d : Dev) (src : Nat) : (d.raise src).slots = d.slots := rfl
@[simp] theorem Dev.raise_mlGen (d : Dev) (src : Nat) : (d.raise src).mlGen = d.mlGen := rfl
@[simp] theorem Dev.raise_svc (d : Dev) (src : Nat) : (d.raise src).svc = d.svc := rfl
@[simp] theorem Dev.raise_doe (d : Dev) (src : Nat) : (d.raise src).doe = d.doe := rfl
@[simp] theorem Dev.raise_mctp (d : Dev) (src : Nat) : (d.raise src).mctp = d.mctp := rfl
@[simp] theorem Dev.raise_gpio (d : Dev) (src : Nat) : (d.raise src).gpio = d.gpio := rfl
@[simp] theorem Dev.raise_por (d : Dev) (src : Nat) : (d.raise src).por = d.por := rfl
@[simp] theorem Dev.raise_perst (d : Dev) (src : Nat) : (d.raise src).perst = d.perst := rfl
@[simp] theorem Dev.raise_tapReset (d : Dev) (src : Nat) : (d.raise src).tapReset = d.tapReset := rfl
@[simp] theorem Dev.raise_clk32 (d : Dev) (src : Nat) : (d.raise src).clk32 = d.clk32 := rfl
@[simp] theorem Dev.raise_recovery (d : Dev) (src : Nat) : (d.raise src).recovery = d.recovery := rfl
@[simp] theorem Dev.raise_linkUp (d : Dev) (src : Nat) : (d.raise src).linkUp = d.linkUp := rfl
@[simp] theorem Dev.raise_tripAlert (d : Dev) (src : Nat) : (d.raise src).tripAlert = d.tripAlert := rfl
@[simp] theorem Dev.raise_chFail (d : Dev) (src : Nat) : (d.raise src).chFail = d.chFail := rfl
@[simp] theorem Dev.raise_step (d : Dev) (src : Nat) : (d.raise src).step = d.step := rfl
@[simp] theorem Dev.raise_boot (d : Dev) (src : Nat) : (d.raise src).boot = d.boot := rfl
@[simp] theorem Dev.raise_svBank (d : Dev) (src : Nat) : (d.raise src).svBank = d.svBank := rfl
@[simp] theorem Dev.raise_above90 (d : Dev) (src : Nat) : (d.raise src).above90 = d.above90 := rfl
@[simp] theorem Dev.raise_above90s (d : Dev) (src : Nat) : (d.raise src).above90s = d.above90s := rfl
@[simp] theorem Dev.raise_warn (d : Dev) (src : Nat) : (d.raise src).warn = d.warn := rfl
@[simp] theorem Dev.raise_warnNow (d : Dev) (src : Nat) : (d.raise src).warnNow = d.warnNow := rfl
@[simp] theorem Dev.raise_tjSum (d : Dev) (src : Nat) : (d.raise src).tjSum = d.tjSum := rfl
@[simp] theorem Dev.raise_tjCount (d : Dev) (src : Nat) : (d.raise src).tjCount = d.tjCount := rfl
@[simp] theorem Dev.raise_tjHot (d : Dev) (src : Nat) : (d.raise src).tjHot = d.tjHot := rfl
@[simp] theorem Dev.raise_tj105 (d : Dev) (src : Nat) : (d.raise src).tj105 = d.tj105 := rfl
@[simp] theorem Dev.raise_tripped (d : Dev) (src : Nat) : (d.raise src).tripped = d.tripped := rfl
@[simp] theorem Dev.raise_lowMs (d : Dev) (src : Nat) : (d.raise src).lowMs = d.lowMs := rfl
@[simp] theorem Dev.raise_limOrder (d : Dev) (src : Nat) : (d.raise src).limOrder = d.limOrder := rfl
@[simp] theorem Dev.raise_readData (d : Dev) (src : Nat) : (d.raise src).readData = d.readData := rfl
@[simp] theorem Dev.raise_out (d : Dev) (src : Nat) : (d.raise src).out = d.out := rfl
@[simp] theorem Dev.raise_rd (d : Dev) (src o : Nat) : (d.raise src).rd o = d.rd o := rfl

end Sys2Proof.Machine
end

