-- ==== Sys2Proof/Laws/Fields.lean ====
section
/-! SUPPORT. The laws of bit fields, and of the fields of a register after a write of one. -/

namespace Sys2Proof.Machine

theorem bitsOf_lt (w lo len : Nat) : bitsOf w lo len < 2 ^ len := Nat.mod_lt _ (by positivity)

theorem wbits_lt (w : Word) (lo len : Nat) : wbits w lo len < 2 ^ len := bitsOf_lt _ _ _

/-- A number is what lies above a field, the field, and what lies below it. -/
theorem bitsOf_split (w lo len : Nat) : w = (w / 2 ^ (lo + len)) * 2 ^ (lo + len) + bitsOf w lo len * 2 ^ lo + w % 2 ^ lo := by
  have h1 : w = (w / 2 ^ lo) * 2 ^ lo + w % 2 ^ lo := (Nat.div_add_mod' w (2 ^ lo)).symm
  have h2 : w / 2 ^ lo = (w / 2 ^ lo / 2 ^ len) * 2 ^ len + w / 2 ^ lo % 2 ^ len := (Nat.div_add_mod' _ (2 ^ len)).symm
  have h3 : w / 2 ^ lo / 2 ^ len = w / 2 ^ (lo + len) := by rw [Nat.div_div_eq_div_mul, Nat.pow_add]
  simp only [bitsOf, Nat.shiftRight_eq_div_pow]
  rw [h3] at h2
  conv_lhs => rw [h1, h2]
  ring

/-- The number a word holds after a write of a field. -/
theorem setBits_toNat (w : Word) (lo len v : Nat) (h : lo + len ≤ 64) :
    (setBits w lo len v).toNat = (w.toNat / 2 ^ (lo + len)) * 2 ^ (lo + len) + v % 2 ^ len * 2 ^ lo + w.toNat % 2 ^ lo := by
  have hs := bitsOf_split w.toNat lo len
  have hv : v % 2 ^ len < 2 ^ len := Nat.mod_lt _ (by positivity)
  have hw := w.isLt
  have hd : w.toNat / 2 ^ (lo + len) + 1 ≤ 2 ^ (64 - (lo + len)) := by
    apply Nat.div_lt_of_lt_mul
    rw [← Nat.pow_add]
    have : lo + len + (64 - (lo + len)) = 64 := by omega
    rw [this]; exact hw
  have hm : (v % 2 ^ len + 1) * 2 ^ lo ≤ 2 ^ (lo + len) := by
    rw [Nat.pow_add, Nat.mul_comm (2 ^ lo)]; exact Nat.mul_le_mul_right _ hv
  have hl : w.toNat % 2 ^ lo < 2 ^ lo := Nat.mod_lt _ (by positivity)
  have ht : (w.toNat / 2 ^ (lo + len) + 1) * 2 ^ (lo + len) ≤ 2 ^ 64 := by
    have : 2 ^ (64 - (lo + len)) * 2 ^ (lo + len) = 2 ^ 64 := by rw [← Nat.pow_add]; congr 1; omega
    calc _ ≤ 2 ^ (64 - (lo + len)) * 2 ^ (lo + len) := Nat.mul_le_mul_right _ hd
      _ = 2 ^ 64 := this
  have he : w.toNat - bitsOf w.toNat lo len * 2 ^ lo = (w.toNat / 2 ^ (lo + len)) * 2 ^ (lo + len) + w.toNat % 2 ^ lo := by omega
  rw [Nat.add_mul, Nat.one_mul] at hm ht
  simp only [setBits, BitVec.toNat_ofNat, he]
  rw [Nat.mod_eq_of_lt (by omega)]
  omega

/-- The field written reads its value, modulo its width. -/
theorem wbits_setBits (w : Word) (lo len v : Nat) (h : lo + len ≤ 64) : wbits (setBits w lo len v) lo len = v % 2 ^ len := by
  have hl : w.toNat % 2 ^ lo < 2 ^ lo := Nat.mod_lt _ (by positivity)
  simp only [wbits, setBits_toNat w lo len v h, bitsOf, Nat.shiftRight_eq_div_pow]
  have : (w.toNat / 2 ^ (lo + len) * 2 ^ (lo + len) + v % 2 ^ len * 2 ^ lo + w.toNat % 2 ^ lo)
      = w.toNat % 2 ^ lo + 2 ^ lo * (v % 2 ^ len + 2 ^ len * (w.toNat / 2 ^ (lo + len))) := by rw [Nat.pow_add]; ring
  rw [this, Nat.add_mul_div_left _ _ (by positivity), Nat.div_eq_of_lt hl, Nat.zero_add, Nat.add_mul_mod_self_left, Nat.mod_mod]

/-- A field above the one written keeps its value. -/
theorem wbits_setBits_above (w : Word) (lo len v a n : Nat) (h : lo + len ≤ a) (hw : lo + len ≤ 64) :
    wbits (setBits w lo len v) a n = wbits w a n := by
  have hv : v % 2 ^ len < 2 ^ len := Nat.mod_lt _ (by positivity)
  have hl : w.toNat % 2 ^ lo < 2 ^ lo := Nat.mod_lt _ (by positivity)
  have hm : (v % 2 ^ len + 1) * 2 ^ lo ≤ 2 ^ (lo + len) := by
    rw [Nat.pow_add, Nat.mul_comm (2 ^ lo)]; exact Nat.mul_le_mul_right _ hv
  rw [Nat.add_mul, Nat.one_mul] at hm
  simp only [wbits, setBits_toNat w lo len v hw, bitsOf, Nat.shiftRight_eq_div_pow]
  have key : ∀ x : Nat, x / 2 ^ a = x / 2 ^ (lo + len) / 2 ^ (a - (lo + len)) := by
    intro x; rw [Nat.div_div_eq_div_mul, ← Nat.pow_add]; congr 2; omega
  rw [key, key w.toNat]
  congr 2
  have : (w.toNat / 2 ^ (lo + len) * 2 ^ (lo + len) + v % 2 ^ len * 2 ^ lo + w.toNat % 2 ^ lo)
      = (v % 2 ^ len * 2 ^ lo + w.toNat % 2 ^ lo) + 2 ^ (lo + len) * (w.toNat / 2 ^ (lo + len)) := by ring
  rw [this, Nat.add_mul_div_left _ _ (by positivity), Nat.div_eq_of_lt (by omega), Nat.zero_add]

/-- A field below the one written keeps its value. -/
theorem wbits_setBits_below (w : Word) (lo len v a n : Nat) (h : a + n ≤ lo) (hw : lo + len ≤ 64) :
    wbits (setBits w lo len v) a n = wbits w a n := by
  have key : ∀ x : Nat, x / 2 ^ a % 2 ^ n = x % 2 ^ lo / 2 ^ a % 2 ^ n := by
    intro x
    have : 2 ^ lo = 2 ^ (a + n) * 2 ^ (lo - (a + n)) := by rw [← Nat.pow_add]; congr 1; omega
    have h2 : x % 2 ^ lo % 2 ^ (a + n) = x % 2 ^ (a + n) := by rw [this, Nat.mod_mul_right_mod]
    rw [← Nat.mod_mul_right_div_self x, ← Nat.mod_mul_right_div_self (x % 2 ^ lo), ← Nat.pow_add, h2]
  simp only [wbits, setBits_toNat w lo len v hw, bitsOf, Nat.shiftRight_eq_div_pow]
  rw [key, key w.toNat]
  congr 2
  have : (w.toNat / 2 ^ (lo + len) * 2 ^ (lo + len) + v % 2 ^ len * 2 ^ lo + w.toNat % 2 ^ lo)
      = w.toNat % 2 ^ lo + 2 ^ lo * (v % 2 ^ len + 2 ^ len * (w.toNat / 2 ^ (lo + len))) := by rw [Nat.pow_add]; ring
  rw [this, Nat.add_mul_mod_self_left, Nat.mod_mod]

/-! ## Fields of a channel's registers -/

theorem Chan.fld_lt (c : Chan) (f : Fd) : c.fld f < 2 ^ f.len := wbits_lt _ _ _

/-- The field written reads its value, modulo its width. -/
theorem Chan.fld_setFld (c : Chan) (f : Fd) (v : Nat) (h : f.lo + f.len ≤ 64) : (c.setFld f v).fld f = v % 2 ^ f.len := by
  simp only [Chan.fld, Chan.setFld, Chan.wr_rd, if_true]
  exact wbits_setBits _ _ _ _ h

/-- A field of another register, or of other bits, keeps its value. -/
theorem Chan.fld_setFld_ne (c : Chan) (f g : Fd) (v : Nat) (hf : f.lo + f.len ≤ 64)
    (h : g.off ≠ f.off ∨ g.lo + g.len ≤ f.lo ∨ f.lo + f.len ≤ g.lo) : (c.setFld f v).fld g = c.fld g := by
  simp only [Chan.fld, Chan.setFld, Chan.wr_rd]
  by_cases ho : g.off = f.off
  · rw [if_pos ho, ho]
    rcases h with h | h | h
    · exact absurd ho h
    · exact wbits_setBits_below _ _ _ _ _ _ h hf
    · exact wbits_setBits_above _ _ _ _ _ _ h hf
  · rw [if_neg ho]

/-- A saturating counter after it has counted n. -/
theorem Chan.fld_addSat (c : Chan) (f : Fd) (n : Nat) (h : f.lo + f.len ≤ 64) :
    (c.addSat f n).fld f = min (2 ^ f.len - 1) (c.fld f + n) := by
  have : 0 < 2 ^ f.len := by positivity
  rw [Chan.addSat, Chan.fld_setFld c f _ h, Nat.mod_eq_of_lt (by omega)]

theorem Chan.fld_inc (c : Chan) (f : Fd) (h : f.lo + f.len ≤ 64) : (c.inc f).fld f = min (2 ^ f.len - 1) (c.fld f + 1) :=
  Chan.fld_addSat c f 1 h

end Sys2Proof.Machine
end

