-- ==== Sys2Proof/Laws/Fire.lean ====
section
/-! SUPPORT. A firing of a duet and an instruction of a caller: where the next firing stands, what its execution puts there, and the
registers of a caller after a result. -/

namespace Sys2Proof.Machine

theorem findIdx?_split {α : Type} (p : α → Bool) (a : List α) (x : α) (b : List α) (h : ∀ y ∈ a, p y = false) (hx : p x = true) :
    (a ++ x :: b).findIdx? p = some a.length := by
  induction a with
  | nil => simp [List.findIdx?_cons, hx]
  | cons y a ih =>
    have := ih (fun z hz => h z (List.mem_cons_of_mem _ hz))
    simp [List.findIdx?_cons, h y (by simp), this]

/-- The next firing is the first one that has not executed. -/
theorem nextFiring_at {ws vs : List Win} {w : Win} {fs gs : List Firing} {f : Firing} (hf : w.firings = fs ++ f :: gs)
    (hb : ∀ v ∈ ws, ∀ g ∈ v.firings, g.lead.isSome = true) (hp : ∀ g ∈ fs, g.lead.isSome = true) (hd : f.lead = none) :
    nextFiring (ws ++ w :: vs) = some (ws.length, fs.length) := by
  have h1 : (ws ++ w :: vs).findIdx? (fun w => w.firings.any (fun f => f.lead.isNone)) = some ws.length := by
    apply findIdx?_split
    · intro y hy
      simp only [List.any_eq_false]
      intro g hg
      have := hb y hy g hg
      cases hl : g.lead <;> simp_all
    · simp [hf, hd]
  have h2 : (fs ++ f :: gs).findIdx? (fun f : Firing => f.lead.isNone) = some fs.length := by
    apply findIdx?_split
    · intro y hy
      have := hp y hy
      cases hl : y.lead <;> simp_all
    · simp [hd]
  have h3 : (ws ++ w :: vs).getD ws.length { wseq := 0 } = w := by simp [List.getD]
  simp only [nextFiring, findIx, h1, h3, hf, h2]

/-- What the execution of a firing leaves in its channel. -/
theorem fireDuet_at {c : Chan} {d : Nat} {ws vs : List Win} {w : Win} {fs gs : List Firing} {f : Firing}
    (h : FiringAt c d ws w fs f gs vs) (rnd : Word) (ok : Word → Bool) (hok : ok f.pkt.instr = true) (v : In → Val) :
    fireDuet c d rnd ok v = firedChan c d ws w fs (ranFiring c w f rnd v) gs vs := by
  obtain ⟨hw, hf, hb, hp, hd⟩ := h
  simp only [fireDuet, hw, nextFiring_at hf hb hp hd]
  have h3 : (ws ++ w :: vs).getD ws.length { wseq := 0 } = w := by simp [List.getD]
  have h4 : w.firings[fs.length]? = some f := by simp [hf]
  simp only [h3, h4, hok, if_true]
  simp [putFiring, firedChan, setNth, hf, runFiring, ranFiring]

/-- A row of the tables of Safety.lean holds where its command fires its value. -/
theorem FireRow.holds_of {r : FireRow} {v : In → Val} (hv : v = r.v)
    (hc : ∀ k d s, exec (r.cmd k d) s = onCh k s (fire r.op v (.duet d) 0)) : r.holds := by
  intro s k d ws w fs f gs vs h ho
  rw [hc, onCh]
  simp only [fire]
  rw [fireDuet_at h _ _ ho, hv]

/-! ## Integer results -/

theorem narrow64_add (l r : Word) : narrow64 (l.toInt + r.toInt) = ⟨l + r, flIf (l.saddOverflow r) flIOV⟩ := by
  have h : outside64 (l.toInt + r.toInt) = l.saddOverflow r := by
    simp only [outside64, BitVec.saddOverflow]
    rw [Bool.eq_iff_iff]; simp; omega
  simp [narrow64, h, BitVec.ofInt_add]

theorem narrow64_sub (l r : Word) : narrow64 (l.toInt - r.toInt) = ⟨l - r, flIf (l.ssubOverflow r) flIOV⟩ := by
  have h : outside64 (l.toInt - r.toInt) = l.ssubOverflow r := by
    simp only [outside64, BitVec.ssubOverflow]
    rw [Bool.eq_iff_iff]; simp; omega
  have h2 : BitVec.ofInt 64 (l.toInt - r.toInt) = l - r := by
    apply BitVec.eq_of_toInt_eq; simp [BitVec.toInt_sub]
  simp [narrow64, h, h2]

theorem narrow64_mul (l r : Word) : narrow64 (l.toInt * r.toInt) = ⟨l * r, flIf (l.smulOverflow r) flIOV⟩ := by
  have h : outside64 (l.toInt * r.toInt) = l.smulOverflow r := by
    simp only [outside64, BitVec.smulOverflow]
    rw [Bool.eq_iff_iff]; simp; omega
  simp [narrow64, h, BitVec.ofInt_mul]

theorem mulhu_eq (l r : Word) :
    (l.zeroExtend 128 * r.zeroExtend 128).extractLsb' 64 64 = BitVec.ofNat 64 ((l.toNat * r.toNat) / 2 ^ 64) := by
  apply BitVec.eq_of_toNat_eq
  have hl := l.isLt
  have hr := r.isLt
  have : l.toNat * r.toNat < 2 ^ 128 := by nlinarith
  simp [BitVec.toNat_mul, Nat.shiftRight_eq_div_pow]
  rw [Nat.mod_eq_of_lt (by omega), Nat.mod_eq_of_lt (by omega), Nat.mod_eq_of_lt (by omega)]

theorem mulh_eq (l r : Word) :
    (l.signExtend 128 * r.signExtend 128).extractLsb' 64 64 = BitVec.ofInt 64 ((l.toInt * r.toInt) / 2 ^ 64) := by
  have e : (l.signExtend 128 * r.signExtend 128) = BitVec.ofInt 128 (l.toInt * r.toInt) := by
    rw [BitVec.ofInt_mul]; congr 1
  rw [e]
  apply BitVec.eq_of_toNat_eq
  simp [Nat.shiftRight_eq_div_pow]
  omega

/-! ## Registers of a caller -/

/-- A register after a write of one: w0 discards. -/
theorem Caller.bankReg_set (x : Caller) (f g : Bool) (i j : Nat) (v : Reg) :
    (x.setBankReg f i v).bankReg g j = if g = f ∧ j ≠ 0 ∧ j = i then v else x.bankReg g j := by
  simp only [Caller.setBankReg, Caller.bankReg]
  by_cases hi : i = 0
  · simp [hi]
  · by_cases hj : j = 0
    · simp [hj]
    · cases f <;> cases g <;> simp [hi, hj, tblGet_put]

/-- A register after a result. -/
theorem Caller.result_bankReg (x : Caller) (i : Nat) (v : Reg) (g : Bool) (j : Nat) :
    (x.result i v).bankReg g j = if g = x.fastBank ∧ j ≠ 0 ∧ j = i then v else x.bankReg g j := by
  have h : (x.result i v).bankReg g j = (x.setBankReg x.fastBank i v).bankReg g j := rfl
  rw [h, Caller.bankReg_set]

/-- A result changes the two banks, and with them which registers differ in the Follow and which requests it makes useless. -/
theorem Caller.result_rest (x : Caller) (i : Nat) (v : Reg) : ∃ a b t r, x.result i v = { x with normal := a, fast := b, follow := t, reqs := r } := by
  have h : ∃ a b, x.setBankReg x.fastBank i v = { x with normal := a, fast := b } := by
    simp only [Caller.setBankReg]; split_ifs <;> exact ⟨_, _, rfl⟩
  obtain ⟨a, b, h⟩ := h
  exact ⟨a, b, _, _, by simp only [Caller.result, Caller.bankResult, h]; rfl⟩

end Sys2Proof.Machine
end

