-- ==== Sys2Proof/Laws/Memory.lean ====
section
/-! SUPPORT. The laws of memory: reads after writes of bytes and words, and the canonical form that every operation on memory keeps. -/

namespace Sys2Proof.Machine

theorem Memory.wf_iff (m : List Host.Cell) : Memory.wf m = true ↔ tblSorted m = true ∧ ∀ e ∈ m, e.2 ≠ memDefault := by
  simp [Memory.wf]

/-! ## Reads after writes -/

theorem memByte_putByte (m : List Host.Cell) (a x : Nat) (b : Byte) :
    memByte (memPutByte m a b) x = if x = a then b else memByte m x := tblGet_put m a x b memDefault

/-- A byte after a write of bytes: the byte written where the write reaches, the old one elsewhere. -/
theorem memByte_putBytes (bs : List Byte) : ∀ (m : List Host.Cell) (a x : Nat),
    memByte (memPutBytes m a bs) x = if a ≤ x ∧ x < a + bs.length then bs.getD (x - a) 0 else memByte m x := by
  induction bs with
  | nil => intro m a x; simp [memPutBytes]
  | cons b r ih =>
    intro m a x
    simp only [memPutBytes, ih, memByte_putByte, List.length_cons]
    by_cases h : x = a
    · subst h; simp
    · by_cases h2 : a + 1 ≤ x ∧ x < a + 1 + r.length
      · have : x - a = (x - (a + 1)) + 1 := by omega
        rw [if_pos h2, if_pos (by omega), this]; simp
      · rw [if_neg h2, if_neg h, if_neg (by omega)]

theorem memBytes_length (n : Nat) : ∀ (m : List Host.Cell) (a : Nat), (memBytes m a n).length = n := by
  induction n with
  | zero => intro m a; rfl
  | succ n ih => intro m a; simp [memBytes, ih]

theorem memBytes_getD (n : Nat) : ∀ (m : List Host.Cell) (a i : Nat) (d : Byte), i < n → (memBytes m a n).getD i d = memByte m (a + i) := by
  induction n with
  | zero => intro m a i d h; omega
  | succ n ih =>
    intro m a i d h
    cases i with
    | zero => simp [memBytes]
    | succ i => have := ih m (a + 1) i d (by omega); simpa [memBytes, Nat.add_assoc, Nat.add_comm 1 i] using this

/-- Bytes read depend on the bytes of their addresses only. -/
theorem memBytes_congr (n : Nat) : ∀ (m k : List Host.Cell) (a : Nat), (∀ i, i < n → memByte m (a + i) = memByte k (a + i)) →
    memBytes m a n = memBytes k a n := by
  induction n with
  | zero => intro m k a h; rfl
  | succ n ih =>
    intro m k a h
    have h0 := h 0 (by omega)
    simp only [Nat.add_zero] at h0
    simp only [memBytes, h0]
    congr 1
    apply ih
    intro i hi
    have := h (i + 1) (by omega)
    simpa [Nat.add_assoc, Nat.add_comm 1 i] using this

/-- Bytes written read back. -/
theorem memBytes_putBytes (bs : List Byte) (m : List Host.Cell) (a : Nat) : memBytes (memPutBytes m a bs) a bs.length = bs := by
  apply List.ext_getElem
  · simp [memBytes_length]
  · intro i h1 h2
    have h3 := memBytes_getD bs.length (memPutBytes m a bs) a i 0 h2
    rw [memByte_putBytes, if_pos (by omega)] at h3
    simpa [List.getD_eq_getElem?_getD, h2, h1] using h3

theorem valBytes_length (n : Nat) : ∀ v : Nat, (valBytes v n).length = n := by
  induction n with
  | zero => intro v; rfl
  | succ n ih => intro v; simp [valBytes, ih]

theorem bytesVal_valBytes (n : Nat) : ∀ v : Nat, bytesVal (valBytes v n) = v % 2 ^ (8 * n) := by
  induction n with
  | zero => intro v; simp [valBytes, bytesVal, Nat.mod_one]
  | succ n ih =>
    intro v
    simp only [valBytes, bytesVal, ih, BitVec.toNat_ofNat]
    have h : 2 ^ (8 * (n + 1)) = 256 * 2 ^ (8 * n) := by rw [Nat.mul_add, Nat.pow_add]; norm_num [Nat.mul_comm]
    rw [h, Nat.mod_mul]

/-- A word written reads back. -/
theorem Chan.rdWord_wrWord (c : Chan) (a : Nat) (w : Word) : (c.wrWord a w).rdWord a = w := by
  have h := memBytes_putBytes (valBytes w.toNat 8) c.mem a
  rw [valBytes_length] at h
  simp only [Chan.rdWord, Chan.wrWord, h, bytesVal_valBytes]
  exact BitVec.eq_of_toNat_eq (by simp [w.isLt])

/-- A write of a word leaves the bytes outside it. -/
theorem Chan.memByte_wrWord (c : Chan) (a x : Nat) (w : Word) (h : x < a ∨ a + 8 ≤ x) :
    memByte (c.wrWord a w).mem x = memByte c.mem x := by
  simp only [Chan.wrWord, memByte_putBytes, valBytes_length]
  rw [if_neg (by omega)]

/-- A word that a write of a word does not touch reads as before. -/
theorem Chan.rdWord_wrWord_ne (c : Chan) (a b : Nat) (w : Word) (h : b + 8 ≤ a ∨ a + 8 ≤ b) : (c.wrWord a w).rdWord b = c.rdWord b := by
  simp only [Chan.rdWord]
  rw [memBytes_congr 8 _ c.mem b (fun i hi => Chan.memByte_wrWord c a (b + i) w (by omega))]

theorem memByte_filter (m : List Host.Cell) (p : Nat → Bool) (x : Nat) :
    memByte (m.filter (fun e => p e.1)) x = if p x then memByte m x else memDefault := by
  simp only [memByte, tblGet]
  induction m with
  | nil => simp [tblFind]
  | cons e r ih =>
    obtain ⟨i, b⟩ := e
    by_cases hi : i = x
    · subst hi
      by_cases hp : p i = true
      · simp [hp, tblFind]
      · simp only [List.filter_cons, hp] at ih ⊢; simpa using ih
    · by_cases hp : p i = true
      · simpa [List.filter_cons, hp, tblFind, hi] using ih
      · simpa [List.filter_cons, hp, tblFind, hi] using ih

/-! ## The canonical form -/

theorem Memory.wf_putByte (m : List Host.Cell) (a : Nat) (b : Byte) (h : Memory.wf m = true) : Memory.wf (memPutByte m a b) = true := by
  rw [Memory.wf_iff] at *
  exact ⟨tblSorted_put m a b memDefault h.1, tblPut_ne_default m a b memDefault h.2⟩

theorem Memory.wf_putBytes (bs : List Byte) : ∀ (m : List Host.Cell) (a : Nat), Memory.wf m = true → Memory.wf (memPutBytes m a bs) = true := by
  induction bs with
  | nil => intro m a h; exact h
  | cons b r ih => intro m a h; exact ih _ _ (Memory.wf_putByte m a b h)

theorem Memory.wf_filter (m : List Host.Cell) (p : Host.Cell → Bool) (h : Memory.wf m = true) : Memory.wf (m.filter p) = true := by
  rw [Memory.wf_iff] at *
  exact ⟨tblSorted_filter m p h.1, fun e he => h.2 e (List.mem_of_mem_filter he)⟩

theorem Chan.wf_wrWord (c : Chan) (a : Nat) (w : Word) (h : Memory.wf c.mem = true) : Memory.wf (c.wrWord a w).mem = true :=
  Memory.wf_putBytes _ _ _ h

/-! ## The cells of an address (R365) -/

/-- An address outside the scratchpad has its own cell alone. -/
theorem Chan.spots_of_ge (c : Chan) (a : Nat) (h : scratchSize ≤ a) : c.spots a = (a, none) := by
  rw [Chan.spots, if_pos h]

/-- The cells of an address depend on the Shuffle alone. -/
theorem Chan.spots_congr (c d : Chan) (a : Nat) (h : d.sp.shuf = c.sp.shuf) : d.spots a = c.spots a := by
  simp only [Chan.spots, h]

theorem Chan.byteAt_of_ge (c : Chan) (a : Nat) (h : scratchSize ≤ a) : c.byteAt a = memByte c.mem a := by
  rw [Chan.byteAt, Chan.spot, c.spots_of_ge a h]

theorem Chan.markWord_mem (c : Chan) (a : Nat) (p : Bool) : (c.markWord a p).mem = c.mem := by
  simp only [Chan.markWord]
  split <;> rfl

theorem Chan.wf_putWord (c : Chan) (a : Nat) (w : Word) (h : Memory.wf c.mem = true) : Memory.wf (c.putWord a w).mem = true := by
  simp only [Chan.putWord]
  split
  · exact c.wf_wrWord _ _ h
  · exact Chan.wf_wrWord _ _ _ (c.wf_wrWord _ _ h)

theorem Chan.wf_putBytesAt (c : Chan) (bs : List Byte) : ∀ (m : List Host.Cell) (a : Nat), Memory.wf m = true →
    Memory.wf (c.putBytesAt m a bs) = true := by
  induction bs with
  | nil => intro m a h; exact h
  | cons b r ih =>
    intro m a h
    simp only [Chan.putBytesAt]
    split
    · exact ih _ _ (Memory.wf_putByte _ _ _ h)
    · exact ih _ _ (Memory.wf_putByte _ _ _ (Memory.wf_putByte _ _ _ h))

/-- A write of bytes outside the scratchpad is one to their own cells. -/
theorem Chan.putBytesAt_of_ge (c : Chan) (bs : List Byte) : ∀ (m : List Host.Cell) (a : Nat), scratchSize ≤ a →
    c.putBytesAt m a bs = memPutBytes m a bs := by
  induction bs with
  | nil => intro m a h; rfl
  | cons b r ih =>
    intro m a h
    simp only [Chan.putBytesAt, c.spots_of_ge a h, memPutBytes]
    exact ih _ _ (by omega)

/-- A write of bytes leaves every cell that is none of theirs. -/
theorem Chan.memByte_putBytesAt (c : Chan) (bs : List Byte) (x : Nat) : ∀ (m : List Host.Cell) (a : Nat),
    (∀ i, i < bs.length → x ≠ (c.spots (a + i)).1 ∧ some x ≠ (c.spots (a + i)).2) → memByte (c.putBytesAt m a bs) x = memByte m x := by
  induction bs with
  | nil => intro m a h; rfl
  | cons b r ih =>
    intro m a h
    have h0 := h 0 (by simp)
    have hr : ∀ i, i < r.length → x ≠ (c.spots (a + 1 + i)).1 ∧ some x ≠ (c.spots (a + 1 + i)).2 := by
      intro i hi
      have := h (i + 1) (by simp; omega)
      rwa [show a + (i + 1) = a + 1 + i by omega] at this
    simp only [Nat.add_zero] at h0
    simp only [Chan.putBytesAt]
    split
    · next y e => rw [ih _ _ hr, memByte_putByte, if_neg (by rw [e] at h0; exact h0.1)]
    · next y z e =>
      rw [e] at h0
      rw [ih _ _ hr, memByte_putByte, memByte_putByte, if_neg (fun q => h0.2 (congrArg some q)), if_neg h0.1]

theorem Chan.storePoison_mem (c : Chan) (a : Nat) (ps : List Bool) (w : Nat) : (c.storePoison a ps w).mem = c.mem := by
  simp only [Chan.storePoison]
  split_ifs
  · exact c.markWord_mem _ _
  · exact c.markWord_mem _ _
  · rfl

/-- A write of bytes with their poison changes memory as the write of the bytes does. -/
theorem Chan.writeBytes_mem (c : Chan) (a : Nat) (bs : List Byte) (ps : List Bool) :
    (c.writeBytes a bs ps).mem = c.putBytesAt c.mem a bs := by
  have h : ∀ (l : List Nat) (d : Chan), (l.foldl (fun (c : Chan) i => c.storePoison a ps ((a / 8 + i) * 8)) d).mem = d.mem := by
    intro l
    induction l with
    | nil => intro d; rfl
    | cons i l ih => intro d; rw [List.foldl_cons, ih, Chan.storePoison_mem]
  exact h _ _

theorem Chan.wf_writeBytes (c : Chan) (a : Nat) (bs : List Byte) (ps : List Bool) (h : Memory.wf c.mem = true) :
    Memory.wf (c.writeBytes a bs ps).mem = true := by
  rw [Chan.writeBytes_mem]
  exact c.wf_putBytesAt bs c.mem a h

theorem Chan.atomicOp_mem (c : Chan) (r : Req) (bad : Bool) : (c.atomicOp r bad).1.mem =
    (c.putWord r.addr.toNat (atomicWord r (c.wordAt r.addr.toNat) (c.poisonAt r.addr.toNat)).1).mem := by
  simp only [Chan.atomicOp]
  exact Chan.markWord_mem _ _ _

theorem Chan.wf_atomicOp (c : Chan) (r : Req) (bad : Bool) (h : Memory.wf c.mem = true) : Memory.wf (c.atomicOp r bad).1.mem = true := by
  rw [Chan.atomicOp_mem]
  exact c.wf_putWord _ _ h

/-- A load, store or atomic keeps the form. -/
theorem Chan.wf_memOp (c : Chan) (r : Req) (bad : Bool) (h : Memory.wf c.mem = true) : Memory.wf (c.memOp r bad).1.mem = true := by
  simp only [Chan.memOp]
  split
  · exact h
  · exact Chan.wf_writeBytes _ _ _ _ h
  · exact Chan.wf_atomicOp _ _ _ h

/-- A load changes nothing. -/
theorem Chan.memOp_ld (c : Chan) (r : Req) (bad : Bool) (h : r.kind = .ld) : (c.memOp r bad).1 = c := by
  simp [Chan.memOp, h]

/-- A store writes the cells of its bytes. -/
theorem Chan.memOp_st_mem (c : Chan) (r : Req) (bad : Bool) (h : r.kind = .st) :
    (c.memOp r bad).1.mem = c.putBytesAt c.mem r.addr.toNat (storeBytes r).1 := by
  simp only [Chan.memOp, h, Chan.writeBytes_mem]

/-- A store outside the scratchpad writes its bytes and no other. -/
theorem Chan.memByte_memOp_st (c : Chan) (r : Req) (bad : Bool) (x : Nat) (h : r.kind = .st) (ha : scratchSize ≤ r.addr.toNat) :
    memByte (c.memOp r bad).1.mem x = if r.addr.toNat ≤ x ∧ x < r.addr.toNat + (storeBytes r).1.length
      then (storeBytes r).1.getD (x - r.addr.toNat) 0 else memByte c.mem x := by
  rw [c.memOp_st_mem r bad h, c.putBytesAt_of_ge _ _ _ ha, memByte_putBytes]

/-- Cells that move with their poison keep the form. -/
theorem Chan.moveCells_mem (c : Chan) (a d n : Nat) : (c.moveCells a d n).mem = memPutBytes c.mem d (memBytes c.mem a n) := by
  have h : ∀ (l : List Nat) (e : Chan), (l.foldl (fun (c : Chan) i => c.setPoison (d + 8 * i) (c.wordPoison (a + 8 * i))) e).mem = e.mem := by
    intro l
    induction l with
    | nil => intro e; rfl
    | cons i l ih => intro e; rw [List.foldl_cons, ih]; rfl
  exact h _ _

theorem Chan.wf_moveCells (c : Chan) (a d n : Nat) (h : Memory.wf c.mem = true) : Memory.wf (c.moveCells a d n).mem = true := by
  rw [Chan.moveCells_mem]
  exact Memory.wf_putBytes _ _ _ h

/-! ## The write buffer and the check lines -/

theorem Chan.storeCheck_mem (c : Chan) (e : Nat × Bool) : (c.storeCheck e).mem = c.mem := by
  simp only [Chan.storeCheck]; split_ifs <;> rfl

theorem Chan.checkUse_mem (c : Chan) (a : Nat) (wr : Bool) : (c.checkUse a wr).mem = c.mem := by
  have h : ∀ (l : List (Nat × Bool)) (d : Chan), (l.foldl (fun (c : Chan) e => c.storeCheck e) d).mem = d.mem := by
    intro l
    induction l with
    | nil => intro d; rfl
    | cons e l ih => intro d; rw [List.foldl_cons, ih, Chan.storeCheck_mem]
  exact h _ _

theorem Chan.bufLine_mem (c : Chan) (l : Nat) : (c.bufLine l).mem = c.mem := by
  simp only [Chan.bufLine]; split_ifs <;> rfl

/-- The controller's notes of a write leave memory as the write made it. -/
theorem Chan.dmWrote_mem (c : Chan) (a n : Nat) : (c.dmWrote a n).mem = c.mem := by
  have h : ∀ (l : List Nat) (d : Chan), (l.foldl (fun (c : Chan) l => (c.bufLine l).checkUse l true) d).mem = d.mem := by
    intro l
    induction l with
    | nil => intro d; rfl
    | cons e l ih => intro d; rw [List.foldl_cons, ih, Chan.checkUse_mem, Chan.bufLine_mem]
  exact h _ _

theorem Chan.wf_setMap (c : Chan) (b : Nat) (h : Memory.wf c.mem = true) : Memory.wf (c.setMap b).mem = true := by
  simp only [Chan.setMap, Chan.dmWrote_mem]
  exact Memory.wf_putByte _ _ _ h

/-- A write that is offered to the internal port leaves memory until the port carries it out (R398). -/
@[simp] theorem Chan.portWrite_mem (c : Chan) (a : Nat) (bs : List Byte) : (c.portWrite a bs).mem = c.mem := rfl
@[simp] theorem Chan.portWrite_regs (c : Chan) (a : Nat) (bs : List Byte) : (c.portWrite a bs).regs = c.regs := rfl
@[simp] theorem Chan.portWrite_cu (c : Chan) (a : Nat) (bs : List Byte) : (c.portWrite a bs).cu = c.cu := rfl
@[simp] theorem Chan.portWrite_inq (c : Chan) (a : Nat) (bs : List Byte) : (c.portWrite a bs).dm.inq = c.dm.inq ++ [⟨a, bs⟩] := rfl
@[simp] theorem Chan.putFreeSlot_mem (c : Chan) (slot id : Nat) : (c.putFreeSlot slot id).mem = c.mem := rfl
@[simp] theorem Chan.ctxWriteBack_mem (c : Chan) (id : Nat) : (c.ctxWriteBack id).mem = c.mem := rfl

theorem Chan.wf_dmLose (c : Chan) (h : Memory.wf c.mem = true) : Memory.wf c.dmLose.mem = true := Memory.wf_filter _ _ h

/-- Memory of a channel in its reset form: no byte is listed. -/
theorem Chan.wf_fresh (k : Nat) : Memory.wf (Chan.fresh k).mem = true := rfl

end Sys2Proof.Machine
end

