-- ==== Sys2Proof/Laws/Ops.lean ====
section
/-! SUPPORT. What the shared operations over tokens, contexts and queues leave: one lemma for each, which says that it keeps every
part of the channel but registers, memory with its write buffer and check lines, context unit, matching store, queues, flows, completion
rings, network and event messages, and that it keeps the canonical form of memory. -/

namespace Sys2Proof.Machine

/-- The GDDR7 controller but for what a write of memory leaves in it: its internal port, write buffer and check lines. -/
def Dram.rest (x : Dram) : Dram := { x with inq := [], wbuf := [], checks := [], checkMem := [] }

/-- The parts of a channel that the token machinery leaves. -/
structure Chan.Keeps (c d : Chan) : Prop where
  idx : d.idx = c.idx
  xclk : d.xclk = c.xclk
  prog : d.prog = c.prog
  progClearing : d.progClearing = c.progClearing
  duets : d.duets = c.duets
  sp : d.sp = c.sp
  locks : d.locks = c.locks
  dm : d.dm.rest = c.dm.rest
  ports : d.ports = c.ports
  callers : d.callers = c.callers
  rings : d.rings = c.rings
  copies : d.copies = c.copies
  copyRr : d.copyRr = c.copyRr
  hw : d.hw = c.hw
  pw : d.pw = c.pw
  msix : d.msix = c.msix
  readData : d.readData = c.readData
  out : d.out = c.out
  excq : d.excq = c.excq
  devEv : d.devEv = c.devEv
  wf : Memory.wf c.mem = true → Memory.wf d.mem = true

theorem Chan.Keeps.same (c : Chan) : c.Keeps c :=
  ⟨rfl, rfl, rfl, rfl, rfl, rfl, rfl, rfl, rfl, rfl, rfl, rfl, rfl, rfl, rfl, rfl, rfl, rfl, rfl, rfl, id⟩

theorem Chan.Keeps.andThen {c d e : Chan} (h : c.Keeps d) (k : d.Keeps e) : c.Keeps e :=
  ⟨k.idx.trans h.idx, k.xclk.trans h.xclk, k.prog.trans h.prog, k.progClearing.trans h.progClearing, k.duets.trans h.duets, k.sp.trans h.sp,
   k.locks.trans h.locks, k.dm.trans h.dm, k.ports.trans h.ports, k.callers.trans h.callers, k.rings.trans h.rings,
   k.copies.trans h.copies, k.copyRr.trans h.copyRr, k.hw.trans h.hw, k.pw.trans h.pw, k.msix.trans h.msix,
   k.readData.trans h.readData, k.out.trans h.out, k.excq.trans h.excq, k.devEv.trans h.devEv, k.wf ∘ h.wf⟩

/-- A fold of operations that keep these parts keeps them. -/
theorem Chan.Keeps.fold {α : Type} (f : Chan → α → Chan) (h : ∀ (c : Chan) (a : α), c.Keeps (f c a)) :
    ∀ (l : List α) (c : Chan), c.Keeps (l.foldl f c) := by
  intro l
  induction l with
  | nil => exact fun c => .same c
  | cons a l ih => exact fun c => (h c a).andThen (ih (f c a))

/-! ## Registers and events -/

theorem Chan.keeps_wr (c : Chan) (off : Nat) (w : Word) : c.Keeps (c.wr off w) := by constructor <;> first | rfl | exact id

theorem Chan.keeps_setFld (c : Chan) (f : Fd) (v : Nat) : c.Keeps (c.setFld f v) := c.keeps_wr _ _

theorem Chan.keeps_inc (c : Chan) (f : Fd) : c.Keeps (c.inc f) := c.keeps_wr _ _

theorem Chan.keeps_raise (c : Chan) (src n : Nat) : c.Keeps (c.raise src n) := by constructor <;> first | rfl | exact id

theorem Chan.keeps_countEpoch (c : Chan) (dev e : Nat) : c.Keeps (c.countEpoch dev e) := by
  simp only [Chan.countEpoch]
  split
  · exact .same c
  · split
    · exact .same c
    · exact c.keeps_inc _

theorem Chan.keeps_countReach (c : Chan) (t : Token) (cause : Nat) : c.Keeps (c.countReach t cause) := by
  simp only [Chan.countReach]
  split
  · exact c.keeps_inc _
  · exact (c.keeps_countEpoch _ _).andThen (Chan.keeps_inc _ _)

/-! ## Hardware queues -/

theorem Chan.keeps_setQptr (c : Chan) (q : Nat) (x : QPtr) : c.Keeps (c.setQptr q x) := by constructor <;> first | rfl | exact id

theorem Chan.keeps_setQWord (c : Chan) (a : Nat) (w : BitVec 144) : c.Keeps (c.setQWord a w) := by
  constructor <;> first | rfl | exact id

theorem Chan.keeps_qNotice (c : Chan) (q : Nat) : c.Keeps (c.qNotice q) := by
  simp only [Chan.qNotice]
  split
  · exact c.keeps_raise _ _
  · exact .same c

theorem Chan.keeps_qu (c : Chan) (u : Queues) : c.Keeps { c with qu := u } := by constructor <;> first | rfl | exact id

theorem Chan.keeps_qMark (c : Chan) (q : Nat) : c.Keeps (c.qMark q) := by
  simp only [Chan.qMark]
  by_cases h : c.qu.touched.contains q = true
  · rw [if_pos h]; exact .same c
  · rw [if_neg h]; exact c.keeps_qu _

theorem Chan.keeps_qPush (c : Chan) (q : Nat) (w : BitVec 144) : c.Keeps (c.qPush q w) := by
  simp only [Chan.qPush]
  split
  · exact (((c.keeps_setQWord _ _).andThen (Chan.keeps_setQWord _ _ _)).andThen (Chan.keeps_setQptr _ _ _)).andThen (Chan.keeps_qMark _ _)
  · exact ((c.keeps_setQWord _ _).andThen (Chan.keeps_setQptr _ _ _)).andThen (Chan.keeps_qMark _ _)

theorem Chan.keeps_qAdvance (c : Chan) (q : Nat) : c.Keeps (c.qAdvance q) := c.keeps_setQptr _ _

theorem Chan.keeps_qRelease (c : Chan) (q n : Nat) : c.Keeps (c.qRelease q n) := (c.keeps_setQptr _ _).andThen (Chan.keeps_qMark _ _)

/-! ## Context records -/

theorem Chan.keeps_wrWord (c : Chan) (a : Nat) (w : Word) : c.Keeps (c.wrWord a w) := by
  constructor <;> first | rfl | exact c.wf_wrWord a w

theorem Chan.keeps_wrWords (ws : List Word) : ∀ (c : Chan) (a : Nat), c.Keeps (c.wrWords a ws) := by
  induction ws with
  | nil => exact fun c _ => .same c
  | cons w r ih => exact fun c a => (c.keeps_wrWord a w).andThen (ih _ _)

theorem Chan.keeps_cu (c : Chan) (u : CtxUnit) : c.Keeps { c with cu := u } := by constructor <;> first | rfl | exact id

theorem Chan.keeps_ms (c : Chan) (m : Match) : c.Keeps { c with ms := m } := by constructor <;> first | rfl | exact id

theorem Chan.keeps_dm (c : Chan) (x : Dram) (h : x.rest = c.dm.rest) : c.Keeps { c with dm := x } := by
  constructor <;> first | exact h | rfl | exact id

theorem Dram.rest_checkMem (x : Dram) (m : Tbl (BitVec 512)) : ({ x with checkMem := m } : Dram).rest = x.rest := rfl

theorem Chan.keeps_storeCheck (c : Chan) (e : Nat × Bool) : c.Keeps (c.storeCheck e) := by
  rw [Chan.storeCheck]
  generalize tblPut c.dm.checkMem e.1 (c.checkLine e.1) 0 = m
  cases e.2
  · exact .same c
  · exact c.keeps_dm _ (Dram.rest_checkMem _ _)

theorem Chan.keeps_bufLine (c : Chan) (l : Nat) : c.Keeps (c.bufLine l) := by
  simp only [Chan.bufLine]
  cases c.dm.wbuf.contains l
  · exact c.keeps_dm _ rfl
  · exact .same c

theorem Chan.keeps_checkUse (c : Chan) (a : Nat) (wr : Bool) : c.Keeps (c.checkUse a wr) := by
  simp only [Chan.checkUse]
  exact (Chan.Keeps.fold (fun (c : Chan) e => c.storeCheck e) (fun c e => c.keeps_storeCheck e) _ c).andThen (Chan.keeps_dm _ _ rfl)

/-- A write of memory leaves its lines in the write buffer and the check-line cache. -/
theorem Chan.keeps_dmWrote (c : Chan) (a n : Nat) : c.Keeps (c.dmWrote a n) :=
  .fold _ (fun c l => (c.keeps_bufLine l).andThen (Chan.keeps_checkUse _ _ _)) _ c

theorem Chan.keeps_portWrite (c : Chan) (a : Nat) (bs : List Byte) : c.Keeps (c.portWrite a bs) := c.keeps_dm _ rfl

theorem Chan.keeps_ctxWriteBack (c : Chan) (id : Nat) : c.Keeps (c.ctxWriteBack id) := c.keeps_portWrite _ _

theorem Chan.keeps_cacheTouch (c : Chan) (id : Nat) (dirty : Bool) : c.Keeps (c.cacheTouch id dirty) := by
  simp only [Chan.cacheTouch]
  split
  · exact c.keeps_cu _
  · split
    · split
      · exact c.keeps_ctxWriteBack _
      · exact .same c
    · split
      · split
        · exact ((c.keeps_ctxWriteBack _).andThen (Chan.keeps_cu _ _)).andThen (Chan.keeps_cu _ _)
        · exact (c.keeps_cu _).andThen (Chan.keeps_cu _ _)
      · exact c.keeps_cu _

theorem Chan.keeps_setCtx (c : Chan) (id : Nat) (x : Ctx) : c.Keeps (c.setCtx id x) := c.keeps_cu _

theorem Chan.keeps_ctxUpd (c : Chan) (id : Nat) (f : Ctx → Ctx) : c.Keeps (c.ctxUpd id f) :=
  (c.keeps_setCtx _ _).andThen (Chan.keeps_cacheTouch _ _ _)

theorem Chan.keeps_orphan (c : Chan) (id n : Nat) : c.Keeps (c.orphan id n) := by
  simp only [Chan.orphan]
  split
  · exact .same c
  · exact c.keeps_ctxUpd _ _

theorem Chan.keeps_cancel (c : Chan) (id : Nat) : c.Keeps (c.cancel id) := (c.keeps_orphan id 1).andThen (Chan.keeps_inc _ _)

theorem Chan.keeps_excCount (c : Chan) (id : Nat) : c.Keeps (c.excCount id) := c.keeps_ctxUpd _ _

/-! ## Tokens on their way -/

theorem Chan.keeps_net (c : Chan) (x : Net) : c.Keeps { c with net := x } := by constructor <;> first | rfl | exact id

theorem Chan.keeps_inject (c : Chan) (tile : Nat) (p : NPkt) : c.Keeps (c.inject tile p) := by
  simp only [Chan.inject, Chan.offerPkt]
  split <;> exact c.keeps_net _

theorem Chan.keeps_sendRaw (c : Chan) (t : Token) (r : Route) (cls : Bool) (acc : Acc) (tile : Nat) :
    c.Keeps (c.sendRaw t r cls acc tile) := by
  cases r <;> first | exact c.keeps_inject _ _ | exact .same c

theorem Chan.keeps_sendDev (c : Chan) (t : Token) : c.Keeps (c.sendDev t) := by
  simp only [Chan.sendDev]
  split
  · exact (c.keeps_sendRaw _ _ _ _ _).andThen (Chan.keeps_countEpoch _ _ _)
  · exact c.keeps_countReach _ _

theorem Chan.keeps_reply (c : Chan) (tile : Nat) (r : Reply) (o0 o1 : Opd) (acc : Acc) : c.Keeps (c.reply tile r o0 o1 acc) := by
  cases r with
  | tags t0 t1 =>
    cases t0 <;> cases t1 <;> simp only [Chan.reply]
    · exact .same c
    · exact c.keeps_inject _ _
    · exact c.keeps_inject _ _
    · exact (c.keeps_inject _ _).andThen (Chan.keeps_inject _ _ _)
  | regs n gen id => exact c.keeps_inject _ _

/-! ## Kills and causes -/

theorem Chan.keeps_msMark (c : Chan) : c.Keeps c.msMark := by
  simp only [Chan.msMark]
  split
  · exact (((c.keeps_setFld _ _).andThen (Chan.keeps_setFld _ _ _)).andThen (Chan.keeps_inc _ _)).andThen (Chan.keeps_raise _ _ _)
  · split
    · exact (c.keeps_setFld _ _).andThen (Chan.keeps_setFld _ _ _)
    · exact .same c

theorem Chan.keeps_dropKey (c : Chan) (t e : Nat) : c.Keeps (c.dropKey t e) := by
  simp only [Chan.dropKey]
  split
  · exact .same c
  · split
    · exact (c.keeps_ms _).andThen (Chan.keeps_ms _ _)
    · exact ((c.keeps_ms _).andThen (Chan.keeps_ms _ _)).andThen (Chan.keeps_ms _ _)

theorem Chan.keeps_freeKey (c : Chan) (t e : Nat) : c.Keeps (c.freeKey t e) := by
  simp only [Chan.freeKey]
  split
  · exact .same c
  · exact (c.keeps_dropKey _ _).andThen (Chan.keeps_ctxUpd _ _ _)

theorem Chan.keeps_dropParked (c : Chan) (id : Nat) : c.Keeps (c.dropParked id) :=
  (c.keeps_ms _).andThen (.fold _ (fun c _ => (c.keeps_freeKey _ _).andThen (Chan.keeps_cancel _ _)) _ _)

theorem Chan.keeps_fl (c : Chan) (f : Flow) : c.Keeps { c with fl := f } := by constructor <;> first | rfl | exact id

theorem Chan.keeps_setLoop (c : Chan) (e : Nat) (l : Loop) : c.Keeps (c.setLoop e l) := c.keeps_cu _

theorem Chan.keeps_leaveLive (c : Chan) (now id : Nat) (st : CtxSt) : c.Keeps (c.leaveLive now id st) := by
  have h := ((c.keeps_ctxUpd id (fun x => { x.turn now st with diedAt := now, swept := false })).andThen
    (Chan.keeps_dropParked _ id))
  simp only [Chan.leaveLive]
  split
  · exact h.andThen (Chan.keeps_fl _ _)
  · split
    · exact h.andThen (Chan.keeps_fl _ _)
    · exact (h.andThen (Chan.keeps_fl _ _)).andThen (Chan.keeps_setLoop _ _ _)

theorem Chan.keeps_skipPositions (c : Chan) (id : Nat) : c.Keeps (c.skipPositions id) := by
  refine .fold _ (fun c e => .fold _ (fun c i => ?_) _ c) _ c
  simp only []
  split
  · exact (c.keeps_setQWord _ _).andThen (Chan.keeps_setQWord _ _ _)
  · exact .same c

theorem Chan.keeps_die (c : Chan) (now id : Nat) : c.Keeps (c.die now id) :=
  (c.keeps_leaveLive _ _ _).andThen (Chan.keeps_skipPositions _ _)

theorem Chan.keeps_raiseNoKill (c : Chan) (id cause ip : Nat) (detail : BitVec 32) : c.Keeps (c.raiseNoKill id cause ip detail).1 := by
  simp only [Chan.raiseNoKill]
  split
  · exact .same c
  · split
    · exact (c.keeps_excCount _).andThen (Chan.keeps_raise _ _ _)
    · exact (c.keeps_excCount _).andThen (Chan.keeps_sendDev _ _)

theorem Chan.keeps_setCring (c : Chan) (r : Nat) (x : CRing) : c.Keeps (c.setCring r x) := by constructor <;> first | rfl | exact id

theorem Chan.keeps_sendStatus (c : Chan) (id status ip : Nat) (p : Bool) : c.Keeps (c.sendStatus id status ip p) := by
  simp only [Chan.sendStatus]
  split
  · split
    · exact c.keeps_qPush _ _
    · exact c.keeps_setCring _ _
  · split
    · exact .same c
    · split
      · exact c.keeps_sendDev _
      · exact (c.keeps_countReach _ _).andThen (Chan.keeps_raiseNoKill _ _ _ _ _)

theorem Chan.keeps_noteEnd (c : Chan) (e : Ended) : c.Keeps (c.noteEnd e) := c.keeps_cu _

end Sys2Proof.Machine
end

