-- ==== Sys2Proof/Tests/Slice0.lean ====
section
/-! SUPPORT. Tests of the model against the spec, and witnesses of the hypotheses of the statements. -/

namespace Sys2Proof.Tests
open Sys2Proof.Machine
set_option Elab.async false

/-! ## Helpers -/

/-- A state whose channel 0 is c and whose other channels are as after reset. -/
def tState (c : Chan) : State := State.reset.setChan 0 c

/-- The state after a command that completes. -/
def tAfter (i : Instr) (s : State) : State := match exec i s with | .next t => t | _ => {}

/-- Channel 0 after a command. -/
def tChan (i : Instr) (s : State) : Chan := (tAfter i s).chan 0

/-- Gives and Leads on channel 0, as values. -/
def tGives (i : Instr) (s : State) (d : Chan) : Bool := decide (tAfter i s = s.setChan 0 d)
def tLeads (i : Instr) (s : State) (p : Chan → Bool) : Bool := tGives i s (tChan i s) && p (tChan i s)

/-- A READY channel with the clearing of its program store and scratchpad behind it. -/
def tReady : Chan := { progClearing := false, sp := { clearing := false }, pw := { ready := true } }

/-- A channel with fields set. -/
def tSet (c : Chan) (l : List (Fd × Nat)) : Chan := l.foldl (fun (c : Chan) e => c.setFld e.1 e.2) c

/-- A channel in its next XCLK. -/
def tLater (c : Chan) : Chan := { c with xclk := c.xclk + 1 }

/-- A word of the first row of an instruction, with the first ARITY above 0 its row allows. -/
def tWord (op : Op) : Word :=
  match opTable.find? (fun r => r.op == op) with
  | none => 0
  | some r => BitVec.ofNat 64 (r.lo * 2 ^ 56 + (r.ar.find? (fun a => 0 < a)).getD 0 * 2 ^ 54)

/-- Duet 5 with one window of one firing of word w. -/
def tFiring (w : Word) : Firing := { pkt := { instr := w, ctx := 7, ip := 3 }, tile := 5, l := mkOpd 9 0 false, r := mkOpd 2 0 false }
def tWin (w : Word) : Win := { wseq := 1, firings := [tFiring w] }
def tDuetChan (w : Word) : Chan := tReady.setDuet 5 { wins := [tWin w] }

/-- A channel whose caller 0 runs, at supervisor privilege, before word w. -/
def tCallerChan (w : Word) : Chan :=
  (tReady.setInstr 0xE000 w).setCaller 0
    { st := .running, phys := some 0, grant := some { id := 9 }, csrs := { ip := 0xE000, status := 0x14 } }

/-! ## Witnesses: the block and firings -/

theorem test_front_of_queue :
    ({ State.reset with pending := [.trstN] } : State).pending = [.trstN]
      ∧ step { State.reset with pending := [.trstN] } = exec .trstN { State.reset with pending := [] } := ⟨rfl, rfl⟩
theorem test_empty_queue : State.reset.pending = [] ∧ (tick State.reset).dev.xclk = 1 := by decide +kernel
theorem test_well_formed : Instr.trstN.wf = true ∧ (Instr.thermalSample []).wf = false := by decide

/-- FiringAt holds of duet 5 with the firing of any word. -/
theorem test_firing_at (w : Word) : FiringAt (tDuetChan w) 5 [] (tWin w) [] (tFiring w) [] [] :=
  ⟨rfl, rfl, by simp, by simp, rfl⟩

/-- Each row of the firing statements has a word that executes it. -/
theorem test_firing_words :
    (intRows ++ fpRows ++ steerRows ++ effectRows ++ memRows ++ queueRows).all (fun r => isOp r.op (tWord r.op)) = true := by
  decide +kernel
theorem test_rand_word : isOp .rand (tWord .rand) = true ∧ (illegalFiring 0).isSome = true := by decide +kernel

/-- An addition in duet 5: 9 + 2. -/
theorem test_add_firing :
    (((tChan (.add 0 (.duet 5)) (tState (tDuetChan (tWord .add)))).duet 5).wins.flatMap (fun w => w.firings.map
      (fun f => f.lead.map (fun x => x.result.toNat)))) = [some 11] := by decide +kernel

/-! ## Witnesses: results and callers -/

def tIn : In := firingIn (tDuetChan (tWord .add)) (tFiring (tWord .add)) ⟨0, 0, 0, 0, 0⟩ 0

/-- FiringLeaves: a cause, a trapped flag (TE as if context 0 enabled it), and a plain result to two destinations. -/
theorem test_firing_leaves :
    ({ cause := some (0x20, 0) } : Val).cause = some (0x20, 0)
    ∧ (({ f0 := 1 } : Val).cause = none ∧ (({ f0 := 1 } : Val).f0 ||| ({ f0 := 1 } : Val).f1) &&& { tIn.cr with te := 1 }.te ≠ 0)
    ∧ (tIn.gives 0 11 0).cause = none ∧ ((tIn.gives 0 11 0).f0 ||| (tIn.gives 0 11 0).f1) &&& tIn.cr.te = 0
    ∧ (tIn.gives 0 11 0).r0.isSome = true ∧ (tIn.gives 0 11 0).r1.isSome = true ∧ iDest0 tIn.w ≠ 0x3FFFF ∧ iDest1 tIn.w ≠ 0x3FFFF := by
  decide +kernel

/-- 0 / 0 is a NaN, 1 / 0 an infinity, 1 + 1 is 2. -/
theorem test_nan : (fpDec b64 (fpDiv b64 0 0 0).val).isNaN = true ∧ (fpDec b32 (fpDiv b32 3 0 0).val).isNaN = true := by decide +kernel
theorem test_div_zero : fpDec b64 0x3FF0000000000000 = .fin false (2 ^ 52) (-52) ∧ fpSign b64 true = 0x8000000000000000
    ∧ fpDiv b64 0 0x3FF0000000000000 0x8000000000000000 = ⟨0xFFF0000000000000, flDZ⟩ := by decide +kernel
theorem test_exact_sum : fpDec b64 0x4000000000000000 = .fin false (2 ^ 52) (-51)
    ∧ fpAdd b64 1 0x3FF0000000000000 0x3FF0000000000000 = ⟨0x4000000000000000, 0⟩ := by decide +kernel
theorem test_exact_sum_values :
    ((2 ^ 52 : ℕ) : ℚ) * (2 : ℚ) ^ (-52 : ℤ) + ((2 ^ 52 : ℕ) : ℚ) * (2 : ℚ) ^ (-52 : ℤ) = ((2 ^ 52 : ℕ) : ℚ) * (2 : ℚ) ^ (-51 : ℤ) := by
  norm_num

/-- Caller 0 stands before a word of the row, and the row's rule gives results. -/
def tSeqReady (r : FireRow) : Bool :=
  let c := tCallerChan (tWord r.op)
  c.callerFree 0 (srcRegs (c.callerWord 0)) && isSeqOp r.op (c.callerWord 0) && !c.fetchDenied 0
    && (c.callerWindow State.reset.dev 0 (c.caller 0)).isSome

/-- The rows with a sequential form, their words, and results without a cause, a request or a trap (but for EXC, and the rows that ask). -/
theorem test_seq_results : ((intRows ++ fpRows ++ steerRows ++ effectRows).filter (fun r => r.seq.isSome && r.op != .exc)).all (fun r =>
    let v := r.v (seqIn State.reset.dev (tCallerChan (tWord r.op)) 0)
    tSeqReady r && v.cause.isNone && v.req.isNone
      && (trapCause ((v.f0 ||| v.f1) &&& (seqIn State.reset.dev (tCallerChan (tWord r.op)) 0).cr.te)).isNone) = true := by
  decide +kernel
/-- A caller before a word of the row whose RS1 is w1, which holds an address the row may use. -/
def tAskChan (r : FireRow) : Chan :=
  let a := if r.op = .acq ∨ r.op = .tryacq ∨ r.op = .rel then BitVec.ofNat 64 lockBase else 64
  let c := tCallerChan (tWord r.op + 0x40000000000)
  c.setCaller 0 { c.caller 0 with fast := [(1, (a, false))] }

/-- The rows that place a request. -/
theorem test_seq_requests : (memRows ++ queueRows).all (fun r =>
    let c := tAskChan r
    let v := r.v (seqIn State.reset.dev c 0)
    c.callerFree 0 (srcRegs (c.callerWord 0)) && isSeqOp r.op (c.callerWord 0) && !c.fetchDenied 0
      && (c.callerWindow State.reset.dev 0 (c.caller 0)).isSome && v.cause.isNone && v.req.isSome && !c.waitsForCommit v) = true := by
  decide +kernel

/-- EXC raises its cause, an overflow is trapped with TE, and both stop the caller. -/
theorem test_seq_exceptions :
    let c := tCallerChan (tWord .exc)
    let d := (tCallerChan (tWord .neg + 0x40000000000)).setCaller 0
      { (tCallerChan 0).caller 0 with fast := [(1, (BitVec.intMin 64, false))], csrs := { ip := 0xE000, status := 0x14, fpcsr := 0xFF00 } }
    c.callerReady 0 = true ∧ isSeqOp .exc (c.callerWord 0) = true ∧ c.fetchDenied 0 = false
    ∧ ((steerRows.filter (fun r => r.op == .exc)).map (fun r => (r.v (seqIn State.reset.dev c 0)).cause)) = [some (0x80, 0)]
    ∧ d.callerReady 0 = true ∧ isSeqOp .neg (d.callerWord 0) = true ∧ d.fetchDenied 0 = false
    ∧ ((intRows.filter (fun r => r.op == .neg)).map (fun r =>
        let v := r.v (seqIn State.reset.dev d 0)
        v.cause.isNone && (trapCause ((v.f0 ||| v.f1) &&& (seqIn State.reset.dev d 0).cr.te)).isSome)) = [true] := by
  decide +kernel
/-- A word illegal in sequential mode (OP 0xFF), and an ADD at 0xE000 with user privilege. -/
theorem test_seq_illegal :
    let c := tCallerChan 0xFF00000000000000
    let d := (tCallerChan (tWord .add)).setCaller 0 { st := .running, phys := some 0, csrs := { ip := 0xE000 } }
    c.callerReady 0 = true ∧ (illegalSeq (c.callerWord 0)).isSome = true ∧ c.fetchDenied 0 = false
    ∧ d.callerReady 0 = true ∧ isSeqOp .add (d.callerWord 0) = true ∧ (d.caller 0).priv = false ∧ 0xE000 ≤ (d.caller 0).csrs.ip.toNat := by
  decide +kernel

/-- Control: each instruction's word, at w1 = 0 and w0. -/
def tAt (op : Op) (srcs : Word → List Nat) (alone : Bool) : Bool :=
  let c := tCallerChan (tWord op)
  c.callerFree 0 (srcs (c.callerWord 0)) && isSeqOp op (c.callerWord 0) && !c.fetchDenied 0
    && (c.callerWindow State.reset.dev 0 (if alone then (c.caller 0).boundary else c.caller 0)).isSome
theorem test_seq_control :
    tAt .brCc srcRegs false && tAt .jmp (fun _ => []) false && tAt .call (fun _ => []) false && tAt .ret srcRegs false
      && tAt .rand srcRegs false && !(((tCallerChan 0).caller 0).reg 0).2 = true := by
  decide +kernel
theorem test_seq_system :
    tAt .wait (fun w => if (iImm w).testBit 1 then [iRs1 w] else []) true && tAt .fence (fun _ => []) false && tAt .csrrd (fun _ => []) false && tAt .csrwr srcRegs true
      && tAt .rfe (fun _ => []) true && ((tCallerChan 0).caller 0).priv = true := by
  decide +kernel
theorem test_seq_csr : csrAccess true true 0x000 = .rw ∧ csrAccess true true 0x041 = .ro := by decide +kernel

/-! ## Witnesses: entries of a caller, and matching -/

/-- Caller 0 with changes, in a ready channel. -/
def tCaller (x : Caller) : Chan := tReady.setCaller 0 { x with phys := some 0 }

theorem test_exception_entry :
    let x : Caller := { st := .running, exc := [{ cause := 0x21, detail := 5, ip := 0x100 }], csrs := { ip := 0x100, status := 0x05 } }
    let y := ((tChan (.callerExceptionEntry 0 0) (tState (tCaller x))).caller 0)
    x.atBoundary = true ∧ x.fastBank = false ∧ y.csrs.epc = 0x100 ∧ y.csrs.ip = 0xE000 ∧ y.csrs.status = 0x1E
      ∧ y.csrs.ecause = 0x2100010000000005 := by decide +kernel
theorem test_double_exception :
    let x : Caller := { st := .running, exc := [{ cause := 0x21, detail := 5, ip := 0x100 }], csrs := { status := 0x10, epc := 7 } }
    let c := tChan (.callerExceptionEntry 0 0) (tState (tCaller x))
    x.atBoundary = true ∧ x.fastBank = true ∧ (c.caller 0).st = .faulted ∧ (c.caller 0).csrs.epc = 7
      ∧ c.ev.sent.map (fun m => m.src) = [24] := by decide +kernel
theorem test_event_interrupt :
    let x : Caller := { st := .running, inbox := [{ src := 700, count := 1, fast := true }], csrs := { ip := 0x44, status := 0x01 } }
    let y := ((tChan (.eventInterrupt 0 0) (tState (tCaller x))).caller 0)
    x.interrupt.isSome = true ∧ x.atBoundary = true ∧ x.exc = [] ∧ y.csrs.epc = 0x44 ∧ y.csrs.ecause = 0x30000044000102BC := by
  decide +kernel
theorem test_waitev :
    let c := tCallerChan (tWord .waitev + 0x800000000000)
    let x : Caller := { c.caller 0 with inbox := [{ src := 700, count := 3, fast := false }] }
    let d := c.setCaller 0 x
    tAt .waitev (fun _ => []) true = true ∧ (iImm (c.callerWord 0)).testBit 0 = false
      ∧ (d.callerWindow State.reset.dev 0 x.boundary).isSome = true ∧ d.callerFree 0 [] = true
      ∧ x.interrupt = none ∧ x.evMask = false ∧ (headEntry x.ready).isSome = true
      ∧ ((tChan (.waitev 0 0) (tState d)).caller 0).reg 1 = (0x302BC, false) := by decide +kernel
theorem test_wait_time_limit :
    let x : Caller := { st := .waiting, wait := { until_ := some 0 } }
    x.wait.until_ = some 0 ∧ x.st = .waiting ∧ ((tChan (.waitTimeLimit 0 0) (tState (tCaller x))).caller 0).st = .running := by decide +kernel
theorem test_result_arrival :
    let x : Caller := { st := .waiting, wait := { reqs := true }, reqs := [{ id := 4, cls := 0, fast := false, rd := 3 }] }
    let p : NPkt := { pay := .result 0 0 4 (mkOpd 99 1 false) {} }
    let c := { tCaller x with net := { arrive := [(tileCall * 8 + 5, p)] } }
    let y := (tChan (.callerResultArrival 0 0) (tState c)).caller 0
    c.arrived tileCall 5 = some p ∧ p.acc = .none ∧ (x.reqs.find? (fun q => q.id == 4)).isSome = true
      ∧ y.bankReg false 3 = (99, false) ∧ y.reqs = [] ∧ y.st = .running := by decide +kernel

/-- Context 7, LIVE and cached, with an ADD at IP 3; its home tile and row. -/
def tMatch (st : CtxSt) (supv : Bool) : Chan :=
  ((tReady.setInstr 3 (tWord .add)).setCtx 7 { st := st, supv := supv }).cacheTouch 7 false
def tTile : Tile := 5
def tTok (ip port : Nat) : Token := ⟨mkSb 0 false, 42, mkTag 0 ip 7 port 2 0⟩
def tArrive (c : Chan) (t : Token) : Chan :=
  { c with net := { c.net with arrive := [(8 * homeTile (tagCtx t.tag) (tagIp t.tag), { pay := .tok t, word := c.instr (tagIp t.tag) })] } }
def tTokTile (t : Token) : Tile := Fin.ofNat 64 (homeTile (tagCtx t.tag) (tagIp t.tag))

/-- A malformed token, and one each for a context that is DEAD, POISONED, LIVE with the steward's IP, and LIVE with a PORT not consumed. -/
theorem test_token_arrival_refused :
    let bad : Token := ⟨mkSb 15 false, 0, mkTag 0 3 7 0 0 1⟩
    let cs := [(tArrive (tMatch .live false) bad, bad, F.chTokstatMalformed), (tArrive (tMatch .dead false) (tTok 3 0), tTok 3 0, F.chTokstatDeadctx),
      (tArrive (tMatch .poisoned false) (tTok 3 0), tTok 3 0, F.chTokstatPoisonctx)]
    cs.all (fun x => (x.1.arrived (tTokTile x.2.1).val 0).isSome && x.1.takesArrivals (tTokTile x.2.1).val
      && (malformed x.2.1 || decide (tagCtx x.2.1.tag < x.1.ctxLimit)) && x.1.cacheHas 7
      && (tChan (.tokenArrival 0 (tTokTile x.2.1) .clean []) (tState x.1)).fld x.2.2 == 1) = true := by decide +kernel
theorem test_token_arrival_causes :
    let a := tArrive (tMatch .live false) (tTok 0xE000 0)
    let b := tArrive (tMatch .live false) (tTok 3 2)
    (a.arrived (tTokTile (tTok 0xE000 0)).val 0).isSome = true ∧ a.takesArrivals (tTokTile (tTok 0xE000 0)).val = true ∧ (a.ctx 7).supv = false
    ∧ (b.arrived (tTokTile (tTok 3 2)).val 0).isSome = true ∧ portConsumed (b.instr 3) 2 = false
    ∧ ((tChan (.tokenArrival 0 (tTokTile (tTok 0xE000 0)) .clean []) (tState a)).ctx 7).exccnt = 1
    ∧ (tChan (.tokenArrival 0 (tTokTile (tTok 3 2)) .clean []) (tState b)).fld F.msFirestatPorterr = 1 := by decide +kernel
/-- The first operand of an ADD makes an entry, the second completes it. -/
theorem test_token_arrival_match :
    let t := tTokTile (tTok 3 0)
    let c := tArrive (tMatch .live false) (tTok 3 0)
    let d := tChan (.tokenArrival 0 t .clean []) (tState c)
    let e := tArrive d (tTok 3 1)
    portConsumed (c.instr 3) 0 = true ∧ c.evicting t.val 7 3 = false
    ∧ (match ((c.takeArrived t.val 0).cacheTouch 7 false).rowCompare 0 t.val (tTok 3 0) (c.instr 3) true with | .done _ => true | _ => false) = true
    ∧ c.candidate t.val (homeRow 7 3) 7 3 0 = none ∧ c.maySpill t.val 7 3 = false
    ∧ (c.keyWays t.val (homeRow 7 3) (needPorts (c.instr 3)) false).isSome = true ∧ needPorts (c.instr 3) = 3
    ∧ (d.candidate t.val (homeRow 7 3) 7 3 1).isSome = true ∧ d.ms.entries.map (fun x => (x.2.got, x.2.need, x.2.val0)) = [(1, 3, 42)]
    ∧ (tChan (.tokenArrival 0 t .clean []) (tState e)).ms.entries.map (fun x => (x.2.st, x.2.val1)) = [(.matched, 42)] := by decide +kernel
/-- A WAIT entry with three ports needed and one got, as RowCompare asks. -/
theorem test_row_compare_candidate :
    let c := (tMatch .live false).setEntry 5 30 { ctx := 7, ip := 3, need := 7, got := 1 }
    (c.candidate 5 (30 / 24) 7 3 1).map (fun x => (x.1, x.2.got ||| BitVec.ofNat 4 (2 ^ 1) == x.2.need)) = some (30, false) ∧ tagPort (tTok 3 1).tag ≠ 2 := by
  decide +kernel
/-- A row all of whose ways hold other keys is full: the token is deferred. -/
theorem test_token_deferred :
    let t := tTokTile (tTok 3 0)
    let c := tArrive ((List.range 24).foldl (fun (c : Chan) w => c.setEntry t.val (entryNo (homeRow 7 3) w) { ctx := 7, ip := BitVec.ofNat 16 (100 + w), need := 3, got := 1, born := w })
      (tMatch .live false)) (tTok 3 0)
    (match ((c.takeArrived t.val 0).cacheTouch 7 false).rowCompare 0 t.val (tTok 3 0) (c.instr 3) true with | .full => true | _ => false) = true
    ∧ ((tChan (.tokenArrival 0 t .clean []) (tState c)).tile t.val).defer.map (fun d => d.tok) = [tTok 3 0] := by decide +kernel

/-- A missed token whose record can be cached, a deferred token of a LIVE and of a dead context. -/
theorem test_waiting_tokens :
    let t := tTokTile (tTok 3 0)
    let c := (tMatch .live false).setTile t.val { miss := [⟨tTok 3 0, tWord .add, .record⟩] }
    let d := (tMatch .live false).setTile t.val { defer := [{ tok := tTok 3 0, word := tWord .add }] }
    findIx c.missDue (c.tile t.val).miss = some 0 ∧ c.cacheHas 7 = true ∧ c.cacheCanFill 7 = true
    ∧ (match ((c.setTile t.val {}).cacheTouch 7 false).judge 0 t.val .live (tTok 3 0) (tWord .add) true with | .done _ => true | _ => false) = true
    ∧ (tChan (.contextRecordFill 0 t []) (tState c)).ms.entries.length = 1
    ∧ d.live 7 = true ∧ d.evicting t.val 7 3 = false
    ∧ (match (d.setTile t.val {}).rowCompare 0 t.val (tTok 3 0) (tWord .add) true with | .done _ => true | _ => false) = true
    ∧ (tChan (.deferredTokenRetry 0 t []) (tState d)).ms.entries.length = 1
    ∧ ((tChan (.deferredTokenRetry 0 t []) (tState ((tMatch .dead false).setTile t.val { defer := [{ tok := tTok 3 0, word := tWord .add }] }))).ctx 7).orphans = 1 := by
  decide +kernel
/-- A held packet that goes on, one that is parked (SOLO.IN with another owner), and a parked firing that is woken. -/
theorem test_waiting_packets :
    let p : FPacket := { instr := tWord .add, ctx := 7, ip := 3, prio := 2, way := 4 }
    let q : FPacket := { p with instr := tWord .soloIn }
    let c := (tMatch .live false).setTile 5 { held := some { pkt := p } }
    let d := ((((tMatch .live false).setTile 5 { held := some { pkt := q } }).setFld (F.flClassKind 0) 1).setFld (F.flClassOrdq 0) 3).setSolo ((tMatch .live false).slotOf 0 0) { owner := some (9, 0) }
    let e := { ((tMatch .live false).setEntry 5 4 { ctx := 7, ip := 3, need := 3, got := 3, pmin := 2, st := .matched }) with
      ms := { ((tMatch .live false).setEntry 5 4 { ctx := 7, ip := 3, need := 3, got := 3, pmin := 2, st := .matched }).ms with
        pool := [{ tile := 5, row := 0, way := 4, ctx := 7, why := .slot 1, woken := true }] } }
    (c.flowCheck 5 p (c.keyOf 5 p)).2 = none ∧ (c.flowCheck 5 p (c.keyOf 5 p)).1.qRoom (8 * 5 + 2) = true
    ∧ ((tChan (.readyPushRetry 0 5) (tState c)).qptr 42).unread = 1
    ∧ (d.flowCheck 5 q (d.keyOf 5 q)).2.isSome = true ∧ ((tChan (.readyPushRetry 0 5) (tState d)).ms.pool).length = 1
    ∧ findIx (fun r => r.tile == 5 && entryNo r.row.toNat r.way.toNat == 4 && r.woken) e.ms.pool = some 0 ∧ e.stageBusy 5 = false
    ∧ e.qRoom (8 * 5 + 2) = true ∧ ((tChan (.parkedFiringWake 0 5 4) (tState e)).qptr 42).unread = 1 := by decide +kernel

/-- GDDR7 enabled and not training, so that a record can be read. -/
def tOn (c : Chan) : Chan := c.setFld F.dmTrstatState 2
/-- A token whose record is not cached is missed, and goes on with its record; one for a row that the Shuffle borrows is missed too. -/
theorem test_token_missed :
    let t := tTokTile (tTok 3 0)
    let c := tArrive (tOn ((tReady.setInstr 3 (tWord .add)).setCtx 7 { st := .live })) (tTok 3 0)
    let d := tOn (((tReady.setInstr 3 (tWord .add)).setCtx 7 { st := .live }).setTile t.val { miss := [⟨tTok 3 0, tWord .add, .record⟩] })
    c.tileOn t.val = true ∧ c.cacheHas 7 = false ∧ tagCtx (tTok 3 0).tag < c.ctxLimit
    ∧ ((tChan (.tokenArrival 0 t .clean []) (tState c)).tile t.val).miss = [⟨tTok 3 0, tWord .add, .record⟩]
    ∧ d.cacheHas 7 = false ∧ findIx d.missDue (d.tile t.val).miss = some 0 ∧ d.dmInner [d.ctxAddr 7 / 64 * 64] = true
    ∧ (tChan (.contextRecordFill 0 t []) (tState d)).ms.entries.length = 1 := by decide +kernel
/-- The row compare's two cases: an entry that waits for the operand, and a new key. -/
theorem test_row_compare_cases :
    let c := tMatch .live false
    let d := c.setEntry 5 (entryNo (homeRow 7 3) 2) { ctx := 7, ip := 3, need := 3, got := 1 }
    d.candidate 5 (keyRow (tTok 3 1)) 7 3 1 = some (entryNo (homeRow 7 3) 2, { ctx := 7, ip := 3, need := 3, got := 1 }) ∧ d.stageBusy 5 = false ∧ c.stageBusy 5 = false
    ∧ c.candidate 5 (keyRow (tTok 3 0)) 7 3 0 = none ∧ c.maySpill 5 7 3 = false
    ∧ c.keyWays 5 (keyRow (tTok 3 0)) (needPorts (tWord .add)) (c.ctx 7).elder = some (0, 31) := by decide +kernel

/-! ## Witnesses: windows -/

/-- A packet of duet 5's tile with word w, at level 2, of context 7. -/
def tPkt (w : Word) : FPacket := { instr := w, ctx := 7, ip := 3, prio := 2, row := 0, way := 4 }
def tNow : Sample := ⟨1, 2, 3, 4, 5⟩
/-- A channel with context 7 LIVE and entry 4 of tile 5 MATCHED with operands 9 and 2. -/
def tDisp (x : Duet) : Chan :=
  ((tMatch .live false).setEntry 5 4 { ctx := 7, ip := 3, need := 3, got := 3, val0 := 9, val1 := 2, pmin := 2, st := .matched }).setDuet 5 x
/-- A commit buffer with no room left for a firing. -/
def tFullCb : List CEntry := List.replicate 128 { ent := .tok (tTok 3 0) }

theorem test_dispatch_select :
    let c := tLater ((tDisp { cb := tFullCb }).qPush 42 (packetWord (tPkt (tWord .add))))
    let h := wordPacket (c.qItem 42 (c.qRead 42))
    c.duetOn 5 = true ∧ (c.turnTiles 5).findSome? (fun t => (c.selectLevel t).map (fun p => (t, p))) = some (5, 2, false)
    ∧ h = tPkt (tWord .add) ∧ h.way ≠ 31 ∧ c.live h.ctx.toNat = true ∧ (c.duet 5).stage = none
    ∧ c.mustWait (c.duet 5) { pkt := h, tile := 5 } = true
    ∧ ((tChan (.dispatchSelect 0 5 tNow parityGood .clean false) (tState c)).duet 5).stage = some { pkt := h, tile := 5 } := by decide +kernel
/-- A selected packet that nothing holds starts at once in a window of its own. -/
theorem test_dispatch_select_start :
    let c := tLater ((tDisp {}).qPush 42 (packetWord (tPkt (tWord .add))))
    let e := (tChan (.dispatchSelect 0 5 tNow parityGood .clean false) (tState c)).duet 5
    c.mustWait (c.duet 5) { pkt := tPkt (tWord .add), tile := 5 } = false ∧ (c.duet 5).mayOpen = true
    ∧ e.stage = none ∧ e.wins.map (fun w => (w.wseq, w.firings.map (fun f => (f.pkt, f.l.val)))) = [(1, [(tPkt (tWord .add), 9)])] := by
  decide +kernel
/-- A staged packet joins the open window, and one that finds none opens a window. -/
theorem test_dispatch_start :
    let st : Staged := { pkt := tPkt (tWord .add), tile := 5 }
    let w : Win := { wseq := 1, sl := tNow, sf := tNow, len := 1 }
    let x : Duet := { wins := [w], stage := some st, wseq := 1 }
    let y : Duet := { stage := some st, wseq := 1 }
    let c := tDisp x
    let d := tDisp y
    c.duetOn 5 = true ∧ c.live 7 = true ∧ c.mustWait x st = false ∧ d.mustWait y st = false ∧ y.mayOpen = true ∧ y.injAgain = 0
    ∧ w.closed = false ∧ c.windowTakes 0 5 w st.pkt.instr = true ∧ d.flag F.lfInjArm = false
    ∧ (((tChan (.dispatchSelect 0 5 tNow parityGood .clean false) (tState c)).duet 5).wins.flatMap (fun w => w.firings.map (fun f =>
        (f.l.val, f.r.val, f.pkt)))) = [(9, 2, st.pkt)]
    ∧ (((tChan (.dispatchSelect 0 5 tNow parityGood .clean false) (tState d)).duet 5).wins.map (fun w => (w.wseq, w.firings.length)))
        = [(2, 1)] := by decide +kernel

theorem test_window_close :
    let w : Win := { wseq := 1 }
    let c := tDisp { wins := [w], joins := [⟨5, 4, 1, 0⟩] }
    let d := tReady.setCaller 0 { wins := [w], phys := some 0 }
    w.closed = false ∧ w.busy = false ∧ c.closeDue 0 5 w = true ∧ (c.duet 5).retire = false ∧ (d.caller 0).st ≠ .running
    ∧ ((tChan (.windowClose 0 (.duet 5)) (tState c)).duet 5).wins.map Win.closed = [true]
    ∧ ((tChan (.windowClose 0 (.caller 0)) (tState d)).caller 0).wins.map Win.closed = [true] := by decide +kernel
theorem test_replay_open :
    let c := tDisp { replay := true, again := some 6 }
    let d := tReady.setCaller 0 { replay := true, again := some 6, phys := some 0, csrs := { ip := 9 } }
    c.duetOn 5 = true ∧ (c.duet 5).replay = true ∧ (c.duet 5).wins = [] ∧ (c.duet 5).injAgain = 0 ∧ c.flag F.lfInjArm = false
    ∧ (c.duet 5).cmpBad = false ∧ (c.duet 5).retire = false
    ∧ ((tChan (.replayOpen 0 (.duet 5) tNow) (tState c)).duet 5).wins.map (fun w => (w.wseq, w.single)) = [(6, true)]
    ∧ ((tChan (.replayOpen 0 (.caller 0) tNow) (tState d)).caller 0).wins.map (fun w => (w.wseq, w.ckpt.map (fun q => q.csrs.ip)))
        = [(6, some 9)] := by decide +kernel

/-- A closed window whose firing has results: ADD of 9 and 2 in both units. -/
def tDone : Win :=
  let r : Res := { result := 11, ents := [.tok (tTok 3 0)] }
  { wseq := 4, closed := true, firings := [{ tFiring (tWord .add) with lead := some r, follow := some r }],
    ckpt := some { csrs := { ip := 77 } } }
/-- A comparator input with bit 3 of the Lead's signature flipped. -/
def tFlip : CmpFault := { cmpGood with slx := 8 }

theorem test_window_compare_duet :
    let c := tDisp { wins := [tDone], attempts := 1 }
    tDone.busy = false ∧ tDone.matched cmpGood = true ∧ tDone.matched tFlip = false ∧ tDone.inj = 0 ∧ tDone.leadRes = tDone.followRes
    ∧ c.live 7 = true
    ∧ ((tChan (.windowCompare 0 (.duet 5) cmpGood) (tState c)).duet 5).cb.map CEntry.ent = [.tok (tTok 3 0)]
    ∧ (let y := (tChan (.windowCompare 0 (.duet 5) tFlip) (tState c)).duet 5
       (y.wins, y.attempts, y.replay, y.again) = ([], 2, true, some 4)) := by decide +kernel
theorem test_window_compare_caller :
    let x : Caller := { st := .running, wins := [tDone], phys := some 0, csrs := { ip := 78 } }
    let c := tReady.setCaller 0 x
    x.retire = false ∧ x.halting = false ∧ x.attempts < 2
    ∧ (let y := (tChan (.windowCompare 0 (.caller 0) cmpGood) (tState c)).caller 0
       (y.cb.map CEntry.ent, y.csrs.ip) = ([.tok (tTok 3 0)], 78))
    ∧ (let y := (tChan (.windowCompare 0 (.caller 0) tFlip) (tState c)).caller 0
       (y.wins, y.csrs.ip, y.again, y.st) = ([], 77, some 4, .running)) := by decide +kernel

/-- The head of a commit buffer: a token of this device, one out of the plane, one no route reaches, and a load. -/
def tLoad : Req := { kind := .ld, addr := 64, size := 8, reply := .tags none none }
theorem test_commit_drain :
    let t := tTok 3 0
    let far : Token := ⟨mkSb 0 false, 42, mkTag 1 3 7 0 2 0⟩
    let c := tReady.setDuet 5 { cb := [{ ent := .tok t }] }
    let n := tReady.setDuet 5 { cb := [{ ent := .tok far }] }
    let o := tReady.setDuet 5 { cb := [{ ent := .req tLoad }] }
    c.inPlane (tagDev t.tag) = true ∧ c.routeDim (tagDev t.tag) = none ∧ c.injectRoom 5 false 1 = true ∧ c.portTile 5 = 5
    ∧ ((tChan (.commitBufferDrain 0 (.duet 5) .clean) (tState c)).duet 5).cb = []
    ∧ ((tChan (.commitBufferDrain 0 (.duet 5) .clean) (tState c)).buf (bufKey 5 4 0)).length = 1
    ∧ o.injectRoom 5 false (reqFlits tLoad + 1) = true ∧ (o.dropEntryOf (.duet 5)).noWaitRecord { tLoad with cb := 5 } = false
    ∧ ((tChan (.commitBufferDrain 0 (.duet 5) .clean) (tState o)).duet 5).cb = []
    ∧ n.inPlane (tagDev far.tag) = false := by decide +kernel
/-- A token of the plane that no route reaches: the routing tables have no port after reset. -/
theorem test_commit_no_route :
    let t : Token := ⟨mkSb 0 false, 42, mkTag 0x400 3 7 0 2 0⟩
    let c := ((tReady.setFld F.chPlaneValid 1).setFld F.chPlaneNxm1 1).setDuet 5 { cb := [{ ent := .tok t }] }
    c.inPlane (tagDev t.tag) = true ∧ (match c.route (tagDev t.tag) (c.fld F.ntEpochCur) 7 with | .none => true | _ => false) = true
    ∧ (tChan (.commitBufferDrain 0 (.duet 5) .clean) (tState c)).fld F.ntStatSrcref = 1 := by decide +kernel

/-- A token that leaves through fabric port 0, and the other heads: an effect entry, and one that the code cannot correct. -/
theorem test_commit_route :
    let t : Token := ⟨mkSb 0 false, 42, mkTag 0x400 3 7 0 2 0⟩
    let b := ((tReady.setFld F.chPlaneValid 1).setFld F.chPlaneNxm1 1).wr 0x1C100 0x7777777777777707
    let c := (b.setPort 0 { b.port 0 with avail := true }).setDuet 5 { cb := [{ ent := .tok t }] }
    let d := (tMatch .live false).setDuet 5 { cb := [{ ent := .eff, ctx := 7 }] }
    c.inPlane (tagDev t.tag) = true ∧ c.route (tagDev t.tag) (c.fld F.ntEpochCur) 7 = .port 0 ∧ c.injectRoom 5 false 1 = true
    ∧ ((tChan (.commitBufferDrain 0 (.duet 5) .clean) (tState c)).buf (bufKey 5 4 0)).length = 1
    ∧ ((tChan (.commitBufferDrain 0 (.duet 5) .clean) (tState d)).duet 5).cb = []
    ∧ ((tChan (.commitBufferDrain 0 (.duet 5) .uncorrectable) (tState d)).ctx 7).st = .poisoned := by decide +kernel
/-- A staged packet of a context that has left LIVE is removed. -/
theorem test_dispatch_dead :
    let c := (tDisp { stage := some { pkt := tPkt (tWord .add), tile := 5 } }).setCtx 7 { st := .dead }
    c.duetOn 5 = true ∧ c.live 7 = false
    ∧ ((tChan (.dispatchSelect 0 5 tNow parityGood .clean false) (tState c)).duet 5).stage = none := by decide +kernel

/-! ## Witnesses: contexts, stand-ins and callers -/

/-- A ready channel whose memory is in service. -/
def tDram : Chan := (tReady.setFld F.dmTrstatState 2).setFld F.dmCfgEn 1
/-- CH_CTXBASE with BASE 0x10000 (the start of the memory, in MiB), and CH_CTXCFG with EN and LIMIT n. -/
def tCtxBase : Chan := tDram.setFld F.chCtxbaseBase 0x10000
def tCtxcfg (n : Nat) : Word := BitVec.ofNat 64 (n + 2 ^ 16)

theorem test_context_table :
    let c := tCtxBase
    let busy := { c with dm := { accAt := some 0 } }
    let d := tChan (.contextTableStart 0 .supv (tCtxcfg 1)) (tState busy)
    let f : Chan := { c with cu := { building := true } }
    c.served 0x108 = true ∧ c.mayWrite .supv 0x108 = true ∧ c.flag F.chCtxcfgEn = false
    ∧ (c.wrFields 0x108 (tCtxcfg 1)).tableFits = true ∧ (c.wrFields 0x108 (tCtxcfg 1)).liveCount = 0
    ∧ (c.wrFields 0x108 (tCtxcfg 0)).tableFits = false
    ∧ c.dmInner [c.recordLine 0] = true ∧ busy.dmInner [busy.recordLine 0] = false
    ∧ (d.ctxLimit, d.cu.starting, d.cu.building, d.flag F.chCtxcfgEn) = (4096, true, true, true)
    ∧ f.dmPort = true ∧ f.dmMeets (f.freeAddr 0) (4 * (f.ctxLimit - 1)) = false
    ∧ (tChan (.freeListBuilt 0) (tState { f with dm := { accAt := some 0 } })).cu.building = true
    ∧ (tChan (.contextTableStart 0 .supv (tCtxcfg 0)) (tState c)).flag F.chCtxcfgEn = false := by decide +kernel
theorem test_context_flush :
    let c := ((tCtxBase.setFld F.chCtxcfgEn 1).setCtx 7 { st := .live, flow := 3 }).cacheTouch 7 true
    let d := tChan (.contextCacheFlush 0 .supv (tCtxcfg 1 + 0x8000000000000000)) (tState c)
    c.flag F.chCtxcfgEn = true ∧ c.cu.cached = [(7, true)] ∧ d.cu.cached = [(7, false)]
    ∧ d.cu.flushing = true ∧ d.dm.inq = [⟨c.ctxAddr 7, (c.ctx 7).words.flatMap (fun v => valBytes v.toNat 8)⟩]
    ∧ (tChan (.contextAllocation 0 []) (tState { c with cu := { c.cu with building := true } })).cu.granted = 0 := by decide +kernel

/-- Caller 0 at a CTXNEW, a duet with a CTXNEW in its stage, and a ring with an accepted item. -/
def tTable (c : Chan) : Chan :=
  { ((c.setFld F.chCtxcfgEn 1).setFld F.dmTrstatState 2).setFld F.pgThrMaxlive 1000 with cu := { c.cu with freeNext := 1, freeEnd := 4096 } }
def tAskDuet : Chan := tTable (tDisp { stage := some { pkt := tPkt (tWord .ctxnew), tile := 5 } })
def tAskRing : Chan := tTable (tReady.setRing 3 { fetched := some ⟨0, 0, 0, 0, 0, 0, 0, 0⟩, admitted := some {} })
def tAskCaller : Chan :=
  let c := tTable (tCallerChan (tWord .ctxnew))
  c.setCaller 0 { c.caller 0 with grant := none }
theorem test_context_allocation :
    [tAskDuet, tAskRing, tAskCaller].all (fun c => c.flag F.chCtxcfgEn && !c.cu.building && c.dmInner [c.freeAddr c.cu.freeHead / 64 * 64] && c.cu.listLen != 0) = true
    ∧ [tAskDuet, tAskRing, tAskCaller].map (fun c => (c.asks.map (fun q => (q.who, c.admits q)), (c.takeId).map Prod.fst))
      = [([(.duet 5, true)], some 1), ([(.ring 3, true)], some 1), ([(.caller 0, true)], some 1)]
    ∧ ((tChan (.contextAllocation 0 []) (tState tAskRing)).ring 3).grant = some { id := 1, weight := 1 }
    ∧ ((tChan (.contextAllocation 0 []) (tState tAskCaller)).caller 0).grant = some { id := 1, weight := 1 }
    ∧ ((tChan (.contextAllocation 0 []) (tState tAskDuet)).duet 5).stage.map Staged.grant = some (some { id := 1, weight := 1 }) := by
  decide +kernel
theorem test_gates :
    let c := ((tTable tReady).setFld F.pgThrWmen 0).setFld F.pgThrEldres 200
    c.flag F.pgThrForce = false ∧ c.flag F.pgThrWmen = false ∧ c.spillNear = false ∧ c.gate true 1000 = true
    ∧ c.gate true 1001 = false ∧ c.gate false 800 = true ∧ c.gate false 801 = false := by
  decide +kernel

theorem test_context_lives :
    let c := { tTable (((tReady.setCtx 7 { st := .live, seq := 3 }).setCtx 8 { st := .dead }).setCtx 9 { st := .dead, swept := true }) with
      net := { arrive := [(36 * 8 + 4, { pay := .tok ⟨mkSb 0 false, 42, mkTag 0 1 7 0 2 0⟩ })] } }
    let s := tState (c.setFld F.chCtxcfgLimit 1)
    let late := tState { c.setFld F.chCtxcfgLimit 1 with xclk := 128 * 8192 }
    (c.ctx 7).st = .live ∧ c.olderThan (c.ctx 7).seq < 256 ∧ ((tChan (.elderPromotion 0 7) s).ctx 7).elder = true
    ∧ c.cu.sweep = none ∧ c.sweepSet ≠ []
    ∧ ((tChan (.sweepPass 0 []) { s with chans := (tAfter (.sweepPass 0 []) s).chans }).ctx 8).swept = true
    ∧ { c with cu := { c.cu with sweep := some [8] } }.dmSecond { c with cu := { c.cu with sweep := some [8] } }.usedLines = true
    ∧ ((tChan (.sweepPass 0 []) (tState { c with cu := { c.cu with sweep := some [8] } })).ctx 8).swept = true
    ∧ (c.ctx 9).swept = true ∧ c.uncommitted 9 = false ∧ max 1 (c.fld F.chCtxcfgQuar) = 128
    ∧ ((tChan (.contextFree 0 9) s).ctx 9).st = .dead ∧ ((tChan (.contextFree 0 9) late).ctx 9).st = .free
    ∧ (c.arrived 36 4).isSome = true ∧ ((tChan (.controlToken 0) s).ctx 7).st = .dead := by decide +kernel
theorem test_control_token_stray :
    let c := { tTable tReady with net := { arrive := [(36 * 8 + 4, { pay := .tok ⟨mkSb 0 false, 42, mkTag 0 3 7 0 2 0⟩ })] } }
    (c.arrived 36 4).isSome = true ∧ (tChan (.controlToken 0) (tState c)).fld F.chTokstatMalformed = 1 := by decide +kernel

def tExcReq (a : BitVec 40) : Req := { kind := .exc, addr := a, size := 64, who := .ctx 7 0, ip := 3, words := [0x0500000000000000, 0, 1, 2, 3, 4, 5, 6] }
theorem test_exception_record :
    let c := { tMatch .live false with excq := [⟨tExcReq 0x1000, 0, 0, 0⟩] }
    let d := { tMatch .live false with excq := [⟨tExcReq 0x600000, 0, 0, 0⟩] }
    c.spReady = true ∧ c.range 0x1000 = .scratch ∧ c.spLocked 0x1000 64 = false ∧ c.excMapped 0x1000 = true ∧ wbit (c.rdWord 0x1008) 63 = false
    ∧ d.range 0x600000 = .hole ∧ d.excMapped 0x600000 = false
    ∧ (tDram.range 0x1000000000 = .dram ∧ tDram.dmThird (linesOf 0x1000000000 64) = true)
    ∧ (tChan (.exceptionRecordWrite 0 []) (tState c)).rdWord 0x1010 = 1
    ∧ (tChan (.exceptionRecordWrite 0 []) (tState d)).fld F.chExcstatLost = 1 := by decide +kernel
theorem test_records_enable :
    let c := tReady
    c.served 0x148 = true ∧ c.mayWrite .host 0x148 = true ∧ c.flag F.chExccfgEn = false
    ∧ (c.wrFields 0x148 0x8000000000000004).excFits = true ∧ (c.wrFields 0x148 0x8000000000000003).excFits = false
    ∧ (tChan (.exceptionRecordsEnable 0 .host 0x8000000000000004) (tState c)).flag F.chExccfgEn = true
    ∧ (tChan (.exceptionRecordsEnable 0 .host 0x8000000000000003) (tState c)).flag F.chExccfgEn = false := by decide +kernel
theorem test_loop_exit :
    let l : Loop := { closing := true, exitTag := mkTag 0 3 7 0 2 0, exitVal := mkOpd 5 1 false }
    let c := tReady.setLoop 3 l
    c.loop 3 = some l ∧ l.live = 0 ∧ l.pending = false ∧ (tChan (.loopExit 0 3) (tState c)).loop 3 = none
    ∧ (tChan (.loopExit 0 3) (tState (tReady.setLoop 3 { l with closing := false }))).loop 3 = none := by decide +kernel

theorem test_stand_in :
    let si : StandIn := { cause := 2, since := 0, spare := 64 }
    let c := tReady.setDuet 5 { standIn := some si, wins := [{ wseq := 1 }], again := some 1 }
    let h := tReady.setDuet 64 { standIn := some { si with handOver := some 7 } }
    c.tilesOf 5 = [5] ∧ (let d := tChan (.standInComplete 0 5 true) (tState c)
      (d.role 64, d.fld (F.lfDuetServes 64), d.role 5, d.fld (F.lfDuetCause 5), (d.duet 64).again) = (0, 5, 4, 2, some 1))
    ∧ (let d := tChan (.standInComplete 0 5 false) (tState c); (d.role 64, d.role 5) = (4, 4))
    ∧ (let d := tChan (.standInComplete 0 64 true) (tState h); (d.role 64, d.fld (F.lfDuetServes 64), (d.duet 64).standIn) = (0, 7, none)) := by
  decide +kernel
theorem test_comparator_failure :
    let c := tReady.setDuet 5 { wins := [{ wseq := 1 }] }
    c.tilesOf 5 ≠ [] ∧ tReady.tilesOf 6 ≠ [] ∧ (tReady.duet 6).wins = [] ∧ (tReady.duet 6).cmpBad = false ∧ (tReady.duet 6).cmpAt ≠ some tReady.xclk
    ∧ (tReady.freeSpare (duetSet 6)).isSome = true ∧ (tReady.duet 6).joins = []
    ∧ ((tChan (.comparatorTestFailure 0 (.duet 5)) (tState c)).duet 5).cmpBad = true
    ∧ ((tChan (.comparatorTestFailure 0 (.duet 6)) (tState c)).duet 6).standIn.map StandIn.cause = some 2 := by decide +kernel
/-- The comparator test of a caller between windows and in one. -/
theorem test_caller_comparator :
    let c := tReady.setCaller 1 { st := .running, phys := some 1, wins := [{ wseq := 1 }] }
    (tReady.caller 1).phys = some 1 ∧ (tReady.caller 1).standIn = none ∧ (tReady.caller 1).cmpAt = none ∧ tReady.freePhys = some 4
    ∧ (let y := (tChan (.comparatorTestFailure 0 (.caller 1)) (tState c)).caller 1; (y.cmpBad, y.wins.map Win.closed) = (true, [true]))
    ∧ (let y := (tChan (.comparatorTestFailure 0 (.caller 1)) (tState tReady)).caller 1; (y.standIn, y.standCause) = (some 4, 2)) := by
  decide +kernel

theorem test_duet_control :
    let s := tState tReady
    let r4 := tState ((tReady.setFld (F.lfDuetRole 5) 4).setFld (F.lfDuetServes 5) 0x3F)
    let r3 := tState (tReady.setFld (F.lfDuetRole 64) 3)
    let one := tChan (.sparetest 0 .host 3) s
    tReady.asleep = false ∧ tReady.mayWrite .host 0x2008 = true ∧ tReady.role 64 = 2 ∧ tReady.taken 64 = false ∧ (one.duet 64).testing = true
    ∧ (List.range 68).find? (fun d => duetSet d == 0 && one.role d == 2 && (one.duet d).testing) = some 64
    ∧ (tChan (.spareSelfTestComplete 0 0 false) (tState one)).fld (F.lfDuetCause 64) = 4
    ∧ ((tChan (.spareSelfTestComplete 0 0 true) (tState one)).duet 64).testing = false
    ∧ (r4.chan 0).role 5 = 4 ∧ (tChan (.duetRetest 0 .host 5 1) r4).role 5 = 3
    ∧ (tChan (.duetRetire 0 .host 64 2) s).role 64 = 4
    ∧ ((tChan (.duetRetire 0 .host 5 2) (tState (tReady.setDuet 5 { wins := [{ wseq := 1 }] }))).duet 5).retire = true
    ∧ (r3.chan 0).role 64 = 3 ∧ (tChan (.retestComplete 0 64 false) r3).role 64 = 4 ∧ (tChan (.retestComplete 0 64 true) r3).role 64 = 2 := by
  decide +kernel
/-- A serving duet between windows is retired at once: its spare's self-test starts. -/
theorem test_duet_retire_now :
    openWin (tReady.duet 5).wins = none ∧ (tReady.duet 5).joins = [] ∧ (tReady.duet 5).standIn = none ∧ tReady.role 5 = 0
    ∧ tReady.freeSpare (duetSet 5) = some 64
    ∧ ((tChan (.duetRetire 0 .host 5 2) (tState tReady)).duet 5).standIn = some { cause := 3, since := 0, spare := 64 } := by decide +kernel
/-- A SPARE that a stand-in has taken is retired. -/
theorem test_duet_retire_taken :
    let c := tReady.setDuet 5 { standIn := some { cause := 2, since := 0, spare := 64 } }
    c.role 64 = 2 ∧ c.taken 64 = true ∧ (c.duet 5).standIn.map StandIn.spare = some 64
    ∧ (let d := tChan (.duetRetire 0 .host 64 2) (tState c); (d.role 64, d.fld (F.lfDuetCause 64)) = (4, 3)) := by decide +kernel
/-- A retest that passes while a tile of its set has no duet; LF_INJ and LF_WIN. -/
theorem test_duet_needy :
    let c := (((tReady.setFld (F.lfDuetRole 64) 3).setFld (F.lfDuetRole 0) 4).setFld (F.lfDuetServes 0) 0x3F)
    (c.setFld (F.lfDuetRole 64) 2).needyTile (duetSet 64) = some 0
    ∧ (((tChan (.retestComplete 0 64 true) (tState c)).duet 64).standIn).map StandIn.handOver = some (some 0)
    ∧ (let d := tChan (.lfInjArm 0 .host 0x8000000000000503) (tState tReady); (d.flag F.lfInjArm, d.fld F.lfInjDuet, d.fld F.lfInjKind) = (true, 5, 3))
    ∧ (tChan (.lfWinWrite 0 .host 2) (tState tReady)).fld F.lfWinLen = 2 := by decide +kernel

theorem test_caller_run :
    let s := tState tReady
    let x := ((tChan (.callerRun 0 .host 1 0xC000000000001234) s).caller 1)
    tReady.mayWrite .host (0x30000 + 32) = true ∧ (tReady.caller 1).st = .halted ∧ tReady.flag (F.ccCallRun 1) = false
    ∧ (x.st, x.csrs.ip, x.priv) = (.running, 0x1234, true)
    ∧ ((tChan (.callerRun 0 .host 0 0xC000000000001234) (tState (tReady.setFld F.ccStewRun 1))).caller 0).st = .halted := by decide +kernel
theorem test_caller_stop :
    let c := (tReady.setCaller 1 { st := .running, phys := some 1, wins := [{ wseq := 1 }], normal := [(3, (5, false))] }).setFld (F.ccCallRun 1) 1
    let d := tReady.setCaller 1 { st := .running, phys := some 1, inbox := [{ src := 1, count := 1, fast := false }], normal := [(3, (5, false))] }
    c.flag (F.ccCallRun 1) = true ∧ ((tChan (.callerStop 0 .host 1 0) (tState c)).caller 1).halting = true
    ∧ (let x := ((tChan (.halt 0 .host 1 0x10000) (tState d)).caller 1); (x.st, x.inbox) = (.halted, []))
    ∧ (let x := ((tChan (.reset 0 .host 1 0x20000) (tState d)).caller 1); (x.st, x.normal, x.gen) = (.halted, [], 1)) := by decide +kernel
theorem test_physical_callers :
    let s := tState tReady
    let one := tState (tReady.setCaller 1 { st := .running, phys := some 1, wins := [{ wseq := 1 }] })
    let lost := tState ((tReady.setFld (F.ccPhysRole 4) 3).setCaller 2 { st := .lost, phys := none })
    let si := tState (tReady.setCaller 1 { st := .running, phys := some 1, standIn := some 4, standCause := 2 })
    tReady.mayWrite .host (0x30100 + 8 * 4) = true ∧ tReady.fld (F.ccPhysRole 4) = 2 ∧ tReady.callerOf 1 = some 1
    ∧ (tChan (.callerRetest 0 .host 4 1) (tState (tReady.setFld (F.ccPhysRole 4) 4))).fld (F.ccPhysRole 4) = 3
    ∧ (tChan (.callerRetire 0 .host 4 2) s).fld (F.ccPhysRole 4) = 4
    ∧ ((tChan (.callerRetire 0 .host 1 2) one).caller 1).retire = true
    ∧ (tChan (.callerRetestComplete 0 4 false) lost).fld (F.ccPhysCause 4) = 4
    ∧ (tChan (.callerRetestComplete 0 4 true) (tState (tReady.setFld (F.ccPhysRole 4) 3))).fld (F.ccPhysRole 4) = 2
    ∧ ((tChan (.callerRetestComplete 0 4 true) lost).caller 2).phys = some 4
    ∧ ((tChan (.callerStandInComplete 0 1 true) si).caller 1).phys = some 4 := by decide +kernel

/-! ## Witnesses: flows, admission, Cut-in, the queue unit -/

/-- Parked firing 4 of tile 5 waits for what w says. -/
def tPool (w : ParkFor) : List Parked := [{ tile := 5, row := 0, way := 4, ctx := 7, why := w }]
def tSolo (st : CtxSt) : Chan :=
  let c := (tMatch st false).setSolo 9 { waiters := [(5, 0, 4, 7, 0)] }
  { c with ms := { c.ms with pool := tPool (.slot 9) } }
theorem test_solo :
    let own := tState ((tMatch .dead false).setSolo 9 { owner := some (7, 0) })
    let live := tState ((tMatch .live false).setSolo 9 { owner := some (7, 0) })
    ((tChan (.soloGrant 0 9) (tState (tSolo .live))).solo 9).owner = some (7, 0)
    ∧ (tChan (.soloGrant 0 9) (tState (tSolo .live))).ms.pool.map Parked.woken = [true]
    ∧ (tChan (.soloGrant 0 9) (tState (tSolo .dead))).solo 9 = {}
    ∧ ((own.chan 0).solo 9).owner = some (7, (own.chan 0).cseq 7) ∧ (tChan (.soloSlotRelease 0 9) own).solo 9 = {}
    ∧ (live.chan 0).live 7 = true ∧ ((tChan (.soloSlotRelease 0 9) live).solo 9).owner = some (7, 0) := by decide +kernel
/-- Order queue 3 with one position in state st, whose context is 7. -/
def tOrder (st : Nat) (o : Ord) : Chan :=
  (((tMatch .live false).setFld (F.quCfgEn 771) 1).qPush 771 (posWord 7 0 st false)).setOrd 3 o
theorem test_order_queue :
    let skip := tOrder 2 {}
    let held := tOrder 0 { limit := 1 }
    let s := tState held
    let late := tState { held with xclk := 1024 }
    skip.ordLen 3 = 1 ∧ posState (skip.posAt 3 0) = 2 ∧ ((tChan (.soloCursorAdvance 0 3) (tState skip)).ord 3).cursor = 1
    ∧ skip.ms.pool = [] ∧ posState (held.posAt 3 0) = 0 ∧ held.ms.pool = [] ∧ ((tChan (.soloCursorAdvance 0 3) s).ord 3).cursor = 0
    ∧ skip.headFree 3 = true ∧ ((tChan (.promenadeHeadAdvance 0 3 parityGood) (tState skip)).ord 3).head = 1
    ∧ held.headFree 3 = false ∧ (tChan (.promenadeHeadAdvance 0 3 parityGood) s).ordLen 3 = 1
    ∧ ((tChan (.headTimeLimit 0 3) late).ord 3).fired = true ∧ (tChan (.headTimeLimit 0 3) late).ev.sent.map EvMsg.src = [323]
    ∧ ((tChan (.headTimeLimit 0 3) s).ord 3).fired = false := by decide +kernel

/-- The host window open over its first page, whose entry allows all. -/
def tHost (c : Chan) : Chan := { c.setFld F.chHwctlEn 1 with hw := { cache := [(0, 7)] } }
/-- Ring 3, ACTIVE with an entry to take, at the start of the host window; its completion ring 0 is enabled. -/
def tRing (c : Chan) : Chan :=
  (tHost (tSet c [(F.rgScfgEn 3, 1), (F.rgScfgSize 3, 6), (F.rgSbaseAddr 3, 0x8000000), (F.rgSdbAddr 3, 0x800000100), (F.rgCcfgEn 0, 1),
    (F.rgCcfgSize 0, 6), (F.rgCbaseAddr 0, 0x8000010), (F.rgCdbAddr 0, 0x800000200), (F.quCfgEn 515, 1), (F.quCfgCap 515, 16), (F.quCfgEn 640, 1)])).setRing 3 { st := .active, avail := 1 }
def tRun : Line := ⟨0x0100000000000005, mkTag 0 3 0 0 2 0, 1, 42, 0, 0, 0, 0⟩
/-- AD_CFG with EN, COSTCLK 1.0 and MINMHZ 100; tempo class 0 guaranteed at level 0 with BOUND n; every cost is 8. -/
def tAdmit (g n : Nat) : Chan :=
  tTable (tSet (tRing tReady) [(F.adCfgEn, 1), (F.adCfgCostclk, 256), (F.adCfgMinmhz, 100), (F.adTcfgEn 0, 1), (F.adTcfgGuar 0, g),
    (F.adTcfgBound 0, n), (F.adCurveCost 0, 8), (F.adCurveXmax 0, 100)])
theorem test_admission :
    let best := tAdmit 0 1000
    let c := tAdmit 1 1000
    let d := tAdmit 1 4
    lineOpc tRun = 1 ∧ lineFence tRun = false ∧ lineBad tRun = none ∧ c.mayFetch 3 = true ∧ c.xlateOpen (c.sqBase 3 + 64 * c.sqSlot 3) 64 = true
    ∧ (c.engineRead (c.sqBase 3 + 64 * c.sqSlot 3) 64).2 = true ∧ c.fld (F.rgSctxTempo 3) = 0
    ∧ best.admission 0 0 5 0 = .best ∧ c.admission 0 0 5 0 = .accept 1000 8 8 ∧ d.admission 0 0 5 0 = .decline 4
    ∧ ((tChan (.admissionDecision 0 3 (.ok tRun)) (tState c)).ring 3).admitted = some { deadline := 1000, cost := 8, guar := true }
    ∧ ((tChan (.admissionDecision 0 3 (.ok tRun)) (tState best)).ring 3).admitted = some {}
    ∧ ((tChan (.admissionDecision 0 3 (.ok tRun)) (tState d)).cring 0).cpls.map (fun x => (x.status, x.bumpCi)) = [(4, true)] := by
  decide +kernel
theorem test_ad_cfg :
    tReady.served 0x5600 = true ∧ tReady.mayWrite .host 0x5600 = true ∧ (tReady.wrFields 0x5600 0x8000000000000064).adForbidden = true
    ∧ (tChan (.adCfgWrite 0 .host 0x8000000000000064) (tState tReady)).flag F.adCfgEn = false
    ∧ (let d := tChan (.adCfgWrite 0 .host 0x6400000032) (tState tReady); (d.fld F.adCfgMinmhz, d.fld F.adCfgCostclk)) = (100, 50) := by decide +kernel

/-- The spill area at the start of the memory, with 32,768 buckets. -/
def tSpill (c : Chan) : Chan :=
  tSet c [(F.dmTrstatState, 2), (F.dmCfgEn, 1), (F.pgSpillbaseBase, 0x10000), (F.pgSpillcfgSize, 1), (F.pgSpillcfgEn, 1), (F.pgSpillcfgProbe, 1)]
def tEnt : MEntry := { val0 := 42, ctx := 7, ip := 3, need := 3, got := 1 }
/-- Context 7's tokens at IP 3 have their home in row tRow of tile tTil. -/
def tTil : Tile := tTokTile (tTok 3 0)
theorem test_background_eviction :
    let c := ((tSpill (tMatch .live false)).setEntry tTil.val (entryNo (homeRow 7 3) 0) tEnt).setFld F.msWmstatNow 1
    let s := tState { c with xclk := 100000 }
    (c.tile tTil.val).evict = none ∧ { c with xclk := 100000 }.dmSecond (c.victimLines [(entryNo (homeRow 7 3) 0, tEnt)]) = true ∧ c.backgroundVictim 100000 tTil.val = some (entryNo (homeRow 7 3) 0, tEnt)
    ∧ (c.cleanProbe 100000 [] 7 3).freeSlot 7 3 (List.range (c.cleanProbe 100000 [] 7 3).nProbe) = some (c.probe 7 3 0, 0)
    ∧ ((tChan (.backgroundEviction 0 tTil []) s).tile tTil.val).evict = some { e := entryNo (homeRow 7 3) 0, bucket := c.probe 7 3 0, slot := 0 } := by
  decide +kernel
theorem test_eviction_complete :
    let c := ((tSpill (tMatch .live false)).setEntry tTil.val (entryNo (homeRow 7 3) 0) tEnt).setTile tTil.val
      { evict := some { e := entryNo (homeRow 7 3) 0, bucket := 2, slot := 7 }, miss := [⟨tTok 3 1, tWord .add, .eviction⟩] }
    let d := tChan (.evictionComplete 0 tTil []) (tState c)
    2 < c.nBuckets ∧ c.entry tTil.val (entryNo (homeRow 7 3) 0) = some tEnt ∧ waitsEvict tEnt ⟨tTok 3 1, tWord .add, .eviction⟩ = true
    ∧ (d.readRec (d.recAddr 2 7)).map (fun r => (r.val0, r.ctx, r.got)) = some (42, 7, 1) ∧ d.ms.entries = [] ∧ c.dmSecond (c.evictLines ⟨entryNo (homeRow 7 3) 0, 2, 7⟩) = true
    ∧ d.ms.cutq = [⟨tTil.val, tTok 3 1, tWord .add⟩] := by
  decide +kernel
theorem test_spill_retry :
    let b := ((tMatch .live false).setTile 5 { defer := [{ tok := tTok 3 0, word := tWord .add, stuckAt := some 0 }] })
    let s := tState b
    let late := tState { b with xclk := 1024 }
    ((tChan (.spillRetryTimeout 0 5 []) s).tile 5).defer = [{ tok := tTok 3 0, word := tWord .add, stuckAt := some 0 }]
    ∧ ((tChan (.spillRetryTimeout 0 5 []) late).tile 5).defer.map Deferred.tok = [tTok 3 0] := by decide +kernel
/-- A lookup that finds a record not yet complete, one that completes it, and one that finds none. -/
theorem test_cut_in_lookup :
    let q (need : BitVec 4) : SRec := ⟨42, 0, 0, 0, 0, 0, need, 1, 0, 0, 7, 3, 0⟩
    let c (need : BitVec 4) : Chan :=
      let c := tSpill (tMatch .live false)
      let b := c.probe 7 3 0
      let c := (c.writeRec (c.recAddr b 0) (q need)).setMap b
      { c with ms := { c.ms with cutq := [⟨tTil.val, tTok 3 1, tWord .add⟩] } }
    let none_ := { tSpill (tMatch .live false) with ms := { cutq := [⟨tTil.val, tTok 3 1, tWord .add⟩] } }
    (Chan.lookup 0 [] (tTok 3 1) (List.range (c 7).nProbe) (c 7)).2 = some ((c 7).probe 7 3 0, 0)
    ∧ ((q 7).fill (tTok 3 1)).got ≠ ((q 7).fill (tTok 3 1)).need ∧ ((q 3).fill (tTok 3 1)).got = ((q 3).fill (tTok 3 1)).need
    ∧ (((Chan.lookup 0 [] (tTok 3 1) (List.range (c 3).nProbe) (c 3)).1).reload 0 tTil.val ((c 3).probe 7 3 0) 0 ((q 3).fill (tTok 3 1)) (tWord .add) []).isSome = true
    ∧ ((tChan (.cutInLookup 0 []) (tState (c 7))).readRec ((c 7).recAddr ((c 7).probe 7 3 0) 0)).map (fun r => (r.val0, r.val1, r.got)) = some (42, 42, 3)
    ∧ (tChan (.cutInLookup 0 []) (tState (c 3))).ms.entries.map (fun e => (e.2.val0, e.2.val1, e.2.st)) = [(42, 42, .matched)]
    ∧ (c 7).dmSecond ((c 7).probeLines 7 3) = true ∧ none_.dmSecond (none_.probeLines 7 3) = true ∧ (tMatch .live false).dmSecond [] = false
    ∧ (none_.noRecord 0 tTil.val (tTok 3 1) (tWord .add) []).isSome = true
    ∧ (tChan (.cutInLookup 0 []) (tState none_)).fld F.pgSpillstatFalsepos = 1 := by decide +kernel
theorem test_stall_monitor :
    let c := { tReady.setFld F.pgStallEn 1 with ms := { stall := 200000 } }
    max 4096 (c.fld F.pgStallLimit) ≤ c.ms.stall ∧ tReady.ms.stall < max 4096 (tReady.fld F.pgStallLimit)
    ∧ (tChan (.stallMonitorFire 0) (tState c)).ev.sent.map EvMsg.src = [15] ∧ (tChan (.stallMonitorFire 0) (tState tReady)).ev.sent = [] := by
  decide +kernel

/-- A request r of context 7 stands before the queue unit of tile 5 of channel c. -/
def tAsk (c : Chan) (r : Req) : Chan := { c with net := { arrive := [(8 * 5 + 1, { pay := .req r })] } }
def tQ (kind : ReqKind) (reply : Reply) : Req := { kind := kind, d0 := mkOpd 77 1 false, reply := reply, who := .ctx 7 0 }
/-- Queue 961 enabled, with n words in it. -/
def tQueue (n retain : Nat) : Chan :=
  tLater <| (List.range n).foldl (fun (c : Chan) i => c.qPush 961 (softWord (mkOpd (BitVec.ofNat 64 (50 + i)) 1 false)))
    (tSet (tMatch .live false) [(F.quCfgEn 961, 1), (F.quCfgRetain 961, retain), (F.quCfgCap 961, 64), (F.quCfgBase 961, 0x2F00)])
def tOp (kind : ReqKind) (n retain : Nat) (reply : Reply := .tags none none) : Chan :=
  tChan (.queueUnitOperation 0 5 parityGood) (tState (tAsk (tQueue n retain) (tQ kind reply)))
theorem test_queue_unit :
    (tQueue 0 1).qEn 961 = true ∧ (tQueue 0 1).domUp 4 = true ∧ (tQueue 0 1).qRoom 961 = true ∧ (tQueue 0 1).popWaiter 961 = none
    ∧ (tQueue 1 1).whoLive (.ctx 7 0) = true ∧ (tQueue 1 1).qGives 961 = true ∧ (tQueue 0 1).qGives 961 = false
    ∧ (tAsk (tQueue 1 1) (tQ (.qpop 961) (.tags none none))).qTurnOver 961 (tQ (.qpop 961) (.tags none none)) = false ∧ (tQueue 1 1).qRetain 961 = true ∧ (tQueue 1 0).qRetain 961 = false
    ∧ ((tOp (.qpush 961) 0 1).qptr 961).held = 1 ∧ ((tOp (.qpop 961) 2 1).qptr 961).unread = 1 ∧ ((tOp (.qpop 961) 2 1).qptr 961).held = 2
    ∧ ((tOp (.qpop 961) 2 0).qptr 961).held = 1 ∧ (tOp (.qpop 961) 0 1).qu.waiters.length = 1
    ∧ ((tOp (.qmark 961) 2 1).qptr 961).marks = [0] ∧ ((tOp (.qrewind 961) 2 1).qptr 961).unread = 2
    ∧ ((tOp (.qrelease 961) 2 1).qptr 961).marks = [] ∧ ((tOp (.qmark 961) 2 0).qptr 961).marks = [] := by decide +kernel
/-- A caller's pop of a word, a push to a full queue, and a queue that may not be addressed. -/
theorem test_queue_unit_more :
    let full := tAsk ((tQueue 0 1).setFld (F.quCfgEn 961) 1 |>.setQptr 961 { held := (tQueue 0 1).qCap 961 }) (tQ (.qpush 961) (.tags none none))
    let low := tAsk (tQueue 0 1) (tQ (.qpush 959) (.tags none none))
    let pop := tAsk (tQueue 1 1) { tQ (.qpop 961) (.regs 0 0 4) with who := .caller 0 0 }
    full.qRoom 961 = false ∧ ((tChan (.queueUnitOperation 0 5 parityGood) (tState full)).qptr 961).held = full.qCap 961
    ∧ ((tChan (.queueUnitOperation 0 5 parityGood) (tState low)).ctx 7).exccnt = 1
    ∧ pop.whoLive (.caller 0 0) = true
    ∧ ((tChan (.queueUnitOperation 0 5 parityGood) (tState pop)).buf (bufKey 5 4 2)).map NPkt.dtile = [35] := by decide +kernel
theorem test_queue_repair :
    let w : PopWait := ⟨961, tQ (.qpop 961) (.tags none none)⟩
    let c (st : CtxSt) := { tMatch st false with qu := { waiters := [w] } }
    let m := { tEnt with got := 3, st := .matched }
    let r := ((tMatch .live false).setEntry 5 4 m).setTile 5 { rebuild := true }
    (c .live).whoLive w.req.who = true ∧ (c .dead).whoLive w.req.who = false
    ∧ (tChan (.popWaiterRemoval 0 0) (tState (c .live))).qu.waiters.length = 1 ∧ (tChan (.popWaiterRemoval 0 0) (tState (c .dead))).qu.waiters = []
    ∧ r.ms.entries.filter (fun v => v.1 / 1536 == 5) = [(1536 * 5 + 4, m)] ∧ r.rebuilt 5 4 m = true
    ∧ ((tChan (.readyQueueRebuild 0 5) (tState r)).tile 5).scanned = true
    ∧ ((tChan (.rebuildComplete 0 5) (tAfter (.readyQueueRebuild 0 5) (tState r))).tile 5).rebuild = false := by decide +kernel
theorem test_ring_regeneration :
    let c := (tRing tReady).setRing 3 { (tRing tReady).ring 3 with badHead := true, toks := [⟨0, 7, 0⟩], items := [{ ctx := 7, slot := 0 }] }
    c.ringsOn = true ∧ c.xlateOpen (c.sqBase 3) 64 = true ∧ (c.engineRead (c.sqBase 3 + 64 * (0 : BitVec 16).toNat) 64).2 = true
    ∧ ((tChan (.ringTokenRegeneration 0 3 (.ok tRun)) (tState c)).ring 3).badHead = false := by decide +kernel
/-- AD_CFG with EN 1 and a legal MINMHZ is not forbidden, on either product. -/
theorem test_ad_cfg_enable : (tReady.wrFields 0x5600 0x8000064000000021).adForbidden = false := by
  unfold Chan.adForbidden
  generalize Config.isE20 = b
  cases b <;> decide +kernel

/-! ## Witnesses: scratchpad, Shuffle, locks, GDDR7 -/

/-- Word 0x100 of the scratchpad is 5, word 0x108 is 6; request r of context 7 stands before tile 5's bank. -/
def tMem (c : Chan) : Chan := (c.wrWord 0x100 5).wrWord 0x108 6
def tSp (r : Req) : State := tState (tAsk (tMem (tMatch .live false)) r)
def tReq (kind : ReqKind) (a : BitVec 40) (size : Nat) (v : Word) (v1 : Word := 0) : Req :=
  { kind := kind, addr := a, size := size, d0 := mkOpd v 1 false, d1 := mkOpd v1 1 false, who := .ctx 7 0, reply := .tags none none }
def tAcc : Instr := .scratchpadAccess 0 5 []
theorem test_scratchpad :
    let r := tReq .ld 0x100 8 0
    let c := (tSp r).chan 0
    let held := { c with sp := { c.sp with waiting := [(6, r)] } }
    c.spReady = true ∧ c.spNext 5 = none ∧ c.spRequest r = true ∧ c.spBlocked r [] = false ∧ isSplit 0x100 8 = false ∧ isSplit 0x13C 4 = false
    ∧ held.spBlocked r held.sp.waiting = true ∧ held.spNext 5 = none
    ∧ tGives tAcc (tSp r) ((c.takeArrived 5 1).reply 5 r.reply (mkOpd 5 1 false) (mkOpd 5 1 false)) = true
    ∧ tGives tAcc (tState held) { held.takeArrived 5 1 with sp := { held.sp with waiting := [(6, r), (5, r)] } } = true
    ∧ tLeads tAcc (tSp (tReq .st 0x13C 4 0x1122334455667788)) (fun b =>
        [0x13B, 0x13C, 0x13D, 0x13E, 0x13F, 0x140].map (memByte b.mem) == [0, 0x88, 0x77, 0x66, 0x55, 0] && b.rdWord 0x100 == 5) = true
    ∧ tLeads tAcc (tSp (tReq .cas 0x100 8 5 9)) (fun b => b.rdWord 0x100 == 9 && b.rdWord 0x108 == 6) = true
    ∧ tLeads tAcc (tSp (tReq .cas 0x100 8 4 9)) (fun b => b.rdWord 0x100 == 5) = true
    ∧ tLeads tAcc (tSp (tReq .swap 0x100 8 9)) (fun b => b.rdWord 0x100 == 9) = true
    ∧ tLeads tAcc (tSp (tReq .xadd 0x100 8 9)) (fun b => b.rdWord 0x100 == 14) = true
    ∧ tLeads tAcc (tSp (tReq .acc 0x100 8 (2 ^ 63))) (fun b => b.rdWord 0x100 == accAdd 5 (2 ^ 63)) = true := by decide +kernel

/-- A split access of 8 bytes at 0x7C, at each of its stages. -/
def tSplit (kind : ReqKind) (st : Nat) (x : Split → Split) : State :=
  let r := tReq kind 0x7C 8 0x1122334455667788
  let c := tMatch .live false
  tState { (c.wrWord 0x78 0x0403020100000000).wrWord 0x80 0x0000000008070605 with sp := { c.sp with splits := [x { req := r, t1 := bankOf 0x7C, t2 := bankOf 0x80, stage := st, got := true }] } }
def tT1 : Tile := Fin.ofNat 64 (bankOf 0x7C)
def tT2 : Tile := Fin.ofNat 64 (bankOf 0x80)
theorem test_split :
    let c := (tSplit .ld 1 (fun x => { x with data1 := [1, 2, 3, 4], poison1 := [false, false, false, false], data := [5, 6, 7, 8], poison := [false, false, false, false] })).chan 0
    isSplit 0x7C 8 = true ∧ primLen 0x7C = 4 ∧ tT1.val = bankOf 0x7C ∧ tT2.val = bankOf 0x80 ∧ c.spReady = true
    ∧ tLeads (.splitSecondaryPart 0 tT2 []) (tSplit .st 0 id) (fun b => b.sp.splits.map Split.stage == [1] && memByte b.mem 0x7C == 1) = true
    ∧ tLeads (.splitSecondaryPart 0 tT2 []) (tSplit .ld 0 id) (fun b =>
        b.sp.splits.map (fun x => (x.stage, x.data, x.poison)) == [(1, [5, 6, 7, 8], [false, false, false, false])]) = true
    ∧ tLeads (.splitReply 0 tT1) (tSplit .st 1 id) (fun b => b.sp.splits.map Split.stage == [2]
        && [0x7B, 0x7C, 0x7D, 0x7E, 0x7F, 0x80].map (memByte b.mem) == [0, 0x88, 0x77, 0x66, 0x55, 5]) = true
    ∧ tLeads (.splitGo 0 tT2) (tSplit .st 2 id) (fun b => b.sp.splits == []
        && [0x7F, 0x80, 0x81, 0x82, 0x83, 0x84].map (memByte b.mem) == [4, 0x44, 0x33, 0x22, 0x11, 0]) = true
    ∧ tGives (.splitReply 0 tT1) (tState c) (({ c with sp := { c.sp with splits := [] } } : Chan).reply tT1.val (.tags none none)
        (mkOpd 0x0807060504030201 1 false) (mkOpd 0x0807060504030201 1 false)) = true
    ∧ tLeads (.scratchpadClearComplete 0) (tState { tReady with sp := {} }) (fun b => !b.sp.clearing) = true := by decide +kernel

def tArr : Arr := .scratch 5
def tShuf (x : Shuf) : State := tState ((tReady.setFld F.spShufEn 1).setShuf tArr x)
theorem test_shuffle :
    let c := (tShuf {}).chan 0
    c.memAwake = true ∧ c.memGoing = false ∧ c.fld F.spShufPeriod = 1000
    ∧ tLeads (.shuffleRegionStart 0 tArr) (tShuf { next := 4 }) (fun b => b.shuf tArr == { step := 1, region := 4, next := 4, dueAt := 100000000 / 384 }) = true
    ∧ tGives (.shuffleRegionStart 0 tArr) (tShuf { dueAt := 1 }) ((tShuf { dueAt := 1 }).chan 0) = true
    ∧ tGives (.shuffleCopyComplete 0 tArr) (tShuf { step := 1, prog := 16 }) (c.setShuf tArr { step := 2 }) = true
    ∧ tGives (.shuffleCopyComplete 0 tArr) (tShuf { step := 1, prog := 15 }) ((tShuf { step := 1, prog := 15 }).chan 0) = true
    ∧ tGives (.shuffleTestComplete 0 tArr false) (tShuf { step := 2, region := 4, prog := 320 }) (c.setShuf tArr { step := 3, region := 4 }) = true
    ∧ tLeads (.shuffleTestComplete 0 tArr true) (tShuf { step := 2, region := 4, prog := 320 }) (fun b =>
        ((b.shuf tArr).spare, (b.shuf tArr).step, (b.shuf tArr).served 4, b.ev.sent.map EvMsg.src) == (some 4, 0, .repair, [18])) = true
    ∧ tLeads (.shuffleTestComplete 0 tArr true) (tShuf { step := 2, region := 4, prog := 320, spare := some 1 }) (fun b =>
        ((b.shuf tArr).spare, (b.shuf tArr).halted, (b.shuf tArr).haltAt, (b.shuf tArr).served 4) == (some 1, true, 4, .saved)) = true
    ∧ tLeads (.shuffleRestoreComplete 0 tArr) (tShuf { step := 3, prog := 16, region := arrRegions tArr - 1, passes := 2 }) (fun b =>
        ((b.shuf tArr).step, (b.shuf tArr).next, (b.shuf tArr).passes) == (0, 0, 3)) = true
    ∧ tLeads (.shuffleRestoreComplete 0 tArr) (tShuf { step := 3, prog := 16, region := 4, passes := 2, spare := some 5 }) (fun b =>
        ((b.shuf tArr).step, (b.shuf tArr).next, (b.shuf tArr).passes) == (0, 6, 2)) = true
    ∧ tLeads (.shufrepGo 0 .service 5 0x800000000000017F) (tShuf {}) (fun b => b.shuf tArr == { spare := some 383 }) = true
    ∧ tLeads (.shufrepGo 0 .service 5 0x800000000000017F) (tShuf { spare := some 1 }) (fun b =>
        b.shuf tArr == { spare := some 1, region := 383, haltAt := 383, halted := true }) = true
    ∧ tLeads (.shufrepGo 0 .service 5 0x800000000000017F) (tShuf { halted := true }) (fun b => (b.shuf tArr).spent) = true
    ∧ tLeads (.shufrepGo 0 .host 5 0x800000000000017F) (tShuf {}) (fun b => b.shuf tArr == {}) = true := by decide +kernel

/-- One halted bank, whose Shuffle borrows nothing, leaves the copies apart. -/
theorem test_copies_apart : ((tShuf { halted := true }).chan 0).copiesApart := by
  intro b hb h
  have hs : ∀ b < 64, (tblGet ((tShuf { halted := true }).chan 0).sp.shuf b {}).step = 0 := by decide +kernel
  exact hs b hb

/-- It holds too where no Shuffle has halted, as in the channels of the copy tests. -/
theorem test_copies_apart_none (c : Chan) (h : c.sp.shuf = []) : c.copiesApart := by
  intro b _ hb
  rw [h] at hb
  exact absurd hb (by simp [tblGet, tblFind])

/-- The clearing of the scratchpad under way: no access is served, and it ends. -/
theorem test_clearing :
    let c := tAsk { tReady with sp := {} } (tReq .ld 0x100 8 0)
    c.sp.clearing = true ∧ c.spReady = false ∧ tGives tAcc (tState c) c = true ∧ c.domUp 4 = true ∧ (c.dom 4).retention = false
    ∧ (tChan (.scratchpadClearComplete 0) (tState c)).spReady = true := by decide +kernel

/-- Lock 70 in a state, before it a request of context 7 in its group's unit; the group serves flow class 0 when rights is 1. -/
def tLock (x : Lock) (kind : ReqKind) (rights : Nat) : State :=
  tState { tSet ((tMatch .live false).setLock 70 x) [(F.lkFlowFlows 1, rights)] with
    net := { arrive := [(8 * 1 + 1, { pay := .req (tReq kind 0x1000230 8 0) })] } }
def tUnit : Instr := .lockUnitRequest 0 1
/-- Held by context 7, and by context 8. -/
def tMine : Lock := { st := 1, holder := 7, gen := 3 }
def tTheirs : Lock := { st := 1, holder := 8, gen := 3 }
theorem test_lock_requests :
    let c := (tLock {} .acq 1).chan 0
    lockIx 0x1000230 = 70 ∧ c.spReady = true ∧ c.lockRights (tReq .acq 0x1000230 8 0) 1 = true ∧ c.whoLive (.ctx 7 0) = true
    ∧ ((tLock {} .acq 0).chan 0).lockRights (tReq .acq 0x1000230 8 0) 1 = false
    ∧ tLeads tUnit (tLock {} .acq 0) (fun b => b.fld F.lkStatDenied == 1 && (b.ctx 7).exccnt == 1) = true
    ∧ tLeads tUnit (tLock { gen := 3 } .acq 1) (fun b => b.lock 70 == { tMine with gen := 4 }) = true
    ∧ tLeads tUnit (tLock { gen := 3 } .tryacq 1) (fun b => b.lock 70 == { tMine with gen := 4 }) = true
    ∧ tMine.heldBy (.ctx 7 0) = true ∧ tTheirs.heldBy (.ctx 7 0) = false
    ∧ tLeads tUnit (tLock tTheirs .acq 1) (fun b => b.lock 70 == { tTheirs with waiters := [⟨.ctx 7 0, .tags none none⟩] }) = true
    ∧ tGives tUnit (tLock tMine .acq 1) ((((tLock tMine .acq 1).chan 0).takeArrived 1 1).reply 1 (.tags none none) (mkOpd 1 1 false) (mkOpd 1 1 false)) = true
    ∧ tGives tUnit (tLock tTheirs .tryacq 1) ((((tLock tTheirs .tryacq 1).chan 0).takeArrived 1 1).reply 1 (.tags none none) (mkOpd 0 1 false) (mkOpd 0 1 false)) = true
    ∧ tLeads tUnit (tLock tMine .rel 1) (fun b => b.lock 70 == { gen := 3 }) = true
    ∧ tLeads tUnit (tLock { tMine with waiters := [⟨.ctx 8 0, .tags none none⟩] } .rel 1) (fun b =>
        b.lock 70 == { tMine with waiters := [⟨.ctx 8 0, .tags none none⟩], due := true }) = true
    ∧ tGives tUnit (tLock tMine .ldLock 1) ((((tLock tMine .ldLock 1).chan 0).takeArrived 1 1).reply 1 (.tags none none) (mkOpd tMine.word 6 false) (mkOpd tMine.word 6 false)) = true := by
  decide +kernel
theorem test_locks :
    let due := tState ((tMatch .live false).setLock 70 { tTheirs with waiters := [⟨.ctx 7 0, .tags none none⟩], due := true })
    let gone := tState ((tMatch .dead false).setLock 70 tMine)
    let here := tState ((tMatch .live false).setLock 70 tMine)
    let dead := tState ((tMatch .dead false).setLock 70 { tTheirs with waiters := [⟨.ctx 7 0, .tags none none⟩] })
    tLeads (.lockGrant 0 70) due (fun b => b.lock 70 == { tMine with gen := 4 }) = true
    ∧ (gone.chan 0).holderGone tMine = true ∧ (here.chan 0).holderGone tMine = false
    ∧ tLeads (.lockAbandon 0 70) gone (fun b => b.lock 70 == { tMine with st := 2 } && b.ev.sent.map EvMsg.src == [19]
        && b.flag F.lkAbandValid && b.fld F.lkAbandIndex == 70) = true
    ∧ tGives (.lockAbandon 0 70) here (here.chan 0) = true
    ∧ waiterAt (dead.chan 0).locks 0 = some (70, 0) ∧ (dead.chan 0).whoLive (.ctx 7 0) = false
    ∧ tGives (.lockWaiterRemoval 0 0) dead (((dead.chan 0).setLock 70 tTheirs).cancel 7) = true := by decide +kernel

/-- The memory in service, with word 0 at 5 and context 7's request r in its queue, or arriving at its controller. -/
def tDm (x : Dram) : Chan := { (tSet (tMatch .live false) [(F.dmTrstatState, 2), (F.dmCfgEn, 1)]).wrWord dramBase 5 with dm := x }
def tLd : Req := tReq .ld 0x1000000000 8 0
def tDmAsk (st : Nat) (a : BitVec 40) : State :=
  tState { (tDm {}).setFld F.dmTrstatState st with net := { arrive := [(28 * 8 + 5, { pay := .req (tReq .ld a 8 0) })] } }
theorem test_gddr7_accept :
    let c := (tDmAsk 2 0x1000000000).chan 0
    c.domUp 6 = true ∧ c.range 0x1000000000 = .dram ∧ c.range 0x1000000007 = .dram ∧ c.dmState = 2 ∧ c.range 0x0FFFFFFFFF = .hole
    ∧ tGives (.gddr7RequestAccept 0) (tDmAsk 2 0x1000000000) { c.takeArrived 28 5 with dm := { c.dm with acc := [⟨tLd, 0⟩], accAt := some 0 } } = true
    ∧ tLeads (.gddr7RequestAccept 0) (tDmAsk 2 0x0FFFFFFFFF) (fun b => (b.ctx 7).exccnt == 1 && b.dm.acc == []) = true
    ∧ ((tDmAsk 3 0x1000000000).chan 0).range 0x1000000000 = .dram
    ∧ tGives (.gddr7RequestAccept 0) (tDmAsk 3 0x1000000000) ((tDmAsk 3 0x1000000000).chan 0) = true := by decide +kernel
theorem test_gddr7_complete :
    let two := tDm { acc := [⟨tLd, 0⟩, ⟨tReq .st 0x1000000008 4 0x11223344, 0⟩] }
    let st := tDm { acc := [⟨tReq .st 0x1000000008 4 0x11223344, 0⟩] }
    let xadd := tDm { acc := [⟨tReq .xadd 0x1000000000 8 9, 0⟩] }
    let ld := tDm { acc := [⟨tLd, 0⟩] }
    (two.dm.acc.take 1).any (fun p => sameLine (tReq .st 0x1000000008 4 0x11223344) p.req) = true
    ∧ tGives (.gddr7RequestComplete 0 1 []) (tState two) two = true
    ∧ tLeads (.gddr7RequestComplete 0 0 []) (tState ld) (fun b => b.dm.acc == []
        && b.net == ((tDm {}).reply (unitAt 28) (.tags none none) (mkOpd 5 1 false) (mkOpd 5 1 false)).net) = true
    ∧ tLeads (.gddr7RequestComplete 0 0 []) (tState st) (fun b => b.dm.acc == []
        && [0x1000000000, 0x1000000008, 0x1000000009, 0x100000000B, 0x100000000C].map (memByte b.mem) == [5, 0x44, 0x33, 0x11, 0]) = true
    ∧ tLeads (.gddr7RequestComplete 0 0 []) (tState xadd) (fun b => b.dm.acc == [] && b.rdWord dramBase == 14) = true := by decide +kernel
/-- A request that has aged goes before a younger one; a controller that is to stop loses the memory with its last request. -/
theorem test_gddr7_order :
    let aged := tDm { mclk := 5000, acc := [⟨tLd, 0⟩, ⟨tReq .ld 0x1000000040 8 0, 4999⟩] }
    let stop := tDm { acc := [⟨tLd, 0⟩], stopDue := true }
    aged.dmAged ⟨tLd, 0⟩ = true ∧ aged.dmAged ⟨tReq .ld 0x1000000040 8 0, 4999⟩ = false
    ∧ tGives (.gddr7RequestComplete 0 1 []) (tState aged) aged = true
    ∧ tLeads (.gddr7RequestComplete 0 0 []) (tState aged) (fun b => b.dm.acc.length == 1) = true
    ∧ tLeads (.gddr7RequestComplete 0 0 []) (tState stop) (fun b => b.dmState == 0 && b.dm.acc == [] && !b.dm.stopDue) = true := by
  decide +kernel
theorem test_gddr7_power_down :
    let c := { tDm {} with pw := { cst := 1 } }
    let s := { tState c with dev := { time := 100 } }
    c.domUp 6 = true ∧ tGives (.gddr7PowerDown 0) s { c with dm := { powerDown := true } } = true := by decide +kernel
theorem test_gddr7_enable :
    let w : Word := 0x8020000000000000
    tReady.served 0x1A000 = true ∧ tReady.flag F.dmCfgEn = false ∧ wbits w 48 6 = 32 ∧ wbits w 56 2 = 0
    ∧ tLeads (.dmEnable 0 .host w) (tState tReady) (fun b => b.flag F.dmCfgEn && b.dmState == 1 && b.dm.train.map (fun t => (t.step, t.fails, t.periodic, t.words.length)) == some (tReady.fld F.dmTrcfgStart, 0, false, 256)) = true
    ∧ tLeads (.dmEnable 0 .host (w + 0x0300000000000000)) (tState tReady) (fun b => !b.flag F.dmCfgEn && b.dmState == 0) = true
    ∧ (tDm {}).flag F.dmCfgEn = true
    ∧ tLeads (.dmDisable 0 .host 0x0020000000000000) (tState (tDm { modes := [(1, 1)] })) (fun b =>
        b.dmState == 0 && !b.flag F.dmCfgEn && b.dm.train == none && b.dm.modes == [] && b.mem == []) = true := by decide +kernel
theorem test_gddr7_trained :
    let s (x : TrainEnd) : State := { tState (tDm { ended := some x }) with dev := { time := 500 } }
    tLeads (.trainingProgramComplete 0) (s (.success false 0)) (fun b => (b.dmState, b.dm.ended, b.dm.lastTrain) == (2, none, 500)) = true
    ∧ tLeads (.trainingProgramComplete 0) (s (.failure false 0)) (fun b => (b.dmState, b.dm.ended, b.flag F.dmCfgEn, b.ev.sent.map EvMsg.src) == (5, none, false, [20])) = true
    ∧ tLeads (.trainingProgramComplete 0) (s (.success true 300)) (fun b => (b.dmState, b.fld F.dmTrstatRetrains, b.fld F.dmTrstatLastlen) == (2, 1, 200)) = true := by
  decide +kernel
/-- A training program at step 4, whose word is w; every other step word is 0. -/
def tTrain (w : Word) (x : Dram) (retry : Nat) : Chan :=
  { (tDm {}).setFld F.dmTrcfgRetry retry with dm := { x with train := some { step := 4, words := [0, 0, 0, 0, w], since := 7 } } }
def tStep5 (w : Word) : Training := { step := 5, words := [0, 0, 0, 0, w], since := 7, stepAt := 500 }
theorem test_training_steps :
    let s (w : Word) (x : Dram) : State := { tState (tTrain w x 0) with dev := { time := 500 } }
    let next (w : Word) (x : Dram) : Chan := { tTrain w x 0 with dm := { x with train := some (tStep5 w) } }
    (tStep5 0).op = 0
    ∧ [(Instr.zq 0 true, (4 : Nat)), (.wck 0 true, 5), (.rdtrain 0 true, 6), (.wrtrain 0 true, 7), (.vref 0 true, 8), (.levels 0 true, 9)].all (fun e =>
        let w := BitVec.ofNat 64 (e.2 * 2 ^ 56)
        decide (({ tStep5 w with step := 4 } : Training).op = e.2) && tGives e.1 (s w {}) (next w {})) = true
    ∧ tLeads (.trainEnd 0) (s 0 {}) (fun b => b.dm.ended == some (.success false 7) && b.dm.train == none) = true
    ∧ tGives (.trainSave 0) (s 0x0A00000000000000 {}) { tTrain 0 {} 0 with dm := { saved := true, train := some (tStep5 0x0A00000000000000) } } = true
    ∧ tGives (.delta 0 true) (s 0x0B00000000000000 { saved := true }) (next 0x0B00000000000000 { saved := true }) = true := by decide +kernel
theorem test_training_more :
    let s (w : Word) (x : Dram) (r : Nat) : State := { tState (tTrain w x r) with dev := { time := 500 } }
    let next (w : Word) (x : Dram) : Chan := { tTrain w x 0 with dm := { x with train := some (tStep5 w) } }
    tLeads (.mrw 0) (s 0x0133000100001234 {} 0) (fun b => b.dm.modes == [(0x33, 0x1234)] && b.dm.train.map Training.step == some 5) = true
    ∧ (tDm { modes := [(0x33, 0x1234)] }).modeReg 0 0x33 = 0x1234
    ∧ tGives (.check 0) (s 0x0233FFFF00001234 { modes := [(0x33, 0x1234)] } 0) (next 0x0233FFFF00001234 { modes := [(0x33, 0x1234)] }) = true
    ∧ tGives (.trainWait 0) (s 0x0300000000001388 {} 0) (next 0x0300000000001388 {}) = true
    ∧ tGives (.trainWait 0) (s 0x0300000000001389 {} 0) (tTrain 0x0300000000001389 {} 0) = true
    ∧ tLeads (.hppr 0 true) (s 0x0C15000000034567 {} 0) (fun b => b.dm.hard == [⟨true, 5, 0x34567⟩] && b.dm.train.map Training.step == some 5) = true
    ∧ tLeads (.zq 0 false) (s 0x0400000000000000 {} 0) (fun b => b.dm.train == none && b.dm.ended == some (.failure false 7) && b.fld F.dmTrstatFailstep == 4) = true
    ∧ tLeads (.zq 0 false) (s 0x0400000000000000 {} 1) (fun b => b.dm.train.map (fun t => (t.step, t.fails)) == some (0, 1) && b.fld F.dmTrstatFailstep == 4) = true := by
  decide +kernel
theorem test_periodic_training :
    let s := { tState ((tDm {}).setFld F.dmTrcfgPeriod 1) with dev := { time := 100000 } }
    let early := { s with dev := { time := 99999 } }
    (s.chan 0).trainDue 100000 = true ∧ (s.chan 0).trainDue 99999 = false
    ∧ tLeads (.periodicTraining 0) s (fun b => b.dmState == 3 && b.dm.train.map (fun t => (t.step, t.periodic, t.fails)) == some (b.fld F.dmTrcfgPer, true, 0)) = true
    ∧ tGives (.periodicTraining 0) early (early.chan 0) = true ∧ tGives (.refresh 0 3) s (s.chan 0) = true := by decide +kernel
theorem test_memory_temperature :
    let s := tState (tSet (tDm {}) [(F.dmRefT1, 50), (F.dmRefT2, 0x55)])
    [(0xF0 : BitVec 8), 50, 51, 85, 86].map (fun t => (tChan (.memoryTemperatureRead 0 t) s).fld F.dmRefMult) = [0, 0, 1, 1, 2]
    ∧ tLeads (.memoryTemperatureRead 0 0xF0) s (fun b => b.fld F.dmRefTemp == 0xF0) = true := by decide +kernel
theorem test_scrub :
    let c := tSet (tDm { rowCorr := [(⟨false, 0, 0⟩, 0)] }) [(F.dmScrubEn, 1), (F.dmPprThresh, 1)]
    let last := { c with dm := { c.dm with scrubLine := c.dramSize / 64 - 1 } }
    c.dm.scrubLine + 1 < c.dramSize / 64 ∧ 1 < c.dramSize / 64
    ∧ c.scrubDue 0 = true ∧ (c.setFld F.dmScrubEn 0).scrubDue 0 = false
    ∧ tLeads (.patrolScrubRead 0 .clean) (tState c) (fun b => b.dm.scrubLine == 1 && b.mem == c.mem && b.dm.accAt == some 0) = true
    ∧ tLeads (.patrolScrubRead 0 .clean) (tState last) (fun b => (b.dm.scrubLine, b.dm.rowCorr, b.fld F.dmScrubPasses) == (0, [], 1)) = true
    ∧ tLeads (.patrolScrubRead 0 .corrected) (tState c) (fun b => b.fld F.dmEccstatScrubcorr == 1 && b.dm.rowBad == [c.rowId dramBase]) = true := by
  decide +kernel
theorem test_row_repair :
    let row : RowId := ⟨true, 5, 0x34567⟩
    let s := tState ((tDm { rowBad := [row] }).setFld F.dmPprSoften 1)
    tLeads (.rowRepair 0 row true) s (fun b => (b.fld F.dmPprRow, b.fld F.dmPprBank, b.flag F.dmPprDev, b.dm.rowBad, b.ev.sent.map EvMsg.src) == (0x34567, 5, true, [], [22])) = true
    ∧ tLeads (.rowRepair 0 row false) s (fun b => (b.flag F.dmPprExhausted, b.dm.rowBad, b.ev.sent.map EvMsg.src) == (true, [], [22])) = true := by decide +kernel

/-- A program that is to stop ends with its step; a periodic program that fails leaves the settings before it; EN 0 in service with a request. -/
theorem test_training_stop :
    let c := { tDm {} with dm := { modes := [(1, 1)], train := some { step := 4, stop := true, words := [0, 0, 0, 0, 0x0C15000000034567] } } }
    let d := { tDm {} with dm := { modes := [(1, 2)], train := some { step := 4, periodic := true, modes0 := [(1, 1)], words := [0, 0, 0, 0, 0x0400000000000000] } } }
    let e := tDm { acc := [⟨tLd, 0⟩] }
    tLeads (.hppr 0 true) (tState c) (fun b => b.dmState == 0 && b.dm.train == none && b.dm.hard == [⟨true, 5, 0x34567⟩]) = true
    ∧ tLeads (.zq 0 false) (tState (d.setFld F.dmTrcfgRetry 0)) (fun b => b.dm.modes == [(1, 1)] && b.dm.ended == some (.failure true 0)) = true
    ∧ tLeads (.dmDisable 0 .host 0) (tState c) (fun b => b.dm.train.map Training.stop == some true && b.dm.modes == [(1, 1)]) = true
    ∧ tLeads (.dmDisable 0 .host 0) (tState e) (fun b => b.dm.stopDue && b.mem == e.mem && !b.flag F.dmCfgEn) = true := by decide +kernel

/-! ## Witnesses: network and fabric -/

def tPk (f : Bool) (dtile : Nat) : NPkt := { pay := .tok (tTok 3 0), dtile := dtile, failed := f }
/-- Packet p heads input 4, channel 0 of router 7; the next hop of tile 8 is router 0 over the wrap of X, of tile 7 its own tile. -/
def tHop (p : NPkt) (fails : Nat) : State :=
  tState { tReady with net := { bufs := [(bufKey 7 4 0, [p])], fails := if fails = 0 then [] else [(linkKey 7 0, fails)] } }
def tRx : Rx := ⟨7, 4, 0⟩
theorem test_router_hop :
    hopOut 7 8 = 0 ∧ hopTile 7 0 = 0 ∧ hopOut 7 7 = 4 ∧ hopDl 7 4 0 false = true ∧ tReady.domUp 5 = true ∧ tReady.mayDeliver 7 0 = true
    ∧ [(false, 8), (true, 8), (false, 7), (true, 7)].all (fun e => ((tHop (tPk e.1 e.2) 0).chan 0).served? tRx (tPk e.1 e.2)) = true
    ∧ [(Instr.flitReceive 0 tRx, false), (.flitResend 0 tRx, true)].all (fun cmd =>
      tLeads (cmd.1 true) (tHop (tPk cmd.2 8) 3) (fun b => b.buf (bufKey 7 4 0) == [] && b.linkFails (linkKey 7 0) == 0
        && b.buf (bufKey 0 1 1) == [{ tPk false 8 with dl := true }])
      && tLeads (cmd.1 false) (tHop (tPk cmd.2 8) 15) (fun b => b.buf (bufKey 7 4 0) == [tPk true 8] && b.linkFails (linkKey 7 0) == 16
        && b.ev.sent.map EvMsg.src == [23])
      && tLeads (cmd.1 true) (tHop (tPk cmd.2 7) 0) (fun b => b.buf (bufKey 7 4 0) == [] && b.arrived 7 0 == some { tPk cmd.2 7 with word := BitVec.allOnes 64 })
      && (let c := { (tHop (tPk cmd.2 7) 0).chan 0 with net := { ((tHop (tPk cmd.2 7) 0).chan 0).net with arrive := [(7 * 8, tPk false 7)] } }
          tLeads (cmd.1 true) (tState c) (fun b => b.net == c.net))) = true := by decide +kernel

/-- A message of source 9 reaches the event controller's tile. -/
theorem test_event_packet :
    let p : NPkt := { pay := .event { src := 9 }, dkind := 5, dtile := tileCall }
    let s := tState { tReady with net := { bufs := [(bufKey tileCall 4 0, [p])] } }
    (s.chan 0).served? ⟨Fin.ofNat _ tileCall, 4, 0⟩ p = true ∧ outOf tileCall p = 4
    ∧ (tChan (.flitReceive 0 ⟨Fin.ofNat _ tileCall, 4, 0⟩ true) s).ev.msgs.map EvMsg.src = [9] := by decide +kernel

/-- A frame that passes its checks with no codeword corrected. -/
def tGood : FrameCheck := { fixed := 0, bad := false, crc := true }
/-- Port 1 ACTIVE, with changes. -/
def tPort (x : Port) : Chan := (tSet tReady [(F.quCfgEn 906, 1), (F.quCfgCap 906, 16)]).setPort 1 { x with st := 4, dataOn := true }
def tSlot : Slot := ⟨tTok 3 0, 2, true⟩
def tFrame (seq : BitVec 8) : Frame := ⟨seq, 0, 0, 0, [tSlot]⟩
theorem test_frames_received :
    let s := tState (tPort { rxSeq := 9, rxAck := 8 })
    let c := s.chan 0
    let lost := tState (((tPort { rxSeq := 10, rxAck := 8, refetch := [(2, (9, 1))] })).qPush (rxQueue 1 2) 0)
    c.takesFrames 1 = true ∧ (tFrame 9).wf = true ∧ c.slotsFit 1 [tSlot] = true
    ∧ tLeads (.dataFrameReceive 0 1 (tFrame 9) tGood) s (fun b => (b.port 1).rxSeq == 10 && !(b.port 1).nakSent && b.net == c.net
        && (b.qptr (rxQueue 1 2)).unread == 1 && wordTok (b.qItem (rxQueue 1 2) 0) == tTok 3 0) = true
    ∧ [(tFrame 9, { tGood with crc := false }), (tFrame 9, { tGood with bad := true }), (tFrame 8, tGood)].all (fun e =>
        tLeads (.dataFrameReceive 0 1 e.1 e.2) s (fun b => (b.port 1).ctl == [(1, 9)] && (b.port 1).nakSent && (b.port 1).rxSeq == 9 && b.qu == c.qu)) = true
    ∧ tGives (.redataFrameReceive 0 1 (tFrame 9) tGood) s c = true
    ∧ ([tSlot].filter (fun (v : Slot) => v.vc.toNat == 2))[1 - 1]? = some tSlot
    ∧ tLeads (.redataFrameReceive 0 1 (tFrame 9) tGood) lost (fun b => (b.port 1).refetch == []
        && b.qWord (b.qAddr (rxQueue 1 2) (b.qRead (rxQueue 1 2))) == tokWord (tTok 3 0) (fabricHi true 1 0) && b.qu.ptrs == (lost.chan 0).qu.ptrs) = true
    ∧ (let w := tReady.setPort 1 { st := 3 }
       tGives (.dataFrameReceive 0 1 (tFrame 9) { tGood with fixed := 5 }) (tState w) (w.addSat (F.fbErrFeccorr 1) 5) = true ∧ (w.port 1).st = 3 ∧ w.domUp 7 = true)
    ∧ tGives (.reservedFrameReceive 0 1 4 0 tGood) s (c.inc (F.fbErrCrcerr 1)) = true
    ∧ tGives (.reservedFrameReceive 0 1 1 8 tGood) s (c.inc (F.fbErrCrcerr 1)) = true := by decide +kernel
/-- The header of the DATA frame of 12_network_and_fabric.md's example: SEQ 0x3C, ACK 0x91, two slots of VC 0 and epoch 1. -/
theorem test_frame_header : frameHeader 0 0x3C 0x91 0 0 [⟨tTok 3 0, 0, true⟩, ⟨tTok 3 1, 0, true⟩] = 0x079220400009 := by decide +kernel
/-- A word for this device, and one for a neighbour along X through port 0, in receive queue 2 of port 1. -/
def tRxWord (dev : Nat) (ty : Nat := 0) : Chan :=
  let c := tSet (tPort { rxFrames := [(9, [0, 0, 1, 0])] }) [(F.chPlaneValid, 1), (F.chPlaneNxm1, 3)]
  tLater (((c.setPort 0 { avail := true }).wr 0x1C100 0).qPush (rxQueue 1 2) (tokWord ⟨mkSb ty false, 42, mkTag dev 3 7 0 2 0⟩ (fabricHi false 1 0)))
theorem test_receive_route :
    let home := tRxWord 0
    let far := tRxWord 0x400
    let q := rxQueue 1 2
    home.domUp 5 = true ∧ home.qGives q = true ∧ home.gateRoom 1 = true ∧ home.offer (bufKey (gateTile 1) 5 0) false = []
    ∧ malformed (wordTok ((tRxWord 0 15).qItem q 0)) = true ∧ (tChan (.receiveQueueRoute 0 1 2 parityGood) (tState (tRxWord 0 15))).ev.sent.map EvMsg.src = [8]
    ∧ home.routeDim 0 = none ∧ home.qDup q = false
    ∧ (match far.route 0x400 0 1 with | .port 0 => true | _ => false) = true ∧ frameOf 2 (home.qRead q) (home.port 1).rxFrames = some (9, 1)
    ∧ tLeads (.receiveQueueRoute 0 1 2 parityGood) (tState home) (fun b => (b.qptr q).unread == 0 && b.ms == home.ms
        && b.buf (bufKey (gateTile 1) 5 0) == [localPkt (tTok 3 0) (.qword q)]) = true
    ∧ tLeads (.receiveQueueRoute 0 1 2 parityGood) (tState far) (fun b => (b.qptr q).unread == 0
        && (b.buf (bufKey (gateTile 1) 5 0)).map (fun x => (x.dkind, x.dtile, x.ap)) == [(3, gateTile 0, 1)]) = true
    ∧ tLeads (.receiveQueueRoute 0 1 2 { parityGood with a0 := true }) (tState home) (fun b => (b.port 1).refetch == [(2, (9, 1))]
        && (b.port 1).ctl == [(7, 9)] && b.qptr q == home.qptr q) = true := by decide +kernel

/-- The frames that a channel has sent. -/
def tSent (c : Chan) : List (Nat × FrameOut) := c.out.filterMap (fun o => match o with | .frame p f _ => some (p, f) | _ => none)
def tTx : TxFrame := { seq := 3, slots := [tSlot] }
theorem test_frames_sent :
    let cmd := Instr.frameTransmit 0 1 []
    let ctl := tState (tPort { ctl := [(5, 0)] })
    let re := tPort { resend := [3], replay := [tTx] }
    let red := tState (tPort { redata := [3], replay := [tTx] })
    let new := tLater ((tPort { txSeq := 4, credits := [(2, 1)] }).qPush (txQueue 1 2) (tokWord (tTok 3 0) (fabricHi true 0 0)))
    let drain := tState (tReady.setPort 1 { st := 5 })
    tReady.domUp 7 = true ∧ (ctl.chan 0).txHeld 1 = 0 ∧ (re.port 1).frame 3 = some tTx ∧ (new.dataFrame 0 1 []).isSome = true
    ∧ ((tPort {}).dataFrame 0 1 []).isNone = true ∧ ((drain.chan 0).dataFrame 0 1 []).isNone = true
    ∧ tLeads cmd ctl (fun b => (b.port 1).ctl == [] && tSent b == [(1, .ctl 5 0 255 0 0)]) = true
    ∧ tLeads cmd (tState re) (fun b => (b.port 1).resend == [] && tSent b == [(1, .data 3 255 0 0 [tSlot])]) = true
    ∧ tLeads cmd red (fun b => (b.port 1).redata == [] && tSent b == [(1, .redata 3 255 [tSlot])]) = true
    ∧ tLeads cmd (tState new) (fun b =>  (b.port 1).txSeq == 5
        && (b.port 1).replay.map (fun f => (f.seq, f.slots)) == [(4, [tSlot])] && tSent b == [(1, .data 4 255 0 0 [tSlot])]) = true
    ∧ tLeads cmd (tState (tPort {})) (fun b => tSent b == [(1, .ctl 0 0 255 0 0)]) = true
    ∧ tLeads cmd drain (fun b => (b.port 1).drainSent && tSent b == [(1, .ctl 6 0 255 0 0)]) = true := by decide +kernel

def tHdr : Hdr := ⟨2, 1, 3, tGood⟩
theorem test_control_frames :
    let s := { tState ((tPort { replay := [tTx], sleepSent := true, idleSince := 0 })) with dev := { time := 500 } }
    let c := s.chan 0
    let d := c.header 500 1 2 1 3
    let x := d.port 1
    c.takesFrames 1 = true ∧ tblGet x.credits 1 0 = 3 ∧ x.replay = [tTx]
    ∧ tGives (.controlIdle 0 1 tHdr) s d = true
    ∧ tLeads (.nak 0 1 tHdr 3) s (fun b => ((b.port 1).resend, (b.port 1).replay, (b.port 1).ackAt) == ([3], [tTx], 500)) = true
    ∧ d.maySleep 500 1 = false ∧ tLeads (.sleepreq 0 1 tHdr) s (fun b => (b.port 1).ctl == [(4, 0)]) = true
    ∧ tLeads (.sleepack 0 1 tHdr) s (fun b => (b.port 1).pulses.getLsbD 10) = true
    ∧ tGives (.sleepnak 0 1 tHdr) s (d.setPort 1 { x with sleepSent := false, idleSince := 500 }) = true
    ∧ tLeads (.drainreq 0 1 tHdr) s (fun b => (b.port 1).pulses.getLsbD 12) = true
    ∧ tGives (.draindone 0 1 tHdr) s (d.setPort 1 { x with drainDone := true }) = true
    ∧ tGives (.refetch 0 1 tHdr 3) s (d.setPort 1 { x with redata := [3] }) = true ∧ tGives (.refetch 0 1 tHdr 4) s d = true := by decide +kernel

/-- Port 1 in state 1, an entry of the link state machine for it that leads to state 2 with a timer of 5 µs on event 3. -/
def tLsm (to_ timer : Nat) : State :=
  { tState ((tSet tReady [(F.fbLsmValid 0, 1), (F.fbLsmFrom 0, 1), (F.fbLsmEvent 0, 3), (F.fbLsmTo 0, to_), (F.fbLsmTimer 0, timer)]).setPort 1
      { st := 1, sigDet := true }) with dev := { time := 500 } }
theorem test_link_machine :
    ((tLsm 2 5).chan 0).lsmEntry 1 = some 0 ∧ ((tLsm 2 5).chan 0).domOpen 7 = true
    ∧ tLeads (.lsmTransition 0 1 []) (tLsm 2 5) (fun b => (b.port 1).st == 2 && (b.port 1).timer == some 1000) = true
    ∧ tLeads (.lsmTransition 0 1 []) (tLsm 7 0) (fun b => (b.port 1).st == 0 && (b.port 1).timer == none) = true := by decide +kernel
theorem test_link_events :
    let tr := tState (tReady.setPort 1 { training := true })
    let s := tState tReady
    let c2 := { tReady with pw := { cst := 2 } }
    let tm := { tState (tReady.setPort 1 { timer := some 500 }) with dev := { time := 500 } }
    let re := { tState ((tPort { replay := [tTx] }).setFld (F.fbPcfgReplayt 1) 500) with dev := { time := 500 } }
    let sl := { tState (tSet (tPort {}) [(F.fbPcfgSleepen 1, 1), (F.fbPcfgIdlet 1, 5)]) with dev := { time := 500 } }
    [(true, 5), (false, 6)].all (fun e => tLeads (.laneTrainingComplete 0 1 e.1) tr (fun b => !(b.port 1).training && (b.port 1).pulses.getLsbD e.2)) = true
    ∧ tLeads (.sigdet 0 1 true) (tState c2) (fun b => b.port 1 == { sigDet := true } && b.pw.wake) = true
    ∧ tGives (.sigloss 0 1 true) s (tReady.setPort 1 { sigLoss := true }) = true
    ∧ tLeads (.stateTimerExpiry 0 1) tm (fun b => (b.port 1).timer == none && (b.port 1).pulses.getLsbD 9) = true
    ∧ (re.chan 0).takesFrames 1 = true
    ∧ tLeads (.replayTimeout 0 1) re (fun b => ((b.port 1).resend, (b.port 1).ackAt) == ([3], 500)) = true
    ∧ (sl.chan 0).maySleep 500 1 = true
    ∧ tGives (.sleepIdleTimeout 0 1) sl ((sl.chan 0).setPort 1 { (sl.chan 0).port 1 with ctl := [(2, 0)] }) = true := by decide +kernel
theorem test_bow_send :
    let c := tReady.setPort 1 { st := 3, bowDue := true }
    (c.port 1).bowDue = true ∧ c.domUp 7 = true ∧ (let b := tChan (.bowSend 0 1) (tState c); (b.out.length, (b.port 1).bowDue) = (1, false)) := by decide +kernel
/-- A Bow of the partner of port 1 with another serial than this device's; a Bow of another plane. -/
def tBow (plane : BitVec 4) (serial : Word) : Bow :=
  { chk := tGood, serial := serial, dev := 0, plane := plane, port := 0, cap := 0x014C0000, digest := 0, rcvd := 255, ackd := 255, seqValid := false,
    pvalid := false, nxm1 := 0, nym1 := 0, nzm1 := 0, rxcap0 := 0, rxcap1 := 0, rxcap2 := 0, rxcap3 := 0, got := true }
theorem test_bow_passes : ∃ v, (tReady.setPort 1 { st := 3 }).bowReason 1 (tBow 0 v) = 0 := by
  unfold Chan.bowReason
  generalize Config.serial = u
  by_cases h : u = 0
  · exact ⟨1, by subst h; decide +kernel⟩
  · refine ⟨0, ?_⟩
    have h' : ¬ (tBow 0 0).serial = u := fun e => h e.symm
    rw [if_neg (by decide +kernel), if_neg (by decide +kernel), if_neg (by decide +kernel), if_neg (by decide +kernel),
      if_neg (by decide +kernel), if_neg (by decide +kernel), if_neg h']
    decide +kernel
theorem test_bow_fails :
    let c := tReady.setPort 1 { st := 3 }
    c.bowReason 1 (tBow 1 0) = 1 ∧ tLeads (.bowFrameReceive 0 1 (tBow 1 0)) (tState c) (fun d => d.fld (F.fbPstatBowfail 1) == 1
      && (d.port 1).pulses.getLsbD 8 && !(d.port 1).got && d.ev.sent.map EvMsg.src == [457]) = true
    ∧ (tPort {}).takesFrames 1 = true
    ∧ tLeads (.bowFrameReceive 0 1 { tBow 0 0 with chk := { tGood with crc := false } }) (tState (tPort { rxSeq := 9 }))
        (fun d => (d.port 1).ctl == [(1, 9)]) = true := by decide +kernel

theorem test_port_commands :
    let a := 0x20000 + 256
    let s := tState tReady
    let en := tState (tReady.setFld (F.fbPctlEn 1) 1)
    let di := tState (tReady.setPort 1 { replay := [tTx], resend := [3] })
    let act := tState (tPort { replay := [tTx] })
    let en63 : Word := 0x8000000000000000
    tReady.served a = true ∧ tReady.mayWrite .host a = true ∧ tReady.flag (F.fbPctlEn 1) = false ∧ (en.chan 0).flag (F.fbPctlEn 1) = true
    ∧ tLeads (.portEnable 0 .host 1 en63) s (fun b => b.flag (F.fbPctlEn 1) && (b.port 1).pulses.getLsbD 0) = true
    ∧ tLeads (.portDisable 0 .host 1 0) en (fun b => !b.flag (F.fbPctlEn 1) && (b.port 1).pulses.getLsbD 1) = true
    ∧ tLeads (.forcedown 0 .host 1 1) s (fun b => (b.port 1).pulses.getLsbD 2) = true
    ∧ tLeads (.wake 0 .host 1 2) s (fun b => (b.port 1).wakeCmd && b.pending 1 11) = true
    ∧ tLeads (.discard 0 .host 1 3) di (fun b => (b.port 1).replay == [] && (b.port 1).resend == [] && b.ev.sent.map EvMsg.src == [459]) = true
    ∧ tLeads (.discard 0 .host 1 3) act (fun b => (b.port 1).replay == [tTx]) = true := by decide +kernel
theorem test_epoch :
    let s := tState (tSet tReady [(F.ntEpochValid0, 1)])
    tReady.served 0x1C000 = true ∧ (s.chan 0).fld F.ntEpochCur = 0
    ∧ tLeads (.ntEpochWrite 0 .host 0xC000000000000000) s (fun b => (b.fld F.ntEpochCur, b.curEpoch, (tLater b).curEpoch) == (1, 0, 1)) = true
    ∧ tLeads (.ntEpochWrite 0 .host 0xA000000000000000) s (fun b => b.fld F.ntEpochCur == 0) = true := by decide +kernel

/-! ## Witnesses: events -/

def tEv (l : List (Fd × Nat)) (u : EvUnit) : Chan := { tSet tReady l with ev := u }
theorem test_doorbell_message :
    let no := tEv [] { msgs := [{ src := 600, allowed := false }] }
    let yes := tEv [(F.evSrcEn 600, 1)] { msgs := [{ src := 600, count := 250 }], srcs := [(600, { count := 10 })] }
    let dv : Dev := ({ ev := { msgs := [{ src := 0x90, count := 0 }] } } : Dev).setFld (F.deSrcEn 0x90) 1
    let s := { State.reset with dev := dv }
    no.domOpen 5 = true ∧ tGives (.doorbellMessage (.chan 0)) (tState no) (({ no with ev := { takenAt := some 0 } } : Chan).inc F.evStatRefused) = true
    ∧ yes.flag (F.evSrcEn 600) = true
    ∧ tLeads (.doorbellMessage (.chan 0)) (tState yes) (fun b => b.ev.msgs == [] && (b.evSt 600).count == 255 && b.ev.sat == [600]) = true
    ∧ dv.flag (F.deSrcEn 0x90) = true ∧ dv.flag (F.deSrcAlert 0x90) = false
    ∧ (let t := tAfter (.doorbellMessage .dev) s; (t.dev.ev.msgs, (t.dev.ev.src 0x90).count, t.chans) = ([], 1, [])) := by decide +kernel
/-- Sources 20 and 600 wait for callers 0 and 1; an even CCLK selects 20, an odd one 600. -/
def tSel : Chan :=
  let x : Caller := { st := .running, csrs := { evtgt := 1 } }
  ((tEv [(F.evSrcEn 20, 1), (F.evSrcEn 600, 1), (F.evSrcTarget 600, 1), (F.evSrcClass 600, 1)] { srcs := [(20, { count := 2 }), (600, { count := 3 })], was := [(20, { count := 2 }), (600, { count := 3 })], tgts := [0, 1] }).setCaller 0
    { x with phys := some 0 }).setCaller 1 { x with phys := some 1 }
theorem test_event_selection :
    let s (n : Nat) : State := tState { tSel with xclk := n }
    ((s 0).chan 0).cclk % 2 = 0 ∧ ((s 2).chan 0).cclk % 2 = 1 ∧ tSel.ev.selAt = none
    ∧ tSel.ev.lastSel = 63 ∧ tSel.domUp 5 = true ∧ tSel.evTarget 20 = some (.caller 0) ∧ tSel.evTarget 600 = some (.caller 1)
    ∧ (List.range 1024).filter (tSel.eligible 0) = [20, 600]
    ∧ tLeads (.eventSelection (.chan 0)) (s 0) (fun b => (b.evSt 20).count == 0 && (b.evSt 20).inflight == 1 && b.ev.lastSel == 63
        && b.ev.deliv.map (fun m => (m.src, m.count, m.target, m.fast)) == [(20, 2, .caller 0, tSel.flag (F.evSrcClass 20))]) = true
    ∧ tLeads (.eventSelection (.chan 0)) (s 2) (fun b => (b.evSt 600).count == 0 && (b.evSt 600).inflight == 1 && b.ev.lastSel == 600
        && b.ev.deliv.map (fun m => (m.src, m.count, m.target, m.fast)) == [(600, 3, .caller 1, true)]) = true := by decide +kernel
def tLand (t : EvTarget) : Chan :=
  { (tEv [] { srcs := [(600, { inflight := 1, count := 254 })], deliv := [{ src := 600, count := 3, fast := true, target := t }] }).setCaller 1
    { st := .waitev, phys := some 1, csrs := { evtgt := 1 } } with xclk := 8 }
theorem test_delivery_landing :
    let open_ := { tLand (.vector 4) with msix := { vecs := [(4, { addr := 0x1000, data := 9, mask := false })] } }
    (tLand (.caller 1)).domOpen 5 = true ∧ ((tLand (.caller 1)).caller 1).enabled = true ∧ ((tLand (.caller 2)).caller 2).enabled = false
    ∧ tLeads (.deliveryLanding (.chan 0)) (tState (tLand (.caller 1))) (fun b => b.ev.deliv == [] && (b.evSt 600).inbox && (b.evSt 600).inflight == 0
        && (b.caller 1).inbox == [{ src := 600, count := 3, fast := true, fresh := true }] && (b.caller 1).st == .waitev
        && (b.evEdge.caller 1).inbox == [{ src := 600, count := 3, fast := true }] && (b.evEdge.caller 1).st == .running) = true
    ∧ tLeads (.deliveryLanding (.chan 0)) (tState (tLand (.caller 2))) (fun b => b.ev.deliv == [] && (b.evSt 600).inflight == 0 && (b.evSt 600).count == 254
        && (b.evEdge.evSt 600).count == 255 && b.evEdge.fld F.evStatBounced == 1 && b.callers == (tLand (.caller 2)).callers) = true
    ∧ tLeads (.deliveryLanding (.chan 0)) (tState (tLand (.vector 4))) (fun b => b.ev.deliv == [] && (b.evSt 600).inflight == 0 && b.out == [] && b.msix.pba == [4]) = true
    ∧ tLeads (.deliveryLanding (.chan 0)) (tState open_) (fun b => b.out == [.msix 4 0x1000 9] && b.msix == open_.msix) = true := by decide +kernel
theorem test_event_writes :
    let s := tState tReady
    let c := tEv [] { srcs := [(600, { count := 5, hold := 7 })] }
    let wr (x : EvMsg) : Chan := { tReady with ev := { msgs := [x] } }
    tGives (.evDoorbellWrite 0 .host 0x05000258) s (wr { src := 600, count := 5, allowed := true }) = true
    ∧ tGives (.evDoorbellWrite 0 .host 0x05000014) s (wr { src := 20, count := 5, allowed := false }) = true
    ∧ tGives (.evDoorbellWrite 0 .supv 0x05000040) s (wr { src := 64, count := 5, allowed := true }) = true
    ∧ (tAfter (.deDoorbellWrite .host 0x02000090) s).dev.ev.msgs = [{ src := 0x90, count := 2, allowed := true }]
    ∧ c.served (0x16000 + 8 * 600) = true ∧ c.mayWrite .host (0x16000 + 8 * 600) = true
    ∧ tLeads (.evSrcClear (.chan 0) .host 600 0xC000000000000100) (tState c) (fun b => b.flag (F.evSrcEn 600) && b.flag (F.evSrcMask 600)
        && (b.evSt 600).count == 0 && b.ev.msgs == []) = true
    ∧ tLeads (.evSrcClear (.chan 0) .host 600 0) (tState c) (fun b => !b.flag (F.evSrcEn 600) && (b.evSt 600).count == 5) = true
    ∧ tLeads (.moderationHoldExpiry (.chan 0) 600) (tState { c with xclk := 100 }) (fun b => (b.evSt 600).hold == 0 && (b.evSt 600).count == 5) = true
    ∧ ({ c with xclk := 100 } : Chan).cclk ≥ 7 ∧ (c.evSt 600).hold = 7 := by decide +kernel
theorem test_mask_and_gpio :
    let c := { tReady with msix := { vecs := [(4, { addr := 0x1000, data := 9, mask := true })], pba := [4] } }
    let no := { c with msix := { c.msix with pba := [] } }
    let dv : Dev := ({} : Dev).wr 0x3010 0x1
    let s := { State.reset with dev := dv }
    c.served (msixCtl 4) = true ∧ c.mayWrite .host (msixCtl 4) = true
    ∧ tLeads (.msixMaskClear 1 4) (tState c) (fun b => !(b.msix.vec 4).mask && b.msix.pba == [] && b.out == [.msix 4 0x1000 9]) = true
    ∧ tLeads (.msixMaskClear 1 4) (tState no) (fun b => !(b.msix.vec 4).mask && b.msix.pba == [] && b.out == []) = true
    ∧ tLeads (.msixMaskClear 1 4 .functionSet) (tState c) (fun b => b.msix.fmask && b.msix.pba == [4] && b.out == []) = true
    ∧ tLeads (.msixMaskClear 1 4 .functionClear) (tState { c with msix := { pba := [4], fmask := true, vecs := [(4, { addr := 0x1000, data := 9, mask := false })] } })
        (fun b => !b.msix.fmask && b.msix.pba == [] && b.out == [.msix 4 0x1000 9]) = true
    ∧ (let d := (tAfter (.gpioEdge 0 true) s).dev; (d.gpio, d.ev.msgs.map EvMsg.src)) = (1, [0x40])
    ∧ (tAfter (.gpioEdge 1 true) s).dev.ev.msgs = [] := by decide +kernel

/-- The device controller: a vector message leaves and starts its hold, a delivery for the service core lands, a hold ends, CLEAR, a mask. -/
theorem test_device_events :
    let m : MsixFn := { vecs := [(4, { addr := 0x1000, data := 9, mask := false })] }
    let d (t : EvTarget) : Dev := { xclk := 16, msix := m, ev := { srcs := [(0x90, { inflight := 1 })], deliv := [{ src := 0x90, count := 3, fast := true, target := t }] },
                                    svc := { evtgt := 1 } }
    let s (t : EvTarget) : State := { State.reset with dev := d t }
    let a := (tAfter (.deliveryLanding .dev) (s (.vector 4))).dev
    let b := (tAfter (.deliveryLanding .dev) (s .service)).dev
    let h : State := { State.reset with dev := { xclk := 100, ev := { srcs := [(0x90, { hold := 7, count := 5 })] },
                                                 msix := { vecs := [(4, { addr := 0x1000, data := 9, mask := true })], pba := [4] } } }
    (d .service).svcEnabled = true ∧ a.out = [.msix 4 0x1000 9] ∧ a.ev.deliv = [] ∧ b.svc.inbox = [{ src := 0x90, count := 3, fast := true, fresh := true }]
    ∧ ((tAfter (.moderationHoldExpiry .dev 0x90) h).dev.ev.src 0x90).hold = 0
    ∧ ((tAfter (.evSrcClear .dev .host 0x90 0x100) h).dev.ev.src 0x90).count = 0
    ∧ (tAfter (.msixMaskClear 0 4) h).dev.msix.pba = [] ∧ (tAfter (.msixMaskClear 0 4) h).dev.out = [.msix 4 0x1000 9] := by decide +kernel
/-- A doorbell at a channel in C2 asks for its wake. -/
theorem test_doorbell_wakes :
    let c := { tReady with pw := { cst := 2, goal := 2 } }
    tLeads (.evDoorbellWrite 0 .host 0x05000258) (tState c) (fun b => b.pw.wake && b.ev.msgs.map EvMsg.src == [600]) = true := by decide +kernel

/-! ## Witnesses: rings, completions, copies -/

/-- Ring 3 with changes x, in a channel whose window, ring 3 and completion ring 0 are set up. -/
def tR (x : Ring) : Chan := (tRing tReady).setRing 3 x
def tPi (pi epoch : Nat) : Word := BitVec.ofNat 64 (pi + epoch * 2 ^ 32)
theorem test_ring_records :
    let act := tState (tR { st := .active })
    let rdOf (x : Ring) : State := tState { tR x with hw := { cache := [(0, 7)], reads := [(4, true, 3)] } }
    let rd := rdOf { st := .active, reading := 1 }
    let late := rdOf { st := .draining, reading := 1 }
    let old := rdOf { st := .active }
    let c := act.chan 0
    c.ringsOn = true ∧ c.xlateOpen (c.sqRec 3) 8 = true ∧ (c.hwXlate (c.sqRec 3) 8 false).2 = some (7, 7)
    ∧ tLeads (.ringPoll 0 3) act (fun b => (b.ring 3).reading == 1 && (b.ring 3).st == .active && b.hw.reads == [(0, true, 3)] && b.out == [.read (hostAddr 7 (c.sqRec 3)) 8 0 false]) = true
    ∧ c.tagsFree = true ∧ c.walkCodes (c.sqRec 3) 8 = [] ∧ (rd.chan 0).readOf true 3 = some (4, false) ∧ (late.chan 0).readOf true 3 = some (4, false)
    ∧ (old.chan 0).readOf true 3 = some (4, true) ∧ tGives (.recordReadComplete 0 (.submission 3) .failed) old ((old.chan 0).hwDone 4) = true
    ∧ c.readOf true 3 = none ∧ tGives (.recordReadComplete 0 (.submission 3) .failed) act c = true
    ∧ tLeads (.recordReadComplete 0 (.submission 3) .failed) late (fun b => (b.ring 3).st == .draining && (b.ring 3).err == 1 && (b.ring 3).ci == 0) = true
    ∧ tLeads (.recordReadComplete 0 (.submission 3) (.ok (tPi 5 0))) rd (fun b => (b.ring 3).avail == 5 && (b.ring 3).reading == 0 && (b.ring 3).ci == 0 && (b.ring 3).st == .active) = true
    ∧ tLeads (.recordReadComplete 0 (.submission 3) (.ok (tPi 5 1))) rd (fun b => (b.ring 3).avail == 0 && (b.ring 3).piEpoch == 1 && b.fld F.chRgstatFetcherr == 1) = true
    ∧ tLeads (.recordReadComplete 0 (.submission 3) .failed) rd (fun b => (b.ring 3).st == .error && (b.ring 3).err == 1 && b.ev.sent.map EvMsg.src == [67]) = true
    ∧ (let h := { (tRing tReady).setCring 0 { reading := 1 } with hw := { cache := [(0, 7)], reads := [(2, false, 0)] } }
       let g := (tRing tReady).setCring 0 { full := true }
       let full := ((tRing tReady).setCring 0 { tail := 64 }).qPush 640 0
       let goes (i : Instr) (y : Chan) : Bool := tLeads i (tState y) (fun b => (b.cring 0).head == 5 && (b.cring 0).cpls == [])
       h.readOf false 0 = some (2, false) ∧ g.readOf false 0 = none ∧ g.headDue 0 0 = true ∧ h.xlateOpen (h.cqRec 0) 16 = true
       ∧ (g.engineRead (g.cqRec 0) 8).2 = true ∧ goes (.recordReadComplete 0 (.completion 0) (.ok (tPi 5 0))) h = true
       ∧ goes (.recordReadComplete 0 (.completion 0) (.ok (tPi 5 0))) g = true
       ∧ full.headWaits 0 = true ∧ (((full.setCring 0 { full.cring 0 with full := true }).writeCdb 0 true).cring 0).error = false
       ∧ (((full.setCring 0 { full.cring 0 with full := true }).writeCdb 0 true).engineRead (full.cqRec 0) 8).2 = true
       ∧ goes (.ringIdleSleep 0 (.completion 0) (.ok (tPi 5 0))) full = true
       ∧ ((tChan (.ringIdleSleep 0 (.completion 0) (.ok (tPi 0 0))) (tState full)).cring 0).full = true)
    ∧ ((c.writeSdb 3 true).engineRead (c.sqRec 3) 8).2 = true ∧ c.fld (F.rgScfgIdle 3) * 100 ≤ 1000000 ∧ c.xlateOpen (c.sqRec 3) 16 = true
    ∧ (let s := { act with dev := { time := 1000000 } }
       tLeads (.ringIdleSleep 0 (.submission 3) (.ok (tPi 0 0))) s (fun b => (b.ring 3).st == .sleep && (b.ring 3).sleepW) = true
       ∧ tLeads (.ringIdleSleep 0 (.submission 3) (.ok (tPi 2 0))) s (fun b => (b.ring 3).st == .active && !(b.ring 3).sleepW && (b.ring 3).avail == 2) = true)
    ∧ (let z := tR { st := .sleep, sleepW := true }
       z.kickOpen 3 = true ∧ z.tagsFree = true ∧ (((z.setRing 3 { z.ring 3 with st := .active }).writeSdb 3 false).engineRead (z.sqRec 3) 8).2 = true
       ∧ tLeads (.kick 0 3) (tState z) (fun b => (b.ring 3).st == .active && (b.ring 3).reading == 1 && !(b.ring 3).sleepW) = true
       ∧ tLeads (.kick 0 3) act (fun b => (b.ring 3).reading == 1) = true ∧ tGives (.kick 0 3) (tState (tR {})) (tR {}) = true)
    ∧ (let off := { tReady with pw := { doms := [(5, { off := true })] } }
       off.ringsOn = false ∧ tGives (.kick 0 3) (tState off) { off with pw := { off.pw with kicks := [3] } } = true) := by decide +kernel

def tScfg (en size cmd : Nat) : Word := BitVec.ofNat 64 (en * 2 ^ 63 + size * 2 ^ 56 + cmd * 2 ^ 52)
theorem test_ring_states :
    let a := 0x10010 + 64 * 3
    let off := tState (tSet (tR {}) [(F.rgScfgEn 3, 0)])
    let on := tState (tR { st := .active, items := [{ ctx := 7, slot := 0 }], fetched := some tRun })
    let c := on.chan 0
    c.served a = true ∧ c.mayWrite .host a = true ∧ inHost (c.sqBase 3) (64 * 2 ^ 6) = true ∧ inHost (c.sqRec 3) 16 = true
    ∧ wbits (tScfg 1 6 0) 56 5 = 6 ∧ wbits (tScfg 1 6 0) 52 4 = 0
    ∧ tLeads (.ringEnable 0 .host 3 (tScfg 1 6 0)) off (fun b => (b.ring 3).st == .active && (b.ring 3).ci == 0 && (b.ring 3).err == 0
        && b.flag (F.rgScfgEn 3) && b.fld (F.rgScfgSize 3) == 6 && b.out == []) = true
    ∧ tLeads (.ringEnable 0 .host 3 (tScfg 1 16 0)) off (fun b => (b.ring 3).st == .active) = true
    ∧ [5, 17].all (fun n => tLeads (.ringEnable 0 .host 3 (tScfg 1 n 0)) off (fun b => b.rings == (off.chan 0).rings && !b.flag (F.rgScfgEn 3))) = true
    ∧ (let drn := tSet (tR { st := .draining }) [(F.rgScfgEn 3, 0)]; tGives (.ringEnable 0 .host 3 (tScfg 1 6 0)) (tState drn) drn = true)
    ∧ tLeads (.ringDisable 0 .host 3 (tScfg 0 6 0)) on (fun b => (b.ring 3).st == .draining && !b.flag (F.rgScfgEn 3) && (b.ring 3).ci == 0) = true
    ∧ (let ab := tState { (c.setCtx 7 { st := .live }) with copies := [(0, { kind := .copyin, ring := 3, slot := 0, host := 0, chan := 0, len := 8 })] }
       tLeads (.abort 0 .host 3 (tScfg 1 6 1)) ab (fun b => (b.ring 3).st == .aborting && (b.ring 3).fetched == none && (b.qptr 515).unread == 0
         && (b.ctx 7).st == .dead && b.copies.all (fun e => e.2.abort)) = true)
    ∧ tLeads (.ringDrained 0 3) (tState (tR { st := .draining, ci := 4 })) (fun b => b.ring 3 == { ci := 4 } && b.ev.sent.map EvMsg.src == [67]) = true := by decide +kernel
theorem test_completion_ring_enable :
    let c := tSet ((tRing tReady).setCring 0 { head := 9, tail := 9, full := true }) [(F.rgCcfgEn 0, 0)]
    c.served 0x12010 = true ∧ c.flag (F.rgCcfgEn 0) = false ∧ inHost (c.cqBase 0) (32 * 2 ^ 6) = true ∧ inHost (c.cqRec 0) 16 = true
    ∧ wbits 0x8006000000000000 48 5 = 6
    ∧ tLeads (.completionRingEnable 0 .host 0 0x8006000000000000) (tState c) (fun b => b.flag (F.rgCcfgEn 0)
        && b.cring 0 == {}) = true := by decide +kernel

def tLine (opc : Nat) (w1 w2 w3 : Word) : Line := ⟨BitVec.ofNat 64 (opc * 2 ^ 56), w1, w2, w3, 0, 0, 0, 0⟩
theorem test_ring_entries :
    let c := tR { st := .active, avail := 1 }
    let d := (c.engineRead (c.sqBase 3 + 64 * c.sqSlot 3) 64).1
    let s := tState c
    let cpl (b : Chan) := (b.cring 0).cpls.map (fun x => (x.status, x.detail, x.sq, x.slot, x.bumpCi))
    c.mayFetch 3 = true ∧ (c.engineRead (c.sqBase 3 + 64 * c.sqSlot 3) 64).2 = true ∧ c.cqOf 3 = 0
    ∧ [(Instr.copyin 0 3, tLine 2 0 0 8), (.copyout 0 3, tLine 3 0 0 8), (.load 0 3, tLine 4 0 8 0)].all (fun y =>
        (lineBad y.2).isNone && tGives (y.1 (.ok y.2)) s (d.setRing 3 { c.ring 3 with fetched := some y.2 })) = true
    ∧ lineBad (tLine 5 0 0 0) = none
    ∧ tLeads (.nop 0 3 (.ok (tLine 5 0 0 0))) s (fun b => (b.ring 3).busy == 1 && (b.ring 3).ci == 0 && cpl b == [(0, 0, 3, 0, true)]) = true
    ∧ [(Instr.copyin 0 3, tLine 2 0 0 0, 4), (.copyout 0 3, tLine 3 0 0 0, 4), (.load 0 3, tLine 4 0 0 0, 4), (.nop 0 3, tLine 5 1 0 0, 2), (.baddesc 0 3, tLine 0 0 0 0, 1),
        (.baddesc 0 3, tLine 6 0 0 0, 1), (.baddesc 0 3, tLine 255 0 0 0, 1)].all (fun (y : (Fetched → Instr) × Line × Nat) =>
        lineBad y.2.1 == some y.2.2 && tLeads (y.1 (.ok y.2.1)) s (fun b => (b.ring 3).ci == 0 && cpl b == [(0x30, BitVec.ofNat 32 y.2.2, 3, 0, true)] && b.fld F.chRgstatBaddesc == 1)) = true
    ∧ [Instr.copyin 0 3, .copyout 0 3, .load 0 3, .nop 0 3, .baddesc 0 3].all (fun y =>
        tLeads (y .failed) s (fun b => (b.ring 3).st == .error && (b.ring 3).err == 2 && b.ev.sent.map EvMsg.src == [67])) = true := by decide +kernel
theorem test_run :
    let c := tTable (tR { st := .active, avail := 1, fetched := some { tRun with w2 := 2 }, admitted := some { deadline := 50, cost := 8 }, grant := some { id := 9, weight := 1 } })
    c.ringsOn = true ∧ c.positionRoom (c.fld (F.rgSctxFlow 3)) = true
    ∧ tLeads (.run 0 3) (tState c) (fun b => (b.ring 3).ci == 1 && (b.ring 3).fetched == none && (b.ring 3).items == [{ ctx := 9, slot := 0, seq := c.cu.seqNext }]
        && (b.qptr 515).unread == 2 * c.qUnit 515 && (b.ctx 9).st == .live && (b.ctx 9).seq == c.cu.seqNext && (b.ctx 9).ring == 3
        && (b.ctx 9).deadline == 50 && (b.ctx 9).cost == 8 && !(b.ctx 9).te.getLsbD 7 && (b.ctx 9).excTag == c.rd (0x10020 + 64 * 3)) = true := by decide +kernel
theorem test_ring_injection :
    let c := tLater ((tR { st := .active, toks := [⟨0, 7, 0⟩] }).qPush 515 (tokWord (tTok 3 0) 0))
    c.qGives 515 = true ∧ c.injectRoom (unitAt tileRing) false 1 = true ∧ wordTok (c.qItem 515 (c.qRead 515)) = tTok 3 0
    ∧ tLeads (.ringInjection 0 3 parityGood) (tState c) (fun b => (b.ring 3).toks == [] && (b.qptr 515).unread == 0
        && (b.buf (bufKey tileRing 4 0)).map NPkt.pay == [.tok (tTok 3 0)]) = true
    ∧ tLeads (.ringInjection 0 3 ⟨true, true, true, true⟩) (tState c) (fun b => (b.ring 3).badHead && b.net == c.net && b.qptr 515 == c.qptr 515) = true := by
  decide +kernel

/-- Queue 640 with the token of context 9, whose record says how it ended, of ring 3. -/
def tCpl (st : CtxSt) : Chan :=
  tLater ((((tRing tReady).setRing 3 { st := .active, items := [{ ctx := 9, slot := 4 }] }).setCtx 9 { st := st, ring := 3, slot := 4, retTag := mkTag 0 0 9 0 0 2 }).qPush 640
    (tokWord ⟨mkSb 1 false, 42, mkTag 0 0 9 0 0 2⟩ 0))
theorem test_completion_token :
    let c := tCpl .dead
    let live := tCpl .live
    let poi := tCpl .poisoned
    c.ringsOn = true ∧ c.qGives 640 = true ∧ (c.cplOf 0 (c.qItem 640 (c.qRead 640))).isSome = true ∧ c.cqRoom 0 = true
    ∧ live.poisoned 9 = false ∧ poi.poisoned 9 = true ∧ tagCtx (wordTok (poi.qItem 640 (poi.qRead 640))).tag = 9
    ∧ tGives (.completionToken 0 0 parityGood) (tState poi) poi = true
    ∧ (live.cplOf 0 (live.qItem 640 (live.qRead 640))).isNone = true
    ∧ tLeads (.completionToken 0 0 parityGood) (tState c) (fun b => (b.cring 0).cpls.map (fun x => (x.result, x.sq, x.slot)) == [(42, 3, 4)] && b.fld F.chRgstatStray == 0) = true
    ∧ tLeads (.completionToken 0 0 parityGood) (tState live) (fun b => (b.cring 0).cpls == [] && b.fld F.chRgstatStray == 1) = true := by decide +kernel
theorem test_completion_write :
    let x : Cpl := { result := 42, sq := 3, slot := 4, ctx := 9, bumpCi := true, item := true }
    let c := ((tSet (tRing tReady) [(F.rgCcfgIrq 0, 1)]).setRing 3 { st := .active, out := 2 }).setCring 0 { tail := 65, head := 60, cpls := [x] }
    let a := c.cqBase 0 + 32
    firstPage a 32 = 32 ∧ c.xlateOpen a 32 = true ∧ (c.hwXlate a 32 true).2 = some (7, 7) ∧ c.cqRoom 0 = true
    ∧ tLeads (.completionWrite 0 0 []) (tState c) (fun b => (b.cring 0).cpls == [] && (b.cring 0).tail == 66 && (b.ring 3).out == 1 && (b.ring 3).ci == 1
        && (b.ctx 9).ring == 0xFF && b.ev.sent.map EvMsg.src == [192]
        && b.out == [.write (hostAddr 7 a) (((x.words 0 0).take 3).flatMap (fun w => valBytes w.toNat 8)) false false false,
                     .write (hostAddr 7 (a + 24)) (((x.words 0 0).drop 3).flatMap (fun w => valBytes w.toNat 8)) false false false]) = true := by decide +kernel

def tCopyLine : Line := tLine 2 0x8000000000 0x1000 8
theorem test_copy_slot :
    let c := { tR { st := .active, avail := 1, fetched := some tCopyLine } with copies := [(0, { kind := .copyin, ring := 5, slot := 0, host := 0, chan := 0, len := 8 })] }
    let bad := { tR { st := .active, avail := 1, fetched := some (tLine 2 0x8000000000 0x600000 8) } with copies := [] }
    c.copyNext = some 3 ∧ c.copyBad (copyOf 3 0 tCopyLine) = none ∧ (bad.copyBad (copyOf 3 0 (tLine 2 0x8000000000 0x600000 8))).isSome = true
    ∧ tLeads (.copySlotGrant 0) (tState c) (fun b => (b.ring 3).fetched == none && (b.ring 3).ci == 1 && (b.ring 3).busy == 1 && b.copyRr == 3 && tblFind b.copies 1 == some (copyOf 3 0 tCopyLine)) = true
    ∧ tLeads (.copySlotGrant 0) (tState bad) (fun b => (b.ring 3).ci == 1 && b.copies == [] && (b.cring 0).cpls.map (fun x => x.status) == [0x31]) = true := by decide +kernel
theorem test_copy_parts :
    let x : Copy := { copyOf 3 0 tCopyLine with len := 8 }
    let s (y : Copy) : State := tState { (tRing tReady).wrWord 0x1000 0x1122334455667788 with copies := [(2, y)] }
    let p : Part := { data := [1, 2, 3, 4, 5, 6, 7, 8], poison := false, err := false, errs := [] }
    let c := (s x).chan 0
    p.wf = true ∧ partLen 0x8000000000 8 = 8 ∧ c.partReady 0x1000 8 = true ∧ c.xlateOpen 0x8000000000 8 = true ∧ (c.hwXlate 0x8000000000 8 true).2 = some (7, 7) ∧ (c.hwXlate 0x8000000000 8 false).2 = some (7, 7)
    ∧ tLeads (.copyPartComplete 0 2 p) (s { x with abort := true, done := 3 }) (fun b => b.copies == [] && b.out == [] && b.mem == c.mem
        && (b.cring 0).cpls.map (fun x => (x.status, x.detail, x.sq, x.slot)) == [(0x23, 3, 3, 0)]) = true
    ∧ tLeads (.copyPartComplete 0 2 p) (s x) (fun b => memBytes b.mem 0xFFF 10 == [0, 1, 2, 3, 4, 5, 6, 7, 8, 0] && b.copies == []
        && (b.cring 0).cpls.map (fun x => (x.status, x.sq, x.slot)) == [(0, 3, 0)]) = true
    ∧ tLeads (.copyPartComplete 0 2 p) (s { x with kind := .copyout }) (fun b => b.mem == c.mem
        && b.out == [.write (hostAddr 7 0x8000000000) [0x88, 0x77, 0x66, 0x55, 0x44, 0x33, 0x22, 0x11] false false false]) = true := by decide +kernel

/-! ## Witnesses: host window, registers, power -/

def tHw (r : Req) (x : HostWin) : State :=
  tState { tHost (tMatch .live false) with net := { arrive := [(tileRing * 8 + 5, { pay := .req r })] }, hw := x }
theorem test_host_window :
    let st := tReq .st 0x8000000010 4 0x11223344
    let ld := { tReq .ld 0x8000000010 8 0 with ty := 3 }
    let x : HostWin := { cache := [(0, 7)], nextId := 5 }
    let busy : HostWin := { x with reads := (List.range 63).map (fun i => (i, true, 3)) }
    let c := (tHw st x).chan 0
    c.domUp 5 = true ∧ c.xlateOpen 0x8000000010 16 = true ∧ ((c.takeArrived tileRing 5).hwXlate 0x8000000010 4 true).2 = some (7, 7) ∧ firstPage 0x8000000010 4 = 4
    ∧ tLeads (.hostWindowAccess 0 []) (tHw st x) (fun b => b.out == [.write (hostAddr 7 0x8000000010) [0x44, 0x33, 0x22, 0x11] false false false] && b.hw.outst == []) = true
    ∧ tLeads (.hostWindowAccess 0 []) (tHw ld x) (fun b => b.hw.outst == [(5, ld)] && b.hw.nextId == 6 && b.out == [.read (hostAddr 7 0x8000000010) 8 5 false]) = true
    ∧ c.tagsFree = true ∧ ((tHw ld busy).chan 0).tagsFree = false ∧ tGives (.hostWindowAccess 0 []) (tHw ld busy) ((tHw ld busy).chan 0) = true
    ∧ (((tHw ld { cache := [(0, 1)] }).chan 0).takeArrived tileRing 5 |>.hwXlate 0x8000000010 8 false).2 = none
    ∧ tLeads (.hostWindowAccess 0 []) (tHw ld { cache := [(0, 1)] }) (fun b => (b.ctx 7).exccnt == 1 && b.out == []) = true := by decide +kernel
theorem test_host_completion :
    let s (n : Nat) : State := tState { tReady with hw := { outst := [(5, { tReq .ld 0x8000000010 n 0 with ty := 3, reply := .regs 0 0 4 })] } }
    let res (o0 o1 : Opd) (b : Chan) : Bool := (b.buf (bufKey tileRing 4 2)).map NPkt.pay == [.result 0 0 4 o0 o1] && b.hw.outst == []
    tLeads (.hostReadCompletion 0 5 0x1122334455667788 9 true) (s 2) (res (mkOpd 0x7788 3 true) (mkOpd 0x7788 3 true)) = true
    ∧ tLeads (.hostReadCompletion 0 5 0x1122334455667788 9 false) (s 8) (res (mkOpd 0x1122334455667788 3 false) (mkOpd 0x1122334455667788 3 false)) = true
    ∧ tLeads (.hostReadCompletion 0 5 0x1122334455667788 9 false) (s 16) (res (mkOpd 0x1122334455667788 3 false) (mkOpd 9 3 false)) = true := by decide +kernel
theorem test_host_timeout :
    let c := { tReady with hw := { outst := [(5, { tReq .ld 0x8000000010 8 0 with ty := 3 })] } }
    (c.hw.outst.find? (fun x => x.1 == 5)).isSome = true ∧ (tChan (.hostCompletionTimeout 0 5) (tState c)).hw.outst = [] := by decide +kernel
theorem test_hwt_registers :
    let c := { tSet tDram [(F.chHwtbaseAddr, 0x10000), (F.chHwtidxIndex, 3)] with hw := { cache := [(3, 1), (4, 2)] } }
    let hole := tSet tReady [(F.chHwtidxIndex, 3)]
    c.served 0x198 = true ∧ c.mayWrite .host 0x198 = true ∧ c.hwtOpen = true ∧ hole.hwtOpen = true ∧ c.hwEntryAddr 3 = 0x1000000018 ∧ c.range 0x1000000018 = .dram ∧ hole.range (hole.hwEntryAddr 3) ≠ .dram
    ∧ c.rdWord 0x1000000018 = 0 ∧ (c.wrWord 0x1000000018 77).hwtdata = 77
    ∧ tLeads (.hwtdataWrite 0 .host 0xABCDEF) (tState { hole with hw := c.hw }) (fun b => b.mem == [] && b.fld F.chHwtidxIndex == 4 && b.hw.cache == [(4, 2)]) = true
    ∧ tLeads (.hwtdataRead 0 .host) (tState { hole with readData := 5 }) (fun b => b.readData == 0 && b.regs == hole.regs) = true := by decide +kernel
theorem test_hwctl :
    let c := { tSet tDram [(F.chHwtbaseAddr, 0x10700)] with hw := { cache := [(3, 1)] } }
    let o := { c with hw := { cache := [(3, 1)], outst := [(5, tReq .ld 0 8 0), (6, tReq .ld 0 8 0)] } }
    c.served 0x188 = true ∧ c.mayWrite .host 0x188 = true ∧ c.flag F.chHwctlEn = false ∧ c.hwTableFits = true ∧ tReady.hwTableFits = false
    ∧ tLeads (.hwctlEnable 0 .host 0x8000000000000000) (tState c) (fun b => b.flag F.chHwctlEn && b.hw.cache == []) = true
    ∧ tLeads (.hwctlEnable 0 .host 0x8000000000000000) (tState tReady) (fun b => !b.flag F.chHwctlEn && b.hw == tReady.hw) = true
    ∧ tLeads (.invall 0 .host 1) (tState o) (fun b => b.hw == { o.hw with cache := [] }) = true
    ∧ tLeads (.sync 0 .host 2) (tState { c with hw := { reads := [(4, true, 3)] } }) (fun b => b.fld F.chHwctlSync == 1 && b.hw.sync == some [4]) = true
    ∧ tLeads (.sync 0 .host 2) (tState c) (fun b => b.fld F.chHwctlSync == 0 && b.hw == c.hw) = true
    ∧ tLeads (.sync 0 .host 2) (tState o) (fun b => b.fld F.chHwctlSync == 1 && b.hw == { o.hw with sync := some [5, 6] }) = true := by decide +kernel

/-- MS_WM and MS_WMSTAT through PF1: a 4-byte write leaves the other half, W1C bits clear, an RC field reads and clears. -/
theorem test_register_accesses :
    let c := (tReady.wr 0x3008 0xF00000012000).wr 0x3010 0x6000000000000005
    let no := { c with pw := { ready := false } }
    let off := { c with pw := { cst := 3, ready := true } }
    accSpan 0x300C .four = some (0x3008, 32, 64) ∧ reaches .host 0x3008 = true ∧ (regAt chanRegTable 0x3008).map (fun d => (d.1.name, d.2)) = some (.msWm, 0)
    ∧ c.served 0x3008 = true ∧ RegName.msWm ∉ ownWrites ∧ RegName.msWmstat ∉ ownWrites ∧ no.mayWrite .host 0x3008 = false ∧ off.served 0x3008 = false
    ∧ tLeads (.registerWrite 1 .host 0x300C .four 9) (tState c) (fun b => b.rd 0x3008 == 0x900012000) = true
    ∧ tLeads (.registerWrite 1 .host 0x3014 .four 0x40000000) (tState c) (fun b => b.rd 0x3010 == 0x2000000000000005) = true
    ∧ tLeads (.registerReadClear 1 .host 0x3010 .four) (tState c) (fun b => b.readData == 5 && b.rd 0x3010 == 0x6000000000000000) = true
    ∧ tGives (.registerReadClear 1 .host 0x3008 .eight) (tState { no with readData := 5 }) no = true
    ∧ tGives (.registerWrite 1 .host 0x3008 .eight 0) (tState no) no = true
    ∧ (regAt chanRegTable 0x118).map (fun d => d.1.name) = some .chPlane
    ∧ tLeads (.registerWrite 1 .host 0x118 .eight 5) (tState c) (fun b => b.devNo == 0 && (tLater b).devNo == 5) = true
    ∧ tLeads (.registerWrite 1 .host 0x300C .four 3) (tState off) (fun b => b.regs == off.regs && b.pw.wake
        && b.pw.held == [{ party := .host, off := 0x3008, lo := 32, hi := 64, w := some 0x300000000 }]) = true := by decide +kernel
def tSetup (r : Req) (cl : Bool) : State :=
  tState { tMatch .live false with net := { arrive := [(tileCtx * 8 + 4, { pay := .req r })] }, progClearing := cl }
theorem test_setup_port :
    let st := tReq .st 0x2000028 8 77
    let ld := { tReq .ld 0x2000018 8 0 with ty := 5 }
    let rg := { tReq .ld (BitVec.ofNat 40 (setupBase + 0x2000)) 8 0 with ty := 5 }
    let wr (n : Nat) : Req := tReq .st (BitVec.ofNat 40 (setupBase + 0x3008)) 8 (BitVec.ofNat 64 n)
    let x (r : Req) : Chan := ((tSetup r false).chan 0).takeArrived tileCtx 4
    ((tSetup st false).chan 0).range 0x2000028 = .prog ∧ ((tSetup st false).chan 0).range (setupBase + 0x2000) = .setup ∧ ((tSetup st false).chan 0).domUp 5 = true
    ∧ tGives (.setupPortAccess 0) (tSetup st false) (((x st).setInstr 5 77).reply tileCtx st.reply doneOpd doneOpd) = true
    ∧ tGives (.setupPortAccess 0) (tSetup ld false) ((x ld).reply tileCtx ld.reply (mkOpd (tWord .add) 5 false) (mkOpd (tWord .add) 5 false)) = true
    ∧ tGives (.setupPortAccess 0) (tSetup rg false) ((((x rg).readEffect 0x2000).readClear 0x2000 0 64).reply tileCtx rg.reply (mkOpd 1 5 false) (mkOpd 1 5 false)) = true
    ∧ ((tSetup st false).chan 0).served 0x2000 = true ∧ ((tSetup st false).chan 0).served 0xF8000 = true
    ∧ tGives (.setupPortAccess 0) (tSetup (wr 5) false) (((x (wr 5)).access {} { party := .firing, off := 0x3008, w := some 5 }).reply tileCtx st.reply doneOpd doneOpd) = true
    ∧ tGives (.setupPortAccess 0) (tSetup ld true) ((tSetup ld true).chan 0) = true := by decide +kernel
theorem test_program_store_cleared :
    let c := { tReady with progClearing := true }
    let s := { tState c with dev := { svc := { steward := [11, 12, 13] } } }
    s.dev.restarting = false ∧ s.dev.chFail.getLsbD 0 = false ∧ c.pw.due = 0
    ∧ tGives (.programStoreClearComplete 0) (tState c) tReady = true
    ∧ tLeads (.programStoreClearComplete 0) (s.setChan 0 { c with pw := { c.pw with due := 9 } }) (fun b => !b.progClearing && [0xDFFF, 0xE000, 0xE001, 0xE002, 0xE003].map b.instr == [BitVec.allOnes 64, 11, 12, 13, BitVec.allOnes 64] && b.pw.due == 0) = true := by
  decide +kernel

/-! ## Witnesses: power -/

/-- Step w stands alone in program 0 of domain d, with TIME 500. -/
def tStepW (op a b : Nat) : Word := BitVec.ofNat 64 (op * 2 ^ 56 + a * 2 ^ 32 + b)
def tProg (d : Nat) (w : Word) (x : DomSt) (g : Prog) (dm : Nat) : State :=
  { tState { ((tSet tReady [(F.dmTrstatState, dm)]).wr 0x1400 w).wr 0x1408 0 with
      pw := { doms := if x = {} then [] else [(d, x)], progs := [(d, g)], goal := 2 } } with dev := { time := 500 } }
def tGo : Prog := { up := false, pc := 0 }
theorem test_power_steps :
    ([(Instr.clkgate 0 1, 0x01, {}, { gated := true }), (.clkungate 0 1, 0x02, { gated := true }, {}), (.isoon 0 1, 0x03, {}, { clamped := true }),
      (.isooff 0 1, 0x04, { clamped := true }, {}), (.rston 0 1, 0x05, {}, { inReset := true }), (.rstoff 0 1, 0x06, { inReset := true }, {}),
      (.swoff 0 1, 0x07, {}, { off := true }), (.swon 0 1, 0x08, { off := true }, {}), (.reton 0 1, 0x09, {}, { retention := true }),
      (.retoff 0 1, 0x0A, { retention := true }, {}), (.pwrDrain 0 1, 0x0B, {}, {}), (.save 0 1, 0x0C, {}, { saved := true }),
      (.restore 0 1, 0x0D, { saved := true }, {}), (.selfref 0 1, 0x0E, {}, {}), (.srexit 0 1, 0x0F, {}, {}), (.pwrWait 0 1, 0x10, {}, {})]
      : List (Instr × Nat × DomSt × DomSt)).all (fun r =>
        let w := tStepW r.2.1 3 20
        let s := tProg 1 w r.2.2.1 tGo 2
        let c := s.chan 0
        stepOp w == r.2.1 && decide (c.seqWord 0 = w) && stepOp (c.seqWord 1) == 0 && (c.prog? 1).isSome
        && (r.2.1 != 0x0B || c.drained 1) && (r.2.1 != 0x0E || c.drained 6)
        && tLeads r.1 s (fun b => b.dom 1 == r.2.2.2 && b.prog? 1 == some { tGo with pc := 1, done := [w], since := 500 + stepTime r.2.1 w }
          && (r.2.1 != 0x07 || !b.pw.seton.getLsbD 1) && (r.2.1 != 0x08 || b.pw.seton.getLsbD 1)
          && (r.2.1 != 0x0E || (b.dmState == 4 && b.dm.selfRefresh)))) = true := by decide +kernel
theorem test_power_ends :
    let idle := { (tProg 1 0 {} tGo 2) with chans := [(0, { (tProg 1 0 {} tGo 2).chan 0 with pw := { progs := [(1, tGo)] } })] }
    let c4 := { ((tSet tReady [(F.dmTrstatState, 4)]).wrWord dramBase 5).wrWord 0x100 9 with
      pw := { cst := 3, goal := 4, ready := true, doms := (List.range 8).map (fun d => (d, ({ off := d != 4, retention := d == 4 } : DomSt))) } }
    tGives (.pwrEnd 0 1) idle ((idle.chan 0).endProg 1) = true
    ∧ tLeads (.swon 0 1) (tProg 1 (tStepW 0x08 0 20) { off := true } tGo 2) (fun b => (b.dom 1).off && b.pw.seton == 0) = true
    ∧ tLeads (.srexit 0 1) (tProg 1 (tStepW 0x0F 0 0) {} tGo 4) (fun b => b.dmState == 3 && !b.dm.selfRefresh) = true
    ∧ c4.c4Due = true ∧ tLeads (.swoff 0 4) (tState c4) (fun b => b.pw.cst == 4 && !b.pw.ready && (b.dom 4).off && b.dmState == 0
        && memByte b.mem dramBase == 0 && b.rdWord 0x100 == 9) = true := by decide +kernel

def tQuiet (cst : Nat) (x : Power) (l : List (Fd × Nat)) : Chan :=
  let c := tSet tReady ([(F.pwrCtlAuto, 1), (F.pwrCtlSetauto, 1)] ++ l ++ (List.range 8).map (fun e => (F.pwrDomDown e, 8 * e)))
  { (List.range 128).foldl (fun (c : Chan) i => c.wr (0x1400 + 8 * i) 0) c with pw := { x with cst := cst, goal := cst, ready := true } }
theorem test_c1 :
    let c := tQuiet 0 {} []
    let s (n : Nat) : State := { tState { c with xclk := n } with dev := { time := 9 } }
    c.steady = true ∧ c.allQuiet = true ∧ c.fld F.pwrIdleT1 = 64
    ∧ tGives (.c1Entry 0) (s 64) { c with xclk := 64, pw := { c.pw with cst := 1, goal := 1, c1At := 9 } } = true ∧ tGives (.c1Entry 0) (s 63) ((s 63).chan 0) = true := by decide +kernel
theorem test_c2_c3 :
    let c := tQuiet 1 {} []
    let d := tQuiet 2 { doms := [(0, { off := true }), (1, { off := true }), (2, { off := true }), (3, { off := true }), (4, { retention := true })] } []
    let off := d.setDom 7 { off := true }
    let on := d.setPort 2 { st := 3 }
    let s (c : Chan) : State := { tState c with dev := { time := 20000 } }
    c.steady = true ∧ c.prog? 7 = none ∧ 100 * c.fld F.pwrIdleT2 ≤ 20000 ∧ [0, 1, 2, 3].any c.domUp = true
    ∧ tLeads (.c2Entry 0) (s c) (fun b => b.pw.goal == 2 && b.pw.cst == 1 && [0, 1, 2, 3].all (fun e => (b.prog? e).map (fun p => (p.up, p.pc)) == some (false, 8 * e))) = true
    ∧ d.steady = true ∧ d.ringsRest = true ∧ [0, 1, 2, 3].any d.domUp = false ∧ d.memUp = false ∧ d.domUp 5 = true ∧ d.domUp 7 = true ∧ d.portsAsleep = true ∧ 100 * d.fld F.pwrIdleT3 ≤ 20000
    ∧ tLeads (.c3Entry 0) (s d) (fun b => b.pw.goal == 3 && b.pw.cst == 2 && (b.prog? 7).map (fun p => (p.up, p.pc)) == some (false, 56) && (b.prog? 5).isNone) = true
    ∧ off.domUp 7 = false ∧ off.portsAsleep = true ∧ tLeads (.c3Entry 0) (s off) (fun b => b.pw.goal == 3 && (b.prog? 5).map (fun p => (p.up, p.pc)) == some (false, 40)) = true
    ∧ on.portsAsleep = false ∧ tGives (.c3Entry 0) (s on) on = true
    ∧ (List.range 8).all (fun e => stepOp (c.seqWord (c.fld (F.pwrDomDown e))) == 0) = true := by decide +kernel
theorem test_park_and_wake :
    let c := tQuiet 0 {} []
    let s : State := { tState c with dev := { time := 20000 } }
    let w := tQuiet 1 { wake := true, kicks := [] } []
    let w3 := tQuiet 3 { wake := true, doms := [(5, { off := true })] } []
    c.domOpen 2 = true ∧ c.setQuiet 2 = true ∧ 100 * c.fld F.pwrIdleTset ≤ 20000
    ∧ tLeads (.setPark 0 2) s (fun b => b.prog? 2 == some { up := false, pc := 16, since := 20000 }) = true
    ∧ (List.range 7).all w.domUp = true ∧ (w.dom 4).retention = false
    ∧ tLeads (.channelWake 0) (tState w) (fun b => b.pw.cst == 0 && b.pw.goal == 0 && !b.pw.wake) = true
    ∧ w3.domUp 5 = false ∧ tGives (.channelWake 0) { tState w3 with dev := { time := 7 } } { w3 with pw := { w3.pw with goal := 0, regAt := 507 } } = true := by decide +kernel
theorem test_pwr_ctl :
    let c := tQuiet 0 {} []
    let stew := tSet c [(F.ccStewRun, 1)]
    let c1 := tQuiet 1 {} []
    let w (cmd : Nat) : Word := BitVec.ofNat 64 (2 ^ 63 + cmd)
    (List.range 8).all c.domUp = true
    ∧ tLeads (.setReady 0 .host (w 2)) (tState c) (fun b => b.pw == { c.pw with ready := true } && b.flag F.pwrCtlAuto && !b.flag F.pwrCtlSetauto) = true
    ∧ tLeads (.clearReady 0 .host (w 3)) (tState c) (fun b => b.pw == { c.pw with ready := false } && b.flag F.pwrCtlAuto && !b.flag F.pwrCtlSetauto) = true
    ∧ tLeads (.enterC4 0 .host (w 1)) (tState c) (fun b => b.pw.goal == 4 && b.pw.cst == 1
        && [0, 1, 2, 3, 7].all (fun e => (b.prog? e).map (fun p => (p.up, p.pc)) == some (false, 8 * e))) = true
    ∧ tGives (.enterC4 0 .host (w 1)) (tState stew) stew = true ∧ tGives (.setReady 0 .host (w 2)) (tState stew) stew = true
    ∧ tGives (.clearReady 0 .host (w 3)) (tState stew) stew = true
    ∧ tLeads (.wakeToC0 0 .host (w 4)) (tState c1) (fun b => b.pw.cst == 0 && b.pw.goal == 0 && !b.pw.wake) = true
    ∧ tLeads (.channelReset 0 .host (w 5)) (tState c) (fun b => b.pw == c.pw && b.callers == c.callers && b.cu == c.cu) = true := by decide +kernel

/-! ## Witnesses: resets, temperatures, the service core -/

/-- Of ResetLeaves, what a value shows. -/
def tFresh (b : Chan) : Bool :=
  b.pw.cst == 0 && !b.pw.ready && b.pw.doms == [] && b.cu == {} && b.ms == {} && b.qu == {} && b.rings == [] && b.duets == [] && b.progClearing
    && b.sp.clearing && b.dm.acc == [] && (b.caller 1).st == .halted && b.rdWord 0x100 == 0 && b.rd 0x2000 == 1 && b.rd 0x108 == BitVec.ofNat 64 (chanReset 0 0x108)
def tUsed : Chan :=
  ((tMem (tDisp { wins := [tDone] })).setCaller 1 { st := .running, phys := some 1 }).setRing 3 { st := .active } |>.wr 0x2000 2
theorem test_resets :
    let s := tState { tUsed with msix := { pba := [1] } }
    (s.chan 0).pw.held = [] ∧ (s.chan 0).pw.tripped = false
    ∧ tFresh (tChan (.functionLevelReset 1) s) = true ∧ (tChan (.functionLevelReset 1) s).msix = {}
    ∧ tFresh (tChan (.channelReset 0 .service 5) s) = true
    ∧ (tAfter .perstN s).dev.perst = false ∧ (tAfter .perstN s).dev.linkUp = false
    ∧ (tAfter .perstNRelease s).dev.linkUp = true ∧ (tAfter .trstN s).dev.tapReset = true := by decide +kernel
def tBoot : BootInfo :=
  { bank1 := false, ok0 := true, ok1 := false, tablesOk := true, digests := [10, 11, 12, 13, 14, 15, 16], selfTest := 0xFFFE, badDuets := [], badCallers := [], badSteps := [], stewardOk := true,
    steward := [1, 2] }
theorem test_power_on :
    let t (b : BootInfo) : State := tAfter (.porN b) State.reset
    tBoot.wf = true
    ∧ (let u := t { tBoot with ok0 := false }; u.dev.recovery = true ∧ (u.chan 3).pw.cst = 4 ∧ (u.chan 3).pw.tripped = true)
    ∧ (let u := t { tBoot with tablesOk := false }; u.dev.recovery = false ∧ u.dev.step = 4 ∧ (u.chan 3).pw.cst = 4 ∧ u.dev.slot 0 = 10) := by
  decide +kernel

/-- Words of PWR_CURVE and PWR_OPP. -/
def tCurveW (mhz mv : Nat) : Word := BitVec.ofNat 64 (2 ^ 63 + mhz * 2 ^ 32 + mv)
def tOppW (target gap : Nat) : Word := BitVec.ofNat 64 (target * 2 ^ 48 + gap)
/-- Two points of the operating curve: 400 MHz at 600 mV and 500 MHz at 700 mV, a target of 450 MHz and a GAP of 5 µs. -/
def tCurve : Chan :=
  let w (i : Nat) : Word := if i = 0 then tCurveW 400 600 else if i = 1 then tCurveW 500 700 else 0
  { tReady with regs := (0x1018, tOppW 450 5) :: (List.range 16).map (fun i => ((F.pwrCurveMhz i).off, w i)) }
theorem test_points : tCurve.point = some (500, 700) := by
  unfold Chan.point Chan.capMhz Chan.points gradeMhz
  generalize Config.isE20 = b
  cases b <;> decide +kernel
/-- The three cases of a switch: the point in use, the end of the GAP, and a moment before it. -/
def tOpp (mhz : Nat) : Chan := { tCurve with pw := { ready := true, mhz := mhz, lastSwitch := 100 } }
theorem test_operating_point :
    ((tOpp 500).point = some (500, 700) ∧ (tOpp 400).point = some (500, 700))
    ∧ 100 + 100 * (tOpp 400).fld F.pwrOppGap = 600 ∧ (tOpp 400).pw.cst < 2
    ∧ tGives (.operatingPointSwitch 0) { tState (tOpp 400) with dev := { time := 599 } } (tOpp 400) = true
    ∧ tLeads (.operatingPointSwitch 0) { tState (tOpp 400) with dev := { time := 600 } }
        (fun b => b.pw.mhz == 500 && b.pw.mv == 700 && b.pw.lastSwitch == 600) = true
    ∧ tLeads (.operatingPointSwitch 0) { tState (tOpp 500) with dev := { time := 300 } }
        (fun b => b.pw.mhz == 500 && b.pw.mv == 700 && b.pw.lastSwitch == 100) = true
    ∧ tLeads (.operatingPointSwitch 0) { tState (tOpp 0) with dev := { time := 300 } } (fun b => b.pw.mhz == 500 && b.pw.lastSwitch == 300) = true := by
  unfold tLeads tGives tChan tAfter exec execOperatingPointSwitch Chan.switchTo Chan.runAt Chan.capCode Chan.point Chan.capMhz Chan.points gradeMhz
  generalize Config.isE20 = b
  cases b <;> decide +kernel
theorem test_clocks_and_rails :
    let s := State.reset
    (tAfter .clk32kLoss s).dev = ((({ s.dev with clk32 := false } : Dev).setFld F.thRailClk32 1).raise 0x31)
    ∧ (tAfter .clk32kLoss s).dev.ev.msgs.map EvMsg.src = [0x31] ∧ (tAfter .clk32kRestore (tAfter .clk32kLoss s)).dev.clk32 = true
    ∧ (tAfter (.railAlarm 5) s).dev.rd 0x3018 = 32 ∧ (tAfter (.railAlarm 5) s).dev.ev.msgs.map EvMsg.src = [0x31]
    ∧ (let d := (tAfter (.agingMeasurement 3 ⟨1, 2, 3, 4, 0xFFF⟩) s).dev
       (d.fld (F.thAgeSpine 3), d.fld (F.thAgeSet0 3), d.fld (F.thAgeSet1 3), d.fld (F.thAgeSet2 3), d.fld (F.thAgeSet3 3)) = (0xFFF, 1, 2, 3, 4)) := by decide +kernel
/-- TH_CFG with LIMIT 95, TRIP 110, HYST 5 and PLIM 100, the service core restarting (ML_MARGIN stays); 20 sensors at n and sensor 0 at m, in 0.125 degrees. -/
def tTh (x : Dev) : State := { State.reset with dev := { x with regs := [(0x3000, 0x005F6E0500000064)], svc := { restartEnd := 1 } } }
def tTemps (m n : Int) : List (BitVec 16) := BitVec.ofInt 16 m :: List.replicate 19 (BitVec.ofInt 16 n)
theorem test_thermal :
    let t (m : Int) (s : State) : State := tAfter (.thermalSample (tTemps m 160)) s
    (tTh {}).dev.fld F.thCfgLimit = 95 ∧ (tTh {}).dev.fld F.thCfgTrip = 110 ∧ (tTh {}).dev.fld F.thCfgHyst = 5
    ∧ (let u := t 761 (tTh {}); (u.chan 0).pw.thermal = true ∧ (u.chan 1).pw.thermal = false ∧ u.dev.tripped = false ∧ u.dev.rd 0x3108 = 160
        ∧ ((t 720 u).chan 0).pw.thermal = true ∧ ((t 719 u).chan 0).pw.thermal = false)
    ∧ (t 880 (tTh {})).dev.tripped = false
    ∧ (let u := t 881 (tTh {}); u.dev.tripped = true ∧ (u.chan 15).pw.tripped = true ∧ (u.chan 15).pw.goal = 4) := by decide +kernel
theorem test_limiter :
    let s := tTh { lowMs := 9, limOrder := [3] }
    let l := s.setChan 3 { s.chan 3 with pw := { (s.chan 3).pw with limited := 2 } }
    (tAfter (.powerLimiter 94) l).dev.lowMs = 10 ∧ (tAfter (.powerLimiter 94) l).dev.limOrder = [] ∧ ((tAfter (.powerLimiter 94) l).chan 3).pw.limited = 1
    ∧ (tAfter (.powerLimiter 95) l).dev.limOrder = [3] := by decide +kernel
/-- The channel with the two points, at the higher one: the limiter takes it. -/
theorem test_limiter_target :
    let s := tState (tOpp 500)
    s.limTarget = some 0 ∧ (s.dev.time = 0) := by
  unfold State.limTarget Chan.canLower Chan.points gradeMhz
  generalize Config.isE20 = b
  cases b <;> decide +kernel
/-- AGE of valid points moves 2 mV towards its target, once in 24 service hours. -/
theorem test_age :
    let c := { tCurve with idx := 3 }
    let s (v : Service) : State := { chans := [(3, c)], dev := { regs := [(0x3218, 1000)], svc := v } }
    ((s {}).dev.svc.ageDue 3 = true ∧ (s { aged := [(3, 5)], hours := 29 }).dev.svc.ageDue 3 = true
      ∧ (s { aged := [(3, 5)], hours := 28 }).dev.svc.ageDue 3 = false ∧ (s {}).dev.slowdown 3 = 1000)
    ∧ [0, 1, 2].map (fun i => (c.ageAll 1000).fld (F.pwrCurveAge i)) = [2, 2, 0]
    ∧ tAfter (.ageAdjustment 3) (s { aged := [(3, 5)], hours := 28 }) = s { aged := [(3, 5)], hours := 28 } := by decide +kernel

/-! ## Witnesses: the service core, and the whole block -/

def tSvc (v : Service) : State := { State.reset with dev := { svc := v } }
def tRec : LedgerBuf := { ty := 0x81, payload := [1, 2, 3] }
theorem test_hourly :
    let h : HourInfo := { hist := [7], maxTj := 800 }
    let t := tAfter (.hourly h) State.reset
    h.wf = true ∧ State.reset.dev.restarting = false ∧ State.reset.dev.recovery = false ∧ t.dev.svc.hours = 1
    ∧ (t.dev.svc.buffer.filter (fun r => r.ty == 2)).map (fun r => r.payload.take 10) = [[7, 0, 0, 0, 0, 0, 0, 0, 0x20, 3]] := by decide +kernel
theorem test_ledger_write :
    let s := tSvc { buffer := [tRec], seqNext := 6, hours := 9 }
    let t (ok : Bool) : Dev := (tAfter (.ledgerRecordWrite ok) s).dev
    let r (ok : Bool) : LedgerRec := { ty := 0x81, seq := 6, hours := 9, payload := [1, 2, 3], committed := ok }
    s.margin = s.dev.rd 0x2300 ∧ 4 ≤ s.dev.svc.erased ∧ s.dev.svc.place 3 = some 0
    ∧ ((t true).svc.recs 0, (t true).svc.seqNext, (t true).svc.buffer, (t true).svc.fail) = ([r true], 7, [], 0)
    ∧ ((t false).svc.recs 0, (t false).svc.seqNext, (t false).svc.buffer, (t false).svc.fail, ((t false).ev.msgs.map EvMsg.src).contains 0x34) = ([r false], 6, [], 1, true) := by
  decide +kernel
theorem test_sector_reclaim :
    let r : LedgerRec := { ty := 0x81, seq := 6, hours := 9, payload := [1], committed := true }
    let s := tSvc { flash := (List.range 125).map (fun i => (i, [r])), sector := 124 }
    s.dev.svc.erased = 3 ∧ s.dev.svc.ringOrder.find? (fun j => !(s.dev.svc.recs j).isEmpty) = some 0 ∧ s.dev.svc.toCopy 0 = []
    ∧ (let v := (tAfter .sectorReclaim s).dev.svc; (v.recs 0, v.recs 1)) = ([], [r]) := by decide +kernel
theorem test_ledger_select :
    let r : LedgerRec := { ty := 0x81, seq := 6, hours := 9, payload := [1], committed := true }
    let s := tSvc { flash := [(0, [r])] }
    (let v := (tAfter (.mlLselWrite .host 6) s).dev.svc; (v.ldone, v.lfound, v.lbuf) = (true, true, r.bytes))
    ∧ (let v := (tAfter (.mlLselWrite .host 7) s).dev.svc; (v.ldone, v.lfound, v.lbuf) = (true, false, [])) := by decide +kernel

def tImg (svn : BitVec 32) (sig : Bool) : ImgInfo := { hostErr := false, sizeBad := false, sigOk := sig, svn := svn, digest := 99, flashOk := true }
def tUp (cmd obj rest : Nat) : Word := BitVec.ofNat 64 (cmd * 2 ^ 60 + obj * 2 ^ 56 + rest)
theorem test_stage_commit :
    let s := tSvc { otpMin := [(1, 3)] }
    let staged := tSvc { otpMin := [(1, 3)], up := .staged, obj := 1, img := some (tImg 5 true) }
    wbits (tUp 1 1 0) 60 4 = 1 ∧ wbits (tUp 1 1 0) 56 4 = 1
    ∧ [(tImg 3 true, UpSt.staged, 0), (tImg 2 true, .failed, 2), (tImg 3 false, .failed, 1)].all (fun e =>
        let v := (tAfter (.stage .host (tUp 1 1 0) e.1) s).dev
        v.svc.up == e.2.1 && v.svc.reason == e.2.2 && v.svc.obj == 1 && v.svc.img == some e.1 && v.ev.msgs.map EvMsg.src == [0x32]) = true
    ∧ (let v := (tAfter (.commit .host (tUp 2 1 (2 ^ 55))) staged).dev.svc; (v.up == .committed && v.dir == [{ obj := 1, bank := true, digest := 99, committed := true }] && v.activeBank 1 && !v.activeBank 2 && tblGet v.otpMin 1 0 == 5) = true)
    ∧ (let v := (tAfter (.commit .host (tUp 2 1 0)) staged).dev.svc; (v.up, tblGet v.otpMin 1 0) = (.committed, 3))
    ∧ (let d := (tAfter (.commit .host (tUp 2 1 0) false) staged).dev
       (d.svc.up == .failed && d.svc.reason == 4 && !d.svc.activeBank 1 && d.svc.otpMin == [(1, 3)] && (d.ev.msgs.map EvMsg.src).contains 0x35) = true)
    ∧ (let v := (tAfter (.commit .host (tUp 2 2 0)) staged).dev.svc; (v.up, v.reason, v.otpMin) = (.failed, 3, [(1, 3)]))
    ∧ (let v := (tAfter (.updateAbort .host (tUp 4 0 0)) staged).dev.svc; (v.up, v.reason) = (.failed, 7)) := by decide +kernel
theorem test_activate :
    let s (o : Nat) : State := tSvc { up := .committed, obj := o, img := some (tImg 5 true) }
    (s 1).dev.svc.up = .committed ∧ ((s 5).chan 3).noProg [0, 1, 2, 3, 4, 5, 6, 7] = true ∧ wbits (tUp 3 5 (2 ^ 35)) 32 16 = 2 ^ 3
    ∧ (let d := (tAfter (.activate .host (tUp 3 1 0)) (s 1)).dev; (d.svc.up, d.svc.restartEnd, d.restarting) = (.activating, 25000000, true)) := by decide +kernel
theorem test_hand_over_timeout :
    let s : State := { tSvc { up := .activating, obj := 2, img := some (tImg 5 true), handOver := [(3, 0xE100, 0)] } with
      chans := [(3, { idx := 3, callers := [(0, { phys := some 0, ipDone := 0xF000 })] })] }
    let late : State := { s with dev := { s.dev with time := 1000000 } }
    (late.chan 3).handedOver = false
    ∧ (let t := tAfter (.handOverTimeout 3) late; (t.dev.svc.up, t.dev.svc.reason, t.dev.svc.handOver, (t.chan 3).fld F.ccStewRestart) = (.failed, 6, [], 0xE100)) := by
  decide +kernel
/-- The negotiation, its error answers, and an answer while the service core restarts. -/
theorem test_attestation :
    let tr := Spdm.doe
    let s (x : SpdmConn) : State := { State.reset with dev := { doe := x } }
    let d (x : SpdmConn) : Dev := { doe := x }
    let r : State := { State.reset with dev := { svc := { restartEnd := 1 } } }
    (tAfter (.getVersion tr) (s {})).dev = (d { version := true }).respond tr 0x04 [0x1200]
    ∧ (tAfter (.getCapabilities tr) (s { version := true })).dev = (d { version := true, caps := true }).respond tr 0x61 [0x16]
    ∧ (tAfter (.getCapabilities tr) (s {})).dev = (d {}).respond tr 0x7F [4]
    ∧ (tAfter (.negotiateAlgorithms tr) (s { version := true, caps := true })).dev = (d { version := true, caps := true, algs := true }).respond tr 0x63 [1, 4, 0x80, 2]
    ∧ (tAfter (.getDigests tr) (s {})).dev = (d {}).respond tr 0x7F [4]
    ∧ (tAfter (.getDigests tr) r).dev.out = [.spdm tr 0x7F [3]]
    ∧ inMctp 0x2300 = true ∧ inMctp 0x0 = false ∧ (tAfter (.mctpRegisterRead 0x0) State.reset).dev.out = [.mctp 0] := by decide +kernel

theorem test_sound : (({} : Dev).svc.buffer.length ≤ 64) ∧ ({} : Dev).lowMs ≤ 10 := by decide
/-- Reset values of the specification's tables, on every channel. -/
theorem test_reset_values : ∀ k : Ch,
    let c := State.reset.chan k.val
    c.idx = k.val ∧ c.pw.ready = false ∧ c.pw.cst = 0 ∧ c.rd 0x118 = BitVec.ofNat 64 (k.val * 2 ^ 16) ∧ c.rd 0x2000 = 1 ∧ c.fld F.msWmHigh = 0x12000
      ∧ c.fld F.msWmLow = 0xF000 ∧ c.fld F.pwrIdleT1 = 64 ∧ c.fld F.pwrIdleT2 = 100 ∧ c.fld F.pwrIdleT3 = 200 ∧ c.fld F.pwrIdleTset = 50
      ∧ c.rd 0x1A000 = 0x0020000000000000 ∧ c.rd 0x1A018 = 0x5F55 ∧ c.rd 0x30200 = 0xE000 ∧ c.qEn 511 = true ∧ c.qDup 511 = false
      ∧ c.qRetain 0 = true ∧ c.qCap 0 = 32 ∧ (c.ring 127).st = .disabled ∧ (c.caller 3).st = .halted ∧ (c.caller 3).phys = some 3
      ∧ c.progClearing = true ∧ c.sp.clearing = true ∧ c.rd 0x1C138 = 0x7777777777777777 := by decide +kernel
theorem test_channels_apart : channelOf .sectorReclaim = none ∧ channelOf (.freeListBuilt 3) = some 3 ∧ channelOf (.registerWrite 0 .host 0 .eight 0) = none
    ∧ channelOf (.registerWrite 1 .host 0 .eight 0) = some 0 ∧ channelOf (.eventSelection (.chan 5)) = some 5 := by decide

/-- The reset state meets what the last statement asks of channels. -/
theorem test_reset_sound (j : Nat) : (State.reset.chan j).Sound := by
  have h : State.reset.chan j = Chan.fresh j := rfl
  rw [h]
  exact ⟨rfl, fun _ => Nat.zero_le _, fun _ => Nat.zero_le _, fun _ => Nat.zero_le _, fun _ _ hb => absurd hb (by simp [Chan.fresh, tblGet, tblFind])⟩

/-! ## Ill-formed commands: one for each check of WellFormed.lean -/

theorem test_ill_formed :
    let b := { tBoot with digests := [] }
    let st := { tBoot with steward := List.replicate 8193 0 }
    let fr : Frame := { tFrame 0 with slots := List.replicate 8 tSlot }
    [Instr.dataFrameReceive 0 1 fr frameGood, .redataFrameReceive 0 1 fr frameGood, .porN b, .porN st, .thermalSample [], .hourly ⟨List.replicate 65 0, 0⟩,
      .moderationHoldExpiry .dev 256, .evSrcClear .dev .host 256 0, .msixMaskClear 0 64, .copyPartComplete 0 0 ⟨List.replicate 513 0, false, false, []⟩].all
        (fun i => !i.wf && (match exec i State.reset with | .fault .illFormed => true | _ => false)) = true := by decide +kernel

end Sys2Proof.Tests
end

section
/-! A period of the device (log entry 3): what each part of it leaves of the period's number, of TIME and of the queue. -/

namespace Sys2Proof.Machine

/-- A fold of operations that leave what g reads leaves it. -/
theorem foldl_leaves {α β γ : Type} (g : β → γ) (f : β → α → β) (h : ∀ b a, g (f b a) = g b) (l : List α) (b : β) :
    g (l.foldl f b) = g b :=
  List.foldlRecOn (motive := fun x => g x = g b) l f rfl (fun x hx a _ => (h x a).trans hx)

/-- The number of the device's period, and TIME. -/
def Dev.clock (d : Dev) : Nat × Nat := (d.xclk, d.time)

/-- The device's clock, and the commands that wait. -/
def State.clock (s : State) : (Nat × Nat) × List Instr := (s.dev.clock, s.pending)

/-! ## The device blocks -/

@[simp] theorem Dev.wr_clock (d : Dev) (off : Nat) (w : Word) : (d.wr off w).clock = d.clock := rfl

@[simp] theorem Dev.inc_clock (d : Dev) (f : Fd) : (d.inc f).clock = d.clock := rfl

@[simp] theorem Dev.raise_clock (d : Dev) (src : Nat) : (d.raise src).clock = d.clock := rfl

@[simp] theorem Dev.setSlot_clock (d : Dev) (n : Nat) (g : Digest) : (d.setSlot n g).clock = d.clock := rfl

@[simp] theorem Dev.showLstat_clock (d : Dev) : d.showLstat.clock = d.clock := rfl

@[simp] theorem Dev.svc_clock (d : Dev) (v : Service) : ({ d with svc := v } : Dev).clock = d.clock := rfl

@[simp] theorem Dev.ev_clock (d : Dev) (u : EvUnit) : ({ d with ev := u } : Dev).clock = d.clock := rfl

@[simp] theorem Dev.step_clock (d : Dev) (n : Nat) : ({ d with step := n } : Dev).clock = d.clock := rfl

@[simp] theorem Dev.note_clock (d : Dev) (ty : BitVec 8) (p : List Byte) : (d.note ty p).clock = d.clock := by
  simp only [Dev.note]
  split <;> rfl

@[simp] theorem Dev.stageEnd_clock (d : Dev) (st : UpSt) (reason : Nat) : (d.stageEnd st reason).clock = d.clock := by
  simp [Dev.stageEnd]

/-- A CCLK of the device event controller counts and returns, and leaves the clock. -/
@[simp] theorem Dev.evEdge_clock (d : Dev) : d.evEdge.clock = d.clock := by
  simp only [Dev.evEdge]
  split
  · rw [Dev.svc_clock, foldl_leaves Dev.clock, Dev.ev_clock, foldl_leaves Dev.clock]
    · exact fun d _ => d.inc_clock _
    · exact fun _ _ => (Dev.inc_clock _ _).trans (Dev.ev_clock _ _)
  · rfl

/-! ## The state -/

@[simp] theorem State.setChan_clock (s : State) (k : Nat) (c : Chan) : (s.setChan k c).clock = s.clock := rfl

theorem State.dev_clock (s : State) {d : Dev} (h : d.clock = s.dev.clock) : ({ s with dev := d } : State).clock = s.clock := by
  simp [State.clock, h]

@[simp] theorem State.eachChan_clock (s : State) (f : Nat → Chan → Chan) : (s.eachChan f).clock = s.clock :=
  foldl_leaves State.clock _ (fun s _ => s.setChan_clock _ _) _ _

@[simp] theorem State.allOff_clock (s : State) : s.allOff.clock = s.clock := s.eachChan_clock _

@[simp] theorem State.showOwn_clock (s : State) : s.showOwn.clock = s.clock := s.eachChan_clock _

@[simp] theorem State.noteFails_clock (s : State) (b : BootInfo) : (s.noteFails b).clock = s.clock := by
  refine foldl_leaves State.clock _ (fun s k => ?_) _ _
  simp only []
  split
  · rfl
  · exact s.dev_clock (Dev.note_clock _ _ _)

@[simp] theorem State.bootOn_clock (s : State) (b : BootInfo) (m7 : Digest) : (s.bootOn b m7).clock = s.clock := by
  simp only [State.bootOn]
  split
  · exact s.allOff_clock
  · rw [State.noteFails_clock, State.eachChan_clock]
    refine s.dev_clock ?_
    rw [Dev.showLstat_clock, Dev.note_clock, Dev.step_clock]
    split <;> rfl

@[simp] theorem State.restarted_clock (s : State) : s.restarted.clock = s.clock := by
  simp only [State.restarted]
  split
  · exact (State.bootOn_clock _ _ _).trans (s.dev_clock rfl)
  · exact (State.showOwn_clock _).trans (s.dev_clock rfl)

/-- A channel that an ACTIVATE serves changes itself and the service core's record of the update. -/
@[simp] theorem State.serveOne_clock (s : State) (g : Digest) (k : Nat) : (s.serveOne g k).clock = s.clock := by
  simp only [State.serveOne]
  split
  · split <;> rfl
  all_goals rfl

@[simp] theorem State.takeOvers_clock (s : State) : s.takeOvers.clock = s.clock := rfl

@[simp] theorem State.activateEnd_clock (s : State) : s.activateEnd.clock = s.clock := by
  simp only [State.activateEnd]
  split
  · rfl
  · generalize (if s.dev.svc.reason = 0 then UpSt.done else UpSt.failed) = st
    split
    · exact s.dev_clock (Dev.stageEnd_clock _ _ _)
    · have hdev : ∀ d : Dev, d.clock = s.dev.clock → (if s.dev.svc.obj = 1 then ({ s with dev := d } : State).restarted
          else if s.dev.svc.obj = 3 then { s with dev := d } else ({ s with dev := d } : State).showOwn).clock = s.clock := by
        intro d hd
        split
        · exact (State.restarted_clock _).trans (s.dev_clock hd)
        · split
          · exact s.dev_clock hd
          · exact (State.showOwn_clock _).trans (s.dev_clock hd)
      refine hdev _ ?_
      split <;> simp

/-- An ACTIVATE under way (R640 to R642) leaves the clock and the queue. -/
@[simp] theorem State.upWork_clock (s : State) : s.upWork.clock = s.clock := by
  have hserve : ∀ g, ((s.dev.svc.todo.foldl (fun (s : State) k => s.serveOne g k) s).takeOvers).clock = s.clock := fun g =>
    foldl_leaves State.clock _ (fun s k => s.serveOne_clock g k) _ s
  have hend : ∀ t : State, t.clock = s.clock →
      (if t.dev.svc.todo = [] ∧ t.dev.svc.handOver = [] then t.activateEnd else t).clock = s.clock := by
    intro t ht
    split
    · exact t.activateEnd_clock.trans ht
    · exact ht
  simp only [State.upWork]
  split
  · rfl
  · split
    · split
      · rfl
      · exact s.activateEnd_clock
    · split <;> exact hend _ (hserve _)

/-- A period of the device: its number goes on by 1, TIME where an edge of ACLK falls into it, and the queue stays. -/
theorem tick_clock (s : State) :
    (tick s).clock = ((s.dev.xclk + 1, s.dev.time + b2n (Config.aclkEdge s.dev.xclk)), s.pending) := by
  rw [tick, State.upWork_clock, foldl_leaves State.clock, State.clock, Dev.evEdge_clock]
  · rfl
  · exact fun s _ => s.setChan_clock _ _

/-- Settles O2: a step on an empty queue is the period of `tick_clock`. -/
theorem emptyQueueIsATick : Obligations.EmptyQueueIsATick := by
  intro s hempty
  have hclock := tick_clock s
  simp only [State.clock, Dev.clock, Prod.mk.injEq] at hclock
  obtain ⟨⟨hxclk, htime⟩, hpending⟩ := hclock
  have hstep : step s = .next (tick s) := by rw [step, hempty]
  exact ⟨tick s, hstep, hxclk, htime, hpending.trans hempty⟩

end Sys2Proof.Machine
end

section
/-! What reset leaves: the reset values of indexed registers, and the reset form of a channel and of the device blocks. -/

namespace Sys2Proof.Machine

/-! ## Registers at reset -/

theorem instOf_at (base stride count i : Nat) (hs : 0 < stride) (hi : i < count) :
    instOf (base + stride * i) base stride count = some i := by
  have hoff : base + stride * i - base = stride * i := by omega
  rw [instOf, hoff, Nat.mul_mod_right, Nat.mul_div_cancel_left _ hs, if_pos ⟨by omega, rfl, hi⟩]

/-- QU_CFGn of a ready queue at reset (R665): EN and RETAIN 1, CAP 32, and BASE in its tile's part of the queue store. -/
theorem chanReset_quCfg (k q : Nat) (hq : q < 512) :
    chanReset k (0x8000 + 32 * q) = 0xA000000000000020 + (640 * (q / 8) + 32 * (q % 8)) <<< 32 := by
  rw [chanReset, if_neg (by omega), if_neg (by omega), if_neg (by omega), if_neg (by omega), if_pos (by omega),
    instOf_at _ _ _ _ (by omega) (by omega)]
  exact if_pos hq

/-- RG_SCFGr at reset: EN 0. -/
theorem chanReset_rgScfg (k r : Nat) (hr : r < 128) : chanReset k (0x10010 + 64 * r) = 0x0600000000640A00 := by
  rw [chanReset, if_neg (by omega), if_neg (by omega), if_neg (by omega), if_neg (by omega), if_neg (by omega), if_pos (by omega),
    instOf_at _ _ _ _ (by omega) hr]

@[simp] theorem Chan.fresh_rd (k off : Nat) : (Chan.fresh k).rd off = BitVec.ofNat 64 (chanReset k off) := rfl

/-- The registers with a value of their own at reset, on each channel. -/
theorem Chan.fresh_values : ∀ k : Ch,
    let c := Chan.fresh k.val
    c.rd 0x118 = BitVec.ofNat 64 (k.val * 2 ^ 16) ∧ c.rd 0x2000 = 1 ∧ c.fld F.msWmHigh = 0x12000 ∧ c.fld F.msWmLow = 0xF000
      ∧ c.fld F.pwrIdleT1 = 64 ∧ c.fld F.pwrIdleT2 = 100 ∧ c.fld F.pwrIdleT3 = 200 ∧ c.fld F.pwrIdleTset = 50
      ∧ c.rd 0x1A000 = 0x0020000000000000 ∧ c.rd 0x1A018 = 0x5F55 ∧ c.rd 0x30200 = 0xE000
      ∧ ∀ e < 8, c.rd (0x1C100 + 8 * e) = 0x7777777777777777 := by
  decide +kernel

/-- A ready queue after reset: enabled, without twins, with RETAIN, of 32 words. -/
theorem Chan.fresh_queue (k q : Nat) (hq : q < 512) :
    (Chan.fresh k).qEn q = true ∧ (Chan.fresh k).qDup q = false ∧ (Chan.fresh k).qRetain q = true ∧ (Chan.fresh k).qCap q = 32 := by
  simp only [Chan.qEn, Chan.qDup, Chan.qRetain, Chan.qCap, Chan.flag, Chan.fld, F.quCfgEn, F.quCfgDup, F.quCfgRetain, F.quCfgCap,
    Chan.fresh_rd, chanReset_quCfg k q hq, wbits, bitsOf, BitVec.toNat_ofNat, Nat.shiftLeft_eq, Nat.shiftRight_eq_div_pow,
    bne_iff_ne, bne_eq_false_iff_eq]
  omega

theorem Chan.fresh_ring (k r : Nat) (hr : r < 128) :
    ((Chan.fresh k).ring r).st = .disabled ∧ (Chan.fresh k).flag (F.rgScfgEn r) = false := by
  refine ⟨rfl, ?_⟩
  simp [Chan.flag, Chan.fld, F.rgScfgEn, chanReset_rgScfg k r hr, wbits, bitsOf]

/-! ## What is sound at reset -/

theorem Dev.sound_reset : State.reset.dev.Sound where
  buffer := Nat.zero_le _
  fail := Nat.zero_le _
  counts _ := Nat.zero_le _
  inbox := Nat.zero_le _
  above := by decide
  low := by decide

theorem Chan.sound_fresh (k : Nat) : (Chan.fresh k).Sound where
  mem := Chan.wf_fresh k
  counts _ := Nat.zero_le _
  inbox _ := Nat.zero_le _
  queues _ := Nat.zero_le _
  copies _ _ _ := rfl

/-- Settles O58, from the reset form of a channel and the values of its registers. -/
theorem resetValues : Obligations.ResetValues := by
  refine ⟨rfl, rfl, Dev.sound_reset, ?_⟩
  rintro k c rfl
  rw [State.reset_chan]
  obtain ⟨hplane, hwin, hhigh, hlow, ht1, ht2, ht3, hset, hcfg, href, hstew, hroutes⟩ := Chan.fresh_values k
  exact ⟨Chan.sound_fresh k.val, rfl, fun _ => rfl, rfl, rfl, hplane, hwin, hhigh, hlow, ht1, ht2, ht3, hset, hcfg, href, hstew, hroutes,
    Chan.fresh_queue k.val, Chan.fresh_ring k.val, fun _ _ => ⟨rfl, rfl⟩, fun _ => rfl, fun _ => rfl, rfl, rfl⟩

end Sys2Proof.Machine
end

section
/-! Which registers a read of GDDR7 writes. A read of CH_HWTDATA reads its line (R397, R572); an error in the line is counted, and a line
lost with a context record ends that context, which counts too. No other register changes, and no part of the power state. -/

namespace Sys2Proof.Machine

/-- The registers that count what a line in error brings about: CH_TOKSTAT, MS_FIRESTAT, DM_ECCSTAT, DM_ERRADDR and NT_STAT. -/
def countRegs : List Nat := [0x120, 0x3020, 0x1A028, 0x1A030, 0x1C008]

/-- Of the registers only those of countRegs may differ, and the power state is the same. -/
structure Chan.OnlyCounts (c d : Chan) : Prop where
  pw : d.pw = c.pw
  rd : ∀ o, o ∉ countRegs → d.rd o = c.rd o

theorem Chan.OnlyCounts.same (c : Chan) : c.OnlyCounts c := ⟨rfl, fun _ _ => rfl⟩

theorem Chan.OnlyCounts.andThen {c d e : Chan} (h : c.OnlyCounts d) (k : d.OnlyCounts e) : c.OnlyCounts e :=
  ⟨k.pw.trans h.pw, fun o ho => (k.rd o ho).trans (h.rd o ho)⟩

theorem Chan.OnlyCounts.fold {α : Type} (f : Chan → α → Chan) (h : ∀ (c : Chan) (a : α), c.OnlyCounts (f c a)) (l : List α) (c : Chan) :
    c.OnlyCounts (l.foldl f c) :=
  List.foldlRecOn (motive := c.OnlyCounts) l f (.same c) (fun d hd a _ => hd.andThen (h d a))

/-- An operation that writes no register and leaves the power state. -/
theorem Chan.OnlyCounts.of_regs {c d : Chan} (hpw : d.pw = c.pw) (hidx : d.idx = c.idx) (hregs : d.regs = c.regs) : c.OnlyCounts d :=
  ⟨hpw, fun o _ => by simp only [Chan.rd, Chan.rst, hidx, hregs]⟩

theorem Chan.onlyCounts_setFld (c : Chan) {f : Fd} (v : Nat) (hf : f.off ∈ countRegs) : c.OnlyCounts (c.setFld f v) :=
  ⟨rfl, fun o ho => by rw [Chan.setFld, Chan.wr_rd, if_neg (ne_of_mem_of_not_mem hf ho).symm]⟩

theorem Chan.onlyCounts_inc (c : Chan) {f : Fd} (hf : f.off ∈ countRegs) : c.OnlyCounts (c.inc f) := c.onlyCounts_setFld _ hf

theorem Chan.onlyCounts_raise (c : Chan) (src : Nat) (tag : Option Nat) : c.OnlyCounts (c.raise src (tag := tag)) := .of_regs rfl rfl rfl

theorem Chan.onlyCounts_setPoison (c : Chan) (a : Nat) (p : Bool) : c.OnlyCounts (c.setPoison a p) := .of_regs rfl rfl rfl

/-! ## Tokens and status words -/

theorem Chan.onlyCounts_countEpoch (c : Chan) (dev e : Nat) : c.OnlyCounts (c.countEpoch dev e) := by
  simp only [Chan.countEpoch]
  split
  · exact .same c
  · split
    · exact .same c
    · exact c.onlyCounts_inc (by decide)

theorem Chan.onlyCounts_countReach (c : Chan) (t : Token) (cause : Nat) : c.OnlyCounts (c.countReach t cause) := by
  simp only [Chan.countReach]
  split
  · exact c.onlyCounts_inc (by decide)
  · exact (c.onlyCounts_countEpoch _ _).andThen (Chan.onlyCounts_inc _ (by decide))

theorem Chan.onlyCounts_inject (c : Chan) (tile : Nat) (p : NPkt) : c.OnlyCounts (c.inject tile p) := by
  simp only [Chan.inject, Chan.offerPkt]
  split <;> exact .of_regs rfl rfl rfl

theorem Chan.onlyCounts_sendRaw (c : Chan) (t : Token) (r : Route) (cls : Bool) (acc : Acc) (tile : Nat) :
    c.OnlyCounts (c.sendRaw t r cls acc tile) := by
  cases r with
  | home => exact c.onlyCounts_inject _ _
  | port p => exact c.onlyCounts_inject _ _
  | none => exact .same c

theorem Chan.onlyCounts_sendDev (c : Chan) (t : Token) : c.OnlyCounts (c.sendDev t) := by
  simp only [Chan.sendDev]
  split
  · exact (c.onlyCounts_sendRaw _ _ _ _ _).andThen (Chan.onlyCounts_countEpoch _ _ _)
  · exact c.onlyCounts_countReach _ _

theorem Chan.onlyCounts_qPush (c : Chan) (q : Nat) (w : BitVec 144) : c.OnlyCounts (c.qPush q w) := by
  simp only [Chan.qPush, Chan.qMark]
  split <;> split <;> exact .of_regs rfl rfl rfl

/-! ## Context records and kills -/

theorem Chan.onlyCounts_cacheTouch (c : Chan) (id : Nat) (dirty : Bool) : c.OnlyCounts (c.cacheTouch id dirty) := by
  simp only [Chan.cacheTouch]
  split
  · exact .of_regs rfl rfl rfl
  · split
    · split <;> exact .of_regs rfl rfl rfl
    · split
      · split <;> exact .of_regs rfl rfl rfl
      · exact .of_regs rfl rfl rfl

theorem Chan.onlyCounts_ctxUpd (c : Chan) (id : Nat) (f : Ctx → Ctx) : c.OnlyCounts (c.ctxUpd id f) :=
  (Chan.OnlyCounts.of_regs (c := c) (d := c.setCtx id (f (c.ctx id))) rfl rfl rfl).andThen (Chan.onlyCounts_cacheTouch _ id true)

theorem Chan.onlyCounts_orphan (c : Chan) (id n : Nat) : c.OnlyCounts (c.orphan id n) := by
  simp only [Chan.orphan]
  split
  · exact .same c
  · exact c.onlyCounts_ctxUpd _ _

theorem Chan.onlyCounts_cancel (c : Chan) (id : Nat) : c.OnlyCounts (c.cancel id) :=
  (c.onlyCounts_orphan id 1).andThen (Chan.onlyCounts_inc _ (by decide))

theorem Chan.onlyCounts_dropKey (c : Chan) (t e : Nat) : c.OnlyCounts (c.dropKey t e) := by
  simp only [Chan.dropKey]
  split
  · exact .same c
  · split <;> exact .of_regs rfl rfl rfl

theorem Chan.onlyCounts_freeKey (c : Chan) (t e : Nat) : c.OnlyCounts (c.freeKey t e) := by
  simp only [Chan.freeKey]
  split
  · exact .same c
  · exact (c.onlyCounts_dropKey _ _).andThen (Chan.onlyCounts_ctxUpd _ _ _)

theorem Chan.onlyCounts_dropParked (c : Chan) (id : Nat) : c.OnlyCounts (c.dropParked id) :=
  (Chan.OnlyCounts.of_regs (c := c) (d := { c with ms := { c.ms with pool := c.ms.pool.filter (fun p => p.ctx.toNat != id) } }) rfl rfl rfl).andThen
    (.fold _ (fun c _ => (c.onlyCounts_freeKey _ _).andThen (Chan.onlyCounts_cancel _ _)) _ _)

theorem Chan.onlyCounts_leaveLive (c : Chan) (now id : Nat) (st : CtxSt) : c.OnlyCounts (c.leaveLive now id st) := by
  have hends := (c.onlyCounts_ctxUpd id (fun x => { x.turn now st with diedAt := now, swept := false })).andThen
    (Chan.onlyCounts_dropParked _ id)
  simp only [Chan.leaveLive]
  split
  · exact hends.andThen (.of_regs rfl rfl rfl)
  · split <;> exact hends.andThen (.of_regs rfl rfl rfl)

theorem Chan.onlyCounts_skipPositions (c : Chan) (id : Nat) : c.OnlyCounts (c.skipPositions id) := by
  refine .fold _ (fun c e => .fold _ (fun c i => ?_) _ c) _ c
  simp only []
  split <;> exact .of_regs rfl rfl rfl

theorem Chan.onlyCounts_raiseNoKill (c : Chan) (id cause ip : Nat) (detail : BitVec 32) :
    c.OnlyCounts (c.raiseNoKill id cause ip detail).1 := by
  have hcount : c.OnlyCounts (c.excCount id) := c.onlyCounts_ctxUpd _ _
  simp only [Chan.raiseNoKill]
  split
  · exact .same c
  · split
    · exact hcount.andThen (.of_regs rfl rfl rfl)
    · exact hcount.andThen (Chan.onlyCounts_sendDev _ _)

theorem Chan.onlyCounts_sendStatus (c : Chan) (id status ip : Nat) (p : Bool) : c.OnlyCounts (c.sendStatus id status ip p) := by
  simp only [Chan.sendStatus]
  split
  · split
    · exact c.onlyCounts_qPush _ _
    · exact .of_regs rfl rfl rfl
  · split
    · exact .same c
    · split
      · exact c.onlyCounts_sendDev _
      · exact (c.onlyCounts_countReach _ _).andThen (Chan.onlyCounts_raiseNoKill _ _ _ _ _)

theorem Chan.onlyCounts_poisonCtx (c : Chan) (now id : Nat) : c.OnlyCounts (c.poisonCtx now id) := by
  have hraise : c.OnlyCounts (c.raise 9 (tag := some (2 ^ 16 + id))) := c.onlyCounts_raise _ _
  simp only [Chan.poisonCtx]
  split
  · exact hraise
  · split
    · exact hraise.andThen (Chan.onlyCounts_orphan _ _ _)
    · exact (((hraise.andThen (Chan.onlyCounts_leaveLive _ _ _ _)).andThen (Chan.onlyCounts_skipPositions _ _)).andThen
        (Chan.onlyCounts_sendStatus _ _ _ _ _)).andThen (.of_regs rfl rfl rfl)

/-! ## Lines of GDDR7 -/

theorem Chan.onlyCounts_storeCheck (c : Chan) (e : Nat × Bool) : c.OnlyCounts (c.storeCheck e) := by
  simp only [Chan.storeCheck]
  split <;> exact .of_regs rfl rfl rfl

theorem Chan.onlyCounts_checkUse (c : Chan) (a : Nat) (wr : Bool) : c.OnlyCounts (c.checkUse a wr) := by
  simp only [Chan.checkUse]
  exact (Chan.OnlyCounts.fold _ (fun (c : Chan) e => c.onlyCounts_storeCheck e) _ c).andThen (.of_regs rfl rfl rfl)

theorem Chan.onlyCounts_bufLine (c : Chan) (l : Nat) : c.OnlyCounts (c.bufLine l) := by
  simp only [Chan.bufLine]
  split <;> exact .of_regs rfl rfl rfl

theorem Chan.onlyCounts_dmWrote (c : Chan) (a n : Nat) : c.OnlyCounts (c.dmWrote a n) :=
  .fold _ (fun c l => (c.onlyCounts_bufLine l).andThen (Chan.onlyCounts_checkUse _ _ _)) _ c

theorem Chan.onlyCounts_wrWords (ws : List Word) : ∀ (c : Chan) (a : Nat), c.OnlyCounts (c.wrWords a ws) := by
  induction ws with
  | nil => exact fun c _ => .same c
  | cons w r ih => exact fun c a => (Chan.OnlyCounts.of_regs (c := c) (d := c.wrWord a w) rfl rfl rfl).andThen (ih _ _)

theorem Chan.onlyCounts_ctxOver (c : Chan) (id : Nat) : c.OnlyCounts (c.ctxOver id) :=
  (Chan.onlyCounts_wrWords _ c _).andThen (Chan.onlyCounts_dmWrote _ _ _)

theorem Chan.onlyCounts_lineLost (c : Chan) (now a : Nat) : c.OnlyCounts (c.lineLost now a) := by
  simp only [Chan.lineLost]
  split
  · split
    · split
      · exact c.onlyCounts_ctxOver _
      · exact .same c
    · split
      · exact c.onlyCounts_poisonCtx _ _
      · exact .same c
  · split
    · exact .of_regs rfl rfl rfl
    · exact .same c

theorem Chan.onlyCounts_dmUncorr (c : Chan) (a : Nat) : c.OnlyCounts (c.dmUncorr a) := by
  have haddr : ∀ (c : Chan) (line : Nat), c.OnlyCounts
      (if c.flag F.dmErraddrValid then c else (c.setFld F.dmErraddrValid 1).setFld F.dmErraddrAddr line) := by
    intro c line
    split
    · exact .same c
    · exact (c.onlyCounts_setFld _ (by decide)).andThen (Chan.onlyCounts_setFld _ _ (by decide))
  simp only [Chan.dmUncorr]
  refine Chan.OnlyCounts.andThen ((Chan.OnlyCounts.andThen (.andThen ?_ (Chan.onlyCounts_inc _ (by decide))) (haddr _ _)).andThen (Chan.onlyCounts_checkUse _ _ _))
    (Chan.onlyCounts_raise _ 21 _)
  exact .fold _ (fun c i => c.onlyCounts_setPoison _ _) _ c

theorem Chan.onlyCounts_rowCandidate (c : Chan) (r : RowId) : c.OnlyCounts (c.rowCandidate r) := by
  simp only [Chan.rowCandidate]
  split <;> exact .of_regs rfl rfl rfl

theorem Chan.onlyCounts_dmLine (c : Chan) (now : Nat) (errs : LineErrs) (line : Nat) : c.OnlyCounts (c.dmLine now errs line) := by
  simp only [Chan.dmLine]
  split
  · exact c.onlyCounts_checkUse _ _
  · exact (c.onlyCounts_checkUse _ _).andThen (Chan.onlyCounts_inc _ (by decide))
  · exact ((c.onlyCounts_dmUncorr _).andThen (Chan.onlyCounts_rowCandidate _ _)).andThen (Chan.onlyCounts_lineLost _ _ _)

theorem Chan.onlyCounts_dmRead (c : Chan) (now : Nat) (errs : LineErrs) (a n : Nat) : c.OnlyCounts (c.dmRead now errs a n) :=
  .fold _ (fun c l => c.onlyCounts_dmLine now errs l) _ c

theorem Chan.onlyCounts_hwtRead (c : Chan) : c.OnlyCounts c.hwtRead := by
  simp only [Chan.hwtRead]
  split
  · exact (Chan.OnlyCounts.of_regs (c := c) (d := c.dmTouch) rfl rfl rfl).andThen (Chan.onlyCounts_dmRead _ _ _ _ _)
  · exact .same c

end Sys2Proof.Machine
end

section
/-! Accesses to a channel's registers: the fields of a word after a write and after a read (R12, R657), the registers of the table, and
the access as a whole (R591, R605, R659). -/

namespace Sys2Proof.Machine

/-! ## Fields of a word -/

/-- Bits that are written as they stand. -/
theorem setBits_wbits_self (w : Word) (lo len : Nat) (h : lo + len ≤ 64) : setBits w lo len (wbits w lo len) = w := by
  apply BitVec.eq_of_toNat_eq
  rw [setBits_toNat w lo len _ h, Nat.mod_eq_of_lt (wbits_lt w lo len)]
  exact (bitsOf_split w.toNat lo len).symm

/-- Two fields (lowest bit, length, access) have no bit in common. -/
abbrev fieldsApart (f g : Nat × Nat × Access) : Prop := f.1 + f.2.1 ≤ g.1 ∨ g.1 + g.2.1 ≤ f.1

/-- Fields that lie in a word, no two of which have a bit in common. -/
abbrev fieldsFit (l : List (Nat × Nat × Access)) : Prop := (∀ f ∈ l, f.1 + f.2.1 ≤ 64) ∧ l.Pairwise fieldsApart

theorem fieldsFit_cons {f : Nat × Nat × Access} {l : List (Nat × Nat × Access)} (h : fieldsFit (f :: l)) :
    f.1 + f.2.1 ≤ 64 ∧ (∀ g ∈ l, fieldsApart f g) ∧ fieldsFit l := by
  obtain ⟨hword, hapart⟩ := h
  rw [List.forall_mem_cons] at hword
  rw [List.pairwise_cons] at hapart
  exact ⟨hword.1, hapart.1, hword.2, hapart.2⟩

theorem wbits_setBits_apart (w : Word) {f g : Nat × Nat × Access} (v : Nat) (hf : f.1 + f.2.1 ≤ 64) (h : fieldsApart f g) :
    wbits (setBits w f.1 f.2.1 v) g.1 g.2.1 = wbits w g.1 g.2.1 := by
  rcases h with h | h
  · exact wbits_setBits_above _ _ _ _ _ _ h hf
  · exact wbits_setBits_below _ _ _ _ _ _ h hf

/-- A word each of whose fields f takes the value v f of what it holds. -/
def mapFields (v : Nat × Nat × Access → Nat → Nat) (old : Word) : List (Nat × Nat × Access) → Word
  | [] => old
  | f :: r => setBits (mapFields v old r) f.1 f.2.1 (v f (wbits (mapFields v old r) f.1 f.2.1))

theorem wbits_mapFields_apart (v : Nat × Nat × Access → Nat → Nat) (old : Word) (f : Nat × Nat × Access) :
    ∀ l, (∀ g ∈ l, g.1 + g.2.1 ≤ 64) → (∀ g ∈ l, fieldsApart f g) → wbits (mapFields v old l) f.1 f.2.1 = wbits old f.1 f.2.1 := by
  intro l
  induction l with
  | nil => exact fun _ _ => rfl
  | cons g r ih =>
    intro hword hapart
    rw [List.forall_mem_cons] at hword hapart
    rw [mapFields, wbits_setBits_apart _ _ hword.1 (Or.symm hapart.1), ih hword.2 hapart.2]

/-- Each field reads what v makes of its old value, modulo its width. -/
theorem wbits_mapFields (v : Nat × Nat × Access → Nat → Nat) (old : Word) :
    ∀ l, fieldsFit l → ∀ f ∈ l, wbits (mapFields v old l) f.1 f.2.1 = v f (wbits old f.1 f.2.1) % 2 ^ f.2.1 := by
  intro l
  induction l with
  | nil => exact fun _ f hf => absurd hf List.not_mem_nil
  | cons g r ih =>
    intro hfit f hf
    obtain ⟨hword, hapart, hrest⟩ := fieldsFit_cons hfit
    rcases List.mem_cons.1 hf with rfl | hmem
    · rw [mapFields, wbits_setBits _ _ _ _ hword, wbits_mapFields_apart v old f r hrest.1 hapart]
    · rw [mapFields, wbits_setBits_apart _ _ hword (hapart f hmem), ih hrest f hmem]

/-- A field after a write of the bits v over cur, by its access code (R12). -/
def fieldWritten (a : Access) (cur v len : Nat) : Nat :=
  match a with
  | .rw => v
  | .w1c => cur &&& (2 ^ len - 1 - v)
  | .w1s => cur ||| v
  | .ro | .wo | .rc => cur

theorem fieldWritten_lt (a : Access) {cur v len : Nat} (hc : cur < 2 ^ len) (hv : v < 2 ^ len) : fieldWritten a cur v len < 2 ^ len := by
  cases a with
  | rw => exact hv
  | w1c => exact Nat.and_lt_two_pow _ (by omega)
  | w1s => exact Nat.or_lt_two_pow hc hv
  | ro => exact hc
  | wo => exact hc
  | rc => exact hc

/-- What a write of w to the bits lo up to hi makes of a field: only one that it addresses in full changes (R657). -/
def writtenTo (n : RegName) (i : Nat) (w : Word) (lo hi : Nat) (f : Nat × Nat × Access) (cur : Nat) : Nat :=
  if inSpan lo hi f then fieldWritten (fieldAccess n i f.1 f.2.2) cur (wbits w f.1 f.2.1) f.2.1 else cur

/-- What a read of the bits lo up to hi leaves of a field. -/
def leftByRead (n : RegName) (i lo hi : Nat) (f : Nat × Nat × Access) (cur : Nat) : Nat :=
  if inSpan lo hi f = true ∧ fieldAccess n i f.1 f.2.2 = .rc then 0 else cur

theorem mergeFields_eq_mapFields (n : RegName) (i : Nat) (old w : Word) (lo hi : Nat) :
    ∀ l, fieldsFit l → mergeFields n i old w lo hi l = mapFields (writtenTo n i w lo hi) old l := by
  intro l
  induction l with
  | nil => exact fun _ => rfl
  | cons f r ih =>
    intro hfit
    obtain ⟨hword, -, hrest⟩ := fieldsFit_cons hfit
    rw [mergeFields, mapFields, ih hrest]
    cases hspan : inSpan lo hi f with
    | false => simp [writtenTo, hspan, setBits_wbits_self _ _ _ hword]
    | true => cases hacc : fieldAccess n i f.1 f.2.2 <;> simp [writtenTo, fieldWritten, hspan, hacc, setBits_wbits_self _ _ _ hword]

theorem clearRead_eq_mapFields (n : RegName) (i : Nat) (old : Word) (lo hi : Nat) :
    ∀ l, fieldsFit l → clearRead n i old lo hi l = mapFields (leftByRead n i lo hi) old l := by
  intro l
  induction l with
  | nil => exact fun _ => rfl
  | cons f r ih =>
    intro hfit
    obtain ⟨hword, -, hrest⟩ := fieldsFit_cons hfit
    rw [clearRead, mapFields, ih hrest]
    by_cases hclear : inSpan lo hi f = true ∧ fieldAccess n i f.1 f.2.2 = .rc
    · simp [leftByRead, hclear]
    · simp [leftByRead, hclear, setBits_wbits_self _ _ _ hword]

theorem wbits_mergeFields (n : RegName) (i : Nat) (old w : Word) (lo hi : Nat) {l : List (Nat × Nat × Access)} (hfit : fieldsFit l)
    {f : Nat × Nat × Access} (hf : f ∈ l) :
    wbits (mergeFields n i old w lo hi l) f.1 f.2.1 = writtenTo n i w lo hi f (wbits old f.1 f.2.1) := by
  rw [mergeFields_eq_mapFields n i old w lo hi l hfit, wbits_mapFields _ _ l hfit f hf]
  refine Nat.mod_eq_of_lt ?_
  rw [writtenTo]
  split
  · exact fieldWritten_lt _ (wbits_lt _ _ _) (wbits_lt _ _ _)
  · exact wbits_lt _ _ _

theorem wbits_clearRead (n : RegName) (i : Nat) (old : Word) (lo hi : Nat) {l : List (Nat × Nat × Access)} (hfit : fieldsFit l)
    {f : Nat × Nat × Access} (hf : f ∈ l) :
    wbits (clearRead n i old lo hi l) f.1 f.2.1 = leftByRead n i lo hi f (wbits old f.1 f.2.1) := by
  rw [clearRead_eq_mapFields n i old lo hi l hfit, wbits_mapFields _ _ l hfit f hf]
  refine Nat.mod_eq_of_lt ?_
  rw [leftByRead]
  split
  · positivity
  · exact wbits_lt _ _ _

/-! ## The register table -/

theorem regAt_some {l : List RegDesc} {o : Nat} {d : RegDesc} {i : Nat} (h : regAt l o = some (d, i)) :
    d ∈ l ∧ o = d.base + d.stride * i ∧ i ≤ d.count := by
  induction l with
  | nil => exact absurd h (by simp [regAt])
  | cons e r ih =>
    rw [regAt] at h
    split_ifs at h with hbase hinst
    · obtain ⟨rfl, rfl⟩ := Prod.mk.inj (Option.some.inj h)
      exact ⟨List.mem_cons_self, by simpa using hbase, Nat.zero_le _⟩
    · obtain ⟨rfl, rfl⟩ := Prod.mk.inj (Option.some.inj h)
      obtain ⟨hlt, -, hmod, hcount⟩ := hinst
      refine ⟨List.mem_cons_self, ?_, hcount.le⟩
      rw [Nat.mul_div_cancel' (Nat.dvd_of_mod_eq_zero hmod)]
      omega
    · obtain ⟨hmem, hrest⟩ := ih h
      exact ⟨List.mem_cons_of_mem _ hmem, hrest⟩

/-- Of every register the fields lie in the word and apart, and all its offsets lie below the MSI-X table; CH_PLANE is one register. -/
theorem chanRegTable_rows : ∀ d ∈ chanRegTable,
    fieldsFit d.fields ∧ d.base + d.stride * d.count < 0xE0000
      ∧ (d.name = .chPlane → d.base = 0x118 ∧ d.stride = 0) := by
  decide +kernel

end Sys2Proof.Machine
end

section
/-! A channel's registers through an access: the table, CH_PLANE, waking and held accesses (R68, R591, R605, R659). -/

namespace Sys2Proof.Machine

/-! ## An access that is carried out at once -/

@[simp] theorem Chan.stir_idx (c : Chan) (o : Nat) : (c.stir o).idx = c.idx := by unfold Chan.stir; split <;> rfl

@[simp] theorem Chan.stir_regs (c : Chan) (o : Nat) : (c.stir o).regs = c.regs := by unfold Chan.stir; split <;> rfl

@[simp] theorem Chan.stir_late (c : Chan) (o : Nat) : (c.stir o).late = c.late := by unfold Chan.stir; split <;> rfl

@[simp] theorem Chan.stir_xclk (c : Chan) (o : Nat) : (c.stir o).xclk = c.xclk := by unfold Chan.stir; split <;> rfl

@[simp] theorem Chan.stir_held (c : Chan) (o : Nat) : (c.stir o).pw.held = c.pw.held := by unfold Chan.stir; split <;> rfl

@[simp] theorem Chan.stir_ready (c : Chan) (o : Nat) : (c.stir o).pw.ready = c.pw.ready := by unfold Chan.stir; split <;> rfl

@[simp] theorem Chan.stir_rd (c : Chan) (o o' : Nat) : (c.stir o).rd o' = c.rd o' := by simp [Chan.rd, Chan.rst]

@[simp] theorem Chan.stir_seen (c : Chan) (o o' : Nat) : (c.stir o).seen o' = c.seen o' := by simp [Chan.seen]

@[simp] theorem Chan.stir_mayWrite (c : Chan) (p : Party) (o o' : Nat) : (c.stir o).mayWrite p o' = c.mayWrite p o' := by
  cases p <;> simp [Chan.mayWrite]

/-- With no access held, none is carried out after. -/
theorem Chan.serveHeld_of_none (c : Chan) (dv : Dev) (h : c.pw.held = []) : c.serveHeld dv = c := by
  have hpw : ({ c with pw := { c.pw with held := [] } } : Chan) = c := by rw [← h]
  rw [Chan.serveHeld, h, Chan.serveAll, hpw, ite_self]

/-- An access that is served with none held before it and none after. -/
theorem Chan.access_served {c b : Chan} {dv : Dev} {a : HeldAcc} (hs : c.served a.off = true)
    (hdo : (c.stir a.off).doAccess dv a = b) (hnone : b.pw.held = []) : c.access dv a = b := by
  rw [Chan.access, hs, hdo]
  exact b.serveHeld_of_none dv hnone

/-- An access that waits is held, and wakes a sleeping channel. -/
theorem Chan.access_held (c : Chan) (dv : Dev) (a : HeldAcc) (hs : c.served a.off = false) : c.access dv a = c.hold a := by
  rw [Chan.access, hs]
  rfl

theorem Chan.hold_pw (c : Chan) (a : HeldAcc) :
    (c.hold a).regs = c.regs ∧ (c.asleep = true → (c.hold a).pw.wake = true) ∧ (c.hold a).pw.held = c.pw.held ++ [a] := by
  rw [Chan.hold]
  cases hsleep : c.asleep with
  | true => exact ⟨rfl, fun _ => rfl, rfl⟩
  | false => exact ⟨rfl, fun h => absurd h (by decide), rfl⟩

/-! ## The commands -/

theorem registerWrite_gives {s : State} {fn : FnId} {k : Ch} {p : Party} {off : BitVec 20} {sz : AccSize} (w : Word) {o lo hi : Nat}
    (hfn : fn.val = k.val + 1) (hspan : accSpan off.toNat sz = some (o, lo, hi)) (hreach : reaches p o = true) :
    Gives (.registerWrite fn p off sz w) s k
      ((s.chan k.val).access s.dev { party := p, off := o, lo := lo, hi := hi, w := some (accData lo w) }) := by
  have hexec : exec (.registerWrite fn p off sz w) s = execRegisterWrite fn p off sz w s := rfl
  rw [Gives, hexec, execRegisterWrite, hspan]
  simp [hfn, hreach, onCh]

theorem registerReadClear_gives {s : State} {fn : FnId} {k : Ch} {p : Party} {off : BitVec 20} {sz : AccSize} {o lo hi : Nat}
    (hfn : fn.val = k.val + 1) (hspan : accSpan off.toNat sz = some (o, lo, hi)) (hreach : reaches p o = true) :
    Gives (.registerReadClear fn p off sz) s k
      ((s.chan k.val).access s.dev { party := p, off := o, lo := lo, hi := hi, w := none }) := by
  have hexec : exec (.registerReadClear fn p off sz) s = execRegisterReadClear fn p off sz s := rfl
  rw [Gives, hexec, execRegisterReadClear]
  simp [hfn, hspan, hreach, onCh]

/-! ## Writes -/

theorem Chan.wrFields_of_regAt (c : Chan) {o : Nat} {d : RegDesc} {i : Nat} (w : Word) (lo hi : Nat)
    (hreg : regAt chanRegTable o = some (d, i)) :
    c.wrFields o w lo hi = c.wr o (mergeFields d.name i (c.rd o) w lo hi d.fields) := by
  rw [Chan.wrFields, hreg]

/-- A register of the table lies below the MSI-X table. -/
theorem not_msix_of_regAt {o : Nat} {d : RegDesc} {i : Nat} (hreg : regAt chanRegTable o = some (d, i)) : ¬ 0xE0000 ≤ o := by
  obtain ⟨hmem, hoff, hi⟩ := regAt_some hreg
  obtain ⟨-, hend, -⟩ := chanRegTable_rows d hmem
  have := Nat.mul_le_mul_left d.stride hi
  omega

/-- A register without a meaning of its own takes a write field by field. -/
theorem Chan.chanWrite_of_plain (c : Chan) (dv : Dev) (p : Party) {o : Nat} {d : RegDesc} {i : Nat} (w : Word) (lo hi : Nat)
    (hreg : regAt chanRegTable o = some (d, i)) (hplain : d.name ∉ ownWrites) : c.chanWrite dv p o w lo hi = c.wrFields o w lo hi := by
  obtain ⟨name, base, stride, count, fields⟩ := d
  simp only [Chan.chanWrite, if_neg (not_msix_of_regAt hreg), hreg]
  revert hplain
  cases name <;> simp [ownWrites]

theorem Chan.chanWrite_plane (c : Chan) (dv : Dev) (p : Party) {o : Nat} {d : RegDesc} {i : Nat} (w : Word) (lo hi : Nat)
    (hreg : regAt chanRegTable o = some (d, i)) (hname : d.name = .chPlane) :
    c.chanWrite dv p o w lo hi = (c.keepSeen o).wrFields o w lo hi := by
  simp only [Chan.chanWrite, if_neg (not_msix_of_regAt hreg), hreg, hname]

theorem Chan.doAccess_write (c : Chan) (dv : Dev) (p : Party) (o : Nat) (w : Word) (lo hi : Nat) (hmay : c.mayWrite p o = true) :
    c.doAccess dv { party := p, off := o, lo := lo, hi := hi, w := some w } = c.chanWrite dv p o w lo hi := by
  simp [Chan.doAccess, hmay]

theorem Chan.plane_off {o : Nat} {d : RegDesc} {i : Nat} (hreg : regAt chanRegTable o = some (d, i)) (hname : d.name = .chPlane) :
    o = 0x118 := by
  obtain ⟨hmem, hoff, -⟩ := regAt_some hreg
  obtain ⟨-, -, hplane⟩ := chanRegTable_rows d hmem
  obtain ⟨hbase, hstride⟩ := hplane hname
  rw [hoff, hbase, hstride, Nat.zero_mul]

/-- The units act on the word before a write for the rest of its XCLK, and on the new one from the next (R68). -/
theorem Chan.seen_keepSeen_wr (c : Chan) (o : Nat) (w : Word) (n : Nat) :
    ({ (c.keepSeen o).wr o w with xclk := n } : Chan).seen o = if c.xclk = n then c.seen o else w := by
  have hrd : ({ (c.keepSeen o).wr o w with xclk := n } : Chan).rd o = w := by
    have := (c.keepSeen o).wr_rd o o w
    rwa [if_pos rfl] at this
  rw [Chan.seen, hrd]
  simp [Chan.keepSeen, Chan.wr, tblFind_ins]

/-! ## Reads -/

theorem Chan.readEffect_onlyCounts (c : Chan) (o : Nat) : c.OnlyCounts (c.readEffect o) := by
  rw [Chan.readEffect]
  split
  · exact c.onlyCounts_hwtRead
  · exact .same c

/-- A read leaves the register that it reads to the clearing of its RC fields: CH_HWTDATA counts elsewhere. -/
theorem Chan.readEffect_rd (c : Chan) (o : Nat) : (c.readEffect o).rd o = c.rd o := by
  by_cases ho : o = 0x198
  · exact (c.readEffect_onlyCounts o).rd o (by subst ho; decide)
  · rw [Chan.readEffect, if_neg ho]

theorem Chan.readClear_of_regAt (c : Chan) {o : Nat} {d : RegDesc} {i : Nat} (lo hi : Nat) (hreg : regAt chanRegTable o = some (d, i)) :
    c.readClear o lo hi = c.wr o (clearRead d.name i (c.rd o) lo hi d.fields) := by
  rw [Chan.readClear, hreg]

theorem Chan.doAccess_read (c : Chan) (dv : Dev) (p : Party) (o lo hi : Nat) (hmay : c.mayWrite p o = true) :
    c.doAccess dv { party := p, off := o, lo := lo, hi := hi, w := none } =
      ({ c.readEffect o with readData := BitVec.ofNat 64 (wbits (c.readReg dv o) lo (hi - lo)) } : Chan).readClear o lo hi := by
  simp [Chan.doAccess, Chan.doRead, hmay]

end Sys2Proof.Machine
end

section
/-! The registers of a channel: what an access gives in each of its outcomes, and the obligation put together from them. -/

namespace Sys2Proof.Machine

section

variable {c : Chan} {dv : Dev} {p : Party} {o lo hi : Nat} {w : Word} {d : RegDesc} {i : Nat}

theorem Chan.access_write_plain (hreg : regAt chanRegTable o = some (d, i)) (hheld : c.pw.held = []) (hs : c.served o = true)
    (hmay : c.mayWrite p o = true) (hplain : d.name ∉ ownWrites) :
    c.access dv { party := p, off := o, lo := lo, hi := hi, w := some w } =
      (c.stir o).wr o (mergeFields d.name i (c.rd o) w lo hi d.fields) := by
  refine Chan.access_served hs ?_ ((c.stir_held o).trans hheld)
  rw [Chan.doAccess_write _ _ _ _ _ _ _ (by simpa using hmay), Chan.chanWrite_of_plain _ _ _ _ _ _ hreg hplain,
    Chan.wrFields_of_regAt _ _ _ _ hreg, Chan.stir_rd]

theorem Chan.access_write_plane (hreg : regAt chanRegTable o = some (d, i)) (hheld : c.pw.held = []) (hs : c.served o = true)
    (hmay : c.mayWrite p o = true) (hname : d.name = .chPlane) :
    c.access dv { party := p, off := o, lo := lo, hi := hi, w := some w } =
      ((c.stir o).keepSeen o).wr o (mergeFields d.name i (((c.stir o).keepSeen o).rd o) w lo hi d.fields) := by
  refine Chan.access_served hs ?_ ((c.stir_held o).trans hheld)
  rw [Chan.doAccess_write _ _ _ _ _ _ _ (by simpa using hmay), Chan.chanWrite_plane _ _ _ _ _ _ hreg hname,
    Chan.wrFields_of_regAt _ _ _ _ hreg]

/-- The device number of CH_PLANE acts from the next XCLK (R68). -/
theorem Chan.access_write_plane_devNo {b : Chan} (hreg : regAt chanRegTable o = some (d, i)) (hheld : c.pw.held = [])
    (hs : c.served o = true) (hmay : c.mayWrite p o = true) (hname : d.name = .chPlane)
    (hb : b = c.access dv { party := p, off := o, lo := lo, hi := hi, w := some w }) :
    b.devNo = c.devNo ∧ ∀ n, n ≠ c.xclk → ({ b with xclk := n } : Chan).devNo = b.fld F.chPlaneDev := by
  rw [Chan.access_write_plane hreg hheld hs hmay hname] at hb
  obtain rfl : o = 0x118 := Chan.plane_off hreg hname
  generalize mergeFields d.name i (((c.stir 0x118).keepSeen 0x118).rd 0x118) w lo hi d.fields = v at hb
  have hseen : ∀ n, ({ b with xclk := n } : Chan).seen 0x118 = if c.xclk = n then c.seen 0x118 else v := by
    intro n
    rw [hb, Chan.seen_keepSeen_wr, Chan.stir_xclk, Chan.stir_seen]
  have hrd : b.rd 0x118 = v := by rw [hb, Chan.wr_rd, if_pos rfl]
  have hxclk : b.xclk = c.xclk := by rw [hb]; exact c.stir_xclk 0x118
  constructor
  · have hnow := hseen c.xclk
    rw [if_pos rfl, ← hxclk] at hnow
    exact congrArg (wbits · 0 16) hnow
  · intro n hn
    have hnext := hseen n
    rw [if_neg (Ne.symm hn), ← hrd] at hnext
    exact congrArg (wbits · 0 16) hnext

theorem Chan.access_read (hreg : regAt chanRegTable o = some (d, i)) (hheld : c.pw.held = []) (hs : c.served o = true)
    (hmay : c.mayWrite p o = true) :
    c.access dv { party := p, off := o, lo := lo, hi := hi, w := none } =
      ({ (c.stir o).readEffect o with readData := BitVec.ofNat 64 (wbits ((c.stir o).readReg dv o) lo (hi - lo)) } : Chan).wr o
        (clearRead d.name i (c.rd o) lo hi d.fields) := by
  have hrd : ∀ v, ({ (c.stir o).readEffect o with readData := v } : Chan).rd o = c.rd o := fun _ =>
    ((c.stir o).readEffect_rd o).trans (c.stir_rd o o)
  have hnone : ((c.stir o).readEffect o).pw.held = [] := by
    rw [((c.stir o).readEffect_onlyCounts o).pw, Chan.stir_held, hheld]
  refine Chan.access_served hs ?_ hnone
  rw [Chan.doAccess_read _ _ _ _ _ _ (by simpa using hmay), Chan.readClear_of_regAt _ _ _ hreg, hrd]

/-- Host software reads 0 while READY is 0 (R605). -/
theorem Chan.access_read_kept_out (hheld : c.pw.held = []) (hs : c.served o = true) (hmay : c.mayWrite p o = false) :
    c.access dv { party := p, off := o, lo := lo, hi := hi, w := none } = { c.stir o with readData := 0 } :=
  Chan.access_served hs (by simp [Chan.doAccess, Chan.doRead, hmay]) ((c.stir_held o).trans hheld)

/-- Host software writes nothing while READY is 0 (R605). -/
theorem Chan.access_write_kept_out (hheld : c.pw.held = []) (hs : c.served o = true) (hmay : c.mayWrite p o = false) :
    c.access dv { party := p, off := o, lo := lo, hi := hi, w := some w } = c.stir o :=
  Chan.access_served hs (by simp [Chan.doAccess, hmay]) ((c.stir_held o).trans hheld)

end

/-- Settles O50: an access is carried out at once, kept out, or held; a word is written and cleared field by field. -/
theorem registerAccesses : Obligations.RegisterAccesses := by
  intro s fn k c p off sz w o lo hi i d hfn hc hspan hreach hreg hheld
  subst hc
  obtain ⟨hmem, -, -⟩ := regAt_some hreg
  obtain ⟨hfit, -, -⟩ := chanRegTable_rows d hmem
  have hwrite := registerWrite_gives (s := s) w hfn hspan hreach
  have hread := registerReadClear_gives (s := s) hfn hspan hreach
  refine ⟨fun hs hmay => ⟨fun hplain => ?_, ?_, fun hname => ?_⟩, fun hs hmay => ⟨?_, ?_⟩, fun hs => ?_⟩
  · rw [Chan.access_write_plain hreg hheld hs hmay hplain] at hwrite
    refine ⟨_, hwrite, fun f hf => ?_, fun o' ho' => ?_, rfl⟩
    · rw [Chan.wr_rd, if_pos rfl]
      exact wbits_mergeFields _ _ _ _ _ _ hfit hf
    · rw [Chan.wr_rd, if_neg ho', Chan.stir_rd]
  · rw [Chan.access_read hreg hheld hs hmay] at hread
    refine ⟨_, hread, rfl, fun f hf => ?_, fun hnohwt o' ho' => ?_, rfl⟩
    · rw [Chan.wr_rd, if_pos rfl]
      exact wbits_clearRead _ _ _ _ _ hfit hf
    · rw [Chan.wr_rd, if_neg ho', Chan.readEffect, if_neg hnohwt]
      exact (s.chan k.val).stir_rd o o'
  · exact ⟨_, hwrite, Chan.access_write_plane_devNo hreg hheld hs hmay hname rfl⟩
  · rwa [Chan.access_read_kept_out hheld hs hmay] at hread
  · rwa [Chan.access_write_kept_out hheld hs hmay] at hwrite
  · rw [Chan.access_held _ _ _ hs] at hwrite
    obtain ⟨hregs, hwake, hheld'⟩ := (s.chan k.val).hold_pw { party := p, off := o, lo := lo, hi := hi, w := some (accData lo w) }
    exact ⟨_, hwrite, hregs, hwake, hheld'.trans (by rw [hheld]; rfl)⟩

end Sys2Proof.Machine
end

section
/-! What a command can change (R14): one for a channel changes that channel only, one of the device blocks leaves the commands behind it. -/

namespace Sys2Proof.Machine

/-- An outcome leaves the queue of s, and of a command for channel ch the device blocks and every other channel. -/
def Confined (ch : Option Ch) (s : State) (o : Host.Outcome State Fault Refusal) : Prop :=
  ∀ t, o = .next t → t.pending = s.pending ∧ ∀ k, ch = some k → t.dev = s.dev ∧ ∀ j, j ≠ k.val → t.chan j = s.chan j

theorem confined_fault (ch : Option Ch) (s : State) (e : Fault) : Confined ch s (.fault e) := by
  intro t h
  cases h

theorem confined_self (ch : Option Ch) (s : State) : Confined ch s (.next s) := by
  rintro t ⟨⟩
  exact ⟨rfl, fun _ _ => ⟨rfl, fun _ _ => rfl⟩⟩

/-- A command that is for no one channel has to leave the queue only. -/
theorem confined_none {s t : State} (h : t.pending = s.pending) : Confined none s (.next t) := by
  rintro u ⟨⟩
  exact ⟨h, nofun⟩

theorem confined_setChan (k : Ch) (s : State) (c : Chan) : Confined (some k) s (.next (s.setChan k.val c)) := by
  rintro t ⟨⟩
  refine ⟨rfl, ?_⟩
  rintro _ ⟨⟩
  exact ⟨rfl, fun j hj => s.setChan_chan_ne _ hj⟩

theorem confined_dev (s : State) (d : Dev) : Confined none s (.next { s with dev := d }) := confined_none rfl

/-- A command may fault where its operands are malformed. -/
theorem confined_unless {ch : Option Ch} {s : State} {bad : Bool} {o : Host.Outcome State Fault Refusal} (h : Confined ch s o) :
    Confined ch s (if bad then .fault .illFormed else o) := by
  cases bad
  · exact h
  · exact confined_fault ch s _

/-! ## What leaves the queue -/

theorem State.pending_of_clock {s t : State} (h : t.clock = s.clock) : t.pending = s.pending := congrArg Prod.snd h

@[simp] theorem State.dev_pending (s : State) (d : Dev) : ({ s with dev := d } : State).pending = s.pending := rfl

@[simp] theorem State.eachChan_pending (s : State) (f : Nat → Chan → Chan) : (s.eachChan f).pending = s.pending :=
  State.pending_of_clock (s.eachChan_clock f)

@[simp] theorem State.bootOn_pending (s : State) (b : BootInfo) (m7 : Digest) : (s.bootOn b m7).pending = s.pending :=
  State.pending_of_clock (s.bootOn_clock b m7)

@[simp] theorem State.upWork_pending (s : State) : s.upWork.pending = s.pending := State.pending_of_clock s.upWork_clock

@[simp] theorem State.gather_pending (s : State) : s.gather.pending = s.pending := by
  refine foldl_leaves State.pending _ (fun s e => ?_) _ s
  simp only []
  split <;> rfl

@[simp] theorem State.showMargin_pending (s : State) : s.showMargin.pending = s.pending := by
  simp only [State.showMargin]
  split <;> rfl

@[simp] theorem State.activate_pending (s : State) : s.activate.pending = s.pending := State.upWork_pending _

@[simp] theorem State.upCmd_pending (s : State) (cmd : Nat) (img : ImgInfo) : (s.upCmd cmd img).pending = s.pending := by
  simp only [State.upCmd]
  split
  case h_1 => rfl
  case h_2 =>
    split_ifs
    · rfl
    · rfl
    · split <;> rfl
  case h_3 =>
    split_ifs
    · rfl
    · rfl
    · exact s.activate_pending
  case h_4 => split <;> rfl
  case h_5 => rfl

@[simp] theorem State.upCtlWrite_pending (s : State) (p : Party) (w : Word) (lo hi : Nat) (img : ImgInfo) :
    (s.upCtlWrite p w lo hi img).pending = s.pending := by
  simp only [State.upCtlWrite]
  split_ifs <;> simp

@[simp] theorem State.devWrite_pending (s : State) (p : Party) (off : Nat) (w : Word) (lo hi : Nat) :
    (s.devWrite p off w lo hi).pending = s.pending := by
  simp only [State.devWrite]
  split
  · rfl
  split
  · rfl
  split
  · rfl
  split
  case h_3 => split <;> rfl
  case h_4 => exact s.upCtlWrite_pending ..
  all_goals rfl

/-! ## The commands of the device blocks -/

theorem execHourly_confined (h : HourInfo) (s : State) : Confined none s (execHourly h s) := by
  refine confined_unless ?_
  split
  · exact confined_self none s
  · apply confined_none
    rw [State.showMargin_pending, State.dev_pending]
    refine Eq.trans (foldl_leaves (fun x : List Byte × State => x.2.pending) _ (fun x k => ?_) _ _) (s.dev_pending _)
    exact x.2.setChan_pending _ _

theorem execLedgerRecordWrite_confined (ok : Bool) (s : State) : Confined none s (execLedgerRecordWrite ok s) := by
  simp only [execLedgerRecordWrite]
  split
  · exact confined_self none s
  · exact confined_none (s.gather.showMargin_pending.trans s.gather_pending)

theorem execAgeAdjustment_confined (k : Ch) (s : State) : Confined none s (execAgeAdjustment k s) := by
  simp only [execAgeAdjustment]
  split_ifs
  · exact confined_self none s
  · exact confined_self none s
  · exact confined_none (State.showMargin_pending _)

/-- The limiter changes its own state and the point of one channel (R600). -/
theorem execPowerLimiter_confined (watts : Nat) (s : State) : Confined none s (execPowerLimiter watts s) := by
  simp only [execPowerLimiter]
  split
  · split <;> exact confined_none rfl
  split
  · exact confined_none rfl
  split
  · exact confined_none rfl
  split <;> exact confined_none rfl

theorem execThermalSample_confined (temps : List (BitVec 16)) (s : State) : Confined none s (execThermalSample temps s) := by
  refine confined_unless ?_
  simp only []
  split <;> exact confined_none (by simp)

theorem execPorN_confined (b : BootInfo) (s : State) : Confined none s (execPorN b s) := by
  refine confined_unless ?_
  simp only []
  split
  · exact confined_none (State.eachChan_pending _ _)
  · exact confined_none (State.bootOn_pending _ _ _)

theorem execHandOverTimeout_confined (k : Ch) (s : State) : Confined none s (execHandOverTimeout k s) := by
  simp only [execHandOverTimeout]
  split
  · exact confined_none (State.upWork_pending _)
  · split <;> exact confined_none (State.upWork_pending _)

/-! ## The commands for a function or an event controller -/

theorem execDoorbellMessage_confined (x : EvCtl) (s : State) : Confined (channelOf (.doorbellMessage x)) s (execDoorbellMessage x s) := by
  cases x with
  | chan k => exact confined_setChan k s _
  | dev =>
    simp only [execDoorbellMessage]
    split
    · exact confined_self none s
    · split
      · exact confined_none rfl
      · split
        · exact confined_self none s
        · exact confined_none rfl

/-- A function is PF0, of the device blocks, or that of a channel (R14). -/
theorem fnChannel_confined {fn : FnId} {s : State} {o : fn.val = 0 → Host.Outcome State Fault Refusal} {f : Dev → Chan → Chan}
    (h : ∀ h0, Confined none s (o h0)) :
    Confined (fnChannel fn) s (if h : fn.val = 0 then o h else onCh ⟨fn.val - 1, by omega⟩ s f) := by
  rw [fnChannel]
  split
  case isTrue h0 => exact h h0
  case isFalse => exact confined_setChan _ s _

theorem execRegisterReadClear_confined (fn : FnId) (p : Party) (off : BitVec 20) (sz : AccSize) (s : State) :
    Confined (fnChannel fn) s (execRegisterReadClear fn p off sz s) := by
  refine fnChannel_confined fun _ => ?_
  split
  · exact confined_self none s
  · split <;> exact confined_none rfl

theorem execRegisterWrite_confined (fn : FnId) (p : Party) (off : BitVec 20) (sz : AccSize) (w : Word) (s : State) :
    Confined (fnChannel fn) s (execRegisterWrite fn p off sz w s) := by
  simp only [execRegisterWrite]
  split
  · exact confined_self _ s
  · refine fnChannel_confined fun _ => ?_
    split
    · exact confined_self none s
    · exact confined_none (s.devWrite_pending ..)

/-! ## Every command -/

/-- No command reaches further than channelOf says. Most set one channel, or the device blocks alone; the others have lemmas of their own. -/
theorem exec_confined (c : Instr) (s : State) : Confined (channelOf c) s (exec c s) := by
  cases c with
  | copyPartComplete | dataFrameReceive | redataFrameReceive => exact confined_unless (confined_setChan _ s _)
  | doorbellMessage x => exact execDoorbellMessage_confined x s
  | eventSelection x | deliveryLanding x =>
    cases x with
    | chan k => exact confined_setChan k s _
    | dev => exact confined_dev s _
  | moderationHoldExpiry x | evSrcClear x =>
    refine confined_unless ?_
    cases x with
    | chan k => exact confined_setChan k s _
    | dev => exact confined_dev s _
  | msixMaskClear => exact confined_unless (fnChannel_confined fun _ => confined_dev s _)
  | functionLevelReset => exact fnChannel_confined fun _ => confined_dev s _
  | registerReadClear fn p off sz => exact execRegisterReadClear_confined fn p off sz s
  | registerWrite fn p off sz w => exact execRegisterWrite_confined fn p off sz w s
  | deDoorbellWrite | gpioEdge | clk32kLoss | clk32kRestore | railAlarm | perstNRelease | trstN | agingMeasurement | sectorReclaim
  | mlLselWrite | getVersion | getCapabilities | negotiateAlgorithms | getDigests | getCertificate | challenge | getMeasurements =>
    exact confined_dev s _
  | mctpRegisterRead => exact confined_none rfl
  | stage | commit | activate | updateAbort => exact confined_none (s.upCtlWrite_pending ..)
  | perstN => exact confined_none (State.eachChan_pending _ _)
  | porN b => exact execPorN_confined b s
  | powerLimiter watts => exact execPowerLimiter_confined watts s
  | thermalSample temps => exact execThermalSample_confined temps s
  | ageAdjustment k => exact execAgeAdjustment_confined k s
  | hourly h => exact execHourly_confined h s
  | ledgerRecordWrite ok => exact execLedgerRecordWrite_confined ok s
  | handOverTimeout k => exact execHandOverTimeout_confined k s
  | _ => exact confined_setChan _ s _

/-- Settles O59, by the case split of `exec_confined`. -/
theorem channelsAreApart : Obligations.ChannelsAreApart := exec_confined

end Sys2Proof.Machine
end

section
/-! The records of contexts: what an operation leaves of the lives of contexts, and of the packets that have arrived at the units. -/

namespace Sys2Proof.Machine

/-! ## A record after a change of one (R54, R56) -/

/-- A record that comes into the cache leaves the channel but for the cache and the writes under way. -/
theorem Chan.cacheTouch_eq (c : Chan) (id : Nat) (dirty : Bool) :
    ∃ l q, c.cacheTouch id dirty = { c with cu := { c.cu with cached := l }, dm := { c.dm with inq := q } } := by
  simp only [Chan.cacheTouch]
  split
  · exact ⟨_, c.dm.inq, rfl⟩
  · split
    · split
      · exact ⟨c.cu.cached, _, rfl⟩
      · exact ⟨c.cu.cached, c.dm.inq, rfl⟩
    · split
      · split
        · exact ⟨_, _, rfl⟩
        · exact ⟨_, c.dm.inq, rfl⟩
      · exact ⟨_, c.dm.inq, rfl⟩

theorem Chan.cacheTouch_cu (c : Chan) (id : Nat) (dirty : Bool) : ∃ l, (c.cacheTouch id dirty).cu = { c.cu with cached := l } := by
  obtain ⟨l, q, hq⟩ := c.cacheTouch_eq id dirty
  exact ⟨l, by rw [hq]⟩

@[simp] theorem Chan.cacheTouch_ctx (c : Chan) (id : Nat) (dirty : Bool) (j : Nat) : (c.cacheTouch id dirty).ctx j = c.ctx j := by
  obtain ⟨l, hl⟩ := c.cacheTouch_cu id dirty
  simp only [Chan.ctx, hl]

@[simp] theorem Chan.cacheTouch_net (c : Chan) (id : Nat) (dirty : Bool) : (c.cacheTouch id dirty).net = c.net := by
  obtain ⟨l, q, hq⟩ := c.cacheTouch_eq id dirty
  rw [hq]

/-- A record after a change of one: the changed one at its identifier, the old one at every other. -/
theorem Chan.ctxUpd_ctx (c : Chan) (id : Nat) (f : Ctx → Ctx) (j : Nat) :
    (c.ctxUpd id f).ctx j = if j = id then f (c.ctx id) else c.ctx j := by
  rw [Chan.ctxUpd, Chan.cacheTouch_ctx, Chan.setCtx_ctx]

@[simp] theorem Chan.ctxUpd_ctx_same (c : Chan) (id : Nat) (f : Ctx → Ctx) : (c.ctxUpd id f).ctx id = f (c.ctx id) := by
  rw [Chan.ctxUpd_ctx, if_pos rfl]

@[simp] theorem Chan.ctxUpd_net (c : Chan) (id : Nat) (f : Ctx → Ctx) : (c.ctxUpd id f).net = c.net := Chan.cacheTouch_net _ _ _

/-- A change of a record changes the table and the cache, of the context unit. -/
theorem Chan.ctxUpd_cu (c : Chan) (id : Nat) (f : Ctx → Ctx) : ∃ t l, (c.ctxUpd id f).cu = { c.cu with tbl := t, cached := l } := by
  obtain ⟨l, hl⟩ := (c.setCtx id (f (c.ctx id))).cacheTouch_cu id true
  exact ⟨_, l, hl⟩

/-! ## Where the table and the free list lie (R50, R403) -/

section

variable {c d : Chan} (h : c.OnlyCounts d)

include h

theorem Chan.OnlyCounts.fld {g : Fd} (hg : g.off ∉ countRegs) : d.fld g = c.fld g := by rw [Chan.fld, h.rd _ hg, Chan.fld]

theorem Chan.OnlyCounts.ctxLimit : d.ctxLimit = c.ctxLimit := by rw [Chan.ctxLimit, h.fld (by decide), Chan.ctxLimit]

theorem Chan.OnlyCounts.ctxAddr (id : Nat) : d.ctxAddr id = c.ctxAddr id := by rw [Chan.ctxAddr, h.fld (by decide), Chan.ctxAddr]

theorem Chan.OnlyCounts.freeAddr (slot : Nat) : d.freeAddr slot = c.freeAddr slot := by
  rw [Chan.freeAddr, h.ctxLimit, h.ctxAddr, Chan.freeAddr]

theorem Chan.OnlyCounts.freeSlots : d.freeSlots = c.freeSlots := by rw [Chan.freeSlots, h.ctxLimit, Chan.freeSlots]

end

/-! ## Operations that leave the context unit and the network -/

/-- The context unit and the network. -/
def Chan.units (c : Chan) : CtxUnit × Net := (c.cu, c.net)

theorem Chan.units_eq {c d : Chan} : d.units = c.units ↔ d.cu = c.cu ∧ d.net = c.net := by simp only [Chan.units, Prod.mk.injEq]

theorem Chan.sameUnits {c d : Chan} (hcu : d.cu = c.cu) (hnet : d.net = c.net) : d.units = c.units := Chan.units_eq.2 ⟨hcu, hnet⟩

@[simp] theorem Chan.setPoison_units (c : Chan) (a : Nat) (p : Bool) : (c.setPoison a p).units = c.units := Chan.sameUnits rfl rfl

@[simp] theorem Chan.inc_units (c : Chan) (f : Fd) : (c.inc f).units = c.units := Chan.sameUnits rfl rfl

@[simp] theorem Chan.setFld_units (c : Chan) (f : Fd) (v : Nat) : (c.setFld f v).units = c.units := Chan.sameUnits rfl rfl

@[simp] theorem Chan.raise_units (c : Chan) (src n tile : Nat) (tag : Option Nat) : (c.raise src n tile tag).units = c.units :=
  Chan.sameUnits rfl rfl

@[simp] theorem Chan.setTile_units (c : Chan) (t : Nat) (x : TileSt) : (c.setTile t x).units = c.units := Chan.sameUnits rfl rfl

@[simp] theorem Chan.dmTouch_units (c : Chan) : c.dmTouch.units = c.units := Chan.sameUnits rfl rfl

@[simp] theorem Chan.storeCheck_units (c : Chan) (e : Nat × Bool) : (c.storeCheck e).units = c.units := by
  simp only [Chan.storeCheck]
  split <;> exact Chan.sameUnits rfl rfl

@[simp] theorem Chan.checkUse_units (c : Chan) (a : Nat) (wr : Bool) : (c.checkUse a wr).units = c.units :=
  (Chan.sameUnits rfl rfl).trans (foldl_leaves Chan.units _ (fun c e => c.storeCheck_units e) _ c)

@[simp] theorem Chan.bufLine_units (c : Chan) (l : Nat) : (c.bufLine l).units = c.units := by
  simp only [Chan.bufLine]
  split <;> exact Chan.sameUnits rfl rfl

@[simp] theorem Chan.dmWrote_units (c : Chan) (a n : Nat) : (c.dmWrote a n).units = c.units :=
  foldl_leaves Chan.units _ (fun c l => by simp) _ c

@[simp] theorem Chan.wrWords_units (ws : List Word) : ∀ (c : Chan) (a : Nat), (c.wrWords a ws).units = c.units := by
  induction ws with
  | nil => exact fun _ _ => rfl
  | cons w r ih => exact fun c a => (ih (c.wrWord a w) (a + 8)).trans (Chan.sameUnits rfl rfl)

@[simp] theorem Chan.ctxOver_units (c : Chan) (id : Nat) : (c.ctxOver id).units = c.units := by simp [Chan.ctxOver]

@[simp] theorem Chan.dmUncorr_units (c : Chan) (a : Nat) : (c.dmUncorr a).units = c.units := by
  have hpoison : ∀ line : Nat, ((List.range 8).foldl (fun c i => c.setPoison (line + 8 * i) true) c).units = c.units := fun line =>
    foldl_leaves Chan.units _ (fun c i => c.setPoison_units _ _) _ c
  simp only [Chan.dmUncorr, Chan.raise_units, Chan.checkUse_units]
  split <;> simp [hpoison]

@[simp] theorem Chan.rowCandidate_units (c : Chan) (r : RowId) : (c.rowCandidate r).units = c.units := by
  simp only [Chan.rowCandidate]
  split <;> exact Chan.sameUnits rfl rfl

@[simp] theorem Chan.setMap_units (c : Chan) (b : Nat) : (c.setMap b).units = c.units :=
  (Chan.dmWrote_units _ _ _).trans (Chan.sameUnits rfl rfl)

@[simp] theorem Chan.dropKey_units (c : Chan) (t e : Nat) : (c.dropKey t e).units = c.units := by
  simp only [Chan.dropKey]
  split
  · rfl
  · split <;> exact Chan.sameUnits rfl rfl

@[simp] theorem Chan.stopEvictOf_units (c : Chan) (t e : Nat) (x : MEntry) : (c.stopEvictOf t e x).units = c.units := by
  simp only [Chan.stopEvictOf]
  split
  · split <;> exact Chan.sameUnits rfl rfl
  · rfl

@[simp] theorem Chan.qMark_units (c : Chan) (q : Nat) : (c.qMark q).units = c.units := by
  simp only [Chan.qMark]
  split <;> exact Chan.sameUnits rfl rfl

@[simp] theorem Chan.qPush_units (c : Chan) (q : Nat) (w : BitVec 144) : (c.qPush q w).units = c.units := by
  simp only [Chan.qPush, Chan.qMark_units]
  split <;> exact Chan.sameUnits rfl rfl

@[simp] theorem Chan.qRelease_units (c : Chan) (q n : Nat) : (c.qRelease q n).units = c.units :=
  (Chan.qMark_units _ _).trans (Chan.sameUnits rfl rfl)

@[simp] theorem Chan.skipPositions_units (c : Chan) (id : Nat) : (c.skipPositions id).units = c.units := by
  refine foldl_leaves Chan.units _ (fun c e => foldl_leaves Chan.units _ (fun c i => ?_) _ c) _ c
  simp only []
  split <;> exact Chan.sameUnits rfl rfl

/-! ## The lives of contexts -/

/-- What a record tells of its context's life (R62, R65, R66): STATE, the XCLK in which it left LIVE, whether a sweep pass has served it. -/
def Ctx.life (x : Ctx) : CtxSt × Nat × Bool := (x.st, x.diedAt, x.swept)

theorem Ctx.life_eq {x y : Ctx} : x.life = y.life ↔ x.st = y.st ∧ x.diedAt = y.diedAt ∧ x.swept = y.swept := by
  simp [Ctx.life, Prod.mk.injEq]

/-- Contexts in a state of K keep their lives, and the arrival registers of the units their packets. -/
structure Chan.Spares (K : CtxSt → Prop) (c d : Chan) : Prop where
  lives : ∀ j, K (c.ctx j).st → (d.ctx j).life = (c.ctx j).life
  arrive : d.net.arrive = c.net.arrive

/-- Every context keeps its life. -/
abbrev everyState (_ : CtxSt) : Prop := True

section

variable {K : CtxSt → Prop} {c d e : Chan}

theorem Chan.Spares.same (c : Chan) : c.Spares K c := ⟨fun _ _ => rfl, rfl⟩

theorem Chan.Spares.st (h : c.Spares K d) {j : Nat} (hk : K (c.ctx j).st) : (d.ctx j).st = (c.ctx j).st :=
  (Ctx.life_eq.1 (h.lives j hk)).1

theorem Chan.Spares.andThen (h : c.Spares K d) (k : d.Spares K e) : c.Spares K e :=
  ⟨fun j hj => (k.lives j (by rwa [h.st hj])).trans (h.lives j hj), k.arrive.trans h.arrive⟩

theorem Chan.Spares.fold {α : Type} (f : Chan → α → Chan) (h : ∀ (c : Chan) (a : α), c.Spares K (f c a)) (l : List α) (c : Chan) :
    c.Spares K (l.foldl f c) :=
  List.foldlRecOn (motive := c.Spares K) l f (.same c) (fun d hd a _ => hd.andThen (h d a))

theorem Chan.Spares.of_parts (htbl : d.cu.tbl = c.cu.tbl) (harr : d.net.arrive = c.net.arrive) : c.Spares K d :=
  ⟨fun j _ => by simp only [Chan.ctx, htbl], harr⟩

theorem Chan.Spares.of_units (h : d.units = c.units) : c.Spares K d := by
  obtain ⟨hcu, hnet⟩ := Chan.units_eq.1 h
  exact .of_parts (by rw [hcu]) (by rw [hnet])

end

section

variable {K : CtxSt → Prop} (c : Chan)

/-- A change of a record that leaves its context's life, if it is to be spared. -/
theorem Chan.spares_ctxUpd (id : Nat) (f : Ctx → Ctx) (h : K (c.ctx id).st → (f (c.ctx id)).life = (c.ctx id).life) :
    c.Spares K (c.ctxUpd id f) where
  lives j hj := by
    rw [Chan.ctxUpd_ctx]
    split
    · next hid => subst hid; exact h hj
    · rfl
  arrive := by rw [Chan.ctxUpd_net]

theorem Chan.spares_orphan (id n : Nat) : c.Spares K (c.orphan id n) := by
  simp only [Chan.orphan]
  split
  · exact .same c
  · exact c.spares_ctxUpd _ _ fun _ => rfl

theorem Chan.spares_cancel (id : Nat) : c.Spares K (c.cancel id) := (c.spares_orphan id 1).andThen (.of_units (Chan.inc_units _ _))

theorem Chan.spares_msSub (id n : Nat) : c.Spares K (c.msSub id n) := c.spares_ctxUpd _ _ fun _ => rfl

theorem Chan.spares_freeKey (t e : Nat) : c.Spares K (c.freeKey t e) := by
  simp only [Chan.freeKey]
  split
  · exact .same c
  · exact (Chan.Spares.of_units (c.dropKey_units t e)).andThen (Chan.spares_msSub _ _ _)

theorem Chan.spares_dropParked (id : Nat) : c.Spares K (c.dropParked id) :=
  (Chan.Spares.of_units (c := c) (d := { c with ms := { c.ms with pool := c.ms.pool.filter (fun p => p.ctx.toNat != id) } }) rfl).andThen
    (.fold _ (fun c _ => (c.spares_freeKey _ _).andThen (Chan.spares_cancel _ _)) _ _)

/-! ## Tokens and status words -/

theorem Chan.spares_inject (tile : Nat) (p : NPkt) : c.Spares K (c.inject tile p) := by
  simp only [Chan.inject, Chan.offerPkt]
  split <;> exact .of_parts rfl rfl

theorem Chan.spares_countEpoch (dev e : Nat) : c.Spares K (c.countEpoch dev e) := by
  simp only [Chan.countEpoch]
  split
  · exact .same c
  · split
    · exact .same c
    · exact .of_units (Chan.inc_units _ _)

theorem Chan.spares_countReach (t : Token) (cause : Nat) : c.Spares K (c.countReach t cause) := by
  simp only [Chan.countReach]
  split
  · exact .of_units (Chan.inc_units _ _)
  · exact (c.spares_countEpoch _ _).andThen (.of_units (Chan.inc_units _ _))

theorem Chan.spares_sendRaw (t : Token) (r : Route) (cls : Bool) (acc : Acc) (tile : Nat) : c.Spares K (c.sendRaw t r cls acc tile) := by
  cases r with
  | home => exact c.spares_inject _ _
  | port p => exact c.spares_inject _ _
  | none => exact .same c

theorem Chan.spares_sendDev (t : Token) : c.Spares K (c.sendDev t) := by
  simp only [Chan.sendDev]
  split
  · exact (c.spares_sendRaw _ _ _ _ _).andThen (Chan.spares_countEpoch _ _ _)
  · exact c.spares_countReach _ _

theorem Chan.spares_raiseNoKill (id cause ip : Nat) (detail : BitVec 32) : c.Spares K (c.raiseNoKill id cause ip detail).1 := by
  have hcount : c.Spares K (c.excCount id) := c.spares_ctxUpd _ _ fun _ => rfl
  simp only [Chan.raiseNoKill]
  split
  · exact .same c
  · split
    · exact hcount.andThen (.of_units (Chan.raise_units _ _ _ _ _))
    · exact hcount.andThen (Chan.spares_sendDev _ _)

theorem Chan.spares_sendStatus (id status ip : Nat) (p : Bool) : c.Spares K (c.sendStatus id status ip p) := by
  simp only [Chan.sendStatus]
  split
  · split
    · exact .of_units (c.qPush_units _ _)
    · exact .of_parts rfl rfl
  · split
    · exact .same c
    · split
      · exact c.spares_sendDev _
      · exact (c.spares_countReach _ _).andThen (Chan.spares_raiseNoKill _ _ _ _ _)

/-! ## Leaving LIVE (R62, R71) -/

/-- The record of a context as it leaves LIVE. -/
def Ctx.leaves (now : Nat) (st : CtxSt) (x : Ctx) : Ctx := { x.turn now st with diedAt := now, swept := false }

/-- What follows the change of its record when a context leaves LIVE ends no other context. -/
theorem Chan.spares_afterLeaving (now id : Nat) (st : CtxSt) : (c.ctxUpd id (Ctx.leaves now st)).Spares K (c.leaveLive now id st) := by
  have hparked : (c.ctxUpd id (Ctx.leaves now st)).Spares K ((c.ctxUpd id (Ctx.leaves now st)).dropParked id) := Chan.spares_dropParked _ _
  simp only [Chan.leaveLive]
  split
  · exact hparked.andThen (.of_parts rfl rfl)
  · split <;> exact hparked.andThen (.of_parts rfl rfl)

theorem Chan.spares_leaveLive (now id : Nat) (st : CtxSt) (h : ¬ K (c.ctx id).st) : c.Spares K (c.leaveLive now id st) :=
  (c.spares_ctxUpd id _ fun hk => absurd hk h).andThen (c.spares_afterLeaving now id st)

/-- A context that has left LIVE in this XCLK, as its record tells. -/
theorem Chan.die_life (now id : Nat) : ((c.die now id).ctx id).life = (.dead, now, false) := by
  have hafter := (c.spares_afterLeaving (K := everyState) now id .dead).andThen (.of_units (Chan.skipPositions_units _ id))
  rw [Chan.die, hafter.lives id trivial, Chan.ctxUpd_ctx_same]
  rfl

theorem Chan.die_arrive (now id : Nat) : (c.die now id).net.arrive = c.net.arrive := by
  have hafter := (c.spares_afterLeaving (K := everyState) now id .dead).andThen (.of_units (Chan.skipPositions_units _ id))
  rw [Chan.die, hafter.arrive, Chan.ctxUpd_net]

theorem Chan.spares_noteEnd (e : Ended) : c.Spares K (c.noteEnd e) := .of_parts rfl rfl

theorem Chan.spares_poisonCtx (now id : Nat) (h : ¬ K .live) : c.Spares K (c.poisonCtx now id) := by
  have hraise : c.Spares K (c.raise 9 (tag := some (2 ^ 16 + id))) := .of_units (Chan.raise_units _ _ _ _ _)
  simp only [Chan.poisonCtx]
  split
  · exact hraise
  · next hlive =>
    have hst : (c.ctx id).st = .live := by simpa [Chan.live] using hlive
    have hends := Chan.spares_leaveLive (K := K) (c.raise 9 (tag := some (2 ^ 16 + id))) now id .poisoned
      (fun hk => h (hst ▸ hk : K .live))
    split
    · exact hraise.andThen (Chan.spares_orphan _ _ _)
    · exact (((hraise.andThen hends).andThen (.of_units (Chan.skipPositions_units _ _))).andThen
        (Chan.spares_sendStatus _ _ _ _ _)).andThen (Chan.spares_noteEnd _ _)

/-! ## Reads of GDDR7 (R397) -/

theorem Chan.spares_lineLost (now a : Nat) (h : ¬ K .live) : c.Spares K (c.lineLost now a) := by
  simp only [Chan.lineLost]
  split
  · split
    · split
      · exact .of_units (c.ctxOver_units _)
      · exact .same c
    · split
      · exact c.spares_poisonCtx _ _ h
      · exact .same c
  · split
    · exact .of_parts rfl rfl
    · exact .same c

variable (now : Nat) {errs : LineErrs} {line : Nat}

/-- A line in error before its loss is felt: poisoned and counted. -/
def Chan.lineBad (c : Chan) (line : Nat) : Chan := (c.dmUncorr line).rowCandidate (c.rowId line)

theorem Chan.dmLine_clean (h : errOf errs line = none) : c.dmLine now errs line = c.checkUse line false := by
  simp only [Chan.dmLine, h]

theorem Chan.dmLine_corrected (h : errOf errs line = some false) :
    c.dmLine now errs line = (c.checkUse line true).inc F.dmEccstatCorr := by
  simp only [Chan.dmLine, h]

theorem Chan.dmLine_bad (h : errOf errs line = some true) : c.dmLine now errs line = (c.lineBad line).lineLost now line := by
  simp only [Chan.dmLine, Chan.lineBad, h]

/-- A line that is read ends a context only where it is uncorrectable, and a LIVE one only. -/
theorem Chan.spares_dmLine (h : errOf errs line = some true → ¬ K .live) : c.Spares K (c.dmLine now errs line) := by
  rcases herr : errOf errs line with _ | _ | _
  · rw [c.dmLine_clean now herr]
    exact .of_units (c.checkUse_units _ _)
  · rw [c.dmLine_corrected now herr]
    exact .of_units (by simp)
  · rw [c.dmLine_bad now herr]
    exact (Chan.Spares.of_units (by simp [Chan.lineBad])).andThen (Chan.spares_lineLost _ _ _ (h herr))

end

end Sys2Proof.Machine
end

section
/-! Commit buffers (R67, R210, R211, R425, R433, R683): the head entry leaves by the way of its kind. -/

namespace Sys2Proof.Machine

/-! ## The head entry -/

/-- The commit buffer of a unit. -/
def Chan.cbOf (c : Chan) : Exe → List CEntry
  | .duet n => (c.duet n.val).cb
  | .caller n => (c.caller n.val).cb

/-- The tile through whose router port a unit's commit buffer drains (R421). -/
def Chan.drainTile (c : Chan) : Exe → Nat
  | .duet n => c.portTile n.val
  | .caller _ => unitAt tileCall

/-- A request as it leaves the commit buffer of a unit: with the number of the buffer. -/
def Req.numbered (q : Req) (u : Exe) : Req := { q with cb := match u with | .duet n => n.val | .caller n => 68 + n.val }

section

variable {s : State} {k : Ch} {u : Exe} {x : CEntry} {r : List CEntry}

theorem commitBufferDrain_clean (hcb : (s.chan k.val).cbOf u = x :: r) (hat : x.at_ ≠ some (s.chan k.val).xclk) :
    Gives (.commitBufferDrain k u .clean) s k
      ((((s.chan k.val).dropEntryOf u).drainEntry u ((s.chan k.val).drainTile u) x).getD (s.chan k.val)) := by
  have hexec : exec (.commitBufferDrain k u .clean) s = execCommitBufferDrain k u .clean s := rfl
  rw [Gives, hexec, execCommitBufferDrain]
  cases u with
  | duet n => simp only [Chan.cbOf] at hcb; simp only [onCh, hcb, if_neg hat]; rfl
  | caller n => simp only [Chan.cbOf] at hcb; simp only [onCh, hcb, if_neg hat]; rfl

theorem commitBufferDrain_uncorrectable (hcb : (s.chan k.val).cbOf u = x :: r) (hat : x.at_ ≠ some (s.chan k.val).xclk) :
    Gives (.commitBufferDrain k u .uncorrectable) s k
      (((((s.chan k.val).dropEntryOf u).accept x.acc).inc F.lfCnt2Cbuncorr).poisonCtx (s.chan k.val).xclk x.ctx.toNat) := by
  have hexec : exec (.commitBufferDrain k u .uncorrectable) s = execCommitBufferDrain k u .uncorrectable s := rfl
  rw [Gives, hexec, execCommitBufferDrain]
  cases u with
  | duet n => simp only [Chan.cbOf] at hcb; simp only [onCh, hcb, if_neg hat]
  | caller n => simp only [Chan.cbOf] at hcb; simp only [onCh, hcb, if_neg hat]

end

/-! ## The routing that it finds: taking the entry changes none of it -/

section

variable (c : Chan) (u : Exe)

@[simp] theorem Chan.dropEntryOf_inPlane (dev : Nat) : (c.dropEntryOf u).inPlane dev = c.inPlane dev := by cases u <;> rfl

@[simp] theorem Chan.dropEntryOf_route (dev e ap : Nat) : (c.dropEntryOf u).route dev e ap = c.route dev e ap := by cases u <;> rfl

@[simp] theorem Chan.dropEntryOf_curEpoch : (c.dropEntryOf u).curEpoch = c.curEpoch := by cases u <;> rfl

@[simp] theorem Chan.dropEntryOf_gatePkt (t : Token) (p e ap adl : Nat) (acc : Acc) :
    (c.dropEntryOf u).gatePkt t p e ap adl acc = c.gatePkt t p e ap adl acc := by cases u <;> rfl

@[simp] theorem Chan.dropEntryOf_injectRoom (src : Nat) (cls : Bool) (n : Nat) :
    (c.dropEntryOf u).injectRoom src cls n = c.injectRoom src cls n := by cases u <;> rfl

@[simp] theorem Chan.dropEntryOf_routeDim (dev : Nat) : (c.dropEntryOf u).routeDim dev = c.routeDim dev := by cases u <;> rfl

end

/-! ## Routes -/

section

variable {c : Chan} {t : Token}

/-- A device outside the plane (R67). -/
theorem Chan.reach_of_outside (h : c.inPlane (tagDev t.tag) = false) : c.reach t = some 0x22 := by simp [Chan.reach, h]

/-- No route to a device of the plane (R433). -/
theorem Chan.reach_of_noRoute (h : c.inPlane (tagDev t.tag) = true) (hr : c.route (tagDev t.tag) c.curEpoch 7 = .none) :
    c.reach t = some 0x2B := by simp [Chan.reach, h, hr]

theorem Chan.reach_of_route (h : c.inPlane (tagDev t.tag) = true) (hr : c.route (tagDev t.tag) c.curEpoch 7 ≠ .none) :
    c.reach t = none := by simp [Chan.reach, h, hr]

theorem Chan.route_home {dev : Nat} (h : c.routeDim dev = none) (e ap : Nat) : c.route dev e ap = .home := by simp [Chan.route, h]

theorem Chan.countEpoch_home {dev : Nat} (h : c.routeDim dev = none) (e : Nat) : c.countEpoch dev e = c := by simp [Chan.countEpoch, h]

end

@[simp] theorem Chan.inject_routeDim (c : Chan) (src : Nat) (p : NPkt) (dev : Nat) : (c.inject src p).routeDim dev = c.routeDim dev := by
  simp only [Chan.inject, Chan.offerPkt]
  split <;> rfl

/-- A token of this device travels in class A (R422). -/
theorem localPkt_classA (t : Token) (acc : Acc) : { localPkt t acc with cls := false } = localPkt t acc := by
  simp only [localPkt]
  split_ifs <;> rfl

/-! ## Where a token, a request and an effect go -/

section

variable {c : Chan} {u : Exe} {tile : Nat} {x : CEntry}

theorem Chan.drainEntry_refused {t : Token} {cause : Nat} (hx : x.ent = .tok t) (hr : c.reach t = some cause) :
    c.drainEntry u tile x = some (((c.accept x.acc).countReach t cause).drainCause u x cause (reachDetail t)) := by
  simp only [Chan.drainEntry, hx, hr]

theorem Chan.drainEntry_outside {t : Token} (hx : x.ent = .tok t) (hout : c.inPlane (tagDev t.tag) = false) :
    c.drainEntry u tile x = some (((c.accept x.acc).inc F.chTokstatUnreach).drainCause u x 0x22 (reachDetail t)) := by
  rw [Chan.drainEntry_refused hx (Chan.reach_of_outside hout), Chan.countReach, if_pos rfl]

theorem Chan.drainEntry_sent {t : Token} (hx : x.ent = .tok t) (hr : c.reach t = none) (hroom : c.injectRoom tile false 1 = true) :
    c.drainEntry u tile x = some ((c.sendRaw t (c.route (tagDev t.tag) c.curEpoch 7) false x.acc tile).countEpoch
      (tagDev t.tag) c.curEpoch) := by
  simp only [Chan.drainEntry, hx, hr, hroom, if_true]

theorem Chan.drainEntry_home {t : Token} (hx : x.ent = .tok t) (hin : c.inPlane (tagDev t.tag) = true)
    (hdim : c.routeDim (tagDev t.tag) = none) (hroom : c.injectRoom tile false 1 = true) :
    c.drainEntry u tile x = some (c.inject tile (localPkt t x.acc)) := by
  have hroute := Chan.route_home hdim c.curEpoch 7
  rw [Chan.drainEntry_sent hx (Chan.reach_of_route hin (by simp [hroute])) hroom, hroute, Chan.sendRaw, localPkt_classA,
    Chan.countEpoch_home ((c.inject_routeDim _ _ _).trans hdim)]

theorem Chan.drainEntry_port {t : Token} {p : Nat} (hx : x.ent = .tok t) (hin : c.inPlane (tagDev t.tag) = true)
    (hroute : c.route (tagDev t.tag) c.curEpoch 7 = .port p) (hroom : c.injectRoom tile false 1 = true) :
    c.drainEntry u tile x
      = some ((c.inject tile (c.gatePkt t p c.curEpoch 7 0 x.acc)).countEpoch (tagDev t.tag) c.curEpoch) := by
  rw [Chan.drainEntry_sent hx (Chan.reach_of_route hin (by simp [hroute])) hroom, hroute]
  rfl

theorem Chan.drainEntry_req {q : Req} (hx : x.ent = .req q) (hroom : c.injectRoom tile false (reqFlits q + 1) = true)
    (hwait : c.noWaitRecord (q.numbered u) = false) :
    c.drainEntry u tile x = some (c.inject tile (c.reqPkt (q.numbered u))) := by
  have hflits : reqFlits (q.numbered u) = reqFlits q := rfl
  have hsent : (c.injectRoom tile false (reqFlits (q.numbered u) + 1) && !c.noWaitRecord (q.numbered u)) = true := by
    simp [hflits, hroom, hwait]
  simp only [Chan.drainEntry, hx]
  exact if_pos hsent

end

/-- Settles O22: `commitBufferDrain_clean` with the way out of each kind of entry. -/
theorem commitBuffersDrain : Obligations.CommitBuffersDrain := by
  rintro s k u c d x r tile rfl rfl htile hcb hat
  have hcb' : (s.chan k.val).cbOf u = x :: r := by cases u <;> exact hcb
  have htile' : tile = (s.chan k.val).drainTile u := by cases u <;> exact htile
  have hclean : ∀ e, ((s.chan k.val).dropEntryOf u).drainEntry u tile x = some e → Gives (.commitBufferDrain k u .clean) s k e := by
    intro e he
    have h := commitBufferDrain_clean hcb' hat
    rwa [← htile', he] at h
  refine ⟨fun t ht hin hdim hroom => ?_, fun t ht hout => ?_, fun t ht hin hroute => ?_, fun t p ht hin hroute hroom => ?_, fun hx => ?_,
    commitBufferDrain_uncorrectable hcb' hat, fun q p hx hp hroom hwait => ?_⟩
  · exact hclean _ (Chan.drainEntry_home ht (by simpa using hin) (by simpa using hdim) (by simpa using hroom))
  · exact hclean _ (Chan.drainEntry_outside ht (by simpa using hout))
  · exact hclean _ (Chan.drainEntry_refused ht (Chan.reach_of_noRoute (by simpa using hin) (by simpa using hroute)))
  · have h := hclean _ (Chan.drainEntry_port ht (by simpa using hin) (by simpa using hroute) (by simpa using hroom))
    simpa using h
  · exact hclean _ (by simp only [Chan.drainEntry, hx])
  · rw [hp]
    exact hclean _ (Chan.drainEntry_req hx (by simpa using hroom) hwait)

end Sys2Proof.Machine
end

section
/-! The allocation of context identifiers (R57, R58, R293, R295, R297): the order of the requests, the head of the free list, the gates. -/

namespace Sys2Proof.Machine

/-! ## Lists in order -/

/-- The model's sort is the library's. -/
theorem sortBy_eq_insertionSort {α : Type} (le : α → α → Bool) (l : List α) :
    sortBy le l = l.insertionSort (fun a b => le a b = true) := by
  have hins : ∀ (a : α) (l : List α), insertBy le a l = l.orderedInsert (fun a b => le a b = true) a := by
    intro a l
    induction l with
    | nil => rfl
    | cons b r ih => simp only [insertBy, List.orderedInsert_cons, ih]
  induction l with
  | nil => rfl
  | cons a r ih => rw [sortBy, ih, hins, List.insertionSort_cons]

theorem mem_sortBy {α : Type} {le : α → α → Bool} {l : List α} {a : α} : a ∈ sortBy le l ↔ a ∈ l := by
  rw [sortBy_eq_insertionSort, List.mem_insertionSort]

theorem pairwise_sortBy {α : Type} {le : α → α → Bool} (htotal : ∀ a b, le a b = true ∨ le b a = true)
    (htrans : ∀ a b c, le a b = true → le b c = true → le a c = true) (l : List α) :
    (sortBy le l).Pairwise (fun a b => le a b = true) := by
  rw [sortBy_eq_insertionSort]
  have : Std.Total (fun a b => le a b = true) := ⟨htotal⟩
  have : IsTrans α (fun a b => le a b = true) := ⟨htrans⟩
  exact List.pairwise_insertionSort _ l

/-- Of a list in order, a search finds the one element that comes before every other that it admits. -/
theorem find?_least {α : Type} {le : α → α → Bool} {p : α → Bool} {l : List α} {q : α}
    (hsorted : l.Pairwise (fun a b => le a b = true))
    (hmem : q ∈ l) (hq : p q = true) (hleast : ∀ o ∈ l, p o = true → o = q ∨ le o q = false) : l.find? p = some q := by
  obtain ⟨o, ho⟩ := Option.isSome_iff_exists.1 (List.find?_isSome.2 ⟨q, hmem, hq⟩)
  obtain ⟨hpo, as, bs, rfl, hbefore⟩ := List.find?_eq_some_iff_append.1 ho
  rcases hleast o (by simp) hpo with rfl | hnot
  · exact ho
  · have hnotIn : q ∉ as := fun h => by simpa [hq] using hbefore q h
    rcases List.mem_append.1 hmem with h | h
    · exact absurd h hnotIn
    · rcases List.mem_cons.1 h with rfl | h
      · exact ho
      · have hle := (List.pairwise_cons.1 (List.pairwise_append.1 hsorted).2.1).1 q h
        rw [hnot] at hle
        exact absurd hle (by decide)

/-! ## The rank of a request (R295) -/

theorem rankLe_iff {x y : Nat × Nat} : rankLe x y = true ↔ x.1 < y.1 ∨ (x.1 = y.1 ∧ x.2 ≤ y.2) := by simp [rankLe]

theorem rankLe_total (x y : Nat × Nat) : rankLe x y = true ∨ rankLe y x = true := by
  simp only [rankLe_iff]
  omega

theorem rankLe_trans {x y z : Nat × Nat} (h : rankLe x y = true) (k : rankLe y z = true) : rankLe x z = true := by
  rw [rankLe_iff] at *
  omega

/-- The first request in rank that its gate admits. -/
theorem Chan.firstAsk {c : Chan} {q : Ask} (hmem : q ∈ c.asks) (hq : c.admits q = true)
    (hleast : ∀ o ∈ c.asks, c.admits o = true → o = q ∨ rankLe (c.askRank o) (c.askRank q) = false) :
    (sortBy (fun a b => rankLe (c.askRank a) (c.askRank b)) c.asks).find? c.admits = some q :=
  find?_least (le := fun a b => rankLe (c.askRank a) (c.askRank b))
    (pairwise_sortBy (fun a b => rankLe_total (c.askRank a) (c.askRank b)) (fun _ _ _ h k => rankLe_trans h k) _)
    (mem_sortBy.2 hmem) hq (fun o ho => hleast o (mem_sortBy.1 ho))

/-! ## The head of the free list (R57, R403) -/

section

variable {c e : Chan} {id : Nat}

/-- Taking an identifier moves the head of the list, and nothing else. -/
theorem Chan.takeId_rest (h : c.takeId = some (id, e)) : ∃ front next freed head,
    e = { c with cu := { c.cu with freeFront := front, freeNext := next, freed := freed, freeHead := head } } := by
  simp only [Chan.takeId] at h
  split at h
  · obtain ⟨-, rfl⟩ := Prod.mk.inj (Option.some.inj h)
    exact ⟨_, _, _, _, rfl⟩
  · split at h
    · obtain ⟨-, rfl⟩ := Prod.mk.inj (Option.some.inj h)
      exact ⟨_, _, _, _, rfl⟩
    · split at h
      · obtain ⟨-, rfl⟩ := Prod.mk.inj (Option.some.inj h)
        exact ⟨_, _, _, _, rfl⟩
      · exact absurd h (by simp)

/-- An identifier that has been given back stands at the head of the list, and is taken while none is lost. -/
theorem Chan.takeId_front {i : Nat} {r : List Nat} (h : c.takeId = some (id, e)) (hfront : c.cu.freeFront = i :: r)
    (hlost : c.cu.lost = []) :
    id = i := by
  have hheld : findIx c.cu.held c.cu.freeFront = some 0 := by simp [hfront, findIx, CtxUnit.held, hlost, List.findIdx?_cons]
  simp only [Chan.takeId, hheld] at h
  have hhead : c.cu.freeFront.getD 0 0 = i := by rw [hfront]; rfl
  exact (hhead.symm.trans (Prod.mk.inj (Option.some.inj h)).1).symm

end

/-! ## The grant -/

/-- What a grant to a request adds to the throttle count, and the member of the round robin that it was (R292, R295). -/
def Chan.counted (c : Chan) (q : Ask) : Chan := { c with cu := { c.cu with
  granted := c.cu.granted + q.weight,
  rr := match q.elder, q.who with | none, .duet _ => q.tile | none, .caller _ => 64 | _, _ => c.cu.rr } }

@[simp] theorem Chan.giveGrant_cu (c : Chan) (q : Ask) (g : Grant) : (c.giveGrant q g).cu = c.cu := by
  simp only [Chan.giveGrant]
  split <;> rfl

section

variable {c : Chan} {q : Ask} (g : Grant)

theorem Chan.giveGrant_duet {n : Nat} {st : Staged} (hwho : q.who = .duet n) (hst : (c.duet n).stage = some st) :
    ((c.giveGrant q g).duet n).stage = some { st with grant := some g } := by
  simp [Chan.giveGrant, hwho, hst]

theorem Chan.giveGrant_ring {r : Nat} (hwho : q.who = .ring r) : ((c.giveGrant q g).ring r).grant = some g := by
  simp [Chan.giveGrant, hwho]

theorem Chan.giveGrant_caller {n : Nat} (hwho : q.who = .caller n) : ((c.giveGrant q g).caller n).grant = some g := by
  simp [Chan.giveGrant, hwho]

end

/-! ## The command -/

theorem contextAllocation_gives {s : State} {k : Ch} {errs : LineErrs} {c b e : Chan} {q : Ask} {id : Nat} (hc : c = s.chan k.val)
    (hen : c.flag F.chCtxcfgEn = true) (hbuilt : c.cu.building = false) (hlen : c.cu.listLen ≠ 0)
    (hfirst : (sortBy (fun a b => rankLe (c.askRank a) (c.askRank b)) c.asks).find? c.admits = some q)
    (hport : c.dmInner [c.freeAddr c.cu.freeHead / 64 * 64] = true) (hb : b = c.dmTouch.dmRead c.xclk errs (c.freeAddr c.cu.freeHead) 4)
    (hid : b.takeId = some (id, e)) :
    Gives (.contextAllocation k errs) s k ((e.counted q).giveGrant q (b.grantOf q id)) := by
  have hexec : exec (.contextAllocation k errs) s = execContextAllocation k s errs := rfl
  rw [Gives, hexec, execContextAllocation, onCh, ← hc]
  simp only [hen, hbuilt, hfirst, hport, ← hb, hid, Bool.not_true, Bool.or_false, beq_iff_eq, Bool.false_or, if_neg hlen]
  rfl

/-- No identifier is granted while the list is being built. -/
theorem contextAllocation_building {s : State} {k : Ch} (errs : LineErrs) (h : (s.chan k.val).cu.building = true) :
    Gives (.contextAllocation k errs) s k (s.chan k.val) := by
  have hexec : exec (.contextAllocation k errs) s = execContextAllocation k s errs := rfl
  rw [Gives, hexec, execContextAllocation, onCh]
  simp [h]

/-! ## The gates (R293, R294, R296) -/

section

variable (c : Chan) {w : Nat}

theorem Chan.gate_elder (hw : 0 < w) : c.gate true w = true ↔ c.throttle + w ≤ c.fld F.pgThrMaxlive := by
  simp only [Chan.gate, if_true, Bool.and_eq_true, decide_eq_true_eq]
  omega

theorem Chan.gate_general : c.gate false w = true →
    c.throttle + w + c.fld F.pgThrEldres ≤ c.fld F.pgThrMaxlive ∧ c.flag F.pgThrForce = false := by
  simp only [Chan.gate, Bool.false_eq_true, if_false, Bool.and_eq_true, decide_eq_true_eq, Bool.not_eq_true']
  rintro ⟨⟨⟨⟨⟨hforce, -⟩, -⟩, hres⟩, -⟩, hsum⟩
  exact ⟨by omega, hforce⟩

theorem Chan.gate_general_open (hw : 0 < w) (hforce : c.flag F.pgThrForce = false) (hwmen : c.flag F.pgThrWmen = false)
    (hnear : c.spillNear = false) :
    c.gate false w = true ↔ c.throttle + w + c.fld F.pgThrEldres ≤ c.fld F.pgThrMaxlive := by
  simp only [Chan.gate, hforce, hwmen, hnear, Bool.false_eq_true, if_false, Bool.false_and, Bool.not_false, Bool.true_and, Bool.and_eq_true,
    decide_eq_true_eq]
  omega

end

/-- Settles O24: the first request in rank (`Chan.firstAsk`) takes the head of the list, and the gates as they are. -/
theorem contextAllocation : Obligations.ContextAllocation := by
  refine ⟨?_, fun c w hw => ⟨c.gate_elder hw, c.gate_general, c.gate_general_open hw⟩⟩
  intro s k errs c b e q id hc hen hbuilt hport hlen hb hmem hadmit hleast hid
  obtain ⟨front, next, freed, head, he⟩ := Chan.takeId_rest hid
  refine ⟨fun i r hfront hlost => Chan.takeId_front hid hfront hlost,
    _, contextAllocation_gives hc hen hbuilt hlen (Chan.firstAsk hmem hadmit hleast) hport hb hid, ?_, fun n st hwho hst => ?_,
    fun r hwho => Chan.giveGrant_ring _ hwho, fun n hwho => Chan.giveGrant_caller _ hwho⟩
  · rw [Chan.giveGrant_cu, he]
    rfl
  · refine Chan.giveGrant_duet _ hwho ?_
    rw [he]
    exact hst

end Sys2Proof.Machine
end

section
/-! A context's life after its creation (R57, R61, R62, R65, R66, R297): elders, sweep passes, the free list and control tokens. -/

namespace Sys2Proof.Machine

/-! ## Elders (R297) -/

theorem elderPromotion_gives {s : State} {k : Ch} {id : CtxId} (hid : id.toNat ≠ 0) (hlive : ((s.chan k.val).ctx id.toNat).st = .live)
    (holder : (s.chan k.val).olderThan ((s.chan k.val).ctx id.toNat).seq < 256) :
    Gives (.elderPromotion k id) s k ((s.chan k.val).ctxUpd id.toNat (fun x => { x with elder := true })) := by
  have hexec : exec (.elderPromotion k id) s = execElderPromotion k id s := rfl
  rw [Gives, hexec, execElderPromotion, onCh]
  exact congrArg (fun c => Host.Outcome.next (s.setChan k.val c)) (if_pos ⟨hid, hlive, holder⟩)

/-! ## The sweep's walk of the spill area (R304, R306, R308) -/

section

variable {K : CtxSt → Prop} (c : Chan)

@[simp] theorem Chan.wrWord_units (a : Nat) (w : Word) : (c.wrWord a w).units = c.units := Chan.sameUnits rfl rfl

@[simp] theorem Chan.filterSub_units (t ctx ip : Nat) : (c.filterSub t ctx ip).units = c.units := Chan.sameUnits rfl rfl

omit c in
theorem Chan.Spares.ite {c d e : Chan} {p : Prop} [Decidable p] (hd : p → c.Spares K d) (he : ¬ p → c.Spares K e) :
    c.Spares K (if p then d else e) := by
  split
  · next h => exact hd h
  · next h => exact he h

theorem Chan.spares_unstick : c.Spares K c.unstick := .of_parts rfl rfl

theorem Chan.spares_freeRec (b i : Nat) (r : SRec) : c.Spares K (c.freeRec b i r) := by
  have hfreed : ∀ (w : Word) (n t ctx ip : Nat) (x : TileSt), c.Spares K
      ((((((c.wrWord (c.recAddr b i + 24) w).dmWrote (c.recAddr b i + 24) 8).setMap b).setFld
        F.pgSpillstatUsed n).filterSub t ctx ip).setTile t x) := by
    intro w n t ctx ip x
    exact .of_units (by simp)
  exact Chan.Spares.andThen (.ite (fun _ => (hfreed ..).andThen (Chan.spares_msSub _ _ _)) (fun _ => hfreed ..)) (Chan.spares_unstick _)

theorem Chan.spares_badRecord (now b i : Nat) (h : ¬ K .live) : c.Spares K (c.badRecord now b i) := by
  have hline : c.Spares K ((c.dmUncorr (c.recAddr b i)).rowCandidate (c.rowId (c.recAddr b i))) := .of_units (by simp)
  -- `Chan.badRecord` is unfolded as a function: unfolded at its arguments, the kernel evaluates the read of the record to compare the two.
  obtain ⟨f, hf⟩ : ∃ f, f = @Chan.badRecord := ⟨_, rfl⟩
  rw [← hf]
  delta Chan.badRecord at hf
  subst hf
  dsimp only
  split
  · exact hline.andThen (.of_units (Chan.raise_units _ _ _ _ _))
  · exact (hline.andThen (Chan.spares_freeRec _ _ _ _)).andThen (Chan.spares_poisonCtx _ _ _ h)

theorem Chan.spares_readBucket (now : Nat) {errs : LineErrs} (gone : Chan → SRec → Bool) (b : Nat)
    (h : ∀ line, errOf errs line = some true → ¬ K .live) : c.Spares K (c.readBucket now errs gone b) := by
  refine .fold _ (fun c i => .ite (fun hbad => ?_) (fun _ => ?_)) _ c
  · exact c.spares_badRecord now b i (h _ (beq_iff_eq.1 hbad))
  · have hline := c.spares_dmLine now (h (c.recAddr b i))
    dsimp only
    split
    · exact .ite (fun _ => hline.andThen (Chan.spares_freeRec _ _ _ _)) (fun _ => hline)
    · exact hline

theorem Chan.spares_walkOrphans (d : Chan) (ids : List Nat) (b : Nat) : d.Spares K (c.walkOrphans d ids b) := by
  refine .fold _ (fun d i => ?_) _ d
  split
  · exact .ite (fun _ => d.spares_orphan _ _) (fun _ => .same d)
  · exact .same d

theorem Chan.spares_sweepSpill (ids : List Nat) {errs : LineErrs} (h : ∀ line, errOf errs line = some true → ¬ K .live) :
    c.Spares K (c.sweepSpill ids errs) :=
  .fold _ (fun c b => (c.spares_readBucket c.xclk _ b h).andThen (c.spares_walkOrphans _ ids b)) _ c

/-! ## A pass (R65) -/

theorem Chan.spares_sweepBank (ids : List Nat) : c.Spares K (c.sweepBank ids) :=
  .fold _ (fun c _ => ((Chan.Spares.of_units (c.stopEvictOf_units _ _ _)).andThen (Chan.spares_freeKey _ _ _)).andThen
    (Chan.spares_orphan _ _ _)) _ c

theorem Chan.spares_ms (m : Match) : c.Spares K { c with ms := m } := .of_parts rfl rfl

theorem Chan.spares_sweepTokens (ids : List Nat) : c.Spares K (c.sweepTokens ids) := by
  have horphans : ∀ (l : List Token) (d : Chan), d.Spares K (l.foldl (fun c t => c.orphan (tagCtx t.tag)) d) := fun l d =>
    .fold _ (fun c t => c.spares_orphan _ 1) l d
  simp only [Chan.sweepTokens]
  exact (c.spares_ms _).andThen (horphans _ _)

/-- What a pass removes: entries, tokens and, where one of its contexts still counts entries, records of the spill area. -/
def Chan.swept (c : Chan) (ids : List Nat) (errs : LineErrs) : Chan :=
  if ids.any (fun id => (((c.sweepBank ids).sweepTokens ids).ctx id).mscount != 0)
    then ((c.sweepBank ids).sweepTokens ids).dmTouch.sweepSpill ids errs else (c.sweepBank ids).sweepTokens ids

/-- The DEAD contexts of a pass are marked as served. -/
def Chan.markSwept (c : Chan) (ids : List Nat) : Chan :=
  ids.foldl (fun d id => if (d.ctx id).st = .dead then d.ctxUpd id (fun x => { x with swept := true }) else d) c

theorem Chan.spares_swept (ids : List Nat) {errs : LineErrs} (h : ∀ line, errOf errs line = some true → ¬ K .live) :
    c.Spares K (c.swept ids errs) := by
  have hmatching : c.Spares K ((c.sweepBank ids).sweepTokens ids) := (c.spares_sweepBank ids).andThen (Chan.spares_sweepTokens _ ids)
  exact .ite (fun _ => (hmatching.andThen (.of_units (Chan.dmTouch_units _))).andThen (Chan.spares_sweepSpill _ ids h)) (fun _ => hmatching)

end

theorem Chan.markSwept_cons (c : Chan) (i : Nat) (ids : List Nat) :
    c.markSwept (i :: ids)
      = (if (c.ctx i).st = .dead then c.ctxUpd i (fun x => { x with swept := true }) else c).markSwept ids := rfl

/-- Marking changes no STATE, and marks no context back. -/
theorem Chan.markSwept_keeps (ids : List Nat) : ∀ (c : Chan) (j : Nat),
    ((c.markSwept ids).ctx j).st = (c.ctx j).st ∧ ((c.ctx j).swept = true → ((c.markSwept ids).ctx j).swept = true) := by
  induction ids with
  | nil => exact fun _ _ => ⟨rfl, id⟩
  | cons i ids ih =>
    intro c j
    rw [Chan.markSwept_cons]
    split
    · obtain ⟨hst, hswept⟩ := ih (c.ctxUpd i (fun x => { x with swept := true })) j
      rw [Chan.ctxUpd_ctx] at hst hswept
      by_cases hj : j = i
      · subst hj
        rw [if_pos rfl] at hst hswept
        exact ⟨hst, fun _ => hswept rfl⟩
      · rw [if_neg hj] at hst hswept
        exact ⟨hst, hswept⟩
    · exact ih c j

theorem Chan.markSwept_marks (ids : List Nat) : ∀ (c : Chan), ∀ j ∈ ids,
    (c.ctx j).st = .dead → ((c.markSwept ids).ctx j).swept = true := by
  induction ids with
  | nil => exact fun _ _ h => absurd h List.not_mem_nil
  | cons i ids ih =>
    intro c j hj hdead
    rw [Chan.markSwept_cons]
    rcases List.mem_cons.1 hj with rfl | hj
    · rw [if_pos hdead]
      exact (Chan.markSwept_keeps ids _ j).2 (by rw [Chan.ctxUpd_ctx_same])
    · refine ih _ j hj ?_
      split
      · rw [Chan.ctxUpd_ctx]
        split
        · next hji => subst hji; exact hdead
        · exact hdead
      · exact hdead

theorem sweepPass_starts {s : State} {k : Ch} {b : Chan} (errs : LineErrs) (hnone : (s.chan k.val).cu.sweep = none)
    (hb : b = (s.chan k.val).settlePoison (s.chan k.val).xclk) (hset : b.sweepSet ≠ []) :
    Gives (.sweepPass k errs) s k { b with cu := { b.cu with sweep := some b.sweepSet } } := by
  have hexec : exec (.sweepPass k errs) s = execSweepPass k s errs := rfl
  rw [Gives, hexec, execSweepPass, onCh]
  simp only [hnone, ← hb, List.isEmpty_iff, if_neg hset]

theorem sweepPass_ends {s : State} {k : Ch} {ids : List Nat} (errs : LineErrs) (hsweep : (s.chan k.val).cu.sweep = some ids)
    (hport : (s.chan k.val).dmSecond (s.chan k.val).usedLines = true) :
    Gives (.sweepPass k errs) s k { ((s.chan k.val).swept ids errs).markSwept ids with
      cu := { (((s.chan k.val).swept ids errs).markSwept ids).cu with sweep := none } } := by
  have hexec : exec (.sweepPass k errs) s = execSweepPass k s errs := rfl
  rw [Gives, hexec, execSweepPass, onCh]
  simp only [hsweep, hport, Bool.not_true, Bool.and_false, Bool.false_eq_true, if_false]
  rfl

/-! ## The freeing of an identifier (R57, R66) -/

/-- The context has left LIVE a quarantine ago, a pass has served it, and no window or stage holds a firing of it. -/
def Chan.mayFree (c : Chan) (id : Nat) : Prop :=
  (c.ctx id).st = .dead ∧ (c.ctx id).swept = true ∧ c.uncommitted id = false ∧ (c.ctx id).diedAt + c.quarantine ≤ c.xclk

section

variable {s : State} {k : Ch} {id : CtxId}

theorem contextFree_frees (h : (s.chan k.val).mayFree id.toNat) : Gives (.contextFree k id) s k
    (((s.chan k.val).ctxUpd id.toNat (fun x => x.turn (s.chan k.val).xclk .free)).joinFree id.toNat) := by
  have hexec : exec (.contextFree k id) s = execContextFree k id s := rfl
  rw [Gives, hexec, execContextFree, onCh]
  exact congrArg (fun c => Host.Outcome.next (s.setChan k.val c)) (if_pos h)

theorem contextFree_waits (h : ¬ (s.chan k.val).mayFree id.toNat) : Gives (.contextFree k id) s k (s.chan k.val) := by
  have hexec : exec (.contextFree k id) s = execContextFree k id s := rfl
  rw [Gives, hexec, execContextFree, onCh]
  exact congrArg (fun c => Host.Outcome.next (s.setChan k.val c)) (if_neg h)

end

@[simp] theorem Chan.joinFree_ctx (c : Chan) (id j : Nat) : (c.joinFree id).ctx j = c.ctx j := rfl

/-- A freed identifier joins the tail of the list, and the write of its slot is under way. -/
theorem Chan.joinFree_tail (c : Chan) (id : Nat) : (c.joinFree id).cu.freed = c.cu.freed ++ [id]
    ∧ ∃ q ∈ (c.joinFree id).dm.inq, q.addr = c.freeAddr ((c.cu.freeHead + c.cu.listLen) % c.freeSlots) ∧ q.bytes = valBytes id 4 :=
  ⟨rfl, _, List.mem_append_right _ (List.mem_singleton_self _), rfl, rfl⟩

theorem Chan.ctxUpd_freeList (c : Chan) (id : Nat) (f : Ctx → Ctx) :
    (c.ctxUpd id f).cu.freed = c.cu.freed ∧ (c.ctxUpd id f).cu.freeHead = c.cu.freeHead
      ∧ (c.ctxUpd id f).cu.listLen = c.cu.listLen := by
  obtain ⟨t, l, h⟩ := c.ctxUpd_cu id f
  rw [h]
  exact ⟨rfl, rfl, rfl⟩

/-! ## Control tokens (R46, R47, R61, R62) -/

section

variable (c : Chan)

theorem Chan.spares_accept (a : Acc) {K : CtxSt → Prop} : c.Spares K (c.accept a) := by
  cases a with
  | none => exact .same c
  | qword q =>
    have hrelease : c.Spares K (c.qRelease q 1) := .of_units (c.qRelease_units q 1)
    refine .ite (fun _ => hrelease.andThen ?_) (fun _ => hrelease)
    exact .ite (fun _ => .of_parts rfl rfl) (fun _ => .of_parts rfl rfl)
  | ord n seq => exact .of_parts rfl rfl

theorem Chan.qRelease_regs (q n : Nat) :
    (c.qRelease q n).idx = c.idx ∧ (c.qRelease q n).regs = c.regs ∧ (c.qRelease q n).xclk = c.xclk := by
  simp only [Chan.qRelease, Chan.qMark]
  split <;> exact ⟨rfl, rfl, rfl⟩

theorem Chan.portRelease_regs (q : Nat) :
    (c.portRelease q).idx = c.idx ∧ (c.portRelease q).regs = c.regs ∧ (c.portRelease q).xclk = c.xclk := by
  simp only [Chan.portRelease, Chan.epochCheck]
  split <;> exact ⟨rfl, rfl, rfl⟩

/-- The acceptance of a token writes no register. -/
theorem Chan.accept_regs (a : Acc) : (c.accept a).idx = c.idx ∧ (c.accept a).regs = c.regs ∧ (c.accept a).xclk = c.xclk := by
  cases a with
  | none => exact ⟨rfl, rfl, rfl⟩
  | qword q =>
    obtain ⟨hidx, hregs, hxclk⟩ := c.qRelease_regs q 1
    simp only [Chan.accept]
    split
    · obtain ⟨hidx', hregs', hxclk'⟩ := (c.qRelease q 1).portRelease_regs q
      exact ⟨hidx'.trans hidx, hregs'.trans hregs, hxclk'.trans hxclk⟩
    · exact ⟨hidx, hregs, hxclk⟩
  | ord n seq => exact ⟨rfl, rfl, rfl⟩

@[simp] theorem Chan.accept_xclk (a : Acc) : (c.accept a).xclk = c.xclk := (c.accept_regs a).2.2

@[simp] theorem Chan.accept_ctxLimit (a : Acc) : (c.accept a).ctxLimit = c.ctxLimit := by
  obtain ⟨hidx, hregs, -⟩ := c.accept_regs a
  simp only [Chan.ctxLimit, Chan.fld, Chan.rd, Chan.rst, hidx, hregs]

@[simp] theorem Chan.accept_live (a : Acc) (id : Nat) : (c.accept a).live id = c.live id := by
  rw [Chan.live, (c.spares_accept a (K := everyState)).st trivial, Chan.live]

theorem Chan.noteKill_units (id : Nat) : (c.noteKill id).units = c.units := by
  simp only [Chan.noteKill]
  split <;> exact Chan.sameUnits rfl rfl

variable {c}

/-- A kill of a LIVE context other than 0 makes it DEAD in this XCLK, and takes no packet from a unit. -/
theorem Chan.killCtx_life {now id : Nat} (status : Nat) (p : Bool) (ip rank : Nat) (hlive : c.live id = true) (hid : id ≠ 0) :
    ((c.killCtx now id status p ip rank).ctx id).life = (.dead, now, false)
      ∧ (c.killCtx now id status p ip rank).net.arrive = c.net.arrive := by
  have hstatus := (((c.noteKill id).die now id).spares_sendStatus (K := everyState) id status ip p).andThen
    (Chan.spares_noteEnd _ { id := id, at_ := now, rank := some rank, word := c.statusWord id status p })
  rw [Chan.killCtx, if_pos ⟨hlive, hid⟩]
  refine ⟨(hstatus.lives id trivial).trans (Chan.die_life _ _ _), (hstatus.arrive.trans (Chan.die_arrive _ _ _)).trans ?_⟩
  rw [(Chan.units_eq.1 (c.noteKill_units id)).2]

end

section

variable {s : State} {k : Ch} {p : NPkt} {t : Token}

theorem controlToken_malformed (harr : (s.chan k.val).arrived 36 4 = some p) (hpay : p.pay = .tok t)
    (hbad : tagIp t.tag ≠ 1 ∨ malformed t = true) :
    Gives (.controlToken k) s k ((((s.chan k.val).takeArrived 36 4).accept p.acc).stray F.chTokstatMalformed t) := by
  have hexec : exec (.controlToken k) s = execControlToken k s := rfl
  have harr' : (s.chan k.val).arrived tileCtx 4 = some p := harr
  obtain ⟨pay⟩ := p
  obtain rfl : pay = .tok t := hpay
  rw [Gives, hexec, execControlToken, onCh]
  simp only [harr', if_pos hbad]
  rfl

theorem controlToken_kills (harr : (s.chan k.val).arrived 36 4 = some p) (hpay : p.pay = .tok t) (hip : tagIp t.tag = 1)
    (hgood : malformed t = false) (hlimit : tagCtx t.tag < (s.chan k.val).ctxLimit) :
    Gives (.controlToken k) s k ((((s.chan k.val).takeArrived 36 4).accept p.acc).killCtx (s.chan k.val).xclk (tagCtx t.tag)
      (wbits t.val 0 8) (sbPoison t.sb) 0 64) := by
  have hexec : exec (.controlToken k) s = execControlToken k s := rfl
  have harr' : (s.chan k.val).arrived tileCtx 4 = some p := harr
  have hok : ¬ (tagIp t.tag ≠ 1 ∨ malformed t = true) := by simp [hip, hgood]
  have hbelow : ¬ (((s.chan k.val).takeArrived tileCtx 4).accept p.acc).ctxLimit ≤ tagCtx t.tag := by
    rw [Chan.accept_ctxLimit]
    exact Nat.not_le.2 hlimit
  obtain ⟨pay⟩ := p
  obtain rfl : pay = .tok t := hpay
  rw [Gives, hexec, execControlToken, onCh]
  simp only [harr', if_neg hok, if_neg hbelow, Chan.accept_xclk]
  rfl

end

/-- Settles O25: each command of a context's later life by its own lemma above. -/
theorem contextLives : Obligations.ContextLives := by
  rintro s k c rfl
  refine ⟨fun id hid hlive holder => ⟨_, elderPromotion_gives ?_ hlive holder, Chan.ctxUpd_ctx_same _ _ _, fun j hj => ?_⟩,
    fun errs b hnone hb hset => sweepPass_starts errs hnone hb hset,
    fun ids errs hsweep hport => ⟨_, sweepPass_ends errs hsweep hport, rfl, fun id hid hdead => ?_, fun herrs id => ?_⟩,
    fun id hdead hswept hcommitted hquar => ?_, fun id hnot => contextFree_waits ?_,
    fun p t harr hpay => ⟨controlToken_malformed harr hpay, fun hip hgood hlimit hid hlive => ?_⟩⟩
  · exact fun h => hid (BitVec.eq_of_toNat_eq h)
  · rw [Chan.ctxUpd_ctx, if_neg hj]
  · have hspared := (s.chan k.val).spares_swept (K := (· = .dead)) (errs := errs) ids (fun _ _ => by decide)
    have hdead' : (((s.chan k.val).swept ids errs).ctx id).st = .dead := (hspared.st hdead).trans hdead
    exact ⟨(Chan.markSwept_keeps ids _ id).1.trans hdead', Chan.markSwept_marks ids _ id hid hdead'⟩
  · have hspared := (s.chan k.val).spares_swept (K := everyState) (errs := errs) ids (fun _ h => by simp [herrs, errOf] at h)
    exact (Chan.markSwept_keeps ids _ id).1.trans (hspared.st trivial)
  · obtain ⟨hfreed, hhead, hlen⟩ := (s.chan k.val).ctxUpd_freeList id.toNat (fun x => x.turn (s.chan k.val).xclk .free)
    have hcounts := (s.chan k.val).onlyCounts_ctxUpd id.toNat (fun x => x.turn (s.chan k.val).xclk .free)
    have htail := ((s.chan k.val).ctxUpd id.toNat (fun x => x.turn (s.chan k.val).xclk .free)).joinFree_tail id.toNat
    rw [hfreed, hhead, hlen, hcounts.freeSlots, hcounts.freeAddr] at htail
    exact ⟨_, contextFree_frees ⟨hdead, hswept, hcommitted, hquar⟩, by rw [Chan.joinFree_ctx, Chan.ctxUpd_ctx_same]; rfl, htail⟩
  · rintro ⟨hdead, hswept, hcommitted, hquar⟩
    rcases hnot with h | h | h | h
    · exact h hdead
    · exact absurd (h.symm.trans hswept) (by decide)
    · exact absurd (hcommitted.symm.trans h) (by decide)
    · exact absurd hquar (Nat.not_le.2 h)
  · obtain ⟨hlife, harrive⟩ := Chan.killCtx_life (c := ((s.chan k.val).takeArrived 36 4).accept p.acc) (now := (s.chan k.val).xclk)
      (wbits t.val 0 8) (sbPoison t.sb) 0 64 (by rw [Chan.accept_live]; exact hlive) hid
    obtain ⟨hst, hdied, -⟩ := Ctx.life_eq (y := { st := .dead, diedAt := (s.chan k.val).xclk }) |>.1 hlife
    refine ⟨_, controlToken_kills harr hpay hip hgood hlimit, hst, ?_, hdied⟩
    rw [Chan.arrived, harrive, (Chan.spares_accept _ p.acc (K := everyState)).arrive]
    exact ((s.chan k.val).takeArrived_arrived 36 4 36 4).trans (if_pos rfl)

end Sys2Proof.Machine
end

section
/-! The context table (R54, R57, R73, R403, R681): the writes of CH_CTXCFG, the record of context 0, and the building of the free list. -/

namespace Sys2Proof.Machine

/-! ## CH_CTXCFG (R73) -/

/-- A field of one bit is that bit. -/
theorem wbits_one (w : Word) (i : Nat) : wbits w i 1 = (wbit w i).toNat := by
  rw [wbits, bitsOf, wbit, Nat.shiftRight_eq_div_pow, Nat.testBit_eq_decide_div_mod_eq]
  rcases Nat.mod_two_eq_zero_or_one (w.toNat / 2 ^ i) with h | h <;> simp [h]

theorem regAt_ctxcfg : regAt chanRegTable 0x108
    = some (⟨.chCtxcfg, 0x108, 0, 1, [(63, 1, .wo), (32, 8, .rw), (16, 1, .rw), (0, 12, .rw)]⟩, 0) := by decide +kernel

theorem Chan.fld_wr_ne (c : Chan) {o : Nat} (v : Word) {g : Fd} (h : g.off ≠ o) : (c.wr o v).fld g = c.fld g := by
  rw [Chan.fld, Chan.wr_rd, if_neg h, Chan.fld]

/-- A RW field of CH_CTXCFG takes the bits written. -/
theorem Chan.wrFields_ctxcfg_fld (c : Chan) (w : Word) {g : Fd} (hoff : g.off = 0x108)
    (hg : (g.lo, g.len, Access.rw) ∈ [(63, 1, .wo), (32, 8, .rw), (16, 1, .rw), (0, 12, Access.rw)]) :
    (c.wrFields 0x108 w).fld g = wbits w g.lo g.len := by
  obtain ⟨hmem, -, -⟩ := regAt_some regAt_ctxcfg
  obtain ⟨hfit, -, -⟩ := chanRegTable_rows _ hmem
  have hword : g.lo + g.len ≤ 64 := hfit.1 _ hg
  rw [Chan.fld, c.wrFields_of_regAt w 0 64 regAt_ctxcfg, Chan.wr_rd, if_pos hoff, wbits_mergeFields _ _ _ _ _ _ hfit hg]
  simp [writtenTo, inSpan, hword, fieldAccess, fieldWritten]

theorem Chan.wrFields_ctxcfg_en (c : Chan) (w : Word) : (c.wrFields 0x108 w).flag F.chCtxcfgEn = wbit w 16 := by
  rw [Chan.flag, c.wrFields_ctxcfg_fld w rfl (by decide)]
  change (wbits w 16 1 != 0) = wbit w 16
  rw [wbits_one]
  cases wbit w 16 <;> rfl

theorem Chan.wrFields_ctxcfg_limit (c : Chan) (w : Word) : (c.wrFields 0x108 w).ctxLimit = wbits w 0 12 * 4096 := by
  rw [Chan.ctxLimit, c.wrFields_ctxcfg_fld w rfl (by decide)]
  rfl

/-! ## What a write of CH_CTXCFG does -/

section

variable {c : Chan} {w : Word}

theorem Chan.ctxcfgWrite_starts (hoff : c.flag F.chCtxcfgEn = false) (hen : wbit w 16 = true) (hflush : wbit w 63 = false)
    (hfits : (c.wrFields 0x108 w).tableFits = true) (hlive : (c.wrFields 0x108 w).liveCount = 0) :
    c.ctxcfgWrite 0x108 w 0 64 = (c.wrFields 0x108 w).startTable.startCtx0 (c.wrFields 0x108 w).xclk := by
  simp [Chan.ctxcfgWrite, hoff, hflush, hfits, hlive, c.wrFields_ctxcfg_en w, hen]

theorem Chan.ctxcfgWrite_refuses (hoff : c.flag F.chCtxcfgEn = false) (hen : wbit w 16 = true) (hflush : wbit w 63 = false)
    (hfits : (c.wrFields 0x108 w).tableFits = false) : c.ctxcfgWrite 0x108 w 0 64 = (c.wrFields 0x108 w).setFld F.chCtxcfgEn 0 := by
  have hcleared : ((c.wrFields 0x108 w).setFld F.chCtxcfgEn 0).flag F.chCtxcfgEn = false := by
    rw [Chan.flag, Chan.fld_setFld _ _ _ (by decide)]
    rfl
  simp [Chan.ctxcfgWrite, hoff, hflush, hfits, c.wrFields_ctxcfg_en w, hen, hcleared]

theorem Chan.ctxcfgWrite_flushes (hon : c.flag F.chCtxcfgEn = true) (hflush : wbit w 63 = true) :
    c.ctxcfgWrite 0x108 w 0 64 = (c.wrFields 0x108 w).flushCache := by
  simp [Chan.ctxcfgWrite, hon, hflush]

end

/-- Bringing out the wake that an access asks for: nothing else of the channel changes (R590). -/
theorem Chan.stir_eq (c : Chan) (o : Nat) : ∃ b, c.stir o = { c with pw := { c.pw with wake := b } } := by
  unfold Chan.stir
  split
  · exact ⟨true, rfl⟩
  · exact ⟨c.pw.wake, rfl⟩

section

variable {s : State} {k : Ch} {p : Party} (w : Word) (hs : (s.chan k.val).served 0x108 = true)
  (hmay : (s.chan k.val).mayWrite p 0x108 = true)

include hs hmay

theorem contextTableStart_writes :
    Gives (.contextTableStart k p w) s k (((s.chan k.val).stir 0x108).ctxcfgWrite 0x108 w 0 64) := by
  have hexec : exec (.contextTableStart k p w) s = execContextTableStart k p w s := rfl
  rw [Gives, hexec, execContextTableStart, onCh]
  simp only [Chan.regWrite, hs, hmay, Bool.not_true, Bool.false_eq_true, if_false]

theorem contextCacheFlush_writes :
    Gives (.contextCacheFlush k p w) s k (((s.chan k.val).stir 0x108).ctxcfgWrite 0x108 w 0 64) := by
  have hexec : exec (.contextCacheFlush k p w) s = execContextCacheFlush k p w s := rfl
  rw [Gives, hexec, execContextCacheFlush, onCh]
  simp only [Chan.regWrite, hs, hmay, Bool.not_true, Bool.false_eq_true, if_false]

end

/-! ## Reads of the context unit's own lines (R397) -/

/-- An access that begins a line and does not leave it touches that line. -/
theorem linesOf_line {a : Nat} (h : a % 64 = 0) : linesOf a 64 = [a] := by
  have hcount : (a + 64 - 1) / 64 + 1 - a / 64 = 1 := by omega
  have hline : a / 64 * 64 = a := by omega
  rw [linesOf, hcount, List.range_one, List.map_singleton, Nat.add_zero, hline]

/-- The lines of an access from the start of a line on. -/
theorem le_of_mem_linesOf {a n l : Nat} (h : a % 64 = 0) (hl : l ∈ linesOf a n) : a ≤ l ∧ l % 64 = 0 := by
  obtain ⟨i, -, rfl⟩ := List.mem_map.1 hl
  omega

theorem Chan.ctxAddr_aligned (c : Chan) (id : Nat) : c.ctxAddr id % 64 = 0 := by
  have h20 : 2 ^ 20 = 64 * 2 ^ 14 := by norm_num
  rw [Chan.ctxAddr, h20]
  omega

theorem Chan.ctxAddr_eq (c : Chan) (id : Nat) : c.ctxAddr id = c.ctxAddr 0 + 64 * id := by simp [Chan.ctxAddr]

theorem Chan.lineBad_cu (c : Chan) (line : Nat) : (c.lineBad line).cu = c.cu :=
  (Chan.units_eq.1 ((Chan.rowCandidate_units _ _).trans (c.dmUncorr_units line))).1

theorem Chan.freeAddr_zero (c : Chan) : c.freeAddr 0 = c.ctxAddr c.ctxLimit := by rw [Chan.freeAddr, Nat.mul_zero, Nat.add_zero]

theorem Chan.onlyCounts_lineBad (c : Chan) (line : Nat) : c.OnlyCounts (c.lineBad line) :=
  (c.onlyCounts_dmUncorr line).andThen (Chan.onlyCounts_rowCandidate _ _)

theorem Chan.raise_memory (c : Chan) (src n tile : Nat) (tag : Option Nat) : (c.raise src n tile tag).mem = c.mem := rfl

theorem Chan.dmUncorr_mem (c : Chan) (a : Nat) : (c.dmUncorr a).mem = c.mem := by
  have hpoison : ∀ l : Nat, ((List.range 8).foldl (fun c i => c.setPoison (l + 8 * i) true) c).mem = c.mem := fun l =>
    foldl_leaves Chan.mem (fun c i => c.setPoison (l + 8 * i) true) (fun _ _ => rfl) _ c
  simp only [Chan.dmUncorr]
  rw [Chan.raise_memory, Chan.checkUse_mem]
  split
  · rw [Chan.inc_mem, hpoison]
  · rw [Chan.setFld_mem, Chan.setFld_mem, Chan.inc_mem, hpoison]

theorem Chan.rowCandidate_mem (c : Chan) (r : RowId) : (c.rowCandidate r).mem = c.mem := by
  simp only [Chan.rowCandidate]
  split <;> rfl

theorem Chan.lineBad_mem (c : Chan) (line : Nat) : (c.lineBad line).mem = c.mem :=
  (Chan.rowCandidate_mem _ _).trans (c.dmUncorr_mem line)

/-- The record of context 0 may be in error: the context unit keeps what it has read (R397, R682). -/
theorem Chan.dmLine_record0_cu (c : Chan) (now : Nat) (errs : LineErrs) (hlimit : 0 < c.ctxLimit) :
    (c.dmLine now errs (c.ctxAddr 0)).cu = c.cu := by
  have hcounts := c.onlyCounts_lineBad (c.ctxAddr 0)
  have hline := Nat.div_mul_cancel (Nat.dvd_of_mod_eq_zero (c.ctxAddr_aligned 0))
  rcases herr : errOf errs (c.ctxAddr 0) with _ | _ | _
  · rw [c.dmLine_clean now herr, (Chan.units_eq.1 (c.checkUse_units _ _)).1]
  · rw [c.dmLine_corrected now herr, (Chan.units_eq.1 ((Chan.inc_units _ _).trans (c.checkUse_units _ _))).1]
  · rw [c.dmLine_bad now herr, ← c.lineBad_cu (c.ctxAddr 0)]
    simp only [Chan.lineLost, hline, hcounts.ctxAddr, hcounts.ctxLimit, Nat.sub_self, Nat.zero_div, if_true]
    rw [if_pos ⟨le_rfl, by omega⟩]
    split
    · exact (Chan.units_eq.1 (Chan.ctxOver_units _ _)).1
    · rfl

/-- The parts of a channel that the loss of a line after the table leaves: of the context unit only the lost identifiers may change. -/
structure Chan.ListOnly (c d : Chan) : Prop where
  cu : d.cu = { c.cu with lost := d.cu.lost }
  mem : d.mem = c.mem
  counts : c.OnlyCounts d

theorem Chan.ListOnly.andThen {c d e : Chan} (h : c.ListOnly d) (k : d.ListOnly e) : c.ListOnly e :=
  ⟨by rw [k.cu, h.cu], k.mem.trans h.mem, h.counts.andThen k.counts⟩

theorem Chan.listOnly_loseIds (c : Chan) (n : Nat) : c.ListOnly (c.loseIds n) := ⟨rfl, rfl, .of_regs rfl rfl rfl⟩

/-- A line after the table is read: no context is lost with it. -/
theorem Chan.listOnly_dmLine (c : Chan) (now : Nat) (errs : LineErrs) {line : Nat} (hline : line % 64 = 0)
    (hafter : c.ctxAddr c.ctxLimit ≤ line) :
    c.ListOnly (c.dmLine now errs line) := by
  have hof : ∀ d : Chan, d.units = c.units → d.mem = c.mem → c.OnlyCounts d → c.ListOnly d := fun d hunits hmem hcounts =>
    ⟨by rw [(Chan.units_eq.1 hunits).1], hmem, hcounts⟩
  rcases herr : errOf errs line with _ | _ | _
  · rw [c.dmLine_clean now herr]
    exact hof _ (c.checkUse_units _ _) (c.checkUse_mem _ _) (c.onlyCounts_checkUse _ _)
  · rw [c.dmLine_corrected now herr]
    exact hof _ ((Chan.inc_units _ _).trans (c.checkUse_units _ _)) ((Chan.inc_mem _ _).trans (c.checkUse_mem _ _))
      ((c.onlyCounts_checkUse _ _).andThen (Chan.onlyCounts_inc _ (by decide)))
  · rw [c.dmLine_bad now herr]
    have hbad := c.onlyCounts_lineBad line
    have haddr := c.ctxAddr_eq c.ctxLimit
    have hnot : ¬ ((c.lineBad line).ctxAddr 0 ≤ line / 64 * 64
        ∧ line / 64 * 64 < (c.lineBad line).ctxAddr 0 + 64 * (c.lineBad line).ctxLimit) := by
      rw [hbad.ctxAddr, hbad.ctxLimit]
      omega
    have hkept : c.ListOnly (c.lineBad line) := ⟨by rw [c.lineBad_cu line], c.lineBad_mem line, hbad⟩
    simp only [Chan.lineLost, if_neg hnot]
    split
    · exact hkept.andThen (Chan.listOnly_loseIds _ _)
    · exact hkept

/-! ## The record of context 0 (R681) -/

/-- The record with which context 0 becomes LIVE. -/
def Chan.record0 (c : Chan) : Ctx := { c.ctxFromMem (c.ctxAddr 0) with st := .live, origin := 3, seq := 0, elder := false }

section

variable {c : Chan}

theorem Chan.startCtx0_waits (now : Nat) (h : c.dmInner [c.recordLine 0] = false) : c.startCtx0 now = c := by
  simp [Chan.startCtx0, h]

/-- Context 0 starts as the memory takes the read of its record. -/
theorem Chan.startCtx0_starts (now : Nat) (hstarting : c.cu.starting = true) (h : c.dmInner [c.recordLine 0] = true)
    (hlimit : 0 < c.ctxLimit) : c.OnlyCounts (c.startCtx0 now) ∧
    (c.startCtx0 now).cu = { c.cu with tbl := tblPut c.cu.tbl 0 c.record0 {}, cached := (0, true) :: c.cu.cached, starting := false } := by
  have hlines := linesOf_line (c.ctxAddr_aligned 0)
  have htouched : ∀ u, c.OnlyCounts { c.dmTouch with cu := u } := fun _ => .of_regs rfl rfl rfl
  simp only [Chan.startCtx0, hstarting, h, Bool.not_true, Bool.or_self, Bool.false_eq_true, if_false]
  refine ⟨(htouched _).andThen (Chan.onlyCounts_dmRead _ _ _ _ _), ?_⟩
  rw [Chan.dmRead, hlines, List.foldl_cons, List.foldl_nil]
  exact Chan.dmLine_record0_cu _ now _ hlimit

end

/-- Which accesses the internal port can carry out does not hang on CH_CTXCFG. -/
theorem Chan.dmInner_wr_ctxcfg (c : Chan) (v : Word) (lines : List Nat) : (c.wr 0x108 v).dmInner lines = c.dmInner lines := by
  have hstate : (c.wr 0x108 v).dmState = c.dmState := c.fld_wr_ne v (by decide)
  simp only [Chan.dmInner, Chan.dmPort, Chan.dmOpen, hstate]
  rfl

/-! ## The free list as it is built (R403, R681) -/

/-- The bytes of item i of a list of 4-byte numbers that rise from n on. -/
theorem getD_rising (m : Nat) : ∀ (n i j : Nat), i < m → j < 4 →
    ((List.range' n m).flatMap (fun v => valBytes v 4)).getD (4 * i + j) 0 = (valBytes (n + i) 4).getD j 0 := by
  induction m with
  | zero => exact fun _ _ _ h _ => absurd h (Nat.not_lt_zero _)
  | succ m ih =>
    intro n i j hi hj
    rw [List.range'_succ, List.flatMap_cons]
    cases i with
    | zero => rw [List.getD_append _ _ _ _ (by rw [valBytes_length]; omega), Nat.mul_zero, Nat.zero_add, Nat.add_zero]
    | succ i =>
      rw [List.getD_append_right _ _ _ _ (by rw [valBytes_length]; omega), valBytes_length]
      have hskip : 4 * (i + 1) + j - 4 = 4 * i + j := by omega
      rw [hskip, ih (n + 1) i j (by omega) hj]
      congr 2
      omega

theorem length_rising (n m : Nat) : ((List.range' n m).flatMap (fun v => valBytes v 4)).length = 4 * m := by
  simp [List.length_flatMap, valBytes_length, Nat.mul_comm]

/-- Item i of such a list, read from memory where it has been written. -/
theorem bytesVal_rising (mem : List Host.Cell) (a n m i : Nat) (hi : i < m) (hval : n + i < 2 ^ 32) :
    bytesVal (memBytes (memPutBytes mem a ((List.range' n m).flatMap (fun v => valBytes v 4))) (a + 4 * i) 4) = n + i := by
  have hbytes : memBytes (memPutBytes mem a ((List.range' n m).flatMap (fun v => valBytes v 4))) (a + 4 * i) 4 = valBytes (n + i) 4 := by
    refine List.ext_getElem (by rw [memBytes_length, valBytes_length]) fun j hj hj' => ?_
    rw [memBytes_length] at hj
    rw [← List.getD_eq_getElem _ 0, ← List.getD_eq_getElem _ 0, memBytes_getD _ _ _ _ _ hj, memByte_putBytes, length_rising,
      if_pos (by omega), ← getD_rising m n i j hi hj]
    congr 1
    omega
  rw [hbytes, bytesVal_valBytes]
  exact Nat.mod_eq_of_lt hval

/-- The lines that a write covers only in part have been read (R397). -/
def Chan.readPart (c : Chan) (now a n : Nat) : Chan :=
  ((linesOf a n).filter (fun l => !coversLine a n l)).foldl (fun (c : Chan) l => c.dmLine now (c.codes l 64) l) c

theorem Chan.dmPut_eq (c : Chan) (now a : Nat) (bs : List Byte) : ∃ p, c.dmPut now a bs
    = ({ c.readPart now a bs.length with mem := memPutBytes (c.readPart now a bs.length).mem a bs, poison := p } : Chan).dmWrote
      a bs.length :=
  ⟨_, rfl⟩

theorem Chan.listOnly_readPart (c : Chan) (now n : Nat) : c.ListOnly (c.readPart now (c.freeAddr 0) n) := by
  have haligned : c.freeAddr 0 % 64 = 0 := by rw [c.freeAddr_zero]; exact c.ctxAddr_aligned _
  refine List.foldlRecOn (motive := c.ListOnly) _ _ ⟨rfl, rfl, .same c⟩ fun d hd l hl => ?_
  obtain ⟨hle, hmod⟩ := le_of_mem_linesOf haligned (List.mem_of_mem_filter hl)
  refine hd.andThen (d.listOnly_dmLine now _ hmod ?_)
  rwa [hd.counts.ctxAddr, hd.counts.ctxLimit, ← c.freeAddr_zero]

/-- Bytes written after such reads. -/
theorem Chan.ListOnly.wrote {c d : Chan} (h : c.ListOnly d) (a : Nat) (bs : List Byte) (p : List Nat) :
    (({ d with mem := memPutBytes d.mem a bs, poison := p } : Chan).dmWrote a bs.length).cu = { c.cu with lost := d.cu.lost }
      ∧ (({ d with mem := memPutBytes d.mem a bs, poison := p } : Chan).dmWrote a bs.length).mem = memPutBytes c.mem a bs := by
  refine ⟨(Chan.units_eq.1 (Chan.dmWrote_units _ _ _)).1.trans h.cu, ?_⟩
  rw [Chan.dmWrote_mem]
  exact congrArg (memPutBytes · a bs) h.mem

/-- A write from the start of the list on: its bytes stand in memory, and of the context unit only the lost identifiers may change. -/
theorem Chan.dmPut_list (c : Chan) (now : Nat) (bs : List Byte) : ∃ lost,
    (c.dmPut now (c.freeAddr 0) bs).cu = { c.cu with lost := lost }
      ∧ (c.dmPut now (c.freeAddr 0) bs).mem = memPutBytes c.mem (c.freeAddr 0) bs := by
  obtain ⟨p, hput⟩ := c.dmPut_eq now (c.freeAddr 0) bs
  rw [hput]
  exact ⟨_, (c.listOnly_readPart now bs.length).wrote _ _ _⟩

theorem freeListBuilt_writes {s : State} {k : Ch} (hbuild : (s.chan k.val).cu.building = true)
    (hstarted : (s.chan k.val).cu.starting = false) (hport : (s.chan k.val).dmPort = true)
    (hmeets : (s.chan k.val).dmMeets ((s.chan k.val).freeAddr 0) (4 * ((s.chan k.val).ctxLimit - 1)) = false) :
    Gives (.freeListBuilt k) s k
      (({ s.chan k.val with cu := { (s.chan k.val).cu with building := false } } : Chan).writeFreeList (s.chan k.val).xclk) := by
  have hexec : exec (.freeListBuilt k) s = execFreeListBuilt k s := rfl
  rw [Gives, hexec, execFreeListBuilt, onCh]
  simp only [hbuild, hstarted, hport, hmeets, Bool.not_false, Bool.and_self, if_true]

theorem freeListBuilt_waits {s : State} {k : Ch} (h : (s.chan k.val).cu.building = false ∨ (s.chan k.val).cu.starting = true
      ∨ (s.chan k.val).dmPort = false ∨ (s.chan k.val).dmMeets ((s.chan k.val).freeAddr 0) (4 * ((s.chan k.val).ctxLimit - 1)) = true) :
    Gives (.freeListBuilt k) s k (s.chan k.val) := by
  have hexec : exec (.freeListBuilt k) s = execFreeListBuilt k s := rfl
  rw [Gives, hexec, execFreeListBuilt, onCh]
  rcases h with h | h | h | h <;> simp [h]

/-! ## A flush (R73) -/

/-- The writes that a flush offers to the memory: one for each record, in order. -/
theorem Chan.foldl_ctxWriteBack (l : List (Nat × Bool)) : ∀ c : Chan, l.foldl (fun c e => c.ctxWriteBack e.1) c
    = { c with dm := { c.dm with
        inq := c.dm.inq ++ l.map (fun e => ⟨c.ctxAddr e.1, (c.ctx e.1).words.flatMap (fun v => valBytes v.toNat 8)⟩) } } := by
  induction l with
  | nil => intro c; simp
  | cons e l ih =>
    intro c
    rw [List.foldl_cons, ih]
    rw [List.map_cons, List.append_cons]
    rfl

/-- A flush leaves every record cached and clean, and the write of each dirty one under way. -/
theorem Chan.flushCache_flushes (c : Chan) :
    c.flushCache.cu = { c.cu with cached := c.cu.cached.map (fun e => (e.1, false)), flushing := true }
    ∧ ∀ id, (id, true) ∈ c.cu.cached → ∃ q ∈ c.flushCache.dm.inq,
        q.addr = c.ctxAddr id ∧ q.bytes = (c.ctx id).words.flatMap (fun v => valBytes v.toNat 8) := by
  rw [Chan.flushCache, Chan.foldl_ctxWriteBack]
  have hdirty : ∀ id, (id, true) ∈ c.cu.cached → (id, true) ∈ c.cu.cached.filter (·.2) :=
    fun id hid => List.mem_filter.2 ⟨hid, rfl⟩
  exact ⟨rfl, fun id hid => ⟨_, List.mem_append_right _ (List.mem_map.2 ⟨_, hdirty id hid, rfl⟩), rfl, rfl⟩⟩

/-! ## The access to CH_CTXCFG as a whole -/

/-- The channel with CH_CTXCFG written, before the write acts. -/
def Chan.ctxcfgSet (c : Chan) (w : Word) : Chan := (c.stir 0x108).wrFields 0x108 w

/-- The register and the request to wake, and nothing else, are not those of before. -/
theorem Chan.ctxcfgSet_eq (c : Chan) (w : Word) : ∃ v b, c.wrFields 0x108 w = c.wr 0x108 v
    ∧ c.ctxcfgSet w = { c.wr 0x108 v with pw := { c.pw with wake := b } } := by
  obtain ⟨b, hb⟩ := c.stir_eq 0x108
  refine ⟨_, b, c.wrFields_of_regAt w 0 64 regAt_ctxcfg, ?_⟩
  rw [Chan.ctxcfgSet, hb, Chan.wrFields_of_regAt _ w 0 64 regAt_ctxcfg]
  rfl

section

variable (c : Chan) (w : Word)

theorem Chan.stir_flag (o : Nat) (f : Fd) : (c.stir o).flag f = c.flag f := by
  obtain ⟨b, hb⟩ := c.stir_eq o
  rw [hb]
  rfl

theorem Chan.ctxcfgSet_cu : (c.ctxcfgSet w).cu = c.cu := by
  obtain ⟨v, b, -, hset⟩ := c.ctxcfgSet_eq w
  rw [hset]
  rfl

theorem Chan.ctxcfgSet_tableFits : (c.ctxcfgSet w).tableFits = (c.wrFields 0x108 w).tableFits := by
  obtain ⟨v, b, hwr, hset⟩ := c.ctxcfgSet_eq w
  rw [hset, hwr]
  rfl

theorem Chan.ctxcfgSet_liveCount : (c.ctxcfgSet w).liveCount = (c.wrFields 0x108 w).liveCount := by
  obtain ⟨v, b, hwr, hset⟩ := c.ctxcfgSet_eq w
  rw [hset, hwr]
  rfl

theorem Chan.ctxcfgSet_ctxAddr (id : Nat) : (c.ctxcfgSet w).ctxAddr id = c.ctxAddr id := by
  obtain ⟨v, b, -, hset⟩ := c.ctxcfgSet_eq w
  have hbase : (c.wr 0x108 v).ctxAddr id = c.ctxAddr id := by
    rw [Chan.ctxAddr, c.fld_wr_ne v (by decide), Chan.ctxAddr]
  rw [hset, ← hbase]
  rfl

theorem Chan.ctxcfgSet_dmInner (lines : List Nat) : (c.ctxcfgSet w).dmInner lines = c.dmInner lines := by
  obtain ⟨v, b, -, hset⟩ := c.ctxcfgSet_eq w
  rw [hset, ← c.dmInner_wr_ctxcfg v]
  rfl

theorem Chan.ctxcfgSet_ctxFromMem (a : Nat) : (c.ctxcfgSet w).ctxFromMem a = c.ctxFromMem a := by
  obtain ⟨v, b, -, hset⟩ := c.ctxcfgSet_eq w
  rw [hset]
  rfl

theorem Chan.ctxcfgSet_record0 : (c.ctxcfgSet w).record0 = c.record0 := by
  rw [Chan.record0, c.ctxcfgSet_ctxAddr, c.ctxcfgSet_ctxFromMem, Chan.record0]

theorem Chan.ctxcfgSet_cleared :
    ((c.ctxcfgSet w).setFld F.chCtxcfgEn 0).flag F.chCtxcfgEn = false ∧ ((c.ctxcfgSet w).setFld F.chCtxcfgEn 0).cu = c.cu := by
  refine ⟨?_, (Chan.units_eq.1 (Chan.setFld_units _ _ _)).1.trans (c.ctxcfgSet_cu w)⟩
  rw [Chan.flag, Chan.fld_setFld _ _ _ (by decide)]
  rfl

theorem Chan.ctxcfgSet_flushed : (c.ctxcfgSet w).flushCache.cu.flushing = true
    ∧ (∀ e ∈ (c.ctxcfgSet w).flushCache.cu.cached, e.2 = false)
    ∧ (c.ctxcfgSet w).flushCache.cu.cached.map (fun e => e.1) = c.cu.cached.map (fun e => e.1)
    ∧ (c.ctxcfgSet w).flushCache.cu.tbl = c.cu.tbl
    ∧ ∀ id, (id, true) ∈ c.cu.cached → ∃ q ∈ (c.ctxcfgSet w).flushCache.dm.inq,
        q.addr = c.ctxAddr id ∧ q.bytes = (c.ctx id).words.flatMap (fun v => valBytes v.toNat 8) := by
  obtain ⟨hcu, hwritten⟩ := (c.ctxcfgSet w).flushCache_flushes
  rw [c.ctxcfgSet_cu w] at hcu hwritten
  rw [hcu]
  refine ⟨rfl, fun e he => ?_, ?_, rfl, fun id hid => ?_⟩
  · obtain ⟨_, -, rfl⟩ := List.mem_map.1 he
    rfl
  · rw [List.map_map]
    rfl
  · obtain ⟨q, hq, haddr, hbytes⟩ := hwritten id hid
    rw [c.ctxcfgSet_ctxAddr] at haddr
    rw [Chan.ctx, c.ctxcfgSet_cu, ← Chan.ctx] at hbytes
    exact ⟨q, hq, haddr, hbytes⟩

end

theorem Chan.onlyCounts_startTable (c : Chan) : c.OnlyCounts c.startTable := .of_regs rfl rfl rfl

theorem Chan.startTable_dmInner (c : Chan) (lines : List Nat) : c.startTable.dmInner lines = c.dmInner lines := rfl

theorem Chan.startTable_record0 (c : Chan) : c.startTable.record0 = c.record0 := rfl

/-- A table that fits has identifiers. -/
theorem Chan.ctxLimit_pos {c : Chan} (h : c.tableFits = true) : 0 < c.ctxLimit := by
  simp only [Chan.tableFits, Bool.and_eq_true, decide_eq_true_eq] at h
  obtain ⟨⟨hlimit, -⟩, -⟩ := h
  rw [Chan.ctxLimit]
  omega

section

variable (c : Chan) (w : Word) (now : Nat) (hfits : (c.ctxcfgSet w).tableFits = true)

include hfits

/-- The context unit as the start of the table leaves it, before its first record is read and after. -/
theorem Chan.ctxcfgSet_started : (c.ctxcfgSet w).OnlyCounts ((c.ctxcfgSet w).startTable.startCtx0 now)
    ∧ (c.dmInner [c.recordLine 0] = false → ((c.ctxcfgSet w).startTable.startCtx0 now).cu = (c.ctxcfgSet w).startTable.cu)
    ∧ (c.dmInner [c.recordLine 0] = true → ((c.ctxcfgSet w).startTable.startCtx0 now).cu
        = { (c.ctxcfgSet w).startTable.cu with tbl := tblPut [] 0 c.record0 {}, cached := [(0, true)], starting := false }) := by
  have hset := (c.ctxcfgSet w).onlyCounts_startTable
  have hlimit : 0 < (c.ctxcfgSet w).startTable.ctxLimit := by rw [hset.ctxLimit]; exact Chan.ctxLimit_pos hfits
  have hline : (c.ctxcfgSet w).startTable.recordLine 0 = c.recordLine 0 := by
    rw [Chan.recordLine, hset.ctxAddr, c.ctxcfgSet_ctxAddr, Chan.recordLine]
  have hport : (c.ctxcfgSet w).startTable.dmInner [(c.ctxcfgSet w).startTable.recordLine 0] = c.dmInner [c.recordLine 0] := by
    rw [hline, Chan.startTable_dmInner, c.ctxcfgSet_dmInner]
  rw [← hport]
  rcases hinner : (c.ctxcfgSet w).startTable.dmInner [(c.ctxcfgSet w).startTable.recordLine 0] with _ | _
  · rw [Chan.startCtx0_waits now hinner]
    exact ⟨hset, fun _ => rfl, fun h => absurd h (by simp)⟩
  · obtain ⟨hcounts, hcu⟩ := Chan.startCtx0_starts now (rfl : (c.ctxcfgSet w).startTable.cu.starting = true) hinner hlimit
    rw [Chan.startTable_record0, c.ctxcfgSet_record0] at hcu
    exact ⟨hset.andThen hcounts, fun h => absurd h (by simp), fun _ => hcu⟩

end

/-- What the start of the table leaves of the identifiers: all but context 0 are free and in order (R681). -/
structure CtxUnit.Starts (limit : Nat) (u : CtxUnit) : Prop where
  free : ∀ id, id ≠ 0 → (tblGet u.tbl id {}).st = .free
  front : u.freeFront = []
  next : u.freeNext = 1
  last : u.freeEnd = limit
  freed : u.freed = []
  seq : u.seqNext = 1
  building : u.building = true

theorem Chan.starts_ctxcfgSet (c : Chan) (w : Word) (now : Nat) (hfits : (c.ctxcfgSet w).tableFits = true) :
    ((c.ctxcfgSet w).startTable.startCtx0 now).cu.Starts (c.ctxcfgSet w).ctxLimit := by
  obtain ⟨-, hwaits, hstarts⟩ := c.ctxcfgSet_started w now hfits
  rcases hport : c.dmInner [c.recordLine 0] with _ | _
  · rw [hwaits hport]
    exact ⟨fun _ _ => rfl, rfl, rfl, rfl, rfl, rfl, rfl⟩
  · rw [hstarts hport]
    exact ⟨fun id hid => by simp only [tblGet_put_ne _ _ _ hid, tblGet_nil], rfl, rfl, rfl, rfl, rfl, rfl⟩

/-! ## The free list in memory -/

theorem Chan.freeAddr_eq (c : Chan) (slot : Nat) : c.freeAddr slot = c.freeAddr 0 + 4 * slot := by
  rw [Chan.freeAddr, c.freeAddr_zero]

theorem Chan.ctxLimit_lt (c : Chan) : c.ctxLimit < 2 ^ 32 := by
  have hfield : c.fld F.chCtxcfgLimit < 2 ^ 12 := c.fld_lt F.chCtxcfgLimit
  rw [Chan.ctxLimit]
  omega

/-- The identifiers of the list as R681 writes it, in its bytes. -/
def Chan.listBytes (c : Chan) : List Byte := (List.range' 1 (c.ctxLimit - 1)).flatMap (fun i => valBytes i 4)

section

variable (c : Chan)

/-- The list as FREE_LIST_BUILT leaves it, once the memory takes the write (R681). -/
theorem Chan.writeFreeList_list (now : Nat) : ∃ lost, (c.writeFreeList now).cu = { c.cu with lost := lost }
    ∧ (c.writeFreeList now).mem = memPutBytes c.mem (c.freeAddr 0) c.listBytes :=
  c.dmTouch.dmPut_list now _

/-- Identifier i stands in slot i - 1 (R403). -/
theorem Chan.listBytes_slot (mem : List Host.Cell) {i : Nat} (hi : 1 ≤ i) (hlimit : i < c.ctxLimit) :
    bytesVal (memBytes (memPutBytes mem (c.freeAddr 0) c.listBytes) (c.freeAddr (i - 1)) 4) = i := by
  have h32 := c.ctxLimit_lt
  rw [Chan.listBytes, c.freeAddr_eq (i - 1), bytesVal_rising _ _ 1 _ (i - 1) (by omega) (by omega)]
  omega

/-- The list takes no bytes but those of its slots. -/
theorem Chan.listBytes_outside (mem : List Host.Cell) {a : Nat} (ha : a < c.freeAddr 0 ∨ c.freeAddr (c.ctxLimit - 1) ≤ a) :
    memByte (memPutBytes mem (c.freeAddr 0) c.listBytes) a = memByte mem a := by
  rw [c.freeAddr_eq (c.ctxLimit - 1)] at ha
  rw [memByte_putBytes, Chan.listBytes, length_rising, if_neg (by omega)]

/-- The channel as the list has been built. -/
def Chan.listBuilt : Chan := ({ c with cu := { c.cu with building := false } } : Chan).writeFreeList c.xclk

theorem Chan.listBuilt_list : ∃ lost, c.listBuilt.cu = { c.cu with building := false, lost := lost }
    ∧ c.listBuilt.mem = memPutBytes c.mem (c.freeAddr 0) c.listBytes :=
  ({ c with cu := { c.cu with building := false } } : Chan).writeFreeList_list c.xclk

end

/-! ## The obligation -/

/-- Settles O23: the write of CH_CTXCFG in its three cases, the list of free identifiers as it is written, and the wait for it. -/
theorem contextTable : Obligations.ContextTable := by
  intro s k p w c hc hs hmay
  have hsc : (s.chan k.val).served 0x108 = true := hc ▸ hs
  have hmayc : (s.chan k.val).mayWrite p 0x108 = true := hc ▸ hmay
  have hwrites := contextTableStart_writes w hsc hmayc
  have hflushes := contextCacheFlush_writes w hsc hmayc
  rw [← hc] at hwrites hflushes
  refine ⟨fun hoff hen hflush hfits hlive => ?_, fun hoff hen hflush hfits => ?_, fun hbuild hstarted hport hmeets => ?_,
    fun hwait => ?_, fun hbuild errs => ?_, fun hon hflush => ?_⟩
  case refine_1 =>
    have hfit := (c.ctxcfgSet_tableFits w).trans hfits
    have hlimit : (c.ctxcfgSet w).ctxLimit = wbits w 0 12 * 4096 := (c.stir 0x108).wrFields_ctxcfg_limit w
    have henabled : (c.ctxcfgSet w).flag F.chCtxcfgEn = wbit w 16 := (c.stir 0x108).wrFields_ctxcfg_en w
    obtain ⟨hcounts, hwaits, hstarts⟩ := c.ctxcfgSet_started w (c.ctxcfgSet w).xclk hfit
    obtain ⟨hfree, hfront, hnext, hlast, hfreed, hseq, hbuilding⟩ := c.starts_ctxcfgSet w (c.ctxcfgSet w).xclk hfit
    have hgives : Gives (.contextTableStart k p w) s k ((c.ctxcfgSet w).startTable.startCtx0 (c.ctxcfgSet w).xclk) := by
      rwa [Chan.ctxcfgWrite_starts ((c.stir_flag _ _).trans hoff) hen hflush hfit ((c.ctxcfgSet_liveCount w).trans hlive)] at hwrites
    refine ⟨_, hgives, ?_, hcounts.ctxLimit.trans hlimit, fun hport => ?_, fun hport => ?_, hfree, hfront, hnext, hlast.trans hlimit,
      hfreed, hseq, hbuilding⟩
    · rw [Chan.flag, hcounts.fld (by decide), ← Chan.flag, henabled, hen]
    · rw [hwaits hport]
      exact ⟨rfl, rfl⟩
    · have hctx : ((c.ctxcfgSet w).startTable.startCtx0 (c.ctxcfgSet w).xclk).ctx 0 = c.record0 := by
        rw [Chan.ctx, hstarts hport, tblGet_put_same]
      rw [hctx, hstarts hport]
      exact ⟨rfl, rfl, rfl, rfl, rfl, rfl, rfl⟩
  case refine_2 =>
    obtain ⟨hflag, hcu⟩ := c.ctxcfgSet_cleared w
    rw [Chan.ctxcfgWrite_refuses ((c.stir_flag _ _).trans hoff) hen hflush ((c.ctxcfgSet_tableFits w).trans hfits)] at hwrites
    exact ⟨_, hwrites, hflag, hcu⟩
  case refine_3 =>
    obtain ⟨lost, hcu, hmem⟩ := c.listBuilt_list
    refine ⟨c.listBuilt, ?_, ?_, fun i hi hlimit => ?_, fun a ha => ?_⟩
    · subst hc
      exact freeListBuilt_writes hbuild hstarted hport hmeets
    · rw [hcu]
    · rw [hmem, c.listBytes_slot _ hi hlimit]
    · rw [hmem, c.listBytes_outside _ ha]
  case refine_4 =>
    subst hc
    exact freeListBuilt_waits hwait
  case refine_5 =>
    subst hc
    exact contextAllocation_building errs hbuild
  case refine_6 =>
    obtain ⟨hflushing, hclean, hkept, htbl, hwritten⟩ := c.ctxcfgSet_flushed w
    rw [Chan.ctxcfgWrite_flushes ((c.stir_flag _ _).trans hon) hflush] at hflushes
    exact ⟨_, hflushes, hflushing, hclean, hkept, htbl, hwritten⟩

end Sys2Proof.Machine
end

section
/-! The ready stage (R180, R181, R246): what it reads, and a packet that becomes ready at once. -/

namespace Sys2Proof.Machine

/-! ## What the ready stage reads -/

/-- The registers, the queues and the time are the same, and so are the states and the classes of contexts. -/
structure Chan.StageSame (c d : Chan) : Prop where
  rd : ∀ o, d.rd o = c.rd o
  qu : d.qu = c.qu
  xclk : d.xclk = c.xclk
  st : ∀ id, (d.ctx id).st = (c.ctx id).st
  flow : ∀ id, (d.ctx id).flow = (c.ctx id).flow

theorem Chan.StageSame.andThen {c d e : Chan} (h : c.StageSame d) (k : d.StageSame e) : c.StageSame e :=
  ⟨fun o => (k.rd o).trans (h.rd o), k.qu.trans h.qu, k.xclk.trans h.xclk, fun id => (k.st id).trans (h.st id),
    fun id => (k.flow id).trans (h.flow id)⟩

section

variable {c d : Chan} (h : c.StageSame d)

include h

theorem Chan.StageSame.fld (f : Fd) : d.fld f = c.fld f := by rw [Chan.fld, h.rd, Chan.fld]

theorem Chan.StageSame.flag (f : Fd) : d.flag f = c.flag f := by rw [Chan.flag, h.fld, Chan.flag]

theorem Chan.StageSame.qptr (q : Nat) : d.qptr q = c.qptr q := by rw [Chan.qptr, h.qu, Chan.qptr]

theorem Chan.StageSame.qUnit (q : Nat) : d.qUnit q = c.qUnit q := by rw [Chan.qUnit, Chan.qDup, h.flag, Chan.qUnit, Chan.qDup]

theorem Chan.StageSame.qRoom (q : Nat) : d.qRoom q = c.qRoom q := by
  rw [Chan.qRoom, Chan.qEn, Chan.qNow, Chan.qCap, h.flag, h.fld, h.qptr, h.qUnit, h.xclk]
  rfl

theorem Chan.StageSame.live (id : Nat) : d.live id = c.live id := by rw [Chan.live, h.st, Chan.live]

theorem Chan.StageSame.flowKind (id : Nat) : d.flowKind id = c.flowKind id := by rw [Chan.flowKind, h.fld, h.flow, Chan.flowKind]

end

theorem Chan.stageSame_ms (c : Chan) (m : Match) : c.StageSame { c with ms := m } :=
  ⟨fun _ => rfl, rfl, rfl, fun _ => rfl, fun _ => rfl⟩

theorem Chan.stageSame_setEntry (c : Chan) (t e : Nat) (x : MEntry) : c.StageSame (c.setEntry t e x) := c.stageSame_ms _

/-- MSCOUNT is neither a state nor a class. -/
theorem Chan.stageSame_msAdd (c : Chan) (id n : Nat) : c.StageSame (c.msAdd id n) := by
  have hctx : ∀ j, ((c.msAdd id n).ctx j).st = (c.ctx j).st ∧ ((c.msAdd id n).ctx j).flow = (c.ctx j).flow := fun j => by
    rw [Chan.msAdd, Chan.ctxUpd_ctx]
    split
    · next hj => subst hj; exact ⟨rfl, rfl⟩
    · exact ⟨rfl, rfl⟩
  obtain ⟨l, q, hq⟩ := (c.setCtx id { c.ctx id with mscount := BitVec.ofNat 24 ((c.ctx id).mscount.toNat + n) }).cacheTouch_eq id true
  have hmsAdd : c.msAdd id n = _ := hq
  refine ⟨fun o => ?_, ?_, ?_, fun j => (hctx j).1, fun j => (hctx j).2⟩ <;> rw [hmsAdd] <;> rfl

theorem Chan.msAdd_ms (c : Chan) (id n : Nat) : (c.msAdd id n).ms = c.ms := by
  obtain ⟨l, q, hq⟩ := (c.setCtx id { c.ctx id with mscount := BitVec.ofNat 24 ((c.ctx id).mscount.toNat + n) }).cacheTouch_eq id true
  have hmsAdd : c.msAdd id n = _ := hq
  rw [hmsAdd]
  rfl

/-! ## A packet that becomes ready (R180, R181, R246) -/

section

variable {c : Chan} {t : Nat} {p : FPacket}

/-- In a class of KIND 0 a packet waits for nothing. -/
theorem Chan.flowCheck_ready (key : Opd) (h : c.flowKind p.ctx.toNat = 0) : c.flowCheck t p key = (c, none) := by
  simp only [Chan.flowCheck, h]
  split
  · rfl
  · split <;> rfl

theorem Chan.readyStage_ready (hlive : c.live p.ctx.toNat = true) (h : c.flowKind p.ctx.toNat = 0) :
    c.readyStage t p = c.pushReady t p := by
  simp only [Chan.readyStage, hlive, Bool.not_true, Bool.false_eq_true, if_false, Chan.flowCheck_ready _ h]

theorem Chan.qPush_ms (c : Chan) (q : Nat) (w : BitVec 144) : (c.qPush q w).ms = c.ms := by
  simp only [Chan.qPush, Chan.qMark]
  split <;> split <;> rfl

theorem Chan.qPush_unread (c : Chan) (q : Nat) (w : BitVec 144) : ((c.qPush q w).qptr q).unread = (c.qptr q).unread + c.qUnit q := by
  have hnow : (c.qNow q).unread = (c.qptr q).unread := by
    rw [Chan.qNow, QPtr.in_]
    split <;> rfl
  have hmark : ∀ d : Chan, (d.qMark q).qptr q = d.qptr q := fun d => by
    rw [Chan.qMark]
    split <;> rfl
  rw [Chan.qPush, hmark, ← hnow, Chan.qptr, Chan.setQptr, tblGet_put_same]

theorem Chan.pushReady_entry (c : Chan) (t : Nat) (p : FPacket) (u e : Nat) : (c.pushReady t p).entry u e = c.entry u e := by
  simp only [Chan.pushReady]
  split
  · rw [Chan.entry, Chan.qPush_ms]
    rfl
  · rfl

theorem Chan.pushReady_unread (hroom : c.qRoom (8 * t + p.prio.toNat) = true) :
    ((c.pushReady t p).qptr (8 * t + p.prio.toNat)).unread
      = (c.qptr (8 * t + p.prio.toNat)).unread + c.qUnit (8 * t + p.prio.toNat) := by
  rw [Chan.pushReady, if_pos hroom, Chan.qPush_unread]
  rfl

theorem Chan.pushReady_held (hroom : c.qRoom (8 * t + p.prio.toNat) = false) :
    ((c.pushReady t p).tile t).held = some { pkt := p, passed := true } := by
  rw [Chan.pushReady, hroom, if_neg Bool.false_ne_true, Chan.setTile_tile_same]

end

/-- A matched entry of a context that is LIVE and of KIND 0 becomes ready. -/
theorem readyAt_readyStage {c d : Chan} {t e : Nat} {w : Word} {y : MEntry} (hsame : c.StageSame d) (hy : d.entry t e = some y)
    (hst : y.st = .matched) (hgot : y.got = y.need) (hlive : c.live y.ctx.toNat = true) (hkind : c.flowKind y.ctx.toNat = 0) :
    ReadyAt c (d.readyStage t (packetOf w y e)) t e w := by
  rw [Chan.readyStage_ready (p := packetOf w y e) ((hsame.live _).trans hlive) ((hsame.flowKind _).trans hkind)]
  refine ⟨y, (d.pushReady_entry ..).trans hy, hst, hgot, fun hroom => ?_, fun hroom => ?_⟩
  · rw [← hsame.qptr, ← hsame.qUnit]
    exact Chan.pushReady_unread (p := packetOf w y e) ((hsame.qRoom _).trans hroom)
  · exact Chan.pushReady_held (p := packetOf w y e) ((hsame.qRoom _).trans hroom)

end Sys2Proof.Machine
end

section
/-! The row compare (R165 to R168): the operand in its entry, the candidate of a token, and the entries of a new key. -/

namespace Sys2Proof.Machine

/-! ## A token's operand in an entry (R165 to R167) -/

/-- A primary entry with a token's operand, the operands of PORTs 0 and 1 in their places. -/
def MEntry.withToken (x : MEntry) (now : Nat) (tok : Token) : MEntry :=
  let y := { x with got := x.got ||| BitVec.ofNat 4 (2 ^ tagPort tok.tag), pmin := minPrio x.pmin (BitVec.ofNat 3 (tagPrio tok.tag)),
                    filledAt := some now }
  let y := if tagPort tok.tag = 0 then { y with val0 := tok.val, sb0 := sbClean tok.sb }
    else if tagPort tok.tag = 1 then { y with val1 := tok.val, sb1 := sbClean tok.sb } else y
  if y.got = y.need then { y with st := .matched } else y

/-- What a token changes of an entry, but for its state and its operands. -/
structure MEntry.Took (x : MEntry) (tok : Token) (y : MEntry) : Prop where
  ctx : y.ctx = x.ctx
  ip : y.ip = x.ip
  need : y.need = x.need
  got : y.got = x.got ||| BitVec.ofNat 4 (2 ^ tagPort tok.tag)
  pmin : y.pmin = minPrio x.pmin (BitVec.ofNat 3 (tagPrio tok.tag))
  xway : y.xway = x.xway
  born : y.born = x.born
  at_ : y.at_ = x.at_

section

variable (x : MEntry) (now : Nat) (tok : Token)

theorem MEntry.withToken_took : x.Took tok (x.withToken now tok) := by
  simp only [MEntry.withToken]
  split_ifs <;> exact ⟨rfl, rfl, rfl, rfl, rfl, rfl, rfl, rfl⟩

theorem MEntry.withToken_st (h : x.got ||| BitVec.ofNat 4 (2 ^ tagPort tok.tag) ≠ x.need) : (x.withToken now tok).st = x.st := by
  simp only [MEntry.withToken]
  split_ifs <;> rfl

theorem MEntry.withToken_matched (h : x.got ||| BitVec.ofNat 4 (2 ^ tagPort tok.tag) = x.need) : (x.withToken now tok).st = .matched := by
  simp only [MEntry.withToken]
  split_ifs <;> rfl

theorem MEntry.withToken_left (h : tagPort tok.tag = 0) :
    (x.withToken now tok).val0 = tok.val ∧ (x.withToken now tok).sb0 = sbClean tok.sb := by
  simp only [MEntry.withToken, h, if_true]
  split_ifs <;> exact ⟨rfl, rfl⟩

theorem MEntry.withToken_right (h : tagPort tok.tag = 1) :
    (x.withToken now tok).val1 = tok.val ∧ (x.withToken now tok).sb1 = sbClean tok.sb := by
  simp only [MEntry.withToken, h, if_true, one_ne_zero, if_false]
  split_ifs <;> exact ⟨rfl, rfl⟩

end

/-! ## Filling an entry -/

/-- The place of the extension entry of the key at entry e (R164, R166). -/
def MEntry.ext (x : MEntry) (e : Nat) : Nat := entryNo (e / 24) x.xway.toNat

section

variable (c : Chan) (t e : Nat) (x : MEntry) (tok : Token)

/-- The operand goes to the primary entry, and that of PORT 2 to the extension entry, where there is one. -/
theorem Chan.fill_cases :
    (c.fill t e x tok = c.setEntry t e (x.withToken c.xclk tok)
      ∧ (tagPort tok.tag = 2 → (c.setEntry t e (x.withToken c.xclk tok)).entry t (x.ext e) = none))
    ∨ ∃ z, c.fill t e x tok
      = (c.setEntry t e (x.withToken c.xclk tok)).setEntry t (x.ext e) { z with val0 := tok.val, sb0 := sbClean tok.sb }
      ∧ (c.setEntry t e (x.withToken c.xclk tok)).entry t (x.ext e) = some z := by
  have hfill : c.fill t e x tok = (if tagPort tok.tag = 2 then
      match (c.setEntry t e (x.withToken c.xclk tok)).entry t (x.ext e) with
      | some z => (c.setEntry t e (x.withToken c.xclk tok)).setEntry t (x.ext e) { z with val0 := tok.val, sb0 := sbClean tok.sb }
      | none => c.setEntry t e (x.withToken c.xclk tok)
    else c.setEntry t e (x.withToken c.xclk tok)) := rfl
  rw [hfill]
  by_cases hport : tagPort tok.tag = 2
  · rw [if_pos hport]
    rcases hz : (c.setEntry t e (x.withToken c.xclk tok)).entry t (x.ext e) with _ | z
    · exact .inl ⟨rfl, fun _ => rfl⟩
    · exact .inr ⟨z, rfl, rfl⟩
  · rw [if_neg hport]
    exact .inl ⟨rfl, fun h => absurd h hport⟩

theorem Chan.stageSame_fill : c.StageSame (c.fill t e x tok) := by
  rcases c.fill_cases t e x tok with ⟨hfill, -⟩ | ⟨z, hfill, -⟩ <;> rw [hfill]
  · exact c.stageSame_setEntry _ _ _
  · exact (c.stageSame_setEntry _ _ _).andThen (Chan.stageSame_setEntry _ _ _ _)

theorem Chan.fill_births : (c.fill t e x tok).ms.births = c.ms.births := by
  rcases c.fill_cases t e x tok with ⟨hfill, -⟩ | ⟨z, hfill, -⟩ <;> rw [hfill] <;> rfl

theorem Chan.setEntry_entry_same : (c.setEntry t e x).entry t e = some x := by rw [Chan.setEntry_entry, if_pos rfl]

theorem Chan.setEntry_entry_ne {i : Nat} (h : i ≠ e) : (c.setEntry t e x).entry t i = c.entry t i := by
  rw [Chan.setEntry_entry, if_neg (by omega)]

theorem Chan.fill_entry_ne {i : Nat} (he : i ≠ e) (hx : i ≠ x.ext e) : (c.fill t e x tok).entry t i = c.entry t i := by
  rcases c.fill_cases t e x tok with ⟨hfill, -⟩ | ⟨z, hfill, -⟩ <;> rw [hfill]
  · exact c.setEntry_entry_ne t e _ he
  · rw [Chan.setEntry_entry_ne _ _ _ _ hx, Chan.setEntry_entry_ne _ _ _ _ he]

/-- The operand of PORT 2 in the extension entry. -/
theorem Chan.fill_ext (hport : tagPort tok.tag = 2) {z : MEntry} (hz : (c.fill t e x tok).entry t (x.ext e) = some z) :
    z.val0 = tok.val ∧ z.sb0 = sbClean tok.sb := by
  rcases c.fill_cases t e x tok with ⟨hfill, hnone⟩ | ⟨v, hfill, -⟩ <;> rw [hfill] at hz
  · rw [hnone hport] at hz
    exact absurd hz (by simp)
  · rw [Chan.setEntry_entry_same] at hz
    obtain rfl := Option.some.inj hz
    exact ⟨rfl, rfl⟩

/-- The entry as its token leaves it. -/
theorem Chan.fill_entry : ∃ y, (c.fill t e x tok).entry t e = some y ∧ x.Took tok y ∧ y.st = (x.withToken c.xclk tok).st
    ∧ (x.ext e ≠ e → HoldsOperand (c.fill t e x tok) t e y tok) := by
  have htook := x.withToken_took c.xclk tok
  have hholds : HoldsOperand (c.fill t e x tok) t e (x.withToken c.xclk tok) tok := by
    refine ⟨x.withToken_left c.xclk tok, x.withToken_right c.xclk tok, fun hport z hz => c.fill_ext t e x tok hport ?_⟩
    rwa [htook.xway] at hz
  rcases c.fill_cases t e x tok with ⟨hfill, -⟩ | ⟨z, hfill, hz⟩
  · exact ⟨_, hfill ▸ c.setEntry_entry_same t e _, htook, rfl, fun _ => hholds⟩
  · by_cases hapart : x.ext e = e
    · rw [hapart] at hz hfill
      obtain rfl : x.withToken c.xclk tok = z := Option.some.inj ((c.setEntry_entry_same t e _).symm.trans hz)
      rw [hfill]
      exact ⟨_, Chan.setEntry_entry_same _ t e _, { htook with }, rfl, fun h => absurd hapart h⟩
    · refine ⟨_, ?_, htook, rfl, fun _ => hholds⟩
      rw [hfill, Chan.setEntry_entry_ne _ t _ _ (Ne.symm hapart), c.setEntry_entry_same t e _]

end

/-! ## A new key (R166, R168) -/

/-- The primary entry of a key that no token has filled yet. -/
def freshEntry (born now ctx ip need xway : Nat) : MEntry :=
  { ctx := BitVec.ofNat 24 ctx, ip := BitVec.ofNat 16 ip, need := BitVec.ofNat 4 need, pmin := 7, xway := BitVec.ofNat 5 xway, born := born,
    at_ := now }

theorem freshEntry_got (born now ctx ip need xway : Nat) (b : BitVec 4) :
    (freshEntry born now ctx ip need xway).got ||| b = b := BitVec.zero_or

/-- The first token of a key sets its priority. -/
theorem freshEntry_pmin (born now ctx ip need xway : Nat) (p : BitVec 3) : minPrio (freshEntry born now ctx ip need xway).pmin p = p := by
  have hp := p.isLt
  change (if 7 ≤ p.toNat then (7 : BitVec 3) else p) = p
  split
  · exact BitVec.eq_of_toNat_eq (show 7 = p.toNat by omega)
  · rfl

/-- The ways of a key are two free ways of its row, or one and none. -/
theorem Chan.keyWays_apart {c : Chan} {t row need way xway : Nat} {elder : Bool} (h : c.keyWays t row need elder = some (way, xway)) :
    way < 24 ∧ xway < 32 ∧ xway ≠ way := by
  have hfree : ∀ v ∈ c.freeWays t row elder, v < 24 := fun v hv => by
    have hrange := List.mem_range.1 (List.mem_of_mem_filter hv)
    split at hrange <;> omega
  have hdistinct : (c.freeWays t row elder).Nodup := List.nodup_range.filter _
  rw [Chan.keyWays] at h
  rcases hways : c.freeWays t row elder with _ | ⟨a, _ | ⟨b, l⟩⟩ <;> rw [hways] at h hfree hdistinct
  · exact absurd h (by simp)
  · have ha := hfree a (by simp)
    dsimp only at h
    split at h
    · exact absurd h (by simp)
    · obtain ⟨rfl, rfl⟩ := Prod.mk.inj (Option.some.inj h)
      omega
  · have ha := hfree a (by simp)
    have hb := hfree b (by simp)
    have hab : a ≠ b := fun hab => (List.nodup_cons.1 hdistinct).1 (by simp [hab])
    obtain ⟨rfl, rfl⟩ := Prod.mk.inj (Option.some.inj h)
    split <;> omega

section

variable (c : Chan) (now t row ctx ip need way xway : Nat)

/-- The entries of a new key. -/
def Chan.putKey : Chan :=
  let x := freshEntry c.ms.births now ctx ip need xway
  let d := c.setEntry t (entryNo row way) x
  if xway = 31 then d
  else d.setEntry t (entryNo row xway) { ctx := x.ctx, ip := x.ip, st := .extension, born := c.ms.births, at_ := now, xway := 0 }

theorem Chan.stageSame_putKey : c.StageSame (c.putKey now t row ctx ip need way xway) := by
  simp only [Chan.putKey]
  split
  · exact c.stageSame_setEntry _ _ _
  · exact (c.stageSame_setEntry _ _ _).andThen (Chan.stageSame_setEntry _ _ _ _)

theorem Chan.putKey_births : (c.putKey now t row ctx ip need way xway).ms.births = c.ms.births := by
  simp only [Chan.putKey]
  split <;> rfl

theorem Chan.putKey_entry (h : xway ≠ way) :
    (c.putKey now t row ctx ip need way xway).entry t (entryNo row way) = some (freshEntry c.ms.births now ctx ip need xway) := by
  have hplaces : entryNo row way ≠ entryNo row xway := by simp only [entryNo]; omega
  simp only [Chan.putKey]
  split
  · exact c.setEntry_entry_same t _ _
  · exact (Chan.setEntry_entry_ne _ t _ _ hplaces).trans (c.setEntry_entry_same t _ _)

theorem Chan.putKey_entry_ne {i : Nat} (hway : i ≠ entryNo row way) (hxway : i ≠ entryNo row xway) :
    (c.putKey now t row ctx ip need way xway).entry t i = c.entry t i := by
  simp only [Chan.putKey]
  split
  · exact c.setEntry_entry_ne t _ _ hway
  · exact (Chan.setEntry_entry_ne _ t _ _ hxway).trans (c.setEntry_entry_ne t _ _ hway)

/-- The channel of a new key: its entries, the number of allocations, and MSCOUNT of its context. -/
theorem Chan.allocKey_eq : c.allocKey now t row ctx ip need way xway
    = (({ c.putKey now t row ctx ip need way xway with ms := { (c.putKey now t row ctx ip need way xway).ms with
        births := (c.putKey now t row ctx ip need way xway).ms.births + 1 } } : Chan).msAdd ctx
        (freshEntry c.ms.births now ctx ip need xway).size).msMoved := rfl

theorem Chan.stageSame_allocKey : c.StageSame (c.allocKey now t row ctx ip need way xway) := by
  rw [Chan.allocKey_eq]
  exact (((c.stageSame_putKey ..).andThen (Chan.stageSame_ms _ _)).andThen (Chan.stageSame_msAdd _ _ _)).andThen (Chan.stageSame_ms _ _)

theorem Chan.allocKey_births : (c.allocKey now t row ctx ip need way xway).ms.births = c.ms.births + 1 := by
  rw [Chan.allocKey_eq, Chan.msMoved, Chan.msAdd_ms, c.putKey_births]

theorem Chan.allocKey_entry_eq (i : Nat) :
    (c.allocKey now t row ctx ip need way xway).entry t i = (c.putKey now t row ctx ip need way xway).entry t i := by
  rw [Chan.allocKey_eq, Chan.msMoved, Chan.entry, Chan.msAdd_ms]
  rfl

end

end Sys2Proof.Machine
end

section
/-! What the row compare makes of a token (R166 to R170): an operand in an entry that waits, a new key, a firing that becomes ready. -/

namespace Sys2Proof.Machine

/-! ## The row compare, case by case -/

section

variable {c : Chan} {t : Nat} {tok : Token} {w : Word} (now : Nat) (filter : Bool)

section

variable {e : Nat} {x : MEntry} (hkey : HasKey c t tok e x)

include hkey

theorem rowCompare_fills (hpart : x.got ||| BitVec.ofNat 4 (2 ^ tagPort tok.tag) ≠ x.need) :
    c.rowCompare now t tok w filter = .done (c.fill t e x tok) := by
  rw [HasKey, keyRow] at hkey
  simp only [Chan.rowCompare, hkey, beq_eq_false_iff_ne.2 hpart, Bool.false_and, Bool.false_eq_true, if_false]

theorem rowCompare_completes (hfull : x.got ||| BitVec.ofNat 4 (2 ^ tagPort tok.tag) = x.need) (hfree : c.stageBusy t = false) {y : MEntry}
    (hy : (c.fill t e x tok).entry t e = some y) :
    c.rowCompare now t tok w filter = .done ((c.fill t e x tok).readyStage t (packetOf w y e)) := by
  rw [HasKey, keyRow] at hkey
  simp only [Chan.rowCompare, hkey, beq_iff_eq.2 hfull, hfree, Bool.and_false, Bool.false_eq_true, if_false, hy]

end

/-- The primary entry of a token's new key, and the channel with the key, before the token fills it. -/
def Chan.newEntry (c : Chan) (now : Nat) (tok : Token) (w : Word) (xway : Nat) : MEntry :=
  freshEntry c.ms.births now (tagCtx tok.tag) (tagIp tok.tag) (needPorts w) xway

def Chan.allotted (c : Chan) (now t : Nat) (tok : Token) (w : Word) (way xway : Nat) : Chan :=
  c.allocKey now t (keyRow tok) (tagCtx tok.tag) (tagIp tok.tag) (needPorts w) way xway

/-- The channel once the new key has its first operand. -/
def Chan.keyed (c : Chan) (now t : Nat) (tok : Token) (w : Word) (way xway : Nat) : Chan :=
  (c.allotted now t tok w way xway).fill t (entryNo (keyRow tok) way) (c.newEntry now tok w xway) tok

theorem Chan.allotted_entry {way xway : Nat} (h : xway ≠ way) :
    (c.allotted now t tok w way xway).entry t (entryNo (keyRow tok) way) = some (c.newEntry now tok w xway) :=
  (c.allocKey_entry_eq ..).trans (c.putKey_entry now t (keyRow tok) (tagCtx tok.tag) (tagIp tok.tag) (needPorts w) way xway h)

section

variable {way xway : Nat} (hnew : NewKey c t tok w way xway)

include hnew

theorem rowCompare_allocates (hpart : needPorts w ≠ 2 ^ tagPort tok.tag) :
    c.rowCompare now t tok w filter = .done (c.keyed now t tok w way xway) := by
  obtain ⟨hnone, hunspilled, hways⟩ := hnew
  obtain ⟨-, -, hapart⟩ := Chan.keyWays_apart hways
  have hentry := Chan.allotted_entry (c := c) (t := t) (tok := tok) (w := w) now hapart
  rw [keyRow] at hnone hways
  rw [Chan.allotted, keyRow] at hentry
  simp only [Chan.rowCompare, hnone, hunspilled, hways, beq_eq_false_iff_ne.2 hpart, Bool.and_false, Bool.false_and, Bool.false_eq_true,
    if_false, hentry]
  rfl

theorem rowCompare_allocates_ready (hfull : needPorts w = 2 ^ tagPort tok.tag) (hfree : c.stageBusy t = false) {y : MEntry}
    (hy : (c.keyed now t tok w way xway).entry t (entryNo (keyRow tok) way) = some y) :
    c.rowCompare now t tok w filter
      = .done ((c.keyed now t tok w way xway).readyStage t (packetOf w y (entryNo (keyRow tok) way))) := by
  obtain ⟨hnone, hunspilled, hways⟩ := hnew
  obtain ⟨-, -, hapart⟩ := Chan.keyWays_apart hways
  have hentry := Chan.allotted_entry (c := c) (t := t) (tok := tok) (w := w) now hapart
  rw [Chan.keyed, Chan.allotted] at hy ⊢
  rw [Chan.allotted] at hentry
  rw [keyRow] at hnone hways hy hentry ⊢
  simp only [Chan.rowCompare, hnone, hunspilled, hways, beq_iff_eq.2 hfull, hfree, Bool.and_false, Bool.false_eq_true, if_false, hentry, hy]

end

end

/-! ## What the row compare leaves (R166 to R168, R172) -/

theorem needPorts_lt (w : Word) : needPorts w < 16 := by
  have harity : iArity w < 4 := wbits_lt _ _ 2
  have hcount : portCount w ≤ 3 := by
    rw [portCount]
    omega
  have hpow : 2 ^ portCount w ≤ 2 ^ 3 := Nat.pow_le_pow_right (by omega) hcount
  have htrig : b2n (iTrig w) ≤ 1 := by cases iTrig w <;> decide
  rw [needPorts]
  omega

theorem portBit_lt (tok : Token) : 2 ^ tagPort tok.tag < 16 := by
  have hport : tagPort tok.tag < 4 := wbits_lt _ _ 2
  exact Nat.pow_lt_pow_right (by omega) hport

/-- The ports of a new key are complete with the token's when the numbers say so. -/
theorem fresh_complete (tok : Token) (w : Word) :
    BitVec.ofNat 4 (2 ^ tagPort tok.tag) = BitVec.ofNat 4 (needPorts w) ↔ needPorts w = 2 ^ tagPort tok.tag := by
  rw [← BitVec.toNat_inj, BitVec.toNat_ofNat, BitVec.toNat_ofNat, Nat.mod_eq_of_lt (portBit_lt tok), Nat.mod_eq_of_lt (needPorts_lt w),
    eq_comm]

theorem HasKey.ctx {c : Chan} {t e : Nat} {tok : Token} {x : MEntry} (h : HasKey c t tok e x) : x.ctx.toNat = tagCtx tok.tag := by
  have hmem := mem_sortBy.1 (List.mem_of_mem_head? h)
  have hctx := (List.mem_filter.1 hmem).2
  simp only [Bool.and_eq_true, beq_iff_eq] at hctx
  obtain ⟨⟨⟨-, hid⟩, -⟩, -⟩ := hctx
  exact hid

section

variable {c : Chan} {t : Nat} {tok : Token} {w : Word}

/-- The entries that take the operand of a token, once it is filled. -/
theorem fill_completes {e : Nat} {x : MEntry} (hctx : x.ctx.toNat = tagCtx tok.tag) {d : Chan} (hsame : c.StageSame d)
    (hfull : x.got ||| BitVec.ofNat 4 (2 ^ tagPort tok.tag) = x.need) (hready : readyCtx c tok = true) :
    ∃ y, (d.fill t e x tok).entry t e = some y ∧ ReadyAt c ((d.fill t e x tok).readyStage t (packetOf w y e)) t e w := by
  obtain ⟨y, hy, htook, hst, -⟩ := d.fill_entry t e x tok
  have hyctx : y.ctx.toNat = tagCtx tok.tag := by rw [htook.ctx, hctx]
  simp only [readyCtx, Bool.and_eq_true, beq_iff_eq] at hready
  obtain ⟨hlive, hkind⟩ := hready
  rw [← hyctx] at hlive hkind
  have hmatched : y.st = .matched := hst.trans (x.withToken_matched _ tok hfull)
  have hgot : y.got = y.need := by rw [htook.got, htook.need, hfull]
  exact ⟨y, hy, readyAt_readyStage (hsame.andThen (d.stageSame_fill t e x tok)) hy hmatched hgot hlive hkind⟩

/-- The new key and its entries, once it has its first operand. -/
theorem keyed_entry {now way xway : Nat} (hnew : NewKey c t tok w way xway) :
    ∃ y, (c.keyed now t tok w way xway).entry t (entryNo (keyRow tok) way) = some y
      ∧ (c.newEntry now tok w xway).Took tok y
      ∧ (needPorts w ≠ 2 ^ tagPort tok.tag → y.st = .wait)
      ∧ HoldsOperand (c.keyed now t tok w way xway) t (entryNo (keyRow tok) way) y tok
      ∧ ∀ i, i ≠ entryNo (keyRow tok) way → i ≠ entryNo (keyRow tok) xway →
        (c.keyed now t tok w way xway).entry t i = c.entry t i := by
  obtain ⟨hway, hxway, hapart⟩ := Chan.keyWays_apart hnew.ways
  have hext : (c.newEntry now tok w xway).ext (entryNo (keyRow tok) way) = entryNo (keyRow tok) xway := by
    have hrow : entryNo (keyRow tok) way / 24 = keyRow tok := by simp only [entryNo]; omega
    rw [MEntry.ext, hrow, Chan.newEntry, freshEntry, BitVec.toNat_ofNat, Nat.mod_eq_of_lt (by omega)]
  have hplaces : entryNo (keyRow tok) xway ≠ entryNo (keyRow tok) way := by simp only [entryNo]; omega
  obtain ⟨y, hy, htook, hst, hholds⟩ := (c.allotted now t tok w way xway).fill_entry t (entryNo (keyRow tok) way)
    (c.newEntry now tok w xway) tok
  refine ⟨y, hy, htook, fun hpart => hst.trans (MEntry.withToken_st _ _ _ ?_), hholds (by rwa [hext]), fun i hi hxi => ?_⟩
  · rw [Chan.newEntry, freshEntry_got]
    exact fun h => hpart ((fresh_complete tok w).1 h)
  · rw [Chan.keyed, Chan.fill_entry_ne _ t _ _ tok hi (by rwa [hext]), Chan.allotted, Chan.allocKey_entry_eq,
      c.putKey_entry_ne _ _ _ _ _ _ _ _ hi hxi]

/-- Whatever channel the row compare gives, if it gives one. -/
theorem rowed_rowCompare {d : Chan} {filter : Bool} (hd : ∀ e, c.rowCompare c.xclk t tok w filter = .done e → d = e) :
    Rowed c d t tok w := by
  refine ⟨fun e x hkey hpart => ?_, fun e x hkey hfull hfree hready happart => ?_, fun way xway hnew hpart => ?_,
    fun way xway hnew hfull hfree hready => ?_⟩
  · obtain rfl := hd _ (rowCompare_fills _ _ hkey hpart)
    obtain ⟨y, hy, htook, hst, hholds⟩ := c.fill_entry t e x tok
    exact ⟨y, hy, htook.got, htook.need, htook.ctx, htook.ip, hst.trans (x.withToken_st _ tok hpart), htook.xway, htook.pmin, hholds,
      fun i _ _ hi hxi => c.fill_entry_ne t e x tok hi hxi⟩
  · obtain ⟨y, hy, hat⟩ := fill_completes (t := t) (e := e) (w := w) hkey.ctx (c.stageSame_ms c.ms) hfull hready
    rwa [hd _ (rowCompare_completes _ _ hkey hfull hfree hy)]
  · obtain rfl := hd _ (rowCompare_allocates _ _ hnew hpart)
    obtain ⟨y, hy, htook, hst, hholds, hrest⟩ := keyed_entry (now := c.xclk) hnew
    refine ⟨y, hy, htook.ctx, htook.ip, htook.need, ?_, hst hpart, htook.xway, htook.at_, htook.born, ?_, ?_, hholds,
      fun i _ hi hxi => hrest i hi hxi⟩
    · rw [htook.got, Chan.newEntry, freshEntry_got]
    · rw [Chan.keyed, Chan.fill_births, Chan.allotted, Chan.allocKey_births]
    · rw [htook.pmin, Chan.newEntry, freshEntry_pmin]
  · have hcomplete : (c.newEntry c.xclk tok w xway).got ||| BitVec.ofNat 4 (2 ^ tagPort tok.tag) = (c.newEntry c.xclk tok w xway).need := by
      rw [Chan.newEntry, freshEntry_got]
      exact (fresh_complete tok w).2 hfull
    have hctx : (c.newEntry c.xclk tok w xway).ctx.toNat = tagCtx tok.tag := Nat.mod_eq_of_lt (wbits_lt _ _ 24)
    have hsame : c.StageSame (c.allotted c.xclk t tok w way xway) := c.stageSame_allocKey ..
    obtain ⟨y, hy, hat⟩ := fill_completes (t := t) (e := entryNo (keyRow tok) way) (w := w) hctx hsame hcomplete hready
    rwa [hd _ (rowCompare_allocates_ready _ _ hnew hfull hfree hy)]

end

end Sys2Proof.Machine
end

section
/-! A token at its home tile (R70, R71, R83, R167 to R171, R175): the judgement of its context, its place, and its arrival. -/

namespace Sys2Proof.Machine

/-! ## The judgement of a token (R70, R83, R88, R189, R302) -/

section

variable {c : Chan} {t : Nat} {tok : Token} {w : Word} (now : Nat) (again : Bool)

theorem Chan.missTok_room {m : Missed} (h : (c.tile t).miss.length < 8) :
    c.missTok t m = .done (c.setTile t { c.tile t with miss := (c.tile t).miss ++ [m] }) := by rw [Chan.missTok, if_pos h]

theorem Chan.judge_denied (hip : 0xE000 ≤ tagIp tok.tag) (hsupv : (c.ctx (tagCtx tok.tag)).supv = false) :
    c.judge now t .live tok w again = .done (c.cause now (tagCtx tok.tag) 0x23 (tagIp tok.tag) 0) := by
  simp only [Chan.judge, hip, hsupv, and_self, if_true]

section

variable (hmay : tagIp tok.tag < 0xE000 ∨ (c.ctx (tagCtx tok.tag)).supv = true)

include hmay

theorem not_denied : ¬ (0xE000 ≤ tagIp tok.tag ∧ (c.ctx (tagCtx tok.tag)).supv = false) := by
  rintro ⟨hip, hsupv⟩
  rcases hmay with hlow | hsup
  · omega
  · simp [hsupv] at hsup

theorem Chan.judge_port (hport : portConsumed w (tagPort tok.tag) = false) : c.judge now t .live tok w again
    = .done ((c.inc F.msFirestatPorterr).cause now (tagCtx tok.tag) 0x20 (tagIp tok.tag) (portDetail w)) := by
  simp only [Chan.judge, if_neg (not_denied hmay), hport, Bool.not_false, if_true]

theorem Chan.judge_allowed (hport : portConsumed w (tagPort tok.tag) = true) : c.judge now t .live tok w again
    = if c.evicting t (tagCtx tok.tag) (tagIp tok.tag) then c.missTok t ⟨tok, w, .eviction⟩
      else if !again && c.rowBorrowed t (keyRow tok) then c.missTok t ⟨tok, w, .shuffle⟩ else c.rowCompare now t tok w true := by
  simp only [Chan.judge, if_neg (not_denied hmay), hport, Bool.not_true, Bool.false_eq_true, if_false]
  rfl

end

end

/-! ## A token's place (R168 to R170) -/

section

variable {c : Chan} {t : Nat} {tok : Token} {w : Word} (now : Nat)

theorem rowCompare_cutIn (hnone : c.candidate t (keyRow tok) (tagCtx tok.tag) (tagIp tok.tag) (tagPort tok.tag) = none)
    (hspill : c.maySpill t (tagCtx tok.tag) (tagIp tok.tag) = true) (hroom : c.ms.cutq.length < 32) :
    c.rowCompare now t tok w true = .done { c with ms := { c.ms with cutq := c.ms.cutq ++ [⟨t, tok, w⟩] } } := by
  rw [keyRow] at hnone
  simp only [Chan.rowCompare, hnone, hspill, Bool.and_self, if_true, hroom]

theorem rowCompare_full (hnone : c.candidate t (keyRow tok) (tagCtx tok.tag) (tagIp tok.tag) (tagPort tok.tag) = none)
    (hunspilled : c.maySpill t (tagCtx tok.tag) (tagIp tok.tag) = false)
    (hways : c.keyWays t (keyRow tok) (needPorts w) (c.ctx (tagCtx tok.tag)).elder = none) : c.rowCompare now t tok w true = .full := by
  rw [keyRow] at hnone hways
  simp only [Chan.rowCompare, hnone, hunspilled, Bool.and_false, Bool.false_eq_true, if_false, hways]

theorem Chan.place_full (errs : LineErrs) (hroom : (c.tile t).defer.length < 4) :
    c.place now t tok w errs .full = some (c.deferTok now t tok w errs) := by
  simp only [Chan.place, hroom, if_true]

end

/-- What becomes of a token that is judged, whatever channel its place gives, if it gives one. -/
theorem judged_place {c d : Chan} {t : Nat} {tok : Token} {w : Word} {st : CtxSt} {again : Bool} {errs : LineErrs}
    (hd : ∀ e, c.place c.xclk t tok w errs (c.judge c.xclk t st tok w again) = some e → d = e) : Judged st c d t tok w again errs := by
  have hdone : ∀ e, c.judge c.xclk t st tok w again = .done e → d = e := fun e he => hd e (by rw [he]; rfl)
  constructor
  case dead => rintro (rfl | rfl) <;> exact hdone _ rfl
  case poisoned => rintro rfl; exact hdone _ rfl
  case denied => rintro rfl hip hsupv; exact hdone _ (Chan.judge_denied _ _ hip hsupv)
  case port => rintro rfl hmay hport; exact hdone _ (Chan.judge_port _ _ hmay hport)
  case evicted =>
    rintro rfl hmay hport hevict hroom
    rw [hdone _ (by rw [Chan.judge_allowed _ _ hmay hport, if_pos hevict, Chan.missTok_room hroom]), Chan.setTile_tile_same]
  case borrowed =>
    rintro rfl hmay hport hevict rfl hborrowed hroom
    rw [hdone _ (by
      rw [Chan.judge_allowed _ _ hmay hport, hevict, if_neg Bool.false_ne_true, hborrowed, if_pos (by rfl), Chan.missTok_room hroom]),
      Chan.setTile_tile_same]
  case rowed =>
    rintro rfl hmay hport hevict hwhole
    have hrow : c.judge c.xclk t .live tok w again = c.rowCompare c.xclk t tok w true := by
      have hpass : (!again && c.rowBorrowed t (keyRow tok)) = false := by rcases hwhole with rfl | h <;> simp [*]
      rw [Chan.judge_allowed _ _ hmay hport, hevict, if_neg Bool.false_ne_true, hpass, if_neg Bool.false_ne_true]
    rw [hrow] at hd hdone
    refine ⟨rowed_rowCompare hdone, fun hnone => ⟨fun hspill hroom => ?_, fun hunspilled hways hroom => hd _ ?_⟩⟩
    · rw [hdone _ (rowCompare_cutIn _ hnone hspill hroom)]
    · rw [rowCompare_full _ hnone hunspilled hways, Chan.place_full _ _ hroom]

/-! ## The row read takes no time (R175, R625) -/

theorem Chan.poisonCtx_xclk (c : Chan) (now id : Nat) : (c.poisonCtx now id).xclk = c.xclk := by
  simp only [Chan.poisonCtx]
  split
  · rfl
  · split
    · exact (Chan.keeps_orphan _ _ _).xclk
    · exact ((((Chan.keeps_leaveLive _ _ _ _).andThen (Chan.keeps_skipPositions _ _)).andThen (Chan.keeps_sendStatus _ _ _ _ _)).andThen
        (Chan.keeps_noteEnd _ _)).xclk

theorem Chan.giveBack_xclk (c : Chan) (g : Option Grant) : (c.giveBack g).xclk = c.xclk := by cases g <;> rfl

theorem Chan.forgetPacket_xclk (c : Chan) (t row way : Nat) : (c.forgetPacket t row way).xclk = c.xclk := by
  simp only [Chan.forgetPacket]
  refine (foldl_leaves Chan.xclk _ (fun c e => ?_) _ _).trans (foldl_leaves Chan.xclk _ (fun c p =>
    foldl_leaves Chan.xclk _ (fun c i => ?_) _ _) _ _)
  · split
    · split
      · exact Chan.giveBack_xclk _ _
      · rfl
    · rfl
  · split <;> rfl

theorem Chan.stopEvictOf_xclk (c : Chan) (t e : Nat) (x : MEntry) : (c.stopEvictOf t e x).xclk = c.xclk := by
  simp only [Chan.stopEvictOf]
  split
  · split <;> rfl
  · rfl

theorem Chan.entryLost_xclk (c : Chan) (now t e : Nat) : (c.entryLost now t e).xclk = c.xclk := by
  simp only [Chan.entryLost]
  split
  · rfl
  · next p x _ =>
    have hstop : ((c.inc F.msStatUncorr).stopEvictOf t p x).xclk = c.xclk := (Chan.stopEvictOf_xclk _ _ _ _).trans (Chan.inc_xclk _ _)
    have hends : ∀ d : Chan, d.xclk = c.xclk → (if x.ctx.toNat == 0 && d.live 0 then d.poisonCtx now 0
        else (d.orphan x.ctx.toNat).poisonCtx now x.ctx.toNat).xclk = c.xclk := fun d hd => by
      split
      · exact (d.poisonCtx_xclk _ _).trans hd
      · exact (Chan.poisonCtx_xclk _ _ _).trans ((d.keeps_orphan _ _).xclk.trans hd)
    refine hends _ ((Chan.keeps_freeKey _ _ _).xclk.trans ?_)
    split
    · exact (Chan.forgetPacket_xclk _ _ _ _).trans hstop
    · exact hstop

theorem Chan.recordLost_xclk (c : Chan) (now id : Nat) : (c.recordLost now id).xclk = c.xclk := by
  simp only [Chan.recordLost]
  split
  · rfl
  · exact c.poisonCtx_xclk _ _
  · split <;> rfl

theorem Chan.rowRead_xclk (c : Chan) (now t row id : Nat) (f : RowFault) : (c.rowRead now t row id f).xclk = c.xclk := by
  cases f with
  | clean => rfl
  | record => exact c.recordLost_xclk now id
  | corrected w =>
    simp only [Chan.rowRead]
    split <;> rfl
  | uncorrectable w =>
    simp only [Chan.rowRead]
    split
    · exact c.entryLost_xclk _ _ _
    · rfl

/-! ## The arrival (R70, R71, R171) -/

section

variable {s : State} {k : Ch} {t : Tile} {f : RowFault} {errs : LineErrs} {p : NPkt} {tok : Token}

/-- The channel after the row read of the token in the arrival register. -/
def Chan.atHome (c : Chan) (t : Nat) (f : RowFault) (tok : Token) : Chan :=
  if f = .record ∧ malformed tok = true then c.takeArrived t 0
  else (c.takeArrived t 0).rowRead c.xclk t (keyRow tok) (tagCtx tok.tag) f

/-- The token's place after its row read: none while it has to wait. -/
def Chan.settled (b : Chan) (now t : Nat) (tok : Token) (w : Word) (errs : LineErrs) : Option Chan :=
  if malformed tok then some (b.stray F.chTokstatMalformed tok)
  else if b.ctxLimit ≤ tagCtx tok.tag then some (b.stray F.chTokstatDeadctx tok)
  else if !b.cacheHas (tagCtx tok.tag) then
    match b.missTok t ⟨tok, w, .record⟩ with
    | .done d => some (d.inc F.msStatMiss)
    | _ => none
  else
    (b.cacheTouch (tagCtx tok.tag) false).place now t tok w errs
      ((b.cacheTouch (tagCtx tok.tag) false).judge now t ((b.cacheTouch (tagCtx tok.tag) false).seenSt (tagCtx tok.tag)) tok w false)

theorem Chan.arrival_eq (c : Chan) (w : Word) : (c.takeArrived t.val 0).arrival c.xclk t.val tok w f errs
    = (c.atHome t.val f tok).settled c.xclk t.val tok w errs := rfl

theorem tokenArrival_gives (harr : (s.chan k.val).arrived t.val 0 = some p) (hpay : p.pay = .tok tok)
    (hon : (s.chan k.val).tileOn t.val = true) :
    Gives (.tokenArrival k t f errs) s k
      ((((s.chan k.val).atHome t.val f tok).settled (s.chan k.val).xclk t.val tok p.word errs).getD (s.chan k.val)) := by
  have hexec : exec (.tokenArrival k t f errs) s = execTokenArrival k t f s errs := rfl
  rw [Gives, hexec, execTokenArrival, onCh]
  cases p
  cases hpay
  simp only [harr, hon, Bool.not_true, Bool.false_eq_true, if_false, Chan.arrival_eq]
  rcases (s.chan k.val).atHome t.val f tok |>.settled (s.chan k.val).xclk t.val tok _ errs with _ | d
  · rfl
  · rfl

/-! ## What the arrival makes of the token -/

section

variable {b : Chan} (now : Nat) (w : Word)

theorem Chan.settled_malformed (h : malformed tok = true) : b.settled now t.val tok w errs = some (b.stray F.chTokstatMalformed tok) := by
  rw [Chan.settled, if_pos h]

theorem Chan.settled_outside (h : malformed tok = false) (hid : b.ctxLimit ≤ tagCtx tok.tag) :
    b.settled now t.val tok w errs = some (b.stray F.chTokstatDeadctx tok) := by
  rw [Chan.settled, h, if_neg Bool.false_ne_true, if_pos hid]

theorem Chan.settled_missed (h : malformed tok = false) (hid : tagCtx tok.tag < b.ctxLimit) (hmiss : b.cacheHas (tagCtx tok.tag) = false)
    (hroom : (b.tile t.val).miss.length < 8) : b.settled now t.val tok w errs
      = some ((b.setTile t.val { b.tile t.val with miss := (b.tile t.val).miss ++ [⟨tok, w, .record⟩] }).inc F.msStatMiss) := by
  rw [Chan.settled, h, if_neg Bool.false_ne_true, if_neg (by omega), hmiss, if_pos (by rfl), Chan.missTok_room hroom]

theorem Chan.settled_cached (h : malformed tok = false) (hid : tagCtx tok.tag < b.ctxLimit) (hhit : b.cacheHas (tagCtx tok.tag) = true) :
    b.settled now t.val tok w errs = (b.cacheTouch (tagCtx tok.tag) false).place now t.val tok w errs
      ((b.cacheTouch (tagCtx tok.tag) false).judge now t.val
        ((b.cacheTouch (tagCtx tok.tag) false).seenSt (tagCtx tok.tag)) tok w false) := by
  rw [Chan.settled, h, if_neg Bool.false_ne_true, if_neg (by omega), hhit, if_neg (by decide)]

end

theorem Chan.atHome_xclk (c : Chan) : (c.atHome t.val f tok).xclk = c.xclk := by
  rw [Chan.atHome]
  split
  · rfl
  · exact Chan.rowRead_xclk _ _ _ _ _ _

end

/-- Settles O16: the rows of R70 in their order, and `judged_place` for a token whose record is cached. -/
theorem tokenArrival : Obligations.TokenArrival := by
  intro s k t f errs p tok b harr hpay hon hb
  have hgives := tokenArrival_gives (f := f) (errs := errs) harr hpay hon
  have hb' : (s.chan k.val).atHome t.val f tok = b := hb.symm
  rw [hb'] at hgives
  refine ⟨fun hbad => ?_, fun hgood hout => ?_, fun hgood hin hmiss hroom => ?_, fun hgood hin hhit => ?_⟩
  · rwa [Chan.settled_malformed _ _ hbad] at hgives
  · rwa [Chan.settled_outside _ _ hgood hout] at hgives
  · rw [Chan.settled_missed _ _ hgood hin hmiss hroom] at hgives
    refine ⟨_, hgives, ?_, ?_⟩
    · rw [Option.getD_some, Chan.inc_tile, Chan.setTile_tile_same]
    · exact Chan.fld_inc _ F.msStatMiss (by decide)
  · refine ⟨_, hgives, judged_place fun e he => ?_⟩
    have hnow : (b.cacheTouch (tagCtx tok.tag) false).xclk = (s.chan k.val).xclk := by
      rw [(b.keeps_cacheTouch _ _).xclk, ← hb', Chan.atHome_xclk]
    rw [hnow] at he
    rw [Chan.settled_cached _ _ hgood hin hhit, he, Option.getD_some]

end Sys2Proof.Machine
end

section
/-! The integer instructions in a firing (R91, R93, R94, R127 to R131): the value each computes, as the row of its command states it. -/

namespace Sys2Proof.Machine

/-! ## Quotients, remainders and magnitudes -/

theorem outside64_neg (l : Word) : outside64 (-l.toInt) = (l == BitVec.intMin 64) := by
  have hlt := BitVec.toInt_lt (x := l)
  have hle := BitVec.le_toInt (x := l)
  have hmin : l = BitVec.intMin 64 ↔ l.toInt = -2 ^ 63 := BitVec.toInt_inj.symm
  rw [outside64, Bool.eq_iff_iff]
  simp only [Bool.or_eq_true, decide_eq_true_eq, beq_iff_eq, hmin]
  omega

theorem narrow64_neg (l : Word) : narrow64 (-l.toInt) = ⟨-l, flIf (l == BitVec.intMin 64) flIOV⟩ := by
  have hval : BitVec.ofInt 64 (-l.toInt) = -l := by simp [BitVec.ofInt_neg]
  rw [narrow64, outside64_neg, hval]

theorem outside64_toInt (l : Word) : outside64 l.toInt = false := by
  have hlt := BitVec.toInt_lt (x := l)
  have hle := BitVec.le_toInt (x := l)
  simp only [outside64, Bool.or_eq_false_iff, decide_eq_false_iff_not]
  omega

theorem narrow64_toInt (l : Word) : narrow64 l.toInt = ⟨l, 0⟩ := by
  simp [narrow64, outside64_toInt, flIf]

/-- The most negative number is the one whose magnitude does not fit (R128). -/
theorem intAbs_eq (l : Word) : intAbs l = ⟨if l.slt 0 then -l else l, flIf (l == BitVec.intMin 64) flIOV⟩ := by
  have hslt : l.slt 0 = true ↔ l.toInt < 0 := by simp [BitVec.slt]
  by_cases hneg : l.toInt < 0
  · rw [intAbs, if_pos hneg, narrow64_neg, if_pos (hslt.2 hneg)]
  · have hmin : (l == BitVec.intMin 64) = false := by
      rw [beq_eq_false_iff_ne]
      rintro rfl
      exact hneg (by decide)
    rw [intAbs, if_neg hneg, narrow64_toInt, if_neg (mt hslt.1 hneg), hmin]
    rfl

/-- The quotient of two words lies outside the signed range for the most negative number by -1 alone (R130). -/
theorem outside64_tdiv (l r : Word) : outside64 (l.toInt.tdiv r.toInt) = (l == BitVec.intMin 64 && r == BitVec.allOnes 64) := by
  by_cases hover : l = BitVec.intMin 64 ∧ r = BitVec.allOnes 64
  · obtain ⟨rfl, rfl⟩ := hover
    decide
  · have hin : (l.sdiv r).toInt = l.toInt.tdiv r.toInt :=
      BitVec.toInt_sdiv_of_ne_or_ne l r (by simpa [BitVec.neg_one_eq_allOnes, imp_iff_not_or] using hover)
    rw [← hin, outside64_toInt, eq_comm, Bool.and_eq_false_iff]
    simpa [imp_iff_not_or] using hover

theorem narrow64_tdiv (l r : Word) :
    narrow64 (l.toInt.tdiv r.toInt) = ⟨l.sdiv r, flIf (l == BitVec.intMin 64 && r == BitVec.allOnes 64) flIOV⟩ := by
  have hval : BitVec.ofInt 64 (l.toInt.tdiv r.toInt) = l.sdiv r :=
    BitVec.eq_of_toInt_eq (by rw [BitVec.toInt_ofInt, BitVec.toInt_sdiv])
  rw [narrow64, outside64_tdiv, hval]

theorem ofInt_tmod (l r : Word) : BitVec.ofInt 64 (l.toInt.tmod r.toInt) = l.srem r := by
  rw [← BitVec.toInt_srem, BitVec.ofInt_toInt]

/-! ## Counts of bits -/

/-- The numbers below n that lie below k. -/
theorem countP_range_lt (n k : Nat) : (List.range n).countP (fun i => decide (i < k)) = min n k := by
  induction n with
  | zero => simp
  | succ n ih =>
    rw [List.range_succ, List.countP_append, ih, List.countP_singleton]
    split <;> simp_all <;> omega

/-- The numbers below n that reach k. -/
theorem countP_range_ge (n k : Nat) : (List.range n).countP (fun i => decide (k ≤ i)) = n - k := by
  have hlen := List.length_eq_countP_add_countP (fun i => decide (i < k)) (l := List.range n)
  simp only [countP_range_lt, List.length_range, decide_eq_true_eq, not_lt] at hlen
  omega

/-- A word's leading zeros are the bits above its highest one. -/
theorem bitClz_eq (l : Word) : bitClz l = BitVec.ofNat 64 (leadZeros l) := by
  by_cases hzero : l = 0
  · subst hzero
    decide
  · have hpos : l.toNat ≠ 0 := fun h => hzero (BitVec.eq_of_toNat_eq h)
    have hbits : ∀ i, l.toNat < 2 ^ i ↔ l.toNat.log2 + 1 ≤ i := fun i => (Nat.log2_lt hpos).symm
    rw [bitClz, if_neg hzero, leadZeros]
    simp only [hbits, countP_range_ge]
    congr 1
    omega

/-- A number is a multiple of 2^n where its lowest n bits are clear. -/
theorem mod_two_pow_eq_zero_iff (a n : Nat) : a % 2 ^ n = 0 ↔ ∀ i < n, a.testBit i = false := by
  constructor
  · intro hmod i hi
    have hbit := Nat.testBit_mod_two_pow a n i
    simpa [hmod, hi] using hbit.symm
  · intro hclear
    refine Nat.eq_of_testBit_eq fun i => ?_
    rw [Nat.testBit_mod_two_pow, Nat.zero_testBit, Bool.and_eq_false_iff, decide_eq_false_iff_not, or_iff_not_imp_left, not_not]
    exact hclear i

/-- A word's trailing zeros are the bits below its lowest one. -/
theorem bitCtz_eq (l : Word) : bitCtz l = BitVec.ofNat 64 (trailZeros l) := by
  have hcount : ∀ k, (∀ i < 64, l.toNat % 2 ^ (i + 1) = 0 ↔ i < k) → trailZeros l = min 64 k := by
    intro k hk
    rw [trailZeros, ← countP_range_lt]
    exact List.countP_congr fun i hi => by simpa using hk i (List.mem_range.1 hi)
  rw [bitCtz]
  cases hfind : (List.range 64).find? (fun i => l.toNat.testBit i) with
  | none =>
    have hclear : ∀ i < 64, l.toNat.testBit i = false := by simpa using hfind
    rw [hcount 64 fun i hi => ?_]
    · rfl
    · rw [mod_two_pow_eq_zero_iff]
      exact iff_of_true (fun j hj => hclear j (by omega)) hi
  | some k =>
    obtain ⟨hset, hk, hclear⟩ := List.find?_range_eq_some.1 hfind
    rw [List.mem_range] at hk
    rw [hcount k fun i _ => ?_, min_eq_right hk.le]
    · rfl
    · rw [mod_two_pow_eq_zero_iff]
      constructor
      · intro h
        by_contra hki
        exact absurd hset (by simp [h k (by omega)])
      · exact fun hik j hj => by simpa using hclear j (by omega)

/-! ## Conditions -/

/-- The ten conditions of R94, and none for another code. -/
theorem intCond_eq (cc : Nat) (l r : Word) : intCond cc l r = condHolds cc l r := by
  unfold intCond condHolds
  split <;> simp_all [BitVec.slt, BitVec.sle, BitVec.ult, BitVec.ule, bne, BEq.beq]

/-- A result with POISON of its operands, as the statements write it (R49, R91). -/
theorem In.res_eq_gives (x : In) (ty : Nat) (f : Fl Word) : x.res ty f = x.gives ty f.val f.flags := rfl

/-! ## The value of each instruction -/

theorem vAdd_eq (x : In) : vAdd x = x.gives 0 (x.l.val + x.r.val) (flIf (x.l.val.saddOverflow x.r.val) flIOV) := by
  rw [vAdd, intAdd, narrow64_add, In.res_eq_gives]

theorem vSub_eq (x : In) : vSub x = x.gives 0 (x.l.val - x.r.val) (flIf (x.l.val.ssubOverflow x.r.val) flIOV) := by
  rw [vSub, intSub, narrow64_sub, In.res_eq_gives]

theorem vMul_eq (x : In) : vMul x = x.gives 0 (x.l.val * x.r.val) (flIf (x.l.val.smulOverflow x.r.val) flIOV) := by
  rw [vMul, intMul, narrow64_mul, In.res_eq_gives]

theorem vMulh_eq (x : In) : vMulh x = x.gives 0 ((x.l.val.signExtend 128 * x.r.val.signExtend 128).extractLsb' 64 64) 0 := by
  rw [vMulh, intMulh, mulh_eq, In.res_eq_gives]

theorem vMulhu_eq (x : In) : vMulhu x = x.gives 1 ((x.l.val.zeroExtend 128 * x.r.val.zeroExtend 128).extractLsb' 64 64) 0 := by
  rw [vMulhu, intMulhu, mulhu_eq, In.res_eq_gives]

theorem vDiv_eq (x : In) : vDiv x = if x.r.val = 0 then x.gives 0 (BitVec.allOnes 64) flIDZ
    else x.gives 0 (x.l.val.sdiv x.r.val) (flIf (x.l.val == BitVec.intMin 64 && x.r.val == BitVec.allOnes 64) flIOV) := by
  rw [vDiv, intDiv, narrow64_tdiv, In.res_eq_gives]
  split <;> rfl

theorem vDivu_eq (x : In) :
    vDivu x = if x.r.val = 0 then x.gives 1 (BitVec.allOnes 64) flIDZ else x.gives 1 (x.l.val / x.r.val) 0 := by
  rw [vDivu, intDivu, BitVec.udiv_def, In.res_eq_gives]
  split <;> rfl

theorem vRem_eq (x : In) : vRem x = if x.r.val = 0 then x.gives 0 x.l.val flIDZ else x.gives 0 (x.l.val.srem x.r.val) 0 := by
  rw [vRem, intRem, ofInt_tmod, In.res_eq_gives]
  split <;> rfl

theorem vRemu_eq (x : In) : vRemu x = if x.r.val = 0 then x.gives 1 x.l.val flIDZ else x.gives 1 (x.l.val % x.r.val) 0 := by
  rw [vRemu, intRemu, BitVec.umod_def, In.res_eq_gives]
  split <;> rfl

theorem vMin_eq (x : In) : vMin x = x.gives 0 (if x.l.val.sle x.r.val then x.l.val else x.r.val) 0 := by
  simp only [vMin, intMin, In.res_eq_gives, BitVec.sle_eq_decide, decide_eq_true_eq]

theorem vMax_eq (x : In) : vMax x = x.gives 0 (if x.l.val.sle x.r.val then x.r.val else x.l.val) 0 := by
  simp only [vMax, intMax, In.res_eq_gives, BitVec.sle_eq_decide, decide_eq_true_eq]

theorem vAbs_eq (x : In) :
    vAbs x = x.gives 0 (if x.l.val.slt 0 then -x.l.val else x.l.val) (flIf (x.l.val == BitVec.intMin 64) flIOV) := by
  rw [vAbs, intAbs_eq, In.res_eq_gives]

theorem vNeg_eq (x : In) : vNeg x = x.gives 0 (-x.l.val) (flIf (x.l.val == BitVec.intMin 64) flIOV) := by
  rw [vNeg, intNeg, narrow64_neg, In.res_eq_gives]

/-- L controls SEL; the operand not chosen poisons the result as the chosen one does (R49, R91). -/
theorem vSel_eq (x : In) : vSel x = guarded x.l
    (let o := if x.l.val ≠ 0 then x.r else x.t
     { r0 := some ⟨o.val, mkSb (sbType o.sb) (sbPoison x.r.sb || sbPoison x.t.sb)⟩,
       r1 := some ⟨o.val, mkSb (sbType o.sb) (sbPoison x.r.sb || sbPoison x.t.sb)⟩ }) := by
  simp only [vSel, ctl, guarded, List.any_cons, List.any_nil, Bool.or_false]
  rfl

theorem vClz_eq (x : In) : vClz x = x.gives 1 (BitVec.ofNat 64 (leadZeros x.l.val)) 0 := by
  rw [vClz, bitClz_eq, In.res_eq_gives]

theorem vCtz_eq (x : In) : vCtz x = x.gives 1 (BitVec.ofNat 64 (trailZeros x.l.val)) 0 := by
  rw [vCtz, bitCtz_eq, In.res_eq_gives]

theorem vCmpCc_eq (x : In) : vCmpCc x = x.gives 1 (if condHolds (iOp x.w % 16) x.l.val x.r.val then 1 else 0) 0 := by
  rw [vCmpCc, intCond_eq, In.res_eq_gives]

/-- Settles O4, row by row (`FireRow.holds_of`): the value of each instruction is the one of its row. For the logic and shift rows
and for POPC it stands in the model as in the row. -/
theorem integerFirings : Obligations.IntegerFirings := by
  simp only [Obligations.IntegerFirings, intRows, List.forall_mem_cons]
  exact ⟨FireRow.holds_of (funext vAdd_eq) fun _ _ _ => rfl, FireRow.holds_of (funext vSub_eq) fun _ _ _ => rfl,
    FireRow.holds_of (funext vMul_eq) fun _ _ _ => rfl, FireRow.holds_of (funext vMulh_eq) fun _ _ _ => rfl,
    FireRow.holds_of (funext vMulhu_eq) fun _ _ _ => rfl, FireRow.holds_of (funext vDiv_eq) fun _ _ _ => rfl,
    FireRow.holds_of (funext vDivu_eq) fun _ _ _ => rfl, FireRow.holds_of (funext vRem_eq) fun _ _ _ => rfl,
    FireRow.holds_of (funext vRemu_eq) fun _ _ _ => rfl, FireRow.holds_of (funext vMin_eq) fun _ _ _ => rfl,
    FireRow.holds_of (funext vMax_eq) fun _ _ _ => rfl, FireRow.holds_of (funext vAbs_eq) fun _ _ _ => rfl,
    FireRow.holds_of (funext vNeg_eq) fun _ _ _ => rfl, FireRow.holds_of (funext vSel_eq) fun _ _ _ => rfl,
    FireRow.holds_of (v := vAnd) rfl fun _ _ _ => rfl, FireRow.holds_of (v := vOr) rfl fun _ _ _ => rfl,
    FireRow.holds_of (v := vXor) rfl fun _ _ _ => rfl, FireRow.holds_of (v := vAndn) rfl fun _ _ _ => rfl,
    FireRow.holds_of (v := vShl) rfl fun _ _ _ => rfl, FireRow.holds_of (v := vShr) rfl fun _ _ _ => rfl,
    FireRow.holds_of (v := vSar) rfl fun _ _ _ => rfl, FireRow.holds_of (v := vRot) rfl fun _ _ _ => rfl,
    FireRow.holds_of (funext vClz_eq) fun _ _ _ => rfl, FireRow.holds_of (funext vCtz_eq) fun _ _ _ => rfl,
    FireRow.holds_of (v := vPopc) rfl fun _ _ _ => rfl, FireRow.holds_of (funext vCmpCc_eq) fun _ _ _ => rfl, fun _ h => nomatch h⟩

end Sys2Proof.Machine
end

section
/-! Floating-point results (R133 to R138, R141): the patterns that a rounding delivers, and quotients by a zero or an infinity. -/

namespace Sys2Proof.Machine

/-! ## Bit patterns -/

/-- The pattern of an infinity without its sign: those below it are the finite numbers, those above it the NaNs. -/
def Fmt.infBits (f : Fmt) : Nat := (2 ^ f.eb - 1) * 2 ^ f.mb

theorem Fmt.infBits_lt (f : Fmt) : f.infBits < 2 ^ (f.mb + f.eb) := by
  have heb : 0 < 2 ^ f.eb := Nat.two_pow_pos _
  rw [Fmt.infBits, Nat.add_comm, Nat.pow_add]
  exact Nat.mul_lt_mul_of_pos_right (by omega) (Nat.two_pow_pos _)

theorem Fmt.field_lt (f : Fmt) {v : Nat} (hv : v < 2 ^ (f.mb + f.eb)) : v / 2 ^ f.mb < 2 ^ f.eb :=
  Nat.div_lt_of_lt_mul (by rwa [← Nat.pow_add])

/-- The datum of sign neg and lower bits v. -/
theorem fpDec_sign_add (f : Fmt) (neg : Bool) {v : Nat} (hv : v < 2 ^ (f.mb + f.eb)) :
    fpDec f (fpSign f neg + v) =
      if v / 2 ^ f.mb = 2 ^ f.eb - 1 then
        (if v % 2 ^ f.mb = 0 then .inf neg else .nan (!(v % 2 ^ f.mb).testBit (f.mb - 1)))
      else if v / 2 ^ f.mb = 0 then .fin neg (v % 2 ^ f.mb) (f.emin - f.mb)
      else .fin neg (2 ^ f.mb + v % 2 ^ f.mb) ((v / 2 ^ f.mb : Nat) - f.emax - f.mb) := by
  have hsign : fpSign f neg = 2 ^ f.mb * (2 ^ f.eb * b2n neg) := by
    cases neg <;> simp [fpSign, b2n, Nat.pow_add]
  have hexp := f.field_lt hv
  have hfrac : bitsOf (fpSign f neg + v) 0 f.mb = v % 2 ^ f.mb := by
    rw [bitsOf, Nat.shiftRight_zero, hsign, Nat.mul_add_mod]
  have hfield : bitsOf (fpSign f neg + v) f.mb f.eb = v / 2 ^ f.mb := by
    rw [bitsOf, Nat.shiftRight_eq_div_pow, hsign, Nat.mul_add_div (Nat.two_pow_pos _), Nat.mul_add_mod, Nat.mod_eq_of_lt hexp]
  have hneg : (fpSign f neg + v).testBit (f.mb + f.eb) = neg := by
    cases neg
    · simp [fpSign, Nat.testBit_lt_two_pow hv]
    · simp [fpSign, Nat.testBit_two_pow_add_eq, Nat.testBit_lt_two_pow hv]
  rw [fpDec, hfrac, hfield, hneg]

/-- A pattern up to infinity is no NaN. -/
theorem fpDec_not_nan (f : Fmt) (neg : Bool) {v : Nat} (hv : v ≤ f.infBits) : (fpDec f (fpSign f neg + v)).isNaN = false := by
  rw [fpDec_sign_add f neg (hv.trans_lt f.infBits_lt)]
  split
  case isTrue hfield =>
    have hdiv := Nat.div_add_mod v (2 ^ f.mb)
    rw [hfield, Nat.mul_comm] at hdiv
    rw [if_pos (by rw [Fmt.infBits] at hv; omega)]
    rfl
  case isFalse => split <;> rfl

theorem fpDec_fpInf (f : Fmt) (neg : Bool) : fpDec f (fpInf f neg) = .inf neg := by
  have hinf := fpDec_sign_add f neg f.infBits_lt
  rwa [Fmt.infBits, Nat.mul_div_cancel _ (Nat.two_pow_pos _), if_pos rfl, Nat.mul_mod_left, if_pos rfl] at hinf

theorem fpDec_fpSign (f : Fmt) (hf : 1 < f.eb) (neg : Bool) : fpDec f (fpSign f neg) = .fin neg 0 (f.emin - f.mb) := by
  have hzero := fpDec_sign_add f neg (Nat.two_pow_pos (f.mb + f.eb))
  have heb : 2 ^ 1 ≤ 2 ^ f.eb := Nat.pow_le_pow_right (by omega) hf.le
  rwa [Nat.zero_div, Nat.zero_mod, if_neg (by omega), if_pos rfl] at hzero

/-! ## What a rounding delivers -/

/-- The canonical NaN, or a pattern that is no NaN. -/
def Canonical (f : Fmt) (w : Nat) : Prop := w = fpNaN f ∨ ∃ neg v, v ≤ f.infBits ∧ w = fpSign f neg + v

theorem Canonical.eq_nan {f : Fmt} {w : Nat} (h : Canonical f w) (hnan : (fpDec f w).isNaN = true) : w = fpNaN f := by
  obtain hw | ⟨neg, v, hv, rfl⟩ := h
  · exact hw
  · rw [fpDec_not_nan f neg hv] at hnan
    exact absurd hnan (by decide)

theorem canonical_nan (f : Fmt) : Canonical f (fpNaN f) := .inl rfl
theorem canonical_sign (f : Fmt) (neg : Bool) : Canonical f (fpSign f neg) := .inr ⟨neg, 0, Nat.zero_le _, rfl⟩
theorem canonical_inf (f : Fmt) (neg : Bool) : Canonical f (fpInf f neg) := .inr ⟨neg, f.infBits, le_rfl, rfl⟩

theorem canonical_max (f : Fmt) (hf : 1 < f.eb) (neg : Bool) : Canonical f (fpMax f neg) := by
  have heb : 2 ^ 1 ≤ 2 ^ f.eb := Nat.pow_le_pow_right (by omega) hf.le
  have hpos : 0 < f.infBits := Nat.mul_pos (by omega) (Nat.two_pow_pos _)
  exact .inr ⟨neg, f.infBits - 1, by omega, Nat.add_sub_assoc hpos _⟩

theorem canonical_over (f : Fmt) (hf : 1 < f.eb) (rm : Nat) (neg : Bool) : Canonical f (fpOver f rm neg) := by
  unfold fpOver
  split
  · exact canonical_inf f neg
  · exact canonical_max f hf neg
  · split
    · exact canonical_max f hf true
    · exact canonical_inf f false
  · split
    · exact canonical_inf f true
    · exact canonical_max f hf false

/-- The exponents of the finite numbers lie evenly about the bias. -/
theorem Fmt.emax_eq (f : Fmt) (hf : 1 < f.eb) : ((2 ^ f.eb : Nat) : Int) = 2 * f.emax + 2 ∧ 0 < f.emax := by
  have heb : f.eb = f.eb - 1 + 1 := by omega
  have hpow : (2 : Int) ^ f.eb = 2 ^ (f.eb - 1) * 2 := by rw [heb, pow_succ, Nat.add_sub_cancel]
  have hbig : (2 : Int) ^ 1 ≤ 2 ^ (f.eb - 1) := pow_le_pow_right₀ (by omega) (by omega)
  rw [Fmt.emax]
  push_cast
  omega

/-- Rounded to a unit at most mb bits below its highest bit, a magnitude has mb + 1 bits, or is the power of two above them. -/
theorem roundAt_le (rm : Nat) (neg : Bool) (m : Nat) {e q : Int} {mb : Nat} (hq : (m.log2 : Int) + e - mb ≤ q) :
    (roundAt rm neg m e q).1 ≤ 2 ^ (mb + 1) := by
  have hm : m < 2 ^ (m.log2 + 1) := Nat.lt_log2_self
  rw [roundAt]
  split
  case isTrue hle =>
    calc m * 2 ^ (e - q).toNat ≤ 2 ^ (m.log2 + 1) * 2 ^ (e - q).toNat := Nat.mul_le_mul_right _ hm.le
      _ = 2 ^ (m.log2 + 1 + (e - q).toNat) := (Nat.pow_add ..).symm
      _ ≤ 2 ^ (mb + 1) := Nat.pow_le_pow_right (by omega) (by omega)
  case isFalse hlt =>
    have hfit : m < 2 ^ (q - e).toNat * 2 ^ (mb + 1) :=
      calc m < 2 ^ (m.log2 + 1) := hm
        _ ≤ 2 ^ ((q - e).toNat + (mb + 1)) := Nat.pow_le_pow_right (by omega) (by omega)
        _ = _ := Nat.pow_add ..
    have hquot : m / 2 ^ (q - e).toNat < 2 ^ (mb + 1) := Nat.div_lt_of_lt_mul hfit
    have hup : ∀ b, b2n b ≤ 1 := by decide
    exact (Nat.add_le_add_left (hup _) _).trans hquot

/-- Rounded to the unit mb bits below its highest bit, a magnitude keeps mb + 1 bits. -/
theorem le_roundAt (rm : Nat) (neg : Bool) {m : Nat} (hm : m ≠ 0) {e q : Int} {mb : Nat} (hq : q = (m.log2 : Int) + e - mb) :
    2 ^ mb ≤ (roundAt rm neg m e q).1 := by
  have hlog : 2 ^ m.log2 ≤ m := Nat.log2_self_le hm
  rw [roundAt]
  split
  case isTrue hle =>
    calc 2 ^ mb = 2 ^ m.log2 * 2 ^ (e - q).toNat := by rw [← Nat.pow_add]; congr 1; omega
      _ ≤ m * 2 ^ (e - q).toNat := Nat.mul_le_mul_right _ hlog
  case isFalse hlt =>
    have hquot : 2 ^ mb ≤ m / 2 ^ (q - e).toNat := by
      rw [Nat.le_div_iff_mul_le (Nat.two_pow_pos _), ← Nat.pow_add]
      exact (Nat.pow_le_pow_right (by omega) (by omega)).trans hlog
    exact hquot.trans (Nat.le_add_right _ _)

/-- Nothing is rounded up where no remainder is lost. -/
theorem roundsUp_zero (rm : Nat) (neg : Bool) (q sh : Nat) : roundsUp rm neg q 0 sh = false := by
  have hpow : (0 = 2 ^ sh) = False := eq_false (Nat.two_pow_pos sh).ne
  unfold roundsUp
  split <;> simp [hpow]

theorem roundAt_zero (rm : Nat) (neg : Bool) (e q : Int) : (roundAt rm neg 0 e q).1 = 0 := by
  rw [roundAt]
  split
  · exact Nat.zero_mul _
  · simp [roundsUp_zero, b2n]

/-- The exponent of the unit to which a nonzero m × 2^e rounds. -/
def Fmt.unit (f : Fmt) (m : Nat) (e : Int) : Int := max ((m.log2 : Int) + e - f.mb) (f.emin - f.mb)

/-- What a rounding delivers: a zero, the overflow result, or the multiple n of the unit 2^q. -/
theorem fpRound_eq {f : Fmt} {rm : Nat} {neg : Bool} {m : Nat} {e q : Int} {n : Nat} {nx : Bool} (hq : f.unit m e = q)
    (hn : roundAt rm neg m e q = (n, nx)) :
    ∃ tiny, fpRound f rm neg m e =
      if n = 0 then ⟨fpSign f neg, flIf nx (flNX ||| flUF)⟩
      else if f.emax < (n.log2 : Int) + q then ⟨fpOver f rm neg, flOF ||| flNX⟩
      else ⟨fpSign f neg + (q + f.mb + f.emax - 1).toNat * 2 ^ f.mb + n, flIf nx flNX ||| flIf (nx && tiny) flUF⟩ := by
  subst hq
  unfold Fmt.unit at hn ⊢
  simp only [fpRound, hn]
  exact ⟨_, rfl⟩

/-- A rounding within the range stays below infinity: its field has room for a significand with a carry out of the fraction. -/
theorem rounded_le_infBits {f : Fmt} (hf : 1 < f.eb) {rm : Nat} {neg : Bool} {m : Nat} {e : Int} {n : Nat} (hn0 : n ≠ 0)
    (hn : (roundAt rm neg m e (f.unit m e)).1 = n) (hin : (n.log2 : Int) + f.unit m e ≤ f.emax) :
    (f.unit m e + f.mb + f.emax - 1).toNat * 2 ^ f.mb + n ≤ f.infBits := by
  obtain ⟨hbias, hpos⟩ := f.emax_eq hf
  have hlow : f.emin = 1 - f.emax := rfl
  have hlo : f.emin - f.mb ≤ f.unit m e := le_max_right _ _
  have hle : n ≤ 2 ^ (f.mb + 1) := hn ▸ roundAt_le rm neg m (le_max_left _ _)
  have hpow : 2 ^ (f.mb + 1) = 2 * 2 ^ f.mb := Nat.pow_succ'
  generalize ht : (f.unit m e + f.mb + f.emax - 1).toNat = t
  have hroom : ∀ k, t + k ≤ 2 ^ f.eb - 1 → t * 2 ^ f.mb + k * 2 ^ f.mb ≤ f.infBits := fun k hk => by
    rw [← Nat.add_mul]
    exact Nat.mul_le_mul_right _ hk
  by_cases hsmall : n < 2 ^ f.mb
  · have hunit : f.unit m e = f.emin - f.mb := by
      refine (max_choice _ _).resolve_left fun htop => ?_
      have hm : m ≠ 0 := by
        rintro rfl
        exact hn0 (hn ▸ roundAt_zero ..)
      have hge := le_roundAt rm neg hm (show f.unit m e = _ from htop)
      omega
    have hone := hroom 1 (by omega)
    omega
  · have hlog : f.mb ≤ n.log2 := (Nat.le_log2 hn0).2 (by omega)
    have htwo := hroom 2 (by omega)
    omega

theorem canonical_round (f : Fmt) (hf : 1 < f.eb) (rm : Nat) (neg : Bool) (m : Nat) (e : Int) :
    Canonical f (fpRound f rm neg m e).val := by
  obtain ⟨tiny, hround⟩ := fpRound_eq (n := (roundAt rm neg m e (f.unit m e)).1) (nx := (roundAt rm neg m e (f.unit m e)).2) rfl rfl
  rw [hround]
  split_ifs with hzero hover
  · exact canonical_sign f neg
  · exact canonical_over f hf rm neg
  · exact .inr ⟨neg, _, rounded_le_infBits hf hzero rfl (not_lt.1 hover), Nat.add_assoc ..⟩

/-! ## Each operation -/

theorem canonical_sum (f : Fmt) (hf : 1 < f.eb) (rm : Nat) (ts : List Term) : Canonical f (fpSum f rm ts).val := by
  simp only [fpSum]
  split_ifs
  · exact canonical_nan f
  · exact canonical_nan f
  · exact canonical_inf f false
  · exact canonical_inf f true
  · exact canonical_sign f _
  · exact canonical_round f hf ..

theorem canonical_div (f : Fmt) (hf : 1 < f.eb) (rm a b : Nat) : Canonical f (fpDiv f rm a b).val := by
  unfold fpDiv
  split
  · exact canonical_nan f
  · exact canonical_nan f
  · exact canonical_nan f
  · exact canonical_inf f _
  · exact canonical_sign f _
  · split_ifs
    · exact canonical_nan f
    · exact canonical_inf f _
    · exact canonical_sign f _
    · exact canonical_round f hf ..

theorem canonical_sqrt (f : Fmt) (hf : 1 < f.eb) (rm a : Nat) : Canonical f (fpSqrt f rm a).val := by
  unfold fpSqrt
  split
  · exact canonical_nan f
  · split_ifs
    · exact canonical_nan f
    · exact canonical_inf f false
  · split_ifs
    · exact canonical_sign f _
    · exact canonical_nan f
    all_goals exact canonical_round f hf ..

/-! ## Quotients by a zero and by an infinity -/

section
variable {f : Fmt} {rm a : Nat} {na nb : Bool} {m : Nat} {e : Int}

theorem fpDiv_fin_zero (hf : 1 < f.eb) (hm : 0 < m) (ha : fpDec f a = .fin na m e) :
    fpDiv f rm a (fpSign f nb) = ⟨fpInf f (na != nb), flDZ⟩ := by
  simp only [fpDiv, ha, fpDec_fpSign f hf, if_pos, if_neg hm.ne']

theorem fpDiv_inf_zero (hf : 1 < f.eb) (ha : fpDec f a = .inf na) : fpDiv f rm a (fpSign f nb) = ⟨fpInf f (na != nb), 0⟩ := by
  simp only [fpDiv, ha, fpDec_fpSign f hf]

theorem fpDiv_fin_inf (ha : fpDec f a = .fin na m e) : fpDiv f rm a (fpInf f nb) = ⟨fpSign f (na != nb), 0⟩ := by
  simp only [fpDiv, ha, fpDec_fpInf]

end

end Sys2Proof.Machine
end

section
/-! Exact sums (R133, R134): a number of the format rounds to itself in every mode. -/

namespace Sys2Proof.Machine

/-! ## The fields of a number -/

/-- A pattern of a finite number: its fields give the sign, the significand and the exponent. -/
structure FinPattern (f : Fmt) (c : Nat) (neg : Bool) (m : Nat) (e : Int) : Prop where
  pattern : c = fpSign f neg + (e + f.mb + f.emax - 1).toNat * 2 ^ f.mb + m
  small : m < 2 ^ (f.mb + 1)
  low : f.emin - f.mb ≤ e
  high : e ≤ f.emax - f.mb
  normal : 2 ^ f.mb ≤ m ∨ e = f.emin - f.mb

/-- A pattern of the format's width is a sign bit and the bits below it. -/
theorem exists_sign_add (f : Fmt) {c : Nat} (hc : c < 2 ^ (f.mb + f.eb + 1)) :
    ∃ neg v, v < 2 ^ (f.mb + f.eb) ∧ c = fpSign f neg + v := by
  rw [Nat.pow_succ] at hc
  by_cases hneg : c < 2 ^ (f.mb + f.eb)
  · exact ⟨false, c, hneg, (Nat.zero_add c).symm⟩
  · exact ⟨true, c - 2 ^ (f.mb + f.eb), by omega, by rw [fpSign, if_pos rfl]; omega⟩

theorem finPattern_of_fpDec {f : Fmt} (hf : 1 < f.eb) {c : Nat} {neg : Bool} {m : Nat} {e : Int} (hc : c < 2 ^ (f.mb + f.eb + 1))
    (hdec : fpDec f c = .fin neg m e) : FinPattern f c neg m e := by
  obtain ⟨hbias, hpos⟩ := f.emax_eq hf
  have hlow : f.emin = 1 - f.emax := rfl
  have hpow : 2 ^ (f.mb + 1) = 2 * 2 ^ f.mb := Nat.pow_succ'
  obtain ⟨s, v, hv, rfl⟩ := exists_sign_add f hc
  have hexp := f.field_lt hv
  have hfrac : v % 2 ^ f.mb < 2 ^ f.mb := Nat.mod_lt _ (Nat.two_pow_pos _)
  have hdiv := Nat.div_add_mod' v (2 ^ f.mb)
  rw [fpDec_sign_add f s hv] at hdec
  generalize v / 2 ^ f.mb = x at *
  generalize v % 2 ^ f.mb = y at *
  split_ifs at hdec with hinf hnan hsub
  · obtain ⟨rfl, rfl, rfl⟩ := FV.fin.inj hdec
    have hfield : (f.emin - f.mb + f.mb + f.emax - 1).toNat = 0 := by omega
    exact ⟨by rw [hfield]; subst hsub; omega, by omega, le_rfl, by omega, .inr rfl⟩
  · obtain ⟨rfl, rfl, rfl⟩ := FV.fin.inj hdec
    have hfield : ((x : Int) - f.emax - f.mb + f.mb + f.emax - 1).toNat = x - 1 := by omega
    refine ⟨?_, by omega, by omega, by omega, .inl (Nat.le_add_right _ _)⟩
    have hx : x * 2 ^ f.mb = (x - 1) * 2 ^ f.mb + 2 ^ f.mb := by rw [← Nat.succ_mul]; congr 1; omega
    rw [hfield]
    omega

/-! ## Magnitudes in two units -/

theorem zpow_eq_mul_zpow {e q : Int} (hle : q ≤ e) : (2 : ℚ) ^ e = 2 ^ (e - q).toNat * 2 ^ q := by
  rw [← zpow_natCast, ← zpow_add₀ two_ne_zero, Int.toNat_of_nonneg (by omega), sub_add_cancel]

/-- Of two equal magnitudes, the significand of the smaller exponent is the other's, shifted. -/
theorem eq_mul_two_pow {m n : Nat} {e q : Int} (h : (m : ℚ) * 2 ^ e = n * 2 ^ q) (hle : q ≤ e) : n = m * 2 ^ (e - q).toNat := by
  rw [zpow_eq_mul_zpow hle, ← mul_assoc] at h
  exact_mod_cast (mul_right_cancel₀ (zpow_ne_zero q two_ne_zero) h).symm

theorem log2_mul_two_pow {m : Nat} (hm : m ≠ 0) (k : Nat) : (m * 2 ^ k).log2 = m.log2 + k := by
  rw [Nat.log2_eq_iff (Nat.mul_ne_zero hm (Nat.two_pow_pos k).ne'), Nat.add_right_comm, Nat.pow_add, Nat.pow_add]
  exact ⟨Nat.mul_le_mul_right _ (Nat.log2_self_le hm), Nat.mul_lt_mul_of_pos_right Nat.lt_log2_self (Nat.two_pow_pos k)⟩

/-- Equal magnitudes have their highest bit at the same place. -/
theorem log2_add_eq {m n : Nat} {e q : Int} (hm : m ≠ 0) (hn : n ≠ 0) (h : (m : ℚ) * 2 ^ e = n * 2 ^ q) :
    (m.log2 : Int) + e = n.log2 + q := by
  rcases le_total q e with hle | hle
  · rw [eq_mul_two_pow h hle, log2_mul_two_pow hm]
    omega
  · rw [eq_mul_two_pow h.symm hle, log2_mul_two_pow hn]
    omega

/-- A multiple of 2^q is not rounded, in any mode. -/
theorem roundAt_exact (rm : Nat) (neg : Bool) {m n : Nat} {e q : Int} (h : (m : ℚ) * 2 ^ e = n * 2 ^ q) :
    roundAt rm neg m e q = (n, false) := by
  rw [roundAt]
  split
  case isTrue hle => rw [← eq_mul_two_pow h hle]
  case isFalse hlt => simp [eq_mul_two_pow h.symm (by omega), roundsUp_zero, b2n]

/-- A number of the format is delivered as it is, in every mode and with no flag. -/
theorem fpRound_exact {f : Fmt} (rm : Nat) {c : Nat} {neg : Bool} {m n : Nat} {e q : Int} (hc : FinPattern f c neg n q)
    (hm : m ≠ 0) (hn : n ≠ 0) (h : (m : ℚ) * 2 ^ e = n * 2 ^ q) : fpRound f rm neg m e = ⟨c, 0⟩ := by
  have htop := log2_add_eq hm hn h
  have hlog : n.log2 ≤ f.mb := Nat.lt_succ_iff.1 ((Nat.log2_lt hn).2 hc.small)
  have hunit : f.unit m e = q := by
    rw [Fmt.unit, htop]
    rcases hc.normal with hnormal | hsub
    · have hge := (Nat.le_log2 hn).2 hnormal
      have hlow := hc.low
      omega
    · omega
  have hin : ¬ f.emax < (n.log2 : Int) + q := by
    have hhigh := hc.high
    omega
  obtain ⟨tiny, hround⟩ := fpRound_eq hunit (roundAt_exact rm neg h)
  rw [hround, if_neg hn, if_neg hin, ← hc.pattern]
  simp [flIf]

/-! ## The exact sum -/

/-- The value of a finite term. -/
def Term.rat : Term → ℚ
  | .fin n m e => (if n then -(m : ℚ) else m) * 2 ^ e
  | _ => 0

theorem minExp_le_start (ts : List Term) (d : Int) : minExp ts d ≤ d := by
  induction ts generalizing d with
  | nil => exact le_rfl
  | cons t ts ih =>
    cases t with
    | fin n m e => exact (ih _).trans (min_le_right _ _)
    | nan | bad | inf => exact ih d

theorem minExp_le (ts : List Term) (d : Int) {n : Bool} {m : Nat} {e : Int} (h : .fin n m e ∈ ts) : minExp ts d ≤ e := by
  induction ts generalizing d with
  | nil => exact absurd h List.not_mem_nil
  | cons t ts ih =>
    obtain rfl | hmem := List.mem_cons.1 h
    · exact (minExp_le_start ts _).trans (min_le_left _ _)
    · cases t with
      | fin => exact ih _ hmem
      | nan | bad | inf => exact ih d hmem

/-- The sum in units of 2^q, where no term has bits below the unit, is the sum of the values. -/
theorem sumAt_mul_zpow (ts : List Term) (q : Int) (hq : ∀ n m e, Term.fin n m e ∈ ts → q ≤ e) :
    (sumAt q ts : ℚ) * 2 ^ q = (ts.map Term.rat).sum := by
  induction ts with
  | nil => simp [sumAt]
  | cons t ts ih =>
    have hrest := ih fun n m e h => hq n m e (List.mem_cons_of_mem _ h)
    cases t with
    | fin n m e =>
      rw [sumAt, List.map_cons, List.sum_cons, ← hrest, Term.rat, zpow_eq_mul_zpow (hq n m e List.mem_cons_self)]
      split <;> push_cast <;> ring
    | nan | bad | inf => simpa [sumAt, Term.rat] using hrest

theorem fpSum_fin_fin (f : Fmt) (rm : Nat) {n k : Bool} {m l : Nat} {e d : Int} {q x : Int}
    (hq : minExp [.fin n m e, .fin k l d] 1024 = q) (hx : sumAt q [.fin n m e, .fin k l d] = x) (hx0 : x ≠ 0) :
    fpSum f rm [.fin n m e, .fin k l d] = fpRound f rm (decide (x < 0)) x.natAbs q := by
  subst hq hx
  exact if_neg hx0

/-- Sign and magnitude of an integer multiple of 2^q with the value of a nonzero datum. -/
theorem natAbs_of_rat {x : Int} {q : Int} {n : Bool} {m : Nat} {e : Int} (hm : m ≠ 0) (h : (x : ℚ) * 2 ^ q = Term.rat (.fin n m e)) :
    x ≠ 0 ∧ decide (x < 0) = n ∧ (x.natAbs : ℚ) * 2 ^ q = m * 2 ^ e := by
  have hq : (0 : ℚ) < 2 ^ q := by positivity
  have hv : (0 : ℚ) < m * 2 ^ e := by positivity
  rw [Nat.cast_natAbs, Int.cast_abs]
  cases n with
  | false =>
    have hpos : (0 : ℚ) < x := pos_of_mul_pos_left (h ▸ hv) hq.le
    rw [abs_of_pos hpos]
    exact ⟨by exact_mod_cast hpos.ne', decide_eq_false (by exact_mod_cast hpos.not_gt), h⟩
  | true =>
    have hval : -(x : ℚ) * 2 ^ q = m * 2 ^ e := by rw [neg_mul, h, Term.rat, if_pos rfl, neg_mul, neg_neg]
    have hpos : (0 : ℚ) < -x := pos_of_mul_pos_left (hval ▸ hv) hq.le
    have hlt : (x : ℚ) < 0 := neg_pos.1 hpos
    rw [abs_of_neg hlt]
    exact ⟨by exact_mod_cast hlt.ne, decide_eq_true (by exact_mod_cast hlt), hval⟩

/-- A sum that is a number of the format is that number, in every mode and with no flag. -/
theorem fpAdd_exact {f : Fmt} (hf : 1 < f.eb) (rm : Nat) {a b c : Nat} {na nb nc : Bool} {ma mb mc : Nat} {ea eb ec : Int}
    (hc : c < 2 ^ (f.mb + f.eb + 1)) (hda : fpDec f a = .fin na ma ea) (hdb : fpDec f b = .fin nb mb eb) (hdc : fpDec f c = .fin nc mc ec)
    (hmc : mc ≠ 0) (hsum : Term.rat (.fin na ma ea) + Term.rat (.fin nb mb eb) = Term.rat (.fin nc mc ec)) :
    fpAdd f rm a b = ⟨c, 0⟩ := by
  have hpat := finPattern_of_fpDec hf hc hdc
  obtain ⟨q, hq⟩ : ∃ q, minExp [.fin na ma ea, .fin nb mb eb] 1024 = q := ⟨_, rfl⟩
  obtain ⟨x, hx⟩ : ∃ x, sumAt q [.fin na ma ea, .fin nb mb eb] = x := ⟨_, rfl⟩
  have hval : (x : ℚ) * 2 ^ q = Term.rat (.fin nc mc ec) := by
    rw [← hsum, ← hx, sumAt_mul_zpow _ _ fun n m e h => hq ▸ minExp_le _ _ h]
    simp
  obtain ⟨hx0, hneg, habs⟩ := natAbs_of_rat hmc hval
  rw [fpAdd, hda, hdb, FV.term, FV.term, fpSum_fin_fin f rm hq hx hx0, hneg]
  exact fpRound_exact rm hpat (Int.natAbs_ne_zero.2 hx0) hmc habs

/-- Settles O9: every value delivered is canonical, the quotients by decoding the divisor, and the exact sum by `fpAdd_exact`. -/
theorem floatingPointRules : Obligations.FloatingPointRules := by
  have hwide : ∀ f ∈ [b64, b32], 1 < f.eb := by decide
  refine ⟨fun f hf rm a b t _ r hr hnan => ?_, fun f hf rm na nb m e a _ => ?_, fun f hf rm a b c na nb nc ma mb mc ea eb ec _ => ?_⟩
  · refine Canonical.eq_nan ?_ hnan
    simp only [List.mem_cons, List.not_mem_nil, or_false] at hr
    obtain rfl | rfl | rfl | rfl | rfl | rfl := hr
    · exact canonical_sum f (hwide f hf) ..
    · exact canonical_sum f (hwide f hf) ..
    · exact canonical_sum f (hwide f hf) ..
    · exact canonical_div f (hwide f hf) ..
    · exact canonical_sqrt f (hwide f hf) ..
    · exact canonical_sum f (hwide f hf) ..
  · exact ⟨fpDiv_fin_zero (hwide f hf), fpDiv_inf_zero (hwide f hf), fpDiv_fin_inf⟩
  · exact fpAdd_exact (hwide f hf) rm

end Sys2Proof.Machine
end

section
/-! The row compare places every token of a key that waits or that finds a way (R166 to R168, R172). -/

namespace Sys2Proof.Machine

section

variable {c : Chan} {t : Nat} {tok : Token} {w : Word} (now : Nat) (filter : Bool)

theorem rowCompare_places_waiting (hfree : c.stageBusy t = false) {e : Nat} {x : MEntry} (hkey : HasKey c t tok e x) :
    ∃ d, c.rowCompare now t tok w filter = .done d := by
  obtain ⟨y, hy, -⟩ := c.fill_entry t e x tok
  by_cases hfull : x.got ||| BitVec.ofNat 4 (2 ^ tagPort tok.tag) = x.need
  · exact ⟨_, rowCompare_completes _ _ hkey hfull hfree hy⟩
  · exact ⟨_, rowCompare_fills _ _ hkey hfull⟩

theorem rowCompare_places_new (hfree : c.stageBusy t = false) {way xway : Nat} (hnew : NewKey c t tok w way xway) :
    ∃ d, c.rowCompare now t tok w filter = .done d := by
  obtain ⟨y, hy, -⟩ := keyed_entry (now := now) hnew
  by_cases hfull : needPorts w = 2 ^ tagPort tok.tag
  · exact ⟨_, rowCompare_allocates_ready _ _ hnew hfull hfree hy⟩
  · exact ⟨_, rowCompare_allocates _ _ hnew hfull⟩

end

/-- Settles O17: the token is placed, and `rowed_rowCompare` says how. -/
theorem rowCompare : Obligations.RowCompare := by
  intro c t tok w filter hfree hplace
  have hdone : ∃ d, c.rowCompare c.xclk t tok w filter = .done d := by
    rcases hplace with ⟨e, x, hkey⟩ | ⟨way, xway, hnew⟩
    · exact rowCompare_places_waiting _ _ hfree hkey
    · exact rowCompare_places_new _ _ hfree hnew
  obtain ⟨d, hd⟩ := hdone
  exact ⟨d, hd, rowed_rowCompare fun e he => RowOut.done.inj (hd.symm.trans he)⟩

end Sys2Proof.Machine
end

section
/-! Reads of a context's line take no time (R397). -/

namespace Sys2Proof.Machine

theorem Chan.dmUncorr_xclk (c : Chan) (a : Nat) : (c.dmUncorr a).xclk = c.xclk := by
  have hpoison : ∀ line : Nat, ((List.range 8).foldl (fun c i => c.setPoison (line + 8 * i) true) c).xclk = c.xclk := fun line =>
    foldl_leaves Chan.xclk _ (fun _ _ => Chan.setPoison_xclk _ _ _) _ c
  have haddr : ∀ (c : Chan) (line : Nat),
      (if c.flag F.dmErraddrValid then c else (c.setFld F.dmErraddrValid 1).setFld F.dmErraddrAddr line).xclk = c.xclk := by
    intro c line
    split
    · rfl
    · rw [Chan.setFld_xclk, Chan.setFld_xclk]
  rw [Chan.dmUncorr, Chan.raise_xclk, (Chan.keeps_checkUse _ _ _).xclk, haddr, Chan.inc_xclk, hpoison]

theorem Chan.rowCandidate_xclk (c : Chan) (r : RowId) : (c.rowCandidate r).xclk = c.xclk := by
  simp only [Chan.rowCandidate]
  split <;> rfl

theorem Chan.lineLost_xclk (c : Chan) (now a : Nat) : (c.lineLost now a).xclk = c.xclk := by
  simp only [Chan.lineLost]
  split
  · split
    · split
      · exact ((c.keeps_wrWords _ _).andThen (Chan.keeps_dmWrote _ _ _)).xclk
      · rfl
    · split
      · exact c.poisonCtx_xclk _ _
      · rfl
  · split <;> rfl

theorem Chan.dmLine_xclk (c : Chan) (now : Nat) (errs : LineErrs) (line : Nat) : (c.dmLine now errs line).xclk = c.xclk := by
  rcases herr : errOf errs line with _ | _ | _
  · rw [c.dmLine_clean now herr, (c.keeps_checkUse _ _).xclk]
  · rw [c.dmLine_corrected now herr, Chan.inc_xclk, (c.keeps_checkUse _ _).xclk]
  · rw [c.dmLine_bad now herr, Chan.lineLost_xclk, Chan.lineBad, Chan.rowCandidate_xclk, Chan.dmUncorr_xclk]

theorem Chan.fillRecord_xclk (c : Chan) (now time id : Nat) (errs : LineErrs) : (c.fillRecord now time id errs).xclk = c.xclk := by
  rw [Chan.fillRecord]
  split
  · rfl
  · rw [(Chan.keeps_cacheTouch _ _ _).xclk, Chan.dmLine_xclk]
    rfl

end Sys2Proof.Machine
end

section
/-! Work that waits at a tile (R170, R171, R181, R250): missed and deferred tokens, held packets and parked firings. -/

namespace Sys2Proof.Machine

/-- What a retry makes of channel c and of what the row compare finds for a deferred token (R170). -/
def RowOut.retried (c : Chan) (now t : Nat) (errs : LineErrs) : RowOut → Chan
  | .done e => e
  | .blocked => c
  | .full => c.demandEvict now t errs

section

variable {s : State} {k : Ch} {t : Tile} {errs : LineErrs} {c : Chan} (hc : c = s.chan k.val)

include hc

/-! ## A missed token (R171) -/

section

variable {i : Nat} {m : Missed} {f b : Chan} (hdue : findIx c.missDue (c.tile t.val).miss = some i) (hm : (c.tile t.val).miss[i]? = some m)
  (hread : c.cacheHas (tagCtx m.tok.tag) = true ∨ c.dmInner [c.recordLine (tagCtx m.tok.tag)] = true)
  (hf : f = c.fillRecord c.xclk s.dev.time (tagCtx m.tok.tag) errs)
  (hb : b = f.setTile t.val { f.tile t.val with miss := dropNth (f.tile t.val).miss i })

include hdue hm hread hf hb

/-- A missed token leaves the buffer where its judgement finds it a place; where it finds none, only the record has been read. -/
theorem contextRecordFill_gives : Gives (.contextRecordFill k t errs) s k
    ((b.place c.xclk t.val m.tok m.word errs (b.judge c.xclk t.val (b.seenSt (tagCtx m.tok.tag)) m.tok m.word true)).getD f) := by
  have hexec : exec (.contextRecordFill k t errs) s = execContextRecordFill k t errs s := rfl
  have htaken : (!c.cacheHas (tagCtx m.tok.tag) && !c.dmInner [c.recordLine (tagCtx m.tok.tag)]) = false := by
    rcases hread with h | h <;> simp [h]
  subst hc hf hb
  rw [Gives, hexec, execContextRecordFill, onCh]
  simp only [hdue, hm, htaken, Bool.false_eq_true, if_false]
  split
  · next d hplace => rw [hplace, Option.getD_some]
  · next hplace => rw [hplace, Option.getD_none]

theorem contextRecordFill_judged :
    Leads (.contextRecordFill k t errs) s k fun d => Judged (b.seenSt (tagCtx m.tok.tag)) b d t.val m.tok m.word true errs := by
  refine ⟨_, contextRecordFill_gives hc hdue hm hread hf hb, judged_place fun e he => ?_⟩
  have hnow : b.xclk = c.xclk := by rw [hb, Chan.setTile_xclk, hf, Chan.fillRecord_xclk]
  rw [hnow] at he
  rw [he, Option.getD_some]

end

/-! ## A deferred token (R170) -/

section

variable {d : Deferred} {r : List Deferred} (hdefer : (c.tile t.val).defer = d :: r)

include hdefer

theorem deferredTokenRetry_dead (hdead : c.seenSt (tagCtx d.tok.tag) ≠ .live) :
    Gives (.deferredTokenRetry k t errs) s k ((c.setTile t.val { c.tile t.val with defer := r }).orphan (tagCtx d.tok.tag)) := by
  have hexec : exec (.deferredTokenRetry k t errs) s = execDeferredTokenRetry k t s errs := rfl
  subst hc
  rw [Gives, hexec, execDeferredTokenRetry, onCh]
  simp only [hdefer, bne_iff_ne.2 hdead, if_true, Chan.dropRetried]

/-- A deferred token is compared with its row again; where it finds no way the eviction is tried again. -/
theorem deferredTokenRetry_gives (hlive : c.seenSt (tagCtx d.tok.tag) = .live)
    (hkept : c.evicting t.val (tagCtx d.tok.tag) (tagIp d.tok.tag) = false) :
    Gives (.deferredTokenRetry k t errs) s k
      (((c.setTile t.val { c.tile t.val with defer := r }).rowCompare c.xclk t.val d.tok d.word true).retried c c.xclk t.val errs) := by
  have hexec : exec (.deferredTokenRetry k t errs) s = execDeferredTokenRetry k t s errs := rfl
  subst hc
  rw [Gives, hexec, execDeferredTokenRetry, onCh]
  simp only [hdefer, hlive, bne_self_eq_false, hkept, Bool.false_eq_true, if_false]
  rfl

theorem deferredTokenRetry_rowed (hlive : c.seenSt (tagCtx d.tok.tag) = .live)
    (hkept : c.evicting t.val (tagCtx d.tok.tag) (tagIp d.tok.tag) = false) :
    Leads (.deferredTokenRetry k t errs) s k
      (fun e => Rowed (c.setTile t.val { c.tile t.val with defer := r }) e t.val d.tok d.word) := by
  refine ⟨_, deferredTokenRetry_gives hc hdefer hlive hkept, rowed_rowCompare (filter := true) fun e he => ?_⟩
  rw [Chan.setTile_xclk] at he
  rw [he, RowOut.retried]

theorem deferredTokenRetry_full (hlive : c.seenSt (tagCtx d.tok.tag) = .live)
    (hkept : c.evicting t.val (tagCtx d.tok.tag) (tagIp d.tok.tag) = false)
    (hnone : c.candidate t.val (keyRow d.tok) (tagCtx d.tok.tag) (tagIp d.tok.tag) (tagPort d.tok.tag) = none)
    (hunspilled : c.maySpill t.val (tagCtx d.tok.tag) (tagIp d.tok.tag) = false)
    (hways : c.keyWays t.val (keyRow d.tok) (needPorts d.word) (c.ctx (tagCtx d.tok.tag)).elder = none) :
    Gives (.deferredTokenRetry k t errs) s k (c.demandEvict c.xclk t.val errs) := by
  have hspill : (c.setTile t.val { c.tile t.val with defer := r }).maySpill t.val (tagCtx d.tok.tag) (tagIp d.tok.tag) = false := by
    rw [Chan.maySpill, Chan.setTile_tile_same]
    exact hunspilled
  have hfull := rowCompare_full (c := c.setTile t.val { c.tile t.val with defer := r }) (w := d.word) c.xclk hnone hspill hways
  have hgives := deferredTokenRetry_gives (errs := errs) hc hdefer hlive hkept
  rwa [hfull] at hgives

end

end

/-! ## A packet that the ready stage holds (R181, R250) -/

section

variable {c : Chan} {t : Nat} {p : FPacket}

theorem Chan.pushReady_room (hroom : c.qRoom (8 * t + p.prio.toNat) = true) :
    c.pushReady t p = (c.setTile t { c.tile t with held := none }).qPush (8 * t + p.prio.toNat) (packetWord p) := by
  rw [Chan.pushReady, if_pos hroom]

theorem Chan.readyStage_cancelled (again : Bool) (hdead : c.live p.ctx.toNat = false) : c.readyStage t p again
    = ((c.setTile t { c.tile t with held := none }).freeKey t (entryNo p.row.toNat p.way.toNat)).cancel p.ctx.toNat := by
  simp only [Chan.readyStage, hdead, Bool.not_false, if_true]

theorem Chan.readyStage_passes {d : Chan} (again : Bool) (hlive : c.live p.ctx.toNat = true)
    (hflow : c.flowCheck t p (c.keyOf t p) = (d, none)) : c.readyStage t p again = d.pushReady t p := by
  simp only [Chan.readyStage, hlive, Bool.not_true, Bool.false_eq_true, if_false, hflow]

/-- A packet that has to wait for its slot, the cursor or the head is parked while the pool has room (R250). -/
theorem Chan.readyStage_parked {d : Chan} {why : ParkFor} (again : Bool) (hlive : c.live p.ctx.toNat = true)
    (hflow : c.flowCheck t p (c.keyOf t p) = (d, some why)) (hroom : c.ms.pool.length < 8192) :
    ((c.readyStage t p again).tile t).held = none
    ∧ (c.readyStage t p again).ms.pool
      = d.ms.pool ++ [{ tile := t, row := p.row, way := p.way, ctx := p.ctx, word := p.instr, why := why }] := by
  simp only [Chan.readyStage, hlive, Bool.not_true, Bool.false_eq_true, if_false, hflow, poolSize, hroom, if_true]
  refine ⟨?_, rfl⟩
  change ((d.setTile t { d.tile t with held := none }).tile t).held = none
  rw [Chan.setTile_tile_same]

variable {h : HeldPkt}

theorem Chan.retryHeld_stage (hcheck : h.passed = false ∨ c.live h.pkt.ctx.toNat = false) :
    c.retryHeld t h = c.readyStage t h.pkt true := by
  have hbut : (h.passed && c.live h.pkt.ctx.toNat) = false := by rcases hcheck with hp | hp <;> simp [hp]
  rw [Chan.retryHeld, hbut, if_neg Bool.false_ne_true]

/-- A packet that has passed its flow class, or whose class asks for nothing, is pushed. -/
theorem Chan.retryHeld_pushes (hlive : c.live h.pkt.ctx.toNat = true) (hpass : h.passed = true ∨ c.flowKind h.pkt.ctx.toNat = 0) :
    c.retryHeld t h = c.pushReady t h.pkt := by
  rcases hcheck : h.passed with _ | _
  · have hkind : c.flowKind h.pkt.ctx.toNat = 0 := hpass.resolve_left (by simp [hcheck])
    rw [Chan.retryHeld_stage (.inl hcheck), Chan.readyStage_passes _ hlive (Chan.flowCheck_ready _ hkind)]
  · rw [Chan.retryHeld, hcheck, hlive, Bool.and_self, if_pos rfl]

end

theorem readyPushRetry_gives {s : State} {k : Ch} {t : Tile} {c : Chan} {h : HeldPkt} (hc : c = s.chan k.val)
    (hheld : (c.tile t.val).held = some h) (hwhole : (c.tile t.val).rebuild = false) :
    Gives (.readyPushRetry k t) s k (c.retryHeld t.val h) := by
  have hexec : exec (.readyPushRetry k t) s = execReadyPushRetry k t s := rfl
  subst hc
  rw [Gives, hexec, execReadyPushRetry, onCh]
  simp only [hheld, hwhole, Bool.false_eq_true, if_false]

/-! ## A parked firing (R250) -/

/-- The waiting pool without record i. -/
def Chan.unpark (c : Chan) (i : Nat) : Chan := { c with ms := { c.ms with pool := dropNth c.ms.pool i } }

/-- The record of the waiting pool that a wake of entry e takes. -/
def wakes (t e : Nat) (r : Parked) : Bool := r.tile == t && entryNo r.row.toNat r.way.toNat == e && r.woken

section

variable {s : State} {k : Ch} {t : Tile} {e : EntryId} {c : Chan} {i : Nat} {x : MEntry} (hc : c = s.chan k.val)
  (hwoken : findIx (wakes t.val e.val) c.ms.pool = some i) (hentry : c.entry t.val e.val = some x)

include hc hwoken hentry

theorem parkedFiringWake_dead (hdead : c.live x.ctx.toNat = false) :
    Gives (.parkedFiringWake k t e) s k (((c.unpark i).freeKey t.val e.val).cancel x.ctx.toNat) := by
  have hexec : exec (.parkedFiringWake k t e) s = execParkedFiringWake k t e s := rfl
  obtain ⟨hi, -⟩ := List.findIdx?_eq_some_iff_getElem.1 hwoken
  subst hc
  rw [Gives, hexec, execParkedFiringWake, onCh]
  unfold wakes at hwoken
  simp only [hwoken, hentry, List.getElem?_eq_getElem hi, hdead, Bool.not_false, if_true]
  rfl

theorem parkedFiringWake_pushes (hlive : c.live x.ctx.toNat = true) (hfree : c.stageBusy t.val = false) :
    ∃ w, Gives (.parkedFiringWake k t e) s k ((c.unpark i).pushReady t.val (packetOf w x e.val)) := by
  have hexec : exec (.parkedFiringWake k t e) s = execParkedFiringWake k t e s := rfl
  obtain ⟨hi, -⟩ := List.findIdx?_eq_some_iff_getElem.1 hwoken
  refine ⟨(c.ms.pool[i]).word, ?_⟩
  subst hc
  rw [Gives, hexec, execParkedFiringWake, onCh]
  unfold wakes at hwoken
  simp only [hwoken, hentry, List.getElem?_eq_getElem hi, hlive, hfree, Bool.not_true, Bool.false_eq_true, if_false]
  rfl

end

theorem Chan.pushReady_pool (c : Chan) (t : Nat) (p : FPacket) : (c.pushReady t p).ms.pool = c.ms.pool := by
  rw [Chan.pushReady]
  split
  · rw [Chan.qPush_ms, Chan.setTile_ms_pool]
  · rfl

/-- Settles O18: the judgement and the row compare for tokens, the ready stage for packets and firings. -/
theorem waitingAtATile : Obligations.WaitingAtATile := by
  intro s k t errs c hc
  refine ⟨fun i m f b hdue hm hread hf hb => contextRecordFill_judged hc hdue hm hread hf hb, fun d r hdefer => ?_,
    fun h p hheld hp hwhole => ?_, fun e i x hwoken hentry => ?_⟩
  · exact ⟨deferredTokenRetry_dead hc hdefer, fun hlive hkept =>
      ⟨deferredTokenRetry_rowed hc hdefer hlive hkept, deferredTokenRetry_full hc hdefer hlive hkept⟩⟩
  · subst hp
    have hgives := readyPushRetry_gives hc hheld hwhole
    refine ⟨fun hdead => ?_, fun hlive hpass hroom => ?_, fun d hlive hcheck hflow hroom => ?_, fun d why hlive hcheck hflow hroom => ?_⟩
    · rwa [Chan.retryHeld_stage (.inr hdead), Chan.readyStage_cancelled _ hdead] at hgives
    · rwa [Chan.retryHeld_pushes hlive hpass, Chan.pushReady_room hroom] at hgives
    · rwa [Chan.retryHeld_stage (.inl hcheck), Chan.readyStage_passes _ hlive hflow, Chan.pushReady_room hroom] at hgives
    · rw [Chan.retryHeld_stage (.inl hcheck)] at hgives
      exact ⟨_, hgives, Chan.readyStage_parked _ hlive hflow hroom⟩
  · refine ⟨fun hlive hfree hroom => ?_, parkedFiringWake_dead hc hwoken hentry⟩
    obtain ⟨w, hgives⟩ := parkedFiringWake_pushes hc hwoken hentry hlive hfree
    exact ⟨_, hgives, Chan.pushReady_pool _ _ _, Chan.pushReady_unread (c := c.unpark i) (p := packetOf w x e.val) hroom⟩

end Sys2Proof.Machine
end

section
/-! Opening a window and starting a firing (R109, R183, R196, R199, R203): what each leaves in the duet. -/

namespace Sys2Proof.Machine

/-! ## A duet's record and its register -/

@[simp] theorem Chan.putDuet_duet_same (c : Chan) (d : Nat) (x : Duet) : (c.putDuet d x).duet d = x := by
  rw [Chan.putDuet, Chan.setFld_duet, Chan.setFld_duet, Chan.setDuet_duet_same]

/-- LF_DUETn is the one register that follows its duet. -/
theorem Chan.putDuet_rd (c : Chan) {d o : Nat} (x : Duet) (h : o ≠ 0x2100 + 8 * d) : (c.putDuet d x).rd o = c.rd o := by
  simp only [Chan.putDuet, Chan.setFld, Chan.wr_rd, F.lfDuetReplay, F.lfDuetUncom, if_neg h, Chan.setDuet_rd]

theorem Chan.duet_of_duets {b c : Chan} (h : b.duets = c.duets) (d : Nat) : b.duet d = c.duet d := by rw [Chan.duet, h, Chan.duet]

/-! ## A window opens (R199, R203, R218) -/

/-- The window that a duet opens where no injection acts: its samples are the Lead's and, in the normal regime, the Follow's own. -/
def Chan.freshWin (c : Chan) (dv : Dev) (x : Duet) (fs : Sample) : Win :=
  { wseq := x.wseq + 1, sl := Chan.sampleNow dv c, sf := if x.replay || c.flag F.lfCtlTest then Chan.sampleNow dv c else fs,
    single := x.replay || c.flag F.lfCtlTest, len := BitVec.ofNat 2 (c.fld F.lfWinLen), test := c.flag F.lfCtlTest,
    openAt := c.xclk, lastAt := c.xclk }

/-- The marks of a tile's queues are pointers of the queue unit (R331). -/
theorem Chan.markQueues_eq (c : Chan) (first : Bool) (ts : List Nat) :
    ∃ l, c.markQueues first ts = { c with qu := { c.qu with ptrs := l } } := by
  have hmark : ∀ (b : Chan) (q : Nat), (∃ l, b = { c with qu := { c.qu with ptrs := l } }) → ∃ l,
      b.setQptr q { b.qptr q with marks := (if first then [] else (b.qptr q).marks) ++ [b.qRead q] }
        = { c with qu := { c.qu with ptrs := l } } := by
    rintro b q ⟨l, rfl⟩
    exact ⟨_, rfl⟩
  rw [Chan.markQueues]
  exact List.foldlRecOn (motive := fun b : Chan => ∃ l, b = { c with qu := { c.qu with ptrs := l } }) _ _ ⟨c.qu.ptrs, rfl⟩
    fun b hb q _ => hmark b q hb

/-- A window opens with the next WSEQ. -/
theorem Chan.openDuet_eq {c : Chan} {d : Nat} (dv : Dev) (fs : Sample) (hopen : (c.duet d).mayOpen = true)
    (hinj : (c.duet d).injAgain = 0) (harm : c.flag F.lfInjArm = false) :
    c.openDuet dv d fs = (c.markQueues (c.duet d).wins.isEmpty (c.tilesOf d)).putDuet d
      { c.duet d with wseq := (c.duet d).wseq + 1, again := none, wins := (c.duet d).wins ++ [c.freshWin dv (c.duet d) fs] } := by
  have hagain : (c.duet d).again = none := by
    simp only [Duet.mayOpen, Bool.and_eq_true] at hopen
    exact Option.isNone_iff_eq_none.1 hopen.2
  have htake : ∀ ws, c.takeInj d (c.duet d) ws = (c, c.duet d, 0) := fun ws => by
    simp only [Chan.takeInj, harm, hinj, Bool.false_eq_true, false_and, ne_eq, not_true_eq_false, if_false]
  simp only [Chan.openDuet, htake, hagain, Option.getD_none]
  rfl

/-! ## A firing starts (R109, R183, R196) -/

/-- The firing of a staged packet, with the operands of its entry. -/
def Chan.firingOf (c : Chan) (st : Staged) : Firing :=
  { pkt := st.pkt, tile := st.tile, l := (c.operands st.tile st.pkt).1, r := (c.operands st.tile st.pkt).2.1,
    t := (c.operands st.tile st.pkt).2.2, grant := st.grant }

/-- A window with a firing that starts in XCLK now; dl is a parity error of its delay-line stage (R224). -/
def Win.starts (w : Win) (now : Nat) (f : Firing) (dl : Bool) : Win :=
  { w with firings := w.firings ++ [f], lastAt := now, dlBad := w.dlBad || dl }

theorem Duet.takeUnit_kept (x : Duet) (now : Nat) (w l r : Word) :
    (x.takeUnit now w l r).stage = x.stage ∧ (x.takeUnit now w l r).wseq = x.wseq ∧ (x.takeUnit now w l r).wins = x.wins := by
  rw [Duet.takeUnit]
  split <;> exact ⟨rfl, rfl, rfl⟩

/-- The counters and the loop of a firing that starts. -/
def Chan.countStart (c : Chan) (st : Staged) (dl : Bool) : Chan :=
  let c1 := if st.starve then c.inc F.msFirestatStarve else c
  let c2 := if dl then c1.inc F.lfCntDlpar else c1
  if opOf st.pkt.instr = some .nextit ∧ st.grant.isSome then
    let e := handleEntry (withImm st.pkt.instr (c.firingOf st).l (c.firingOf st).r (c.firingOf st).t).1.val
    match c2.loop e with
    | some l => c2.setLoop e { l with pending := l.pending + 1 }
    | none => c2
  else c2

theorem Chan.countStart_kept (c : Chan) (st : Staged) (dl : Bool) :
    (c.countStart st dl).duets = c.duets ∧ (c.countStart st dl).xclk = c.xclk ∧ (c.countStart st dl).qu = c.qu := by
  have hincs : ∀ (c : Chan) (b : Bool) (f : Fd), (if b then c.inc f else c).duets = c.duets ∧ (if b then c.inc f else c).xclk = c.xclk
      ∧ (if b then c.inc f else c).qu = c.qu := fun c b f => by cases b <;> exact ⟨rfl, rfl, rfl⟩
  obtain ⟨hduets1, hxclk1, hqu1⟩ := hincs c st.starve F.msFirestatStarve
  obtain ⟨hduets2, hxclk2, hqu2⟩ := hincs (if st.starve then c.inc F.msFirestatStarve else c) dl F.lfCntDlpar
  rw [← hduets1, ← hduets2, ← hxclk1, ← hxclk2, ← hqu1, ← hqu2]
  simp only [Chan.countStart]
  split
  · split <;> exact ⟨rfl, rfl, rfl⟩
  · exact ⟨rfl, rfl, rfl⟩

/-- The list of windows with the newest one changed by g. -/
def inNewest (g : Win → Win) (ws : List Win) : List Win :=
  match ws.reverse with
  | [] => []
  | w :: r => r.reverse ++ [g w]

theorem inNewest_append (g : Win → Win) (ws : List Win) (w : Win) : inNewest g (ws ++ [w]) = ws ++ [g w] := by
  simp only [inNewest, List.reverse_append, List.reverse_singleton, List.singleton_append, List.reverse_reverse]

/-- The newest window takes the firing, and the dispatch stage is free. -/
theorem Chan.startFiring_duet {c : Chan} {d : Nat} (st : Staged) (dl : Bool) {ws : List Win} {w : Win} (hwins : (c.duet d).wins = ws ++ [w]) :
    ((c.startFiring d st dl).duet d).stage = none ∧ ((c.startFiring d st dl).duet d).wseq = (c.duet d).wseq
    ∧ ((c.startFiring d st dl).duet d).wins = ws ++ [w.starts c.xclk (c.firingOf st) dl] := by
  obtain ⟨hduets, hxclk, -⟩ := c.countStart_kept st dl
  have hduet := Chan.duet_of_duets hduets d
  have hstart : ∃ b : Chan, ∃ now i l r, c.startFiring d st dl
      = b.putDuet d ({ c.duet d with
          wins := inNewest (fun v => v.starts (c.countStart st dl).xclk (c.firingOf st) dl) ((c.countStart st dl).duet d).wins,
          stage := none, turn := (c.countStart st dl).role d == roleDouble && !(c.duet d).turn }.takeUnit now i l r) := by
    rw [← hduet]
    exact ⟨_, _, _, _, _, rfl⟩
  obtain ⟨b, now, i, l, r, hb⟩ := hstart
  rw [hb, Chan.putDuet_duet_same, hduet, hxclk, hwins, inNewest_append]
  exact Duet.takeUnit_kept _ now i l r

theorem Chan.startFiring_waits (c : Chan) (d : Nat) (st : Staged) (dl : Bool) : (c.startFiring d st dl).qu.waits = c.qu.waits := by
  have hstart : (c.startFiring d st dl).qu.waits = (c.countStart st dl).qu.waits := rfl
  rw [hstart, (c.countStart_kept st dl).2.2]

end Sys2Proof.Machine
end

section
/-! Dispatch (R182, R183, R185, R199, R200): a packet is staged, and the staged packet waits, starts, opens a window or is removed. -/

namespace Sys2Proof.Machine

/-! ## The packet in the dispatch stage -/

theorem openWin_append (ws : List Win) {w : Win} (h : w.closed = false) : openWin (ws ++ [w]) = some w := by
  simp only [openWin, List.getLast?_concat, h, Bool.false_eq_true, if_false]

theorem openWin_closed {ws : List Win} (h : ∀ w ∈ ws, w.closed = true) : openWin ws = none := by
  rw [openWin]
  split
  · next w hlast => rw [h w (List.mem_of_getLast? hlast), if_pos rfl]
  · rfl

/-- A packet that is removed at dispatch leaves the duets (R185). -/
theorem Chan.keeps_removal (c : Chan) (q id : Nat) : c.Keeps (((c.markRemoved q).cancel id).skipPacket q) :=
  ((c.keeps_setQWord _ _).andThen (Chan.keeps_cancel _ id)).andThen (Chan.keeps_qAdvance _ q)

section

variable {c : Chan} {d : Nat} {st : Staged} (dv : Dev) (fs : Sample) (dl : Bool) (hstage : (c.duet d).stage = some st)

include hstage

theorem Chan.tryStart_removes (hdead : c.live st.pkt.ctx.toNat = false) :
    ((c.tryStart dv d fs dl).duet d).stage = none ∧ ((c.tryStart dv d fs dl).duet d).wins = (c.duet d).wins := by
  have hremoved : c.tryStart dv d fs dl = ((((c.giveBack st.grant).putDuet d { c.duet d with stage := none }).markRemoved
      (8 * st.tile + st.pkt.prio.toNat)).cancel st.pkt.ctx.toNat).skipPacket (8 * st.tile + st.pkt.prio.toNat) := by
    simp only [Chan.tryStart, hstage, hdead, Bool.not_false, if_true]
  have hduet : (c.tryStart dv d fs dl).duet d = { c.duet d with stage := none } := by
    rw [hremoved]
    exact (Chan.duet_of_duets (Chan.keeps_removal _ _ _).duets d).trans (Chan.putDuet_duet_same _ d _)
  rw [hduet]
  exact ⟨rfl, rfl⟩

variable (hlive : c.live st.pkt.ctx.toNat = true)

include hlive

theorem Chan.tryStart_waits (hwait : c.mustWait (c.duet d) st = true) : c.tryStart dv d fs dl = c := by
  simp only [Chan.tryStart, hstage, hlive, Bool.not_true, Bool.false_eq_true, if_false, hwait, if_true]

variable (hgo : c.mustWait (c.duet d) st = false)

include hgo

theorem Chan.tryStart_joins {ws : List Win} {w : Win} (hwins : (c.duet d).wins = ws ++ [w]) (hopen : w.closed = false)
    (htakes : c.windowTakes c.xclk d w st.pkt.instr = true) : c.tryStart dv d fs dl = c.startFiring d st dl := by
  simp only [Chan.tryStart, hstage, hlive, Bool.not_true, Bool.false_eq_true, if_false, hgo, hwins, openWin_append ws hopen, htakes, if_true]

/-- Where no window is open, the packet's own window opens and holds its firing. -/
theorem Chan.tryStart_opens (hclosed : ∀ w ∈ (c.duet d).wins, w.closed = true) (hmay : (c.duet d).mayOpen = true)
    (hinj : (c.duet d).injAgain = 0) (harm : c.flag F.lfInjArm = false) :
    ((c.tryStart dv d fs dl).duet d).stage = none ∧ ((c.tryStart dv d fs dl).duet d).wseq = (c.duet d).wseq + 1
    ∧ ((c.tryStart dv d fs dl).duet d).wins
      = (c.duet d).wins ++ [(c.freshWin dv (c.duet d) fs).starts c.xclk (c.firingOf st) dl]
    ∧ (c.tryStart dv d fs dl).qu.waits = c.qu.waits := by
  have hstart : c.tryStart dv d fs dl = (c.openDuet dv d fs).startFiring d st dl := by
    simp only [Chan.tryStart, hstage, hlive, Bool.not_true, Bool.false_eq_true, if_false, hgo, openWin_closed hclosed, hmay, if_true]
  obtain ⟨l, hmarks⟩ := c.markQueues_eq (c.duet d).wins.isEmpty (c.tilesOf d)
  have hopens := c.openDuet_eq dv fs hmay hinj harm
  rw [hmarks] at hopens
  have hduet : (c.openDuet dv d fs).duet d = { c.duet d with
      wseq := (c.duet d).wseq + 1, again := none, wins := (c.duet d).wins ++ [c.freshWin dv (c.duet d) fs] } := by
    rw [hopens, Chan.putDuet_duet_same]
  have hxclk : (c.openDuet dv d fs).xclk = c.xclk := by rw [hopens]; rfl
  have hfiring : (c.openDuet dv d fs).firingOf st = c.firingOf st := by rw [hopens]; rfl
  have hwaits : (c.openDuet dv d fs).qu.waits = c.qu.waits := by rw [hopens]; rfl
  obtain ⟨hfree, hwseq, hwins⟩ := Chan.startFiring_duet (c := c.openDuet dv d fs) (d := d) st dl (ws := (c.duet d).wins) (by rw [hduet])
  rw [hduet] at hwseq
  rw [hxclk, hfiring] at hwins
  rw [hstart, Chan.startFiring_waits]
  exact ⟨hfree, hwseq, hwins, hwaits⟩

end

/-! ## The packet that is selected -/

theorem Chan.addSat_zero_rd (c : Chan) {f : Fd} (hf : f.lo + f.len ≤ 64) (o : Nat) : (c.addSat f 0).rd o = c.rd o := by
  have hkept : min (2 ^ f.len - 1) (c.fld f + 0) = wbits (c.rd f.off) f.lo f.len := by
    have hlt := c.fld_lt f
    rw [Nat.add_zero, Nat.min_eq_right (by omega), Chan.fld]
  rw [Chan.addSat, hkept, Chan.setFld, setBits_wbits_self _ _ _ hf, Chan.wr_rd]
  split
  · next ho => rw [ho]
  · rfl

theorem Chan.addSat_zero_eq (c : Chan) {f : Fd} (hf : f.lo + f.len ≤ 64) :
    ∃ r, c.addSat f 0 = { c with regs := r } ∧ ∀ o, ({ c with regs := r } : Chan).rd o = c.rd o :=
  ⟨_, rfl, c.addSat_zero_rd hf⟩

/-- A read of a queue in which no half fails counts nothing (R336). -/
theorem Chan.qParity_good (c : Chan) (q : Nat) :
    ∃ r, c.qParity q parityGood = ({ c with regs := r }, false, false) ∧ ∀ o, ({ c with regs := r } : Chan).rd o = c.rd o := by
  have hgood : c.qParity q parityGood = ((c.addSat (F.quStatParerr q) 0).addSat F.chQstatParerr 0, false, false) := by
    simp [Chan.qParity, parityGood, b2n]
  obtain ⟨r, hr, hrd⟩ := c.addSat_zero_eq (f := F.quStatParerr q) (by simp [F.quStatParerr])
  obtain ⟨r', hr', hrd'⟩ := Chan.addSat_zero_eq { c with regs := r } (f := F.chQstatParerr) (by decide)
  exact ⟨r', by rw [hgood, hr, hr'], fun o => (hrd' o).trans (hrd o)⟩

/-- The channel with a packet in the dispatch stage of a duet, its level's wait back at 0 (R182). -/
def Chan.staged (c : Chan) (d q : Nat) (st : Staged) : Chan :=
  ((c.clearWait q).qParity q parityGood).1.putDuet d { c.duet d with stage := some st }

/-- The duet's dispatch stage is free, and level p of the tile gives the packet of st, of a LIVE context, in this XCLK (R182, R335). -/
structure Selects (c : Chan) (d p : Nat) (st : Staged) : Prop where
  level : (c.turnTiles d).findSome? (fun t => (c.selectLevel t).map (fun p => (t, p))) = some (st.tile, p, st.starve)
  packet : st.pkt = wordPacket (c.qItem (8 * st.tile + p) (c.qRead (8 * st.tile + p)))
  grant : st.grant = none
  way : st.pkt.way ≠ 31
  live : c.live st.pkt.ctx.toNat = true
  stage : (c.duet d).stage = none
  reads : (c.qNow (8 * st.tile + p)).reads = 0

/-- A queue gives the same item where its registers, its pointers and its words are the same. -/
theorem Chan.qItem_same {b c : Chan} (hrd : ∀ o, b.rd o = c.rd o) (hptrs : b.qu.ptrs = c.qu.ptrs) (hstore : b.qu.store = c.qu.store)
    (q : Nat) : b.qItem q (b.qRead q) = c.qItem q (c.qRead q) := by
  have hunit : b.qUnit q = c.qUnit q := by rw [Chan.qUnit, Chan.qDup, Chan.flag, Chan.fld, hrd, Chan.qUnit, Chan.qDup, Chan.flag, Chan.fld]
  have hptr : b.qptr q = c.qptr q := by rw [Chan.qptr, hptrs, Chan.qptr]
  simp only [Chan.qItem, Chan.qAddr, Chan.qBase, Chan.qCap, Chan.qRead, Chan.fld, Chan.qWord, hunit, hptr, hrd, hstore]

theorem Chan.selectPacket_staged {c : Chan} {d p : Nat} {st : Staged} (hsel : Selects c d p st) :
    c.selectPacket d parityGood .clean = c.staged d (8 * st.tile + p) st := by
  obtain ⟨hlevel, hpacket, hgrant, hway, hlive, -, hreads⟩ := hsel
  obtain ⟨r, hgood, hrd⟩ := (c.clearWait (8 * st.tile + p)).qParity_good (8 * st.tile + p)
  have hparity : (c.clearWait (8 * st.tile + p)).qParity (8 * st.tile + p) { parityGood with b0 := false, b1 := false } = _ := hgood
  have hitem := Chan.qItem_same (c := c) (b := { c.clearWait (8 * st.tile + p) with regs := r }) hrd rfl rfl (8 * st.tile + p)
  have hread : ({ c.clearWait (8 * st.tile + p) with regs := r } : Chan).live st.pkt.ctx.toNat = true := hlive
  have hst : ({ pkt := st.pkt, tile := st.tile, starve := st.starve } : Staged) = st := by rw [← hgrant]
  simp only [Chan.selectPacket, hlevel, hreads, ne_eq, not_true_eq_false, if_false, hparity, Bool.false_eq_true, hitem, ← hpacket, hway,
    hread, Bool.not_true, Chan.staged, hgood, hst]
  rfl

end Sys2Proof.Machine
end

section
/-! A table in ascending order lists each key once (`tblSorted`), so that a write of a record counts nothing twice. -/

namespace Sys2Proof.Machine

theorem tblFind_below {α : Type} {t : Tbl α} {k : Nat} (h : ∀ e ∈ t, k < e.1) : tblFind t k = none := by
  induction t with
  | nil => rfl
  | cons e r ih =>
    have hhead := h e List.mem_cons_self
    rw [tblFind, if_neg (by omega)]
    exact ih fun b hb => h b (List.mem_cons_of_mem _ hb)

/-- A record is replaced by one that lists the same: the lists of all records stay the same. -/
theorem tblIns_flatMap {α β : Type} {t : Tbl α} (hsorted : tblSorted t = true) (g : α → List β) {k : Nat} {v dflt : α}
    (hdflt : g dflt = []) (hv : g v = g (tblGet t k dflt)) : (tblIns t k v).flatMap (fun e => g e.2) = t.flatMap (fun e => g e.2) := by
  rw [tblSorted_iff] at hsorted
  induction t with
  | nil => simpa [tblIns, hdflt] using hv
  | cons e r ih =>
    obtain ⟨j, w⟩ := e
    obtain ⟨hhead, htail⟩ := List.pairwise_cons.1 hsorted
    rw [tblIns]
    rcases Nat.lt_trichotomy k j with hlt | rfl | hgt
    · have hnone : tblFind ((j, w) :: r) k = none := tblFind_below fun b hb => by
        rcases List.mem_cons.1 hb with rfl | hb
        · exact hlt
        · exact hlt.trans (hhead b hb)
      rw [tblGet, hnone, Option.getD_none, hdflt] at hv
      rw [if_pos hlt, List.flatMap_cons, hv, List.nil_append]
    · rw [tblGet, tblFind, if_pos rfl, Option.getD_some] at hv
      rw [if_neg (lt_irrefl _), if_pos rfl, List.flatMap_cons, List.flatMap_cons, hv]
    · rw [tblGet, tblFind, if_neg (by omega), ← tblGet] at hv
      rw [if_neg (by omega), if_neg (by omega), List.flatMap_cons, List.flatMap_cons, ih htail hv]

end Sys2Proof.Machine
end

section
/-! The channel with a packet in the dispatch stage (R182, R183): what holds the packet is what held it before it was staged. -/

namespace Sys2Proof.Machine

section

variable (c : Chan) (d q : Nat) (st : Staged)

theorem Chan.staged_duet : (c.staged d q st).duet d = { c.duet d with stage := some st } := Chan.putDuet_duet_same _ _ _

/-- Staging a packet writes the duet, its register and the waits of its level. -/
theorem Chan.staged_eq : ∃ r w, c.staged d q st = { c with
      regs := r, duets := tblIns c.duets d { c.duet d with stage := some st }, qu := { c.qu with waits := w } }
    ∧ tblGet w q 0 = 0 ∧ ∀ o, o ≠ 0x2100 + 8 * d → (c.staged d q st).rd o = c.rd o := by
  obtain ⟨r, hgood, hrd⟩ := (c.clearWait q).qParity_good q
  have hput : tblPut c.duets d { c.duet d with stage := some st } {} = tblIns c.duets d { c.duet d with stage := some st } :=
    if_neg fun h => Option.some_ne_none st (congrArg Duet.stage h)
  refine ⟨(c.staged d q st).regs, tblPut c.qu.waits q 0 0, ?_, tblGet_put_same _ _ _ _, fun o ho => ?_⟩
  · rw [← hput, Chan.staged, hgood]
    rfl
  · rw [Chan.staged, Chan.putDuet_rd _ _ ho, hgood]
    exact hrd o

end

section

variable {c : Chan} {d q : Nat} {st : Staged} (hd : d < 68) (hsorted : tblSorted c.duets = true)

include hd

theorem Chan.staged_fld {g : Fd} (hg : 0x4000 ≤ g.off) : (c.staged d q st).fld g = c.fld g := by
  obtain ⟨r, w, -, -, hrd⟩ := c.staged_eq d q st
  rw [Chan.fld, hrd _ (by omega), Chan.fld]

theorem Chan.staged_classKind (n : Nat) : (c.staged d q st).fld (F.flClassKind n) = c.fld (F.flClassKind n) :=
  Chan.staged_fld hd (Nat.le_add_right _ _)

theorem Chan.staged_classOrdq (n : Nat) : (c.staged d q st).fld (F.flClassOrdq n) = c.fld (F.flClassOrdq n) :=
  Chan.staged_fld hd (Nat.le_add_right _ _)

include hsorted

/-- The windows of the duets hold the same places of an order queue (R248). -/
theorem Chan.staged_ordHeld (n : Nat) : (c.staged d q st).ordHeld n = c.ordHeld n := by
  obtain ⟨r, w, hstaged, -, -⟩ := c.staged_eq d q st
  have hduets : (c.staged d q st).duets.flatMap (fun e => e.2.wins.flatMap (·.firings))
      = c.duets.flatMap (fun e => e.2.wins.flatMap (·.firings)) := by
    rw [hstaged]
    exact tblIns_flatMap (v := { c.duet d with stage := some st }) hsorted (fun x => x.wins.flatMap (·.firings)) rfl rfl
  simp only [Chan.ordHeld, hduets, Chan.staged_classKind hd, Chan.staged_classOrdq hd]

theorem Chan.staged_ordClosed (n : Nat) : (c.staged d q st).ordClosed n = c.ordClosed n := by
  have hqueue : ∀ g : Fd, 0x8000 ≤ g.off → (c.staged d q st).fld g = c.fld g := fun g hg => Chan.staged_fld hd (by omega)
  have hen : ∀ i, (c.staged d q st).qEn i = c.qEn i := fun i => by
    rw [Chan.qEn, Chan.flag, hqueue _ (Nat.le_add_right _ _), Chan.qEn, Chan.flag]
  have hunit : ∀ i, (c.staged d q st).qUnit i = c.qUnit i := fun i => by
    rw [Chan.qUnit, Chan.qDup, Chan.flag, hqueue _ (Nat.le_add_right _ _), Chan.qUnit, Chan.qDup, Chan.flag]
  have hcap : ∀ i, (c.staged d q st).qCap i = c.qCap i := fun i => hqueue _ (Nat.le_add_right _ _)
  have hptr : ∀ i, (c.staged d q st).qptr i = c.qptr i ∧ (c.staged d q st).qNow i = c.qNow i := fun i => by
    obtain ⟨r, w, hstaged, -, -⟩ := c.staged_eq d q st
    rw [hstaged]
    exact ⟨rfl, rfl⟩
  obtain ⟨hqptr, hqNow⟩ := hptr (768 + n)
  have hlen : (c.staged d q st).ordLen n = c.ordLen n := by rw [Chan.ordLen, Chan.qHeld, hqptr, hunit, Chan.ordLen, Chan.qHeld]
  have hroom : (c.staged d q st).qRoom (768 + n) = c.qRoom (768 + n) := by
    rw [Chan.qRoom, hen, hqNow, hqptr, hunit, hcap, Chan.qRoom]
  rw [Chan.ordClosed, Chan.ordFull, hlen, hroom, hcap, hqptr, hunit, Chan.staged_ordHeld hd hsorted, Chan.ordClosed, Chan.ordFull]

/-- What holds a packet in the dispatch stage is what held it before it was staged. -/
theorem Chan.staged_mustWait : (c.staged d q st).mustWait ((c.staged d q st).duet d) st = c.mustWait (c.duet d) st := by
  have hflow : (c.staged d q st).flowsetWaits st.pkt = c.flowsetWaits st.pkt := by
    simp only [Chan.flowsetWaits, Chan.staged_classKind hd, Chan.staged_classOrdq hd, Chan.staged_ordClosed hd hsorted]
  rw [Chan.mustWait, hflow, Chan.staged_duet]
  obtain ⟨r, w, hstaged, -, -⟩ := c.staged_eq d q st
  rw [hstaged]
  rfl

end

end Sys2Proof.Machine
end

section
/-! DISPATCH_SELECT (R182, R183, R185, R199, R200, R202): each clause of its statement, and a duet listed out of order, for which one fails. -/

namespace Sys2Proof.Machine

/-! ## The command -/

section

variable {s : State} {k : Ch} {d : DuetId} {fs : Sample} {c : Chan} (hc : c = s.chan k.val) (hon : c.duetOn d.val = true)

include hc hon

theorem dispatchSelect_gives_staged {st : Staged} (pf : Parity) (e : Ecc) (dl : Bool) (hstage : (c.duet d.val).stage = some st) :
    Gives (.dispatchSelect k d fs pf e dl) s k (c.tryStart s.dev d.val fs dl) := by
  have hexec : exec (.dispatchSelect k d fs pf e dl) s = execDispatchSelect k d fs pf e dl s := rfl
  subst hc
  rw [Gives, hexec, execDispatchSelect, onCh]
  simp only [hon, Bool.not_true, Bool.false_eq_true, if_false, hstage, Option.isNone_some]

theorem dispatchSelect_gives_selected {p : Nat} {st : Staged} (hsel : Selects c d.val p st) :
    Gives (.dispatchSelect k d fs parityGood .clean false) s k
      ((c.staged d.val (8 * st.tile + p) st).tryStart s.dev d.val fs false) := by
  have hexec : exec (.dispatchSelect k d fs parityGood .clean false) s = execDispatchSelect k d fs parityGood .clean false s := rfl
  have hstaged := Chan.selectPacket_staged hsel
  have hfree := hsel.stage
  subst hc
  rw [Gives, hexec, execDispatchSelect, onCh]
  simp only [hon, Bool.not_true, Bool.false_eq_true, if_false, hfree, Option.isNone_none, if_true, hstaged]

/-! ## A staged packet -/

section

variable {st : Staged} (pf : Parity) (e : Ecc) (dl : Bool) (hstage : (c.duet d.val).stage = some st)

include hstage

theorem dispatchSelect_removes (hdead : c.live st.pkt.ctx.toNat = false) : Leads (.dispatchSelect k d fs pf e dl) s k fun b =>
    (b.duet d.val).stage = none ∧ (b.duet d.val).wins = (c.duet d.val).wins :=
  ⟨_, dispatchSelect_gives_staged hc hon pf e dl hstage, Chan.tryStart_removes _ _ _ hstage hdead⟩

variable (hlive : c.live st.pkt.ctx.toNat = true) (hgo : c.mustWait (c.duet d.val) st = false)

include hlive hgo

theorem dispatchSelect_joins {ws : List Win} {w : Win} (hwins : (c.duet d.val).wins = ws ++ [w]) (hopen : w.closed = false)
    (htakes : c.windowTakes c.xclk d.val w st.pkt.instr = true) : Leads (.dispatchSelect k d fs pf e dl) s k fun b =>
      (b.duet d.val).stage = none ∧ (b.duet d.val).wins = ws ++ [w.starts c.xclk (c.firingOf st) dl] := by
  obtain ⟨hfree, -, hnew⟩ := Chan.startFiring_duet st dl hwins
  refine ⟨_, dispatchSelect_gives_staged hc hon pf e dl hstage, ?_⟩
  rw [Chan.tryStart_joins _ _ _ hstage hlive hgo hwins hopen htakes]
  exact ⟨hfree, hnew⟩

theorem dispatchSelect_opens (hclosed : ∀ w ∈ (c.duet d.val).wins, w.closed = true) (hmay : (c.duet d.val).mayOpen = true)
    (hinj : (c.duet d.val).injAgain = 0) (harm : c.flag F.lfInjArm = false) : Leads (.dispatchSelect k d fs pf e dl) s k fun b =>
      (b.duet d.val).stage = none ∧ (b.duet d.val).wseq = (c.duet d.val).wseq + 1
      ∧ (b.duet d.val).wins
        = (c.duet d.val).wins ++ [(c.freshWin s.dev (c.duet d.val) fs).starts c.xclk (c.firingOf st) dl] := by
  obtain ⟨hfree, hwseq, hnew, -⟩ := Chan.tryStart_opens s.dev fs dl hstage hlive hgo hclosed hmay hinj harm
  exact ⟨_, dispatchSelect_gives_staged hc hon pf e dl hstage, hfree, hwseq, hnew⟩

end

/-! ## A packet that is selected, with the duets listed in ascending order -/

section

variable {p : Nat} {st : Staged} (hsorted : tblSorted c.duets = true) (hsel : Selects c d.val p st)

include hsorted hsel

theorem dispatchSelect_waits (hwait : c.mustWait (c.duet d.val) st = true) :
    Leads (.dispatchSelect k d fs parityGood .clean false) s k fun b =>
      (b.duet d.val).stage = some st ∧ (b.duet d.val).wins = (c.duet d.val).wins
      ∧ tblGet b.qu.waits (8 * st.tile + p) 0 = 0 ∧ (b.qptr (8 * st.tile + p)).unread = (c.qptr (8 * st.tile + p)).unread := by
  have hgives := dispatchSelect_gives_selected (fs := fs) hc hon hsel
  have hduet := c.staged_duet d.val (8 * st.tile + p) st
  have hkept := Chan.staged_mustWait (q := 8 * st.tile + p) (st := st) d.isLt hsorted
  obtain ⟨r, w, hstaged, hwaits, -⟩ := c.staged_eq d.val (8 * st.tile + p) st
  have hlive : (c.staged d.val (8 * st.tile + p) st).live st.pkt.ctx.toNat = true := by
    rw [hstaged]
    exact hsel.live
  rw [Chan.tryStart_waits _ _ _ (by rw [hduet]) hlive (hkept.trans hwait)] at hgives
  refine ⟨_, hgives, by rw [hduet], by rw [hduet], ?_, ?_⟩ <;> rw [hstaged]
  · exact hwaits
  · rfl

theorem dispatchSelect_starts (hgo : c.mustWait (c.duet d.val) st = false) (hclosed : ∀ w ∈ (c.duet d.val).wins, w.closed = true)
    (hmay : (c.duet d.val).mayOpen = true) (hinj : (c.duet d.val).injAgain = 0) (harm : c.flag F.lfInjArm = false) :
    Leads (.dispatchSelect k d fs parityGood .clean false) s k fun b =>
      (b.duet d.val).stage = none ∧ (b.duet d.val).wseq = (c.duet d.val).wseq + 1 ∧ tblGet b.qu.waits (8 * st.tile + p) 0 = 0
      ∧ ∃ w, (b.duet d.val).wins = (c.duet d.val).wins ++ [w] ∧ w.wseq = (c.duet d.val).wseq + 1
        ∧ w.firings.map (fun f => (f.pkt, f.tile, f.lead, f.follow)) = [(st.pkt, st.tile, none, none)] := by
  have hduet := c.staged_duet d.val (8 * st.tile + p) st
  have hkept := Chan.staged_mustWait (q := 8 * st.tile + p) (st := st) d.isLt hsorted
  obtain ⟨r, w, hstaged, hwaits, hrd⟩ := c.staged_eq d.val (8 * st.tile + p) st
  have hlive : (c.staged d.val (8 * st.tile + p) st).live st.pkt.ctx.toNat = true := by
    rw [hstaged]
    exact hsel.live
  have hunarmed : (c.staged d.val (8 * st.tile + p) st).flag F.lfInjArm = false := by
    rw [Chan.flag, Chan.fld, hrd F.lfInjArm.off (show 0x2030 ≠ 0x2100 + 8 * d.val by omega)]
    exact harm
  obtain ⟨hfree, hwseq, hnew, hqueue⟩ := Chan.tryStart_opens s.dev fs false (by rw [hduet]) hlive (hkept.trans hgo)
    (by rwa [hduet]) (by rwa [hduet]) (by rwa [hduet]) hunarmed
  rw [hduet] at hwseq hnew
  refine ⟨_, dispatchSelect_gives_selected hc hon hsel, hfree, hwseq, ?_, _, hnew, rfl, rfl⟩
  rw [hqueue, hstaged]
  exact hwaits

end

end

/-! ## A duet listed out of order -/

/-- The packet of a FLOWSET of class 0 in context 7, matched at entry 4 of tile 5. -/
def flowsetPkt : FPacket := { instr := 0x8040000000000000, ctx := 7, ip := 3, prio := 2, way := 4 }

/-- A duet in whose one window, closed, such a FLOWSET has started. -/
def flowsetDuet : Duet := { wseq := 1, wins := [{ wseq := 1, closed := true, firings := [{ pkt := flowsetPkt, tile := 5 }] }] }

/-- Class 0 is of KIND 2, with order queue 0, which has places for two positions; a second FLOWSET waits in the ready queue of tile 5. The
table of duets lists duet 5 behind duet 6, so that a write of duet 5 lists it once more. -/
def outOfOrder : Chan :=
  let c := ((Chan.fresh 0).setCtx 7 { st := .live }).setFld (F.flClassKind 0) 2
  let c := (c.setFld (F.quCfgEn 768) 1).setFld (F.quCfgCap 768) 4
  { c.qPush 42 (packetWord flowsetPkt) with duets := [(6, {}), (5, flowsetDuet)], xclk := 1 }

/-- The second FLOWSET in the dispatch stage. -/
def flowsetStaged : Staged := { pkt := flowsetPkt, tile := 5 }

theorem outOfOrder_selects : Selects outOfOrder 5 2 flowsetStaged := by constructor <;> decide +kernel

/-- The order queue has a place for the second FLOWSET. -/
theorem outOfOrder_free : outOfOrder.mustWait flowsetDuet flowsetStaged = false := by decide +kernel

/-- Once it is staged, the place that duet 5 holds counts twice, and the second FLOWSET stays in the stage. -/
theorem outOfOrder_held (dv : Dev) (fs : Sample) :
    (outOfOrder.staged 5 42 flowsetStaged).tryStart dv 5 fs false = outOfOrder.staged 5 42 flowsetStaged :=
  Chan.tryStart_waits _ _ _ (by rw [Chan.staged_duet]) (by decide +kernel) (by decide +kernel)

theorem Gives.unique {i : Instr} {s : State} {k : Ch} {d e : Chan} (h : Gives i s k d) (h' : Gives i s k e) : d = e := by
  have hstate : s.setChan k.val d = s.setChan k.val e := Host.Outcome.next.inj (h.symm.trans h')
  simpa using congrArg (fun u => u.chan k.val) hstate

/-- Refutes O19: in a table of duets out of ascending order the packet of `outOfOrder`, which nothing holds before it is staged, waits in the
dispatch stage, where the second clause has it start. With the table in ascending order, the form that every write keeps
(`tblSorted_put`), each clause holds: `dispatchSelect_waits`, `dispatchSelect_starts`, `dispatchSelect_joins`, `dispatchSelect_opens`,
`dispatchSelect_removes`. -/
theorem not_dispatchStartsFirings : ¬ Obligations.DispatchStartsFirings := by
  intro h
  have hc : outOfOrder = (State.reset.setChan (0 : Ch).val outOfOrder).chan (0 : Ch).val := (State.setChan_chan_same ..).symm
  have hon : outOfOrder.duetOn (5 : DuetId).val = true := by decide +kernel
  have hsel : Selects outOfOrder (5 : DuetId).val 2 flowsetStaged := outOfOrder_selects
  obtain ⟨hselected, -, -⟩ := h _ 0 5 ⟨0, 0, 0, 0, 0⟩ outOfOrder flowsetDuet hc rfl hon
  obtain ⟨-, hstarts⟩ := hselected 5 2 false 42 flowsetPkt flowsetStaged hsel.level rfl (by decide) hsel.packet hsel.way hsel.live hsel.stage
    hsel.reads rfl
  obtain ⟨e, hgives, hfree, -⟩ := hstarts outOfOrder_free (by decide) (by decide) rfl (by decide +kernel)
  have hstage : (e.duet 5).stage = some flowsetStaged := by
    have hheld := (outOfOrder_held _ _).symm.trans ((dispatchSelect_gives_selected hc hon hsel).unique hgives)
    rw [← hheld, Chan.staged_duet]
  exact Option.some_ne_none _ (hstage.symm.trans hfree)

end Sys2Proof.Machine
end

section
/-! Windows close, and a replay opens its window again (R200, R212, R225, R234). -/

namespace Sys2Proof.Machine

theorem closeNewest_append (ws : List Win) (w : Win) : closeNewest (ws ++ [w]) = ws ++ [{ w with closed := true }] := by
  simp [closeNewest]

/-- A write that is made twice is made once. -/
theorem tblPut_put_same {α : Type} [DecidableEq α] (t : Tbl α) (k : Nat) (v d : α) :
    tblPut (tblPut t k v d) k v d = tblPut t k v d := by
  simp only [tblPut]
  split
  · simp [tblDel]
  · induction t with
    | nil => simp [tblIns]
    | cons e r ih =>
      by_cases hbefore : k < e.1
      · simp [tblIns, hbefore]
      · by_cases hat : k = e.1
        · simp [tblIns, hat]
        · simp only [tblIns, if_neg hbefore, if_neg hat, ih]

/-- A duet for which no tile waits stays as it is at its boundary. -/
theorem Chan.joinDue_none {c : Chan} (now : Nat) {d : Nat} (hjoins : (c.duet d).joins = []) :
    c.joinDue now d = if (openWin (c.duet d).wins).isSome then c else c.setDuet d (c.duet d) := by
  rw [Chan.joinDue, hjoins, List.foldl_nil, ← hjoins]

/-! ## A window closes (R200, R234) -/

/-- Duet d with its newest window closed. -/
def Chan.withClosed (c : Chan) (d : Nat) (ws : List Win) (w : Win) : Chan :=
  c.setDuet d { c.duet d with wins := ws ++ [{ w with closed := true }] }

theorem Chan.joinDue_withClosed (c : Chan) (now d : Nat) (ws : List Win) (w : Win) (hjoins : (c.duet d).joins = []) :
    (c.withClosed d ws w).joinDue now d = c.withClosed d ws w := by
  have hclosed : openWin (ws ++ [{ w with closed := true }]) = none := by simp [openWin]
  rw [Chan.joinDue_none now (by rw [Chan.withClosed, Chan.setDuet_duet_same]; exact hjoins)]
  simp only [Chan.withClosed, Chan.setDuet_duet_same, hclosed, Option.isSome_none, Bool.false_eq_true, if_false]
  rw [Chan.setDuet, Chan.setDuet, tblPut_put_same]

/-- What no write of a queue's pointers changes, a fold of such writes leaves. -/
theorem foldl_setQptr {γ : Type} (g : Chan → γ) (hg : ∀ b q p, g (b.setQptr q p) = g b) (p : Chan → Nat → QPtr) (l : List Nat)
    (c : Chan) : g (l.foldl (fun b q => b.setQptr q (p b q)) c) = g c :=
  foldl_leaves g _ (fun b q => hg b q (p b q)) l c

theorem Chan.connect_xclk (c : Chan) (now e : Nat) (j : Join) : (c.connect now e j).xclk = c.xclk := by
  rw [Chan.connect, Chan.lfLast, Chan.raise_xclk, Chan.inc_xclk, Chan.wr_xclk, Chan.setDuet_xclk,
    foldl_setQptr Chan.xclk Chan.setQptr_xclk, Chan.setFld_xclk, Chan.setFld_xclk]

theorem Chan.joinDue_xclk (c : Chan) (now e : Nat) : (c.joinDue now e).xclk = c.xclk := by
  simp only [Chan.joinDue]
  split
  · rfl
  · exact foldl_leaves Chan.xclk _ (fun b j => b.connect_xclk now e j) _ (c.setDuet e { c.duet e with joins := [] })

section

variable {s : State} {k : Ch} {c : Chan} (hc : c = s.chan k.val)

include hc

/-- WINDOW_CLOSE of a duet: the tiles that wait for the boundary join, and a RETIRE that waits for it takes effect. -/
theorem windowClose_duet {d : DuetId} {ws : List Win} {w : Win} (hwins : (c.duet d.val).wins = ws ++ [w]) (hopen : w.closed = false)
    (hdone : w.busy = false) (hdue : c.closeDue c.xclk d.val w = true) : Gives (.windowClose k (.duet d)) s k
    (if (c.duet d.val).retire then ((c.withClosed d.val ws w).joinDue c.xclk d.val).startStandIn c.xclk d.val 3
     else (c.withClosed d.val ws w).joinDue c.xclk d.val) := by
  have hexec : exec (.windowClose k (.duet d)) s = execWindowClose k (.duet d) s := rfl
  have hxclk : ((c.withClosed d.val ws w).joinDue c.xclk d.val).xclk = c.xclk := Chan.joinDue_xclk _ _ _
  rw [Gives, hexec, execWindowClose, onCh, ← hc]
  simp only [hwins, openWin_append ws hopen, closeNewest_append, hdone, hdue, Bool.not_true, Bool.or_self, Bool.false_eq_true, if_false]
  rw [← Chan.withClosed, hxclk]

/-- WINDOW_CLOSE of a caller whose window takes no further instruction, or that is to stop. -/
theorem windowClose_caller {n : CallerId} {ws : List Win} {w : Win} (hwins : (c.caller n.val).wins = ws ++ [w]) (hopen : w.closed = false)
    (hdue : c.callerOpen w = false ∨ (c.caller n.val).st ≠ .running ∨ (c.caller n.val).exc ≠ [] ∨ (c.caller n.val).halting = true
      ∨ (c.caller n.val).retire = true) :
    Gives (.windowClose k (.caller n)) s k (c.setCaller n.val { c.caller n.val with wins := ws ++ [{ w with closed := true }] }) := by
  have hexec : exec (.windowClose k (.caller n)) s = execWindowClose k (.caller n) s := rfl
  have hcond : (c.callerOpen w && (c.caller n.val).st == .running && (c.caller n.val).exc.isEmpty && !(c.caller n.val).halting
      && !(c.caller n.val).retire && !(c.caller n.val).cmpBad) = false := by
    rcases hdue with h | h | h | h | h <;> simp [h]
  rw [Gives, hexec, execWindowClose, onCh, ← hc]
  simp only [hwins, openWin_append ws hopen, hcond, Bool.false_eq_true, if_false, Caller.boundary, closeNewest_append]

/-! ## A replay opens its window again (R212, R218, R235) -/

/-- The window of a replay attempt: the failed window's WSEQ, and one sample for both units (R218). -/
def Chan.replayWin (c : Chan) (dv : Dev) (v : BitVec 32) : Win :=
  { wseq := v, sl := Chan.sampleNow dv c, sf := Chan.sampleNow dv c, single := true, len := BitVec.ofNat 2 (c.fld F.lfWinLen),
    test := c.flag F.lfCtlTest, openAt := c.xclk, lastAt := c.xclk }

theorem replayOpen_duet {d : DuetId} (fs : Sample) {v : BitVec 32} (hon : c.duetOn d.val = true) (hreplay : (c.duet d.val).replay = true)
    (hagain : (c.duet d.val).again = some v) (hwins : (c.duet d.val).wins = []) (hcmp : (c.duet d.val).cmpBad = false)
    (hretire : (c.duet d.val).retire = false) (hinj : (c.duet d.val).injAgain = 0) (harm : c.flag F.lfInjArm = false) :
    Gives (.replayOpen k (.duet d) fs) s k ((c.markQueues true (c.tilesOf d.val)).putDuet d.val
      { c.duet d.val with wseq := v, again := none, wins := [c.replayWin s.dev v] }) := by
  have hexec : exec (.replayOpen k (.duet d) fs) s = execReplayOpen k (.duet d) fs s := rfl
  have htake : ∀ ws, c.takeInj d.val (c.duet d.val) ws = (c, c.duet d.val, 0) := fun ws => by simp [Chan.takeInj, harm, hinj]
  rw [Gives, hexec, execReplayOpen, onCh, ← hc]
  simp [hon, hreplay, hagain, hwins, hcmp, hretire, Chan.openDuet, htake, Chan.replayWin]

theorem replayOpen_caller {n : CallerId} (fs : Sample) {v : BitVec 32} (hreplay : (c.caller n.val).replay = true)
    (hagain : (c.caller n.val).again = some v) (hwins : (c.caller n.val).wins = []) (hroom : (c.caller n.val).cb.length + 3 ≤ 128)
    (hcmp : (c.caller n.val).cmpBad = false) :
    Gives (.replayOpen k (.caller n) fs) s k (c.setCaller n.val { c.caller n.val with
      wseq := v, again := none, wins := [{ c.replayWin s.dev v with ckpt := some (c.caller n.val).ckpt }] }) := by
  have hexec : exec (.replayOpen k (.caller n) fs) s = execReplayOpen k (.caller n) fs s := rfl
  have hfits : ¬ cbSize < cbUsed (c.caller n.val).cb [] + 3 := by simp [cbSize, cbUsed]; omega
  rw [Gives, hexec, execReplayOpen, onCh, ← hc]
  simp [hreplay, hagain, hwins, hcmp, hfits, Chan.callerWindow, Chan.openCaller, Chan.replayWin]

end

/-- Settles O20: a window that is due closes, and with it the boundary that a joining tile or a RETIRE of the duet waits for; a replay
attempt opens its window with the failed window's WSEQ. -/
theorem windowsCloseAndReopen : Obligations.WindowsCloseAndReopen := by
  intro s k c hc
  refine ⟨fun d ws w hwins hopen hdone hdue => ?_, fun n ws w => windowClose_caller hc, ?_, ?_⟩
  · have hcloses := windowClose_duet hc hwins hopen hdone hdue
    refine ⟨fun hretire hjoins => ?_, fun hretire => ?_, fun hretire => ?_⟩
    · rwa [hretire, if_neg Bool.false_ne_true, c.joinDue_withClosed _ _ _ _ hjoins] at hcloses
    · rwa [hretire, if_neg Bool.false_ne_true] at hcloses
    · rwa [hretire, if_pos rfl] at hcloses
  · intro d fs v hon hreplay hagain hwins hcmp hretire hinj harm
    refine ⟨_, replayOpen_duet hc fs hon hreplay hagain hwins hcmp hretire hinj harm, ?_⟩
    simp only [Chan.putDuet_duet_same]
    exact ⟨trivial, hreplay, _, rfl, rfl, rfl, rfl, rfl, rfl, rfl⟩
  · intro n fs v hreplay hagain hwins hroom hcmp
    exact ⟨_, replayOpen_caller hc fs hreplay hagain hwins hroom hcmp, rfl, rfl, rfl, rfl⟩

end Sys2Proof.Machine
end

section
/-! WINDOW_COMPARE (R60, R69, R209, R684): a context without a handler, whose status word may not leave, counts two causes. -/

namespace Sys2Proof.Machine

/-- A window that matches commits (R209). -/
theorem windowCompare_commits {s : State} {k : Ch} {d : DuetId} {cf : CmpFault} {w : Win} {vs : List Win}
    (hwins : ((s.chan k.val).duet d.val).wins = w :: vs) (hclosed : w.closed = true) (hdone : w.busy = false)
    (hpar : cf.dlpar = false) (hmatch : w.matched cf = true) : Gives (.windowCompare k (.duet d) cf) s k
      (((s.chan k.val).comparing (.duet d)).commitDuet ((s.chan k.val).comparing (.duet d)).xclk d.val w) := by
  have hexec : exec (.windowCompare k (.duet d) cf) s = execWindowCompare k (.duet d) cf s := rfl
  rw [Gives, hexec, execWindowCompare, onCh]
  simp [hwins, hclosed, hdone, hpar, hmatch]

/-! ## The status word of a context that ends is refused -/

/-- A firing of context 7 in which both units have raised cause 0x24. -/
def refusedFiring : Firing :=
  { pkt := { ctx := 7, ip := 3 }, lead := some { cause := some (0x24, 0) }, follow := some { cause := some (0x24, 0) } }

def refusedWin : Win := { wseq := 1, closed := true, firings := [refusedFiring] }

/-- Context 7 is LIVE with no handler, and its RET_TAG names device 1, outside the plane; the one window of duet 0 is that of the firing. -/
def strandedStatus : Chan :=
  { ((Chan.fresh 0).setFld F.chCtxcfgLimit 1).setCtx 7 { st := .live, origin := 1, excTag := noTag, retTag := mkTag 1 0 0 0 0 0 } with
    duets := [(0, { wseq := 1, wins := [refusedWin] })] }

/-- The cause of the firing is counted, and the cause 0x22 of the status word that its kill sends. -/
theorem strandedStatus_exccnt :
    (((strandedStatus.comparing (.duet 0)).commitDuet (strandedStatus.comparing (.duet 0)).xclk 0 refusedWin).ctx 7).exccnt = 2 := by
  decide +kernel

/-- Refutes O21: the cause of a firing in a context without a handler ends the context with 0xE0 (R69), and the status word it then sends may not
leave for a device outside the plane: it raises 0x22 in the same context (R67, R683, R684). EXCCNT so counts 2, where the statement has 1. -/
theorem not_windowsCommitOrRewind : ¬ Obligations.WindowsCommitOrRewind := by
  rintro ⟨-, heffects, -⟩
  have hchan : (State.reset.setChan (0 : Ch).val strandedStatus).chan (0 : Ch).val = strandedStatus := State.setChan_chan_same ..
  have hwins : (strandedStatus.duet (0 : DuetId).val).wins = [refusedWin] := by decide +kernel
  have hmatch : refusedWin.matched cmpGood = true := by decide +kernel
  obtain ⟨hduet, -⟩ := heffects _ 0 cmpGood strandedStatus refusedWin [] refusedFiring { cause := some (0x24, 0) } hchan.symm rfl hmatch
    rfl rfl
  obtain ⟨-, hcause, -⟩ := hduet 0 7 (strandedStatus.ctx 7) hwins (by decide +kernel) rfl rfl (by decide +kernel) (by decide +kernel)
  obtain ⟨b, hgives, hcount, -⟩ := hcause 0x24 0 rfl rfl
  have hcommits := windowCompare_commits (s := State.reset.setChan (0 : Ch).val strandedStatus) (k := 0) (d := 0)
    ((congrArg (fun c : Chan => (c.duet (0 : DuetId).val).wins) hchan).trans hwins) rfl rfl rfl hmatch
  rw [hgives.unique hcommits, hchan] at hcount
  exact absurd (hcount.symm.trans strandedStatus_exccnt) (by decide +kernel)

end Sys2Proof.Machine
end

section
/-! Writes behind a held access (R390, R591, R659): an access that the memory does not take is held by an awake channel too, and every write
after it is held behind it. -/

namespace Sys2Proof.Machine

section

variable {c : Chan} {p : Party} {off : Nat} {w : Word}

/-- A write outside the PWR block is held behind an access that waits. -/
theorem Chan.regWrite_behind (f : Chan → Chan) (hheld : c.pw.held ≠ []) (hpwr : inPwr off = false) :
    c.regWrite p off w f = c.hold { party := p, off := off, w := some w } := by
  have hserved : c.served off = false := by simp [Chan.served, hpwr, hheld]
  simp [Chan.regWrite, hserved]

theorem Chan.hold_fld (a : HeldAcc) (g : Fd) : (c.hold a).fld g = c.fld g := by
  simp only [Chan.hold]
  split <;> rfl

theorem Chan.hold_caller (a : HeldAcc) (n : Nat) : (c.hold a).caller n = c.caller n := by
  simp only [Chan.hold]
  split <;> rfl

end

/-! ## An awake channel that holds an access -/

/-- A channel in C0 whose memory is in RETRAIN, with the translation table in GDDR7. -/
def retraining : Chan := ((Chan.fresh 0).setFld F.dmTrstatState 3).setFld F.chHwtbaseAddr (dramBase / 2 ^ 20)

/-- A read of CH_HWTDATA by the steward. -/
def tableRead : HeldAcc := { party := .supv, off := 0x198, w := none }

/-- The channel holds the read, which the memory does not take (R390, R572), and stays awake. -/
theorem hwtdataRead_holds :
    Gives (.hwtdataRead 0 .supv) (State.reset.setChan (0 : Ch).val retraining) 0 (retraining.hold tableRead) := by
  have hchan : (State.reset.setChan (0 : Ch).val retraining).chan (0 : Ch).val = retraining := State.setChan_chan_same ..
  have hserved : retraining.served 0x198 = false := by decide +kernel
  have hexec : ∀ s, exec (.hwtdataRead 0 .supv) s = execHwtdataRead 0 .supv s := fun _ => rfl
  rw [Gives, hexec, execHwtdataRead, onCh]
  rw [hchan]
  simp [hserved, tableRead]

/-- The state after that read. -/
def readHeld : State := (State.reset.setChan (0 : Ch).val retraining).setChan (0 : Ch).val (retraining.hold tableRead)

theorem readHeld_chan : readHeld.chan (0 : Ch).val = retraining.hold tableRead := State.setChan_chan_same ..

theorem readHeld_awake : (retraining.hold tableRead).asleep = false := by decide +kernel

theorem readHeld_holds : (retraining.hold tableRead).pw.held ≠ [] := by decide +kernel

/-- Refutes O28: a write of LF_WIN behind the held read of `readHeld` waits with it, and LEN is as before. -/
theorem not_duetControl : ¬ Obligations.DuetControl := by
  intro h
  obtain ⟨-, -, -, -, -, -, -, -, -, -, -, hlen⟩ := h readHeld 0 .supv 3 0 _ readHeld_chan.symm readHeld_awake
  obtain ⟨b, hgives, hfld, -⟩ := hlen rfl
  have hexec : exec (.lfWinWrite 0 .supv 3) readHeld = execLfWinWrite 0 .supv 3 readHeld := rfl
  have hholds : Gives (.lfWinWrite 0 .supv 3) readHeld 0 ((retraining.hold tableRead).hold { party := .supv, off := 0x2000, w := some 3 }) := by
    rw [Gives, hexec, execLfWinWrite, onCh, readHeld_chan, Chan.regWrite_behind _ readHeld_holds (by decide)]
  rw [hgives.unique hholds, Chan.hold_fld, Chan.hold_fld] at hfld
  exact absurd hfld (by decide +kernel)

/-- Refutes O29: a RESET of caller 0 behind the held read of `readHeld` waits with it, and the caller is as before. -/
theorem not_callerControl : ¬ Obligations.CallerControl := by
  rintro ⟨hcall, -⟩
  obtain ⟨-, hacts⟩ := hcall readHeld 0 .supv 0 (BitVec.ofNat 64 (2 * 2 ^ 16)) _ readHeld_chan.symm readHeld_awake rfl
  obtain ⟨-, -, -, hreset⟩ := hacts (fun hp => nomatch hp)
  obtain ⟨b, hgives, -, -, -, -, -, -, hgen⟩ := hreset (by decide +kernel) (by decide +kernel)
  have hholds : Gives (.reset 0 .supv 0 (BitVec.ofNat 64 (2 * 2 ^ 16))) readHeld 0
      ((retraining.hold tableRead).hold { party := .supv, off := 0x30000, w := some (BitVec.ofNat 64 (2 * 2 ^ 16)) }) := by
    have hexec : exec (.reset 0 .supv 0 (BitVec.ofNat 64 (2 * 2 ^ 16))) readHeld = execReset 0 .supv 0 (BitVec.ofNat 64 (2 * 2 ^ 16)) readHeld := rfl
    rw [Gives, hexec, execReset, onCh, readHeld_chan, Chan.regWrite_behind _ readHeld_holds (by decide)]
    rfl
  rw [hgives.unique hholds, Chan.hold_caller] at hgen
  exact absurd hgen (Nat.succ_ne_self _).symm

end Sys2Proof.Machine
end

section
/-! Tables under a predicate: a value that does not satisfy it takes the place of another that does not. -/

namespace Sys2Proof.Machine

section

variable {α : Type} {p : α → Bool} {v : α}

theorem any_tblIns (hv : p v = false) (k : Nat) : ∀ t : Tbl α, (∀ w, tblFind t k = some w → p w = false) →
    (tblIns t k v).any (fun e => p e.2) = t.any (fun e => p e.2)
  | [], _ => by simp [tblIns, hv]
  | (j, w) :: r, hold => by
    by_cases hbefore : k < j
    · simp [tblIns, hbefore, hv]
    · by_cases hat : k = j
      · have hw : p w = false := hold w (by simp [tblFind, hat])
        simp [tblIns, hat, hv, hw]
      · have hrest := any_tblIns hv k r fun u hu => hold u (by simp [tblFind, Ne.symm hat, hu])
        simp [tblIns, hbefore, hat, hrest]

theorem any_tblPut [DecidableEq α] (t : Tbl α) (k : Nat) {d : α} (hne : v ≠ d) (hv : p v = false) (hold : p (tblGet t k d) = false) :
    (tblPut t k v d).any (fun e => p e.2) = t.any (fun e => p e.2) := by
  rw [tblPut, if_neg hne]
  exact any_tblIns hv k t fun w hw => by rwa [tblGet, hw] at hold

theorem any_tblPut_false [DecidableEq α] (t : Tbl α) (k : Nat) {d : α} (hv : p v = false) (hold : t.any (fun e => p e.2) = false) :
    (tblPut t k v d).any (fun e => p e.2) = false := by
  simp only [List.any_eq_false, Bool.not_eq_true] at hold ⊢
  intro e he
  rw [tblPut] at he
  split at he
  · exact hold e (List.mem_filter.1 he).1
  · rcases mem_tblIns _ _ _ _ he with rfl | he
    · exact hv
    · exact hold e he

end

end Sys2Proof.Machine
end

section
/-! Roles of duets (R225, R228, R230, R245): what retiring a duet, and giving a tile to another, leave in the LF registers. -/

namespace Sys2Proof.Machine

section

variable {b c : Chan}

/-- The role and the tiles of a duet are fields of its LF_DUETn (R245). -/
theorem Chan.role_of_rd {e : Nat} (h : b.rd (0x2100 + 8 * e) = c.rd (0x2100 + 8 * e)) : b.role e = c.role e :=
  congrArg (fun w => wbits w 12 4) h

theorem Chan.serves_of_rd {e : Nat} (h : b.rd (0x2100 + 8 * e) = c.rd (0x2100 + 8 * e)) :
    b.fld (F.lfDuetServes e) = c.fld (F.lfDuetServes e) := congrArg (fun w => wbits w 18 6) h

theorem Chan.serves2_of_rd {e : Nat} (h : b.rd (0x2100 + 8 * e) = c.rd (0x2100 + 8 * e)) :
    b.fld (F.lfDuetServes2 e) = c.fld (F.lfDuetServes2 e) := congrArg (fun w => wbits w 24 6) h

theorem Chan.cause_of_rd {e : Nat} (h : b.rd (0x2100 + 8 * e) = c.rd (0x2100 + 8 * e)) :
    b.fld (F.lfDuetCause e) = c.fld (F.lfDuetCause e) := congrArg (fun w => wbits w 9 3) h

theorem Chan.tilesOf_of_rd {e : Nat} (h : b.rd (0x2100 + 8 * e) = c.rd (0x2100 + 8 * e)) : b.tilesOf e = c.tilesOf e := by
  rw [Chan.tilesOf, role_of_rd h, serves_of_rd h, serves2_of_rd h, Chan.tilesOf]

theorem Chan.tilesOf_lt {d t : Nat} (h : t ∈ c.tilesOf d) : t < 64 := by
  have hserves := c.fld_lt (F.lfDuetServes d)
  have hserves2 := c.fld_lt (F.lfDuetServes2 d)
  rw [Chan.tilesOf] at h
  split_ifs at h
  · rw [List.mem_singleton.1 h]
    exact hserves
  · rcases List.mem_pair.1 h with rfl | rfl
    · exact hserves
    · exact hserves2
  · exact absurd h List.not_mem_nil

theorem Chan.role_lt_two {d : Nat} (h : c.tilesOf d ≠ []) : c.role d < 2 := by
  by_contra hother
  have hserving : c.role d ≠ roleServing := fun h => hother (by rw [h]; decide)
  have hdouble : c.role d ≠ roleDouble := fun h => hother (by rw [h]; decide)
  exact h (by rw [Chan.tilesOf, if_neg hserving, if_neg hdouble])

end

/-- LF_DUETs are other registers for other duets. -/
theorem lfDuet_ne {d e : Nat} (h : e ≠ d) : 0x2100 + 8 * e ≠ 0x2100 + 8 * d := by omega

theorem duetReg_le (d : Nat) : 0x2100 ≤ 0x2100 + 8 * d := Nat.le_add_right _ _

section

variable (c : Chan)

theorem Chan.setFld_rd {f : Fd} {o : Nat} (v : Nat) (h : o ≠ f.off) : (c.setFld f v).rd o = c.rd o := by
  rw [Chan.setFld, Chan.wr_rd, if_neg h]

/-- A duet's record changes REPLAY and UNCOM, bits 5 to 7, of its LF_DUETn, and no other field. -/
theorem Chan.putDuet_fld (d : Nat) (x : Duet) {g : Fd} (h : 8 ≤ g.lo) : (c.putDuet d x).fld g = c.fld g := by
  rw [Chan.putDuet, Chan.fld_setFld_ne _ _ _ _ (by simp [F.lfDuetUncom]) (.inr (.inr (by simp [F.lfDuetUncom]; omega))),
    Chan.fld_setFld_ne _ _ _ _ (by simp [F.lfDuetReplay]) (.inr (.inr (by simp [F.lfDuetReplay]; omega))), Chan.setDuet_fld]

theorem Chan.putDuet_duet {d e : Nat} (x : Duet) (h : e ≠ d) : (c.putDuet d x).duet e = c.duet e := by
  rw [Chan.putDuet, Chan.setFld_duet, Chan.setFld_duet, Chan.setDuet_duet, if_neg h]

theorem Chan.putDuet_duets (d : Nat) (x : Duet) : (c.putDuet d x).duets = tblPut c.duets d x {} := rfl

/-! ## A duet is retired (R225) -/

section

variable (d k : Nat)

theorem Chan.retireDuet_rd {o : Nat} (h : o ≠ 0x2100 + 8 * d) : (c.retireDuet d k).rd o = c.rd o := by
  rw [Chan.retireDuet, Chan.putDuet_rd _ _ h, Chan.setFld_rd _ _ h, Chan.setFld_rd _ _ h, Chan.setFld_rd _ _ h, Chan.setFld_rd _ _ h]

theorem Chan.retireDuet_role : (c.retireDuet d k).role d = 4 := by
  rw [Chan.role, Chan.retireDuet, Chan.putDuet_fld _ _ _ (by simp [F.lfDuetRole])]
  rw [Chan.fld_setFld_ne _ _ _ _ (by simp [F.lfDuetServes2]) (by simp [F.lfDuetServes2, F.lfDuetRole]),
    Chan.fld_setFld_ne _ _ _ _ (by simp [F.lfDuetServes]) (by simp [F.lfDuetServes, F.lfDuetRole]),
    Chan.fld_setFld_ne _ _ _ _ (by simp [F.lfDuetCause]) (by simp [F.lfDuetCause, F.lfDuetRole]),
    Chan.fld_setFld _ _ _ (by simp [F.lfDuetRole])]
  rfl

theorem Chan.retireDuet_cause {k : Nat} (h : k < 8) : (c.retireDuet d k).fld (F.lfDuetCause d) = k := by
  rw [Chan.retireDuet, Chan.putDuet_fld _ _ _ (by simp [F.lfDuetCause]),
    Chan.fld_setFld_ne _ _ _ _ (by simp [F.lfDuetServes2]) (by simp [F.lfDuetServes2, F.lfDuetCause]),
    Chan.fld_setFld_ne _ _ _ _ (by simp [F.lfDuetServes]) (by simp [F.lfDuetServes, F.lfDuetCause]),
    Chan.fld_setFld _ _ _ (by simp [F.lfDuetCause])]
  exact Nat.mod_eq_of_lt h

theorem Chan.retireDuet_duet : (c.retireDuet d k).duet d = { cb := (c.duet d).cb } := by
  rw [Chan.retireDuet, Chan.putDuet_duet_same, Chan.setFld_duet, Chan.setFld_duet, Chan.setFld_duet, Chan.setFld_duet]

theorem Chan.retireDuet_duet_ne {e : Nat} (h : e ≠ d) : (c.retireDuet d k).duet e = c.duet e := by
  rw [Chan.retireDuet, Chan.putDuet_duet _ _ h, Chan.setFld_duet, Chan.setFld_duet, Chan.setFld_duet, Chan.setFld_duet]

/-- A retired duet hands no tile over. -/
theorem Chan.retireDuet_handed {t : Nat} (h : c.handed t = false) : (c.retireDuet d k).handed t = false := by
  rw [Chan.handed, Chan.retireDuet, Chan.putDuet_duets, Chan.setFld_duets, Chan.setFld_duets, Chan.setFld_duets, Chan.setFld_duets]
  exact any_tblPut_false (p := fun x : Duet => match x.standIn with | some si => si.handOver == some t | none => false) c.duets d rfl h

end

/-! ## A duet takes a tile (R228) -/

section

variable (sp t : Nat) (v : BitVec 32) (again : Option (BitVec 32))

theorem Chan.takeTile_rd {o : Nat} (h : o ≠ 0x2100 + 8 * sp) : (c.takeTile sp t v again).rd o = c.rd o := by
  rw [Chan.takeTile, Chan.putDuet_rd _ _ h, Chan.setFld_rd _ _ h, Chan.setFld_rd _ _ h, Chan.setFld_rd _ _ h]

theorem Chan.takeTile_role : (c.takeTile sp t v again).role sp = 0 := by
  rw [Chan.role, Chan.takeTile, Chan.putDuet_fld _ _ _ (by simp [F.lfDuetRole]),
    Chan.fld_setFld_ne _ _ _ _ (by simp [F.lfDuetServes2]) (by simp [F.lfDuetServes2, F.lfDuetRole]),
    Chan.fld_setFld_ne _ _ _ _ (by simp [F.lfDuetServes]) (by simp [F.lfDuetServes, F.lfDuetRole]),
    Chan.fld_setFld _ _ _ (by simp [F.lfDuetRole])]
  rfl

theorem Chan.takeTile_serves {t : Nat} (h : t < 64) : (c.takeTile sp t v again).fld (F.lfDuetServes sp) = t := by
  rw [Chan.takeTile, Chan.putDuet_fld _ _ _ (by simp [F.lfDuetServes]),
    Chan.fld_setFld_ne _ _ _ _ (by simp [F.lfDuetServes2]) (by simp [F.lfDuetServes2, F.lfDuetServes]),
    Chan.fld_setFld _ _ _ (by simp [F.lfDuetServes])]
  exact Nat.mod_eq_of_lt h

theorem Chan.takeTile_duet :
    (c.takeTile sp t v again).duet sp = { cb := (c.duet sp).cb, wseq := v, again := again, replay := true } := by
  rw [Chan.takeTile, Chan.putDuet_duet_same, Chan.setFld_duet, Chan.setFld_duet, Chan.setFld_duet]

theorem Chan.takeTile_duet_ne {e : Nat} (h : e ≠ sp) : (c.takeTile sp t v again).duet e = c.duet e := by
  rw [Chan.takeTile, Chan.putDuet_duet _ _ h, Chan.setFld_duet, Chan.setFld_duet, Chan.setFld_duet]

end

/-! ## LF_LAST, a counter of LF_CNT2 and an event (R242, R243) -/

section

variable (failed taker reason tile time : Nat) (src : Nat)

theorem Chan.logged_rd {g : Fd} (hcount : g.off = 0x2018) {o : Nat} (h : 0x2100 ≤ o) :
    (((c.lfLast failed taker reason tile time).inc g).raise src).rd o = c.rd o := by
  have hreg : o ≠ g.off := by omega
  have hlast : o ≠ F.lfLastValid.off := by simp only [F.lfLastValid]; omega
  rw [Chan.raise_rd, Chan.inc, Chan.addSat, Chan.setFld_rd _ _ hreg, Chan.lfLast, Chan.wr_rd, if_neg hlast]

theorem Chan.logged_duet (g : Fd) (e : Nat) : (((c.lfLast failed taker reason tile time).inc g).raise src).duet e = c.duet e := by
  rw [Chan.raise_duet, Chan.inc_duet, Chan.lfLast, Chan.wr_duet]

end

/-! ## A tile goes to a partner (R230) -/

/-- A partner is another duet in role SERVING. -/
theorem Chan.partnerOf_serves {d t e : Nat} (h : c.partnerOf d t = some e) : c.role e = 0 := by
  have hmem := mem_sortBy.1 (List.mem_of_head? h)
  simp only [List.mem_filter, Bool.and_eq_true, beq_iff_eq] at hmem
  exact hmem.2.1.1.2

theorem Chan.connect_rd {now e : Nat} (j : Join) {o : Nat} (h : 0x2100 ≤ o) (hother : o ≠ 0x2100 + 8 * e) :
    (c.connect now e j).rd o = c.rd o := by
  rw [Chan.connect, Chan.logged_rd _ _ _ _ _ _ _ rfl h, Chan.setDuet_rd, foldl_setQptr (fun b => b.rd o) fun b q p => b.setQptr_rd q p o,
    Chan.setFld_rd _ _ hother, Chan.setFld_rd _ _ hother]

theorem Chan.joinDue_rd {now e o : Nat} (h : 0x2100 ≤ o) (hother : o ≠ 0x2100 + 8 * e) : (c.joinDue now e).rd o = c.rd o := by
  simp only [Chan.joinDue]
  split
  · rfl
  · exact foldl_leaves (fun b => b.rd o) _ (fun b j => b.connect_rd j h hother) _ (c.setDuet e { c.duet e with joins := [] })

/-- A duet that is not SERVING keeps its role. -/
theorem Chan.giveTile_role {now d t cause since e : Nat} (h : c.role e ≠ 0) : (c.giveTile now d t cause since).role e = c.role e := by
  refine role_of_rd ?_
  rw [Chan.giveTile]
  split
  · exact Chan.logged_rd _ _ _ _ _ _ _ rfl (duetReg_le e)
  · next p hpartner =>
    have hother : e ≠ p := by
      rintro rfl
      exact h (c.partnerOf_serves hpartner)
    exact Chan.joinDue_rd _ (duetReg_le e) (lfDuet_ne hother)

end

end Sys2Proof.Machine
end

section
/-! The end of a stand-in and a comparator that fails its self-test (R223, R226 to R230, R233, R490). -/

namespace Sys2Proof.Machine

/-! ## The end of a stand-in (R228, R230) -/

/-- Tile t passes from duet d, which is retired, to the spare of its stand-in (R228). -/
def Chan.passTile (c : Chan) (d t : Nat) (si : StandIn) : Chan :=
  (c.retireDuet d si.cause.toNat).takeTile si.spare t (c.duet d).wseq (c.duet d).again

section

variable {c : Chan} {d t : Nat} {si : StandIn}

/-- The register of the duet that is retired is as it was left then. -/
theorem Chan.passTile_rd (hspare : si.spare ≠ d) :
    (c.passTile d t si).rd (0x2100 + 8 * d) = (c.retireDuet d si.cause.toNat).rd (0x2100 + 8 * d) :=
  Chan.takeTile_rd _ _ _ _ _ (lfDuet_ne hspare.symm)

theorem Chan.passTile_duet : (c.passTile d t si).duet si.spare
    = { cb := ((c.retireDuet d si.cause.toNat).duet si.spare).cb, wseq := (c.duet d).wseq, again := (c.duet d).again, replay := true } :=
  Chan.takeTile_duet _ _ _ _ _

theorem Chan.passTile_retired (hspare : si.spare ≠ d) : (c.passTile d t si).duet d = { cb := (c.duet d).cb } := by
  rw [Chan.passTile, Chan.takeTile_duet_ne _ _ _ _ _ hspare.symm, Chan.retireDuet_duet]

end

section

variable {c : Chan} {now d t : Nat} {si : StandIn} (hover : si.handOver = none) (htiles : c.tilesOf d = [t]) (hkept : c.handed t = false)

include hover htiles hkept

/-- The spare has passed: the tile passes to it, which is logged and raised. -/
theorem Chan.standInOver_pass : c.standInOver now d si true
    = (((c.passTile d t si).lfLast d si.spare si.cause.toNat t (now - si.since)).inc F.lfCnt2Standin).raise 12 := by
  have hmine : (c.tilesOf d).filter (fun t => !c.handed t) = [t] := by simp [htiles, hkept]
  simp only [Chan.standInOver, hover, if_true, Chan.standInDone, hmine, List.foldl_nil, Chan.passTile]

theorem Chan.standInOver_pass_rd (e : Nat) :
    (c.standInOver now d si true).rd (0x2100 + 8 * e) = (c.passTile d t si).rd (0x2100 + 8 * e) := by
  rw [Chan.standInOver_pass hover htiles hkept, Chan.logged_rd _ _ _ _ _ _ _ rfl (duetReg_le e)]

theorem Chan.standInOver_pass_duet (e : Nat) : (c.standInOver now d si true).duet e = (c.passTile d t si).duet e := by
  rw [Chan.standInOver_pass hover htiles hkept, Chan.logged_duet]

/-- The spare has failed: both are retired, and the tile is given away. -/
theorem Chan.standInOver_fail (hspare : d ≠ si.spare) : c.standInOver now d si false
    = ((c.retireDuet si.spare 4).retireDuet d si.cause.toNat).giveTile now d t si.cause.toNat si.since := by
  have hserved : (c.retireDuet si.spare 4).tilesOf d = [t] := by
    rw [Chan.tilesOf_of_rd (c.retireDuet_rd _ _ (lfDuet_ne hspare)), htiles]
  simp [Chan.standInOver, hover, Chan.retireNoSpare, hserved, c.retireDuet_handed si.spare 4 hkept]

end

section

variable {s : State} {k : Ch} {c : Chan} {d : DuetId} {si : StandIn} (hc : c = s.chan k.val)
  (hstand : (c.duet d.val).standIn = some si)

include hc hstand

theorem standInComplete_gives (pass : Bool) : Gives (.standInComplete k d pass) s k (c.standInOver c.xclk d.val si pass) := by
  have hexec : exec (.standInComplete k d pass) s = execStandInComplete k d pass s := rfl
  rw [Gives, hexec, execStandInComplete, onCh, ← hc]
  simp only [hstand]

theorem standInComplete_pass {t : Nat} (hover : si.handOver = none) (hspare : si.spare ≠ d.val) (htiles : c.tilesOf d.val = [t])
    (hkept : c.handed t = false) (htile : t < 64) :
    Leads (.standInComplete k d true) s k (fun b => b.role si.spare = 0 ∧ b.fld (F.lfDuetServes si.spare) = t ∧ b.role d.val = 4
      ∧ b.fld (F.lfDuetCause d.val) = si.cause.toNat ∧ (b.duet si.spare).replay = true
      ∧ (b.duet si.spare).again = (c.duet d.val).again ∧ (b.duet d.val).wins = [] ∧ (∃ m ∈ b.ev.sent, m.src = 12)) := by
  have hrd := Chan.standInOver_pass_rd (now := c.xclk) hover htiles hkept
  have hduet := Chan.standInOver_pass_duet (now := c.xclk) hover htiles hkept
  have hretired := (hrd d.val).trans (Chan.passTile_rd hspare)
  refine ⟨_, standInComplete_gives hc hstand true, ?_, ?_, ?_, ?_, ?_, ?_, ?_, ?_⟩
  · rw [Chan.role_of_rd (hrd _), Chan.passTile, Chan.takeTile_role]
  · rw [Chan.serves_of_rd (hrd _), Chan.passTile, Chan.takeTile_serves _ _ _ _ htile]
  · rw [Chan.role_of_rd hretired, Chan.retireDuet_role]
  · rw [Chan.cause_of_rd hretired, Chan.retireDuet_cause _ _ si.cause.isLt]
  · rw [hduet, Chan.passTile_duet]
  · rw [hduet, Chan.passTile_duet]
  · rw [hduet, Chan.passTile_retired hspare]
  · rw [Chan.standInOver_pass hover htiles hkept]
    exact ⟨_, List.mem_append_right _ (List.mem_singleton.2 rfl), rfl⟩

theorem standInComplete_fail {t : Nat} (hover : si.handOver = none) (hspare : si.spare ≠ d.val) (htiles : c.tilesOf d.val = [t])
    (hkept : c.handed t = false) :
    Leads (.standInComplete k d false) s k (fun b => b.role d.val = 4 ∧ b.role si.spare = 4
      ∧ b = ((c.retireDuet si.spare 4).retireDuet d.val si.cause.toNat).giveTile c.xclk d.val t si.cause.toNat si.since) := by
  have hduet : ((c.retireDuet si.spare 4).retireDuet d.val si.cause.toNat).role d.val = 4 := Chan.retireDuet_role _ _ _
  have htaker : ((c.retireDuet si.spare 4).retireDuet d.val si.cause.toNat).role si.spare = 4 := by
    rw [Chan.role_of_rd (Chan.retireDuet_rd _ _ _ (lfDuet_ne hspare)), Chan.retireDuet_role]
  have hgives := standInComplete_gives hc hstand false
  rw [Chan.standInOver_fail hover htiles hkept hspare.symm] at hgives
  refine ⟨_, hgives, ?_, ?_, rfl⟩
  · rw [Chan.giveTile_role _ (by rw [hduet]; decide), hduet]
  · rw [Chan.giveTile_role _ (by rw [htaker]; decide), htaker]

/-- A hand-over ends alike with either outcome: it has no self-test (R233). -/
theorem standInComplete_handOver {t : Nat} (hover : si.handOver = some t) (htile : t < 64) (pass : Bool) :
    Leads (.standInComplete k d pass) s k (fun b => b.role d.val = 0 ∧ b.fld (F.lfDuetServes d.val) = t
      ∧ (b.duet d.val).standIn = none) := by
  refine ⟨_, standInComplete_gives hc hstand pass, ?_⟩
  simp only [Chan.standInOver, hover, Chan.handOverDone]
  refine ⟨?_, ?_, ?_⟩
  · rw [Chan.role_of_rd (Chan.logged_rd _ _ _ _ _ _ _ rfl (duetReg_le _)), Chan.takeTile_role]
  · rw [Chan.serves_of_rd (Chan.logged_rd _ _ _ _ _ _ _ rfl (duetReg_le _)), Chan.takeTile_serves _ _ _ _ htile]
  · rw [Chan.logged_duet, Chan.takeTile_duet]

end

/-! ## The flush of a stand-in leaves roles, events and the other duets (R226) -/

/-- What the LF block's registers, its duets and the events hold. -/
def Chan.lfParts (c : Chan) : (Nat → Word) × Tbl Duet × List EvMsg := (c.rd, c.duets, c.ev.sent)

theorem Chan.giveBack_lfParts (c : Chan) (g : Option Grant) : (c.giveBack g).lfParts = c.lfParts := by cases g <;> rfl

theorem Chan.dropPending_lfParts (c : Chan) (fs : List Firing) : (c.dropPending fs).lfParts = c.lfParts := by
  refine foldl_leaves Chan.lfParts _ (fun b f => ?_) fs c
  split
  · dsimp only
    split
    · split <;> rfl
    · rfl
  · rfl

theorem Chan.rewindQueues_lfParts (c : Chan) (ts : List Nat) : (c.rewindQueues ts).lfParts = c.lfParts := by
  refine foldl_leaves Chan.lfParts _ (fun b q => ?_) _ c
  split <;> rfl

/-- A duet as the flush leaves it (R212). -/
def Duet.flushed (x : Duet) : Duet :=
  { x with wins := [], stage := none, replay := true, again := (match x.wins with | w :: _ => some w.wseq | [] => x.again),
           divFree := 0, fdivFree := 0, cplxFree := 0, fanFree := 0 }

/-- The flush writes the duet, over a channel whose registers, duets and events are as before. -/
theorem Chan.flushDuet_eq (c : Chan) (d : Nat) : ∃ b : Chan, b.lfParts = c.lfParts ∧ c.flushDuet d = b.putDuet d (c.duet d).flushed := by
  refine ⟨_, ?_, rfl⟩
  rw [Chan.rewindQueues_lfParts]
  have hfirings : ∀ (fs : List Firing) (b : Chan), (fs.foldl (fun c f => c.giveBack f.grant) b).lfParts = b.lfParts :=
    foldl_leaves Chan.lfParts _ fun b f => b.giveBack_lfParts f.grant
  split
  · rw [Chan.giveBack_lfParts, hfirings, Chan.dropPending_lfParts]
  · rw [hfirings, Chan.dropPending_lfParts]

end Sys2Proof.Machine
end

section
/-! A comparator fails its self-test with no window uncommitted: the stand-in starts at once (R223, R225, R226, R490). -/

namespace Sys2Proof.Machine

theorem Chan.lfParts_eq {b c : Chan} : b.lfParts = c.lfParts ↔ b.rd = c.rd ∧ b.duets = c.duets ∧ b.ev.sent = c.ev.sent := by
  simp only [Chan.lfParts, Prod.mk.injEq]

section

variable (c : Chan) (d : Nat)

theorem Chan.flushDuet_role (e : Nat) : (c.flushDuet d).role e = c.role e := by
  obtain ⟨b, hparts, hflush⟩ := c.flushDuet_eq d
  rw [hflush, Chan.role, Chan.putDuet_fld _ _ _ (by simp [F.lfDuetRole])]
  exact Chan.role_of_rd (by rw [(Chan.lfParts_eq.1 hparts).1])

theorem Chan.flushDuet_duets : (c.flushDuet d).duets = (c.setDuet d (c.duet d).flushed).duets := by
  obtain ⟨b, hparts, hflush⟩ := c.flushDuet_eq d
  rw [hflush, Chan.putDuet_duets, (Chan.lfParts_eq.1 hparts).2.1, Chan.setDuet]

theorem Chan.flushDuet_duet : (c.flushDuet d).duet d = (c.duet d).flushed := by
  rw [Chan.duet_of_duets (c.flushDuet_duets d), Chan.setDuet_duet_same]

theorem Chan.flushDuet_sent : (c.flushDuet d).ev.sent = c.ev.sent := by
  obtain ⟨b, hparts, hflush⟩ := c.flushDuet_eq d
  rw [hflush, Chan.putDuet, Chan.setFld_ev, Chan.setFld_ev, Chan.setDuet_ev, (Chan.lfParts_eq.1 hparts).2.2]

end

/-! ## The spare that a stand-in takes (R226) -/

/-- It is the first in order with role SPARE that no other stand-in has taken. -/
theorem Chan.freeSpare_congr {b c : Chan} (hrole : ∀ e, b.role e = c.role e) (htaken : ∀ e, b.taken e = c.taken e) (g : Nat) :
    b.freeSpare g = c.freeSpare g := by
  have hfind : ∀ a : Chan, a.freeSpare g
      = ((List.range 16).map (fun i => 16 * g + i) ++ [64 + g]).find? (fun d => a.role d == roleSpare && !a.taken d) := fun _ => rfl
  rw [hfind, hfind]
  simp only [hrole, htaken]

theorem Chan.freeSpare_role {c : Chan} {g sp : Nat} (h : c.freeSpare g = some sp) : c.role sp = 2 := by
  have hfound := List.find?_some h
  simp only [Bool.and_eq_true, beq_iff_eq] at hfound
  exact hfound.1

/-- A write of the record of a duet that has no stand-in, before and after it, takes and frees no spare. -/
theorem Chan.taken_setDuet {c : Chan} {d : Nat} {x : Duet} (hne : x ≠ {}) (hnew : x.standIn = none) (hold : (c.duet d).standIn = none)
    (sp : Nat) : (c.setDuet d x).taken sp = c.taken sp :=
  any_tblPut (p := fun x : Duet => match x.standIn with | some si => si.spare == sp | none => false) c.duets d hne (by rw [hnew])
    (by rw [← Chan.duet, hold])

theorem Chan.taken_of_duets {b c : Chan} (h : b.duets = c.duets) (sp : Nat) : b.taken sp = c.taken sp := by
  rw [Chan.taken, h, Chan.taken]

/-- So the spare of the lowest index is the same one. -/
theorem Chan.freeSpare_setDuet {c : Chan} {d : Nat} {x : Duet} (hne : x ≠ {}) (hnew : x.standIn = none) (hold : (c.duet d).standIn = none)
    (g : Nat) : ((c.setDuet d x).raise 14).freeSpare g = c.freeSpare g := by
  refine Chan.freeSpare_congr (fun e => ?_) (fun e => Chan.taken_setDuet hne hnew hold e) g
  rw [Chan.role, Chan.setDuet_fld, ← Chan.role]

theorem Chan.setDuet_duets_again {b c : Chan} {d : Nat} {x : Duet} (h : b.duets = (c.setDuet d x).duets) :
    (b.setDuet d x).duets = (c.setDuet d x).duets := by
  rw [Chan.setDuet, h]
  exact tblPut_put_same _ _ _ _

theorem Duet.flushed_ne (x : Duet) : x.flushed ≠ {} := fun h => Bool.noConfusion (congrArg Duet.replay h)

section

variable {c : Chan} {d : Nat} (hjoins : (c.duet d).joins = [])

include hjoins

/-- The flush leaves no open window, and no tile waits to join. -/
theorem Chan.flushDuet_joinDue (now : Nat) : (c.flushDuet d).joinDue now d = (c.flushDuet d).setDuet d (c.duet d).flushed := by
  have hnone : ((c.flushDuet d).duet d).joins = [] := by rw [Chan.flushDuet_duet]; exact hjoins
  rw [Chan.joinDue_none now hnone, Chan.flushDuet_duet]
  rfl

/-- A stand-in starts: duet d, flushed, waits for the spare's self-test. -/
theorem Chan.startStandIn_takes (now cause : Nat) {sp : Nat} (hstand : (c.duet d).standIn = none)
    (hfree : c.freeSpare (duetSet d) = some sp) (hspare : d ≠ sp) :
    (c.startStandIn now d cause).duet d = { (c.duet d).flushed with
        standIn := some { cause := BitVec.ofNat 3 cause, since := now, spare := sp }, retire := false, cmpBad := false, injAgain := 0 }
      ∧ (c.startStandIn now d cause).ev.sent = c.ev.sent := by
  have hsame : ((c.flushDuet d).setDuet d (c.duet d).flushed).freeSpare (duetSet d) = some sp := by
    rw [← hfree]
    refine Chan.freeSpare_congr (fun e => ?_) (fun e => ?_) _
    · rw [Chan.role, Chan.setDuet_fld, ← Chan.role, Chan.flushDuet_role]
    · rw [Chan.taken_of_duets (Chan.setDuet_duets_again (c.flushDuet_duets d)), Chan.taken_setDuet (Duet.flushed_ne _) hstand hstand]
  have hduet : ((c.flushDuet d).setDuet d (c.duet d).flushed).duet d = (c.duet d).flushed := Chan.setDuet_duet_same _ _ _
  have hsent : ((c.flushDuet d).setDuet d (c.duet d).flushed).ev.sent = c.ev.sent := by rw [Chan.setDuet_ev, Chan.flushDuet_sent]
  rw [Chan.startStandIn, Chan.flushDuet_joinDue hjoins]
  generalize (c.flushDuet d).setDuet d (c.duet d).flushed = b at *
  simp only [hsame]
  rw [Chan.setDuet_duet_same, Chan.setDuet_duet, if_neg hspare, hduet, Chan.setDuet_ev, Chan.setDuet_ev, hsent]
  exact ⟨rfl, rfl⟩

end

/-! ## The physical duet that a caller's stand-in takes (R490) -/

section

variable {c : Chan}

/-- A write of the record of a caller that has no stand-in, before and after it, takes and frees no spare. -/
theorem Chan.freePhys_setCaller {n : Nat} {x : Caller} (hne : x ≠ { phys := some n }) (hnew : x.standIn = none)
    (hold : (c.caller n).standIn = none) : ((c.setCaller n x).raise 14).freePhys = c.freePhys := by
  have htaken : ∀ m, (c.setCaller n x).callers.any (fun e => e.2.standIn == some m) = c.callers.any (fun e => e.2.standIn == some m) :=
    fun m => any_tblPut (p := fun x : Caller => x.standIn == some m) c.callers n hne (by rw [hnew]; rfl)
      (by rw [← Chan.caller, hold]; rfl)
  simp only [Chan.freePhys, Chan.raise_callers, Chan.raise_fld, htaken, Chan.setCaller_fld]

theorem Chan.startCallerStandIn_takes {n cause m : Nat} (hwins : (c.caller n).wins = []) (hfree : c.freePhys = some m) :
    c.startCallerStandIn n cause = c.setCaller n { c.caller n with
      standIn := some m, standCause := cause, retire := false, cmpBad := false, attempts := 0, follow := [] } := by
  simp only [Chan.startCallerStandIn, hfree, hwins]

end

/-! ## COMPARATOR_TEST_FAILURE of a duet -/

section

variable {s : State} {k : Ch} {c : Chan} (hc : c = s.chan k.val)

include hc

theorem comparatorTestFailure_duet {d : DuetId} (htiles : c.tilesOf d.val ≠ []) (hstand : (c.duet d.val).standIn = none)
    (hcmp : (c.duet d.val).cmpBad = false) (hat : (c.duet d.val).cmpAt ≠ some c.xclk) :
    Gives (.comparatorTestFailure k (.duet d)) s k
      (if (c.duet d.val).wins.isEmpty
       then ((c.setDuet d.val { c.duet d.val with cmpBad := true }).raise 14).startStandIn c.xclk d.val 2
       else (c.setDuet d.val { c.duet d.val with cmpBad := true }).raise 14) := by
  have hexec : exec (.comparatorTestFailure k (.duet d)) s = execComparatorTestFailure k (.duet d) s := rfl
  rw [Gives, hexec, execComparatorTestFailure, onCh, ← hc]
  simp [Chan.duetTestFails, htiles, hstand, hcmp, hat]

/-- With no window uncommitted, the stand-in has cause 2 and takes the spare of the lowest index. -/
theorem comparatorTestFailure_duet_starts {d : DuetId} (htiles : c.tilesOf d.val ≠ []) (hstand : (c.duet d.val).standIn = none)
    (hcmp : (c.duet d.val).cmpBad = false) (hat : (c.duet d.val).cmpAt ≠ some c.xclk) (hwins : (c.duet d.val).wins = [])
    {sp : Nat} (hfree : c.freeSpare (duetSet d.val) = some sp) (hjoins : (c.duet d.val).joins = []) :
    Leads (.comparatorTestFailure k (.duet d)) s k (fun b => (∃ m ∈ b.ev.sent, m.src = 14) ∧ (b.duet d.val).wins = []
      ∧ (b.duet d.val).standIn = some { cause := 2, since := c.xclk, spare := sp }) := by
  have hgives := comparatorTestFailure_duet hc htiles hstand hcmp hat
  rw [hwins, List.isEmpty_nil, if_pos rfl] at hgives
  have hspare : d.val ≠ sp := by
    rintro rfl
    exact absurd (Chan.freeSpare_role hfree) (Nat.ne_of_lt (Chan.role_lt_two htiles))
  have hbad : ({ c.duet d.val with cmpBad := true } : Duet) ≠ {} := fun h => Bool.noConfusion (congrArg Duet.cmpBad h)
  have hsame := (Chan.freeSpare_setDuet hbad hstand hstand (duetSet d.val)).trans hfree
  obtain ⟨hduet, hsent⟩ := Chan.startStandIn_takes (d := d.val) (by rw [Chan.raise_duet, Chan.setDuet_duet_same]; exact hjoins)
    c.xclk 2 (by rw [Chan.raise_duet, Chan.setDuet_duet_same]; exact hstand) hsame hspare
  refine ⟨_, hgives, ?_, ?_, ?_⟩
  · rw [hsent]
    exact ⟨_, List.mem_append_right _ (List.mem_singleton.2 rfl), rfl⟩
  · rw [hduet]
    rfl
  · rw [hduet]
    rfl

/-! ## COMPARATOR_TEST_FAILURE of a caller (R490) -/

theorem comparatorTestFailure_caller {n : CallerId} (hphys : (c.caller n.val).phys ≠ none) (hstand : (c.caller n.val).standIn = none)
    (hcmp : (c.caller n.val).cmpBad = false) (hat : (c.caller n.val).cmpAt ≠ some c.cclk) :
    Gives (.comparatorTestFailure k (.caller n)) s k
      (if (c.caller n.val).wins.isEmpty
       then ((c.setCaller n.val
        { c.caller n.val with cmpBad := true, wins := closeNewest (c.caller n.val).wins }).raise 14).startCallerStandIn n.val 2
       else (c.setCaller n.val { c.caller n.val with cmpBad := true, wins := closeNewest (c.caller n.val).wins }).raise 14) := by
  have hexec : exec (.comparatorTestFailure k (.caller n)) s = execComparatorTestFailure k (.caller n) s := rfl
  rw [Gives, hexec, execComparatorTestFailure, onCh, ← hc]
  simp [Chan.callerTestFails, hphys, hstand, hcmp, hat]

theorem comparatorTestFailure_caller_starts {n : CallerId} (hphys : (c.caller n.val).phys ≠ none)
    (hstand : (c.caller n.val).standIn = none) (hcmp : (c.caller n.val).cmpBad = false) (hat : (c.caller n.val).cmpAt ≠ some c.cclk)
    (hwins : (c.caller n.val).wins = []) {m : Nat} (hfree : c.freePhys = some m) :
    Leads (.comparatorTestFailure k (.caller n)) s k (fun b => (∃ e ∈ b.ev.sent, e.src = 14) ∧ (b.caller n.val).standIn = some m
      ∧ (b.caller n.val).standCause = 2) := by
  have hgives := comparatorTestFailure_caller hc hphys hstand hcmp hat
  rw [hwins, List.isEmpty_nil, if_pos rfl] at hgives
  have hbad : ({ c.caller n.val with cmpBad := true, wins := closeNewest [] } : Caller) ≠ { phys := some n.val } :=
    fun h => Bool.noConfusion (congrArg Caller.cmpBad h)
  have hsame := (Chan.freePhys_setCaller hbad hstand hstand).trans hfree
  rw [Chan.startCallerStandIn_takes (congrArg Caller.wins (Chan.setCaller_caller_same _ _ _)) hsame] at hgives
  refine ⟨_, hgives, ⟨_, List.mem_append_right _ (List.mem_singleton.2 rfl), rfl⟩, ?_, ?_⟩ <;> rw [Chan.setCaller_caller_same]

end

/-- Settles O27: each end of a stand-in and of a hand-over as the roles in LF_DUETn show it, and a stand-in that a comparator's failed
self-test starts, whose flush leaves the spare that it takes the same. -/
theorem standInsOfDuets : Obligations.StandInsOfDuets := by
  intro s k d c hc
  refine ⟨fun si t hstand hover hspare htiles hkept => ⟨?_, standInComplete_fail hc hstand hover hspare htiles hkept⟩,
    fun si t hstand hover htile pass => standInComplete_handOver hc hstand hover htile pass, fun htiles hstand hcmp hat hwins => ?_,
    fun htiles hstand hcmp hat hwins => ⟨?_, fun sp => comparatorTestFailure_duet_starts hc htiles hstand hcmp hat hwins⟩, ?_⟩
  · have htile : t < 64 := Chan.tilesOf_lt (htiles ▸ List.mem_singleton_self t)
    exact standInComplete_pass hc hstand hover hspare htiles hkept htile
  · have hgives := comparatorTestFailure_duet hc htiles hstand hcmp hat
    rwa [if_neg (by simpa using hwins)] at hgives
  · have hgives := comparatorTestFailure_duet hc htiles hstand hcmp hat
    rwa [hwins, List.isEmpty_nil, if_pos rfl] at hgives
  · rintro n x rfl hphys hstand hcmp hat
    refine ⟨fun hwins => ?_, fun m hwins => comparatorTestFailure_caller_starts hc hphys hstand hcmp hat hwins⟩
    have hgives := comparatorTestFailure_caller hc hphys hstand hcmp hat
    rwa [if_neg (by simpa using hwins)] at hgives

end Sys2Proof.Machine
end

section
/-! The flow units (R247 to R262): Solo slots, the Solo cursor, HEAD and its time limit. -/

namespace Sys2Proof.Machine

/-! ## The waiting pool (R250) -/

theorem Chan.wakeParked_pool (c : Chan) (hit : Parked → Bool) :
    (c.wakeParked hit).ms.pool = c.ms.pool.map (fun p => if hit p then { p with woken := true } else p) := rfl

theorem Chan.mem_wakeParked {c : Chan} {hit : Parked → Bool} {p : Parked} (hp : p ∈ c.ms.pool) (hhit : hit p = true) :
    { p with woken := true } ∈ (c.wakeParked hit).ms.pool :=
  List.mem_map.2 ⟨p, hp, if_pos hhit⟩

/-- Every firing that waits for what has come is woken. -/
theorem Chan.wakeParked_wakes {c : Chan} {hit : Parked → Bool} {why : ParkFor} (hhit : ∀ p, p.why = why → hit p = true) :
    ∀ p ∈ (c.wakeParked hit).ms.pool, p.why = why → p.woken = true := by
  intro p hp hwhy
  obtain ⟨r, -, rfl⟩ := List.mem_map.1 hp
  have hr : r.why = why := by
    rw [← hwhy]
    split <;> rfl
  rw [if_pos (hhit r hr)]

/-! ## A SOLO.IN at the cursor (R261) -/

theorem Chan.soloAt_none {c : Chan} {n : Nat} {m : BitVec 16} (hnone : ∀ p ∈ c.ms.pool, p.why ≠ .cursor n m) : c.soloAt n m = c := by
  have hfind : c.ms.pool.find? (fun p => p.why == .cursor n m) = none :=
    List.find?_eq_none.2 fun p hp => by simpa only [beq_iff_eq] using hnone p hp
  simp only [Chan.soloAt, hfind]

/-! ## Solo slots (R257, R259) -/

/-- The parked firing of a waiter of slot q. -/
def Parked.waitsFor (p : Parked) (q t : Nat) (row : BitVec 6) (way : BitVec 5) (id : CtxId) : Bool :=
  p.tile == t && p.row == row && p.way == way && p.ctx == id && p.why == .slot q

section

variable {s : State} {k : Ch} {c : Chan} (hc : c = s.chan k.val)

include hc

theorem soloGrant_gives {q : SlotId} {t : Nat} {row : BitVec 6} {way : BitVec 5} {id : CtxId} {cls : BitVec 6}
    {r : List (Nat × BitVec 6 × BitVec 5 × CtxId × BitVec 6)} (howner : (c.solo q.val).owner = none)
    (hwaiters : (c.solo q.val).waiters = (t, row, way, id, cls) :: r) :
    Gives (.soloGrant k q) s k
      (if c.live id.toNat && c.ms.pool.any (·.waitsFor q.val t row way id) then
        ((c.setSolo q.val { owner := some (id, c.cseq id.toNat), waiters := r }).wrapInc (F.flCntGrants cls.toNat)).wakeParked
          (·.waitsFor q.val t row way id)
      else c.setSolo q.val { c.solo q.val with waiters := r }) := by
  have hexec : exec (.soloGrant k q) s = execSoloGrant k q s := rfl
  rw [Gives, hexec, execSoloGrant, onCh, ← hc]
  simp only [howner, hwaiters, Parked.waitsFor]

theorem soloGrant_wakes {q : SlotId} {cls : BitVec 6} {r : List (Nat × BitVec 6 × BitVec 5 × CtxId × BitVec 6)} {p : Parked}
    (howner : (c.solo q.val).owner = none) (hwaiters : (c.solo q.val).waiters = (p.tile, p.row, p.way, p.ctx, cls) :: r)
    (hlive : c.live p.ctx.toNat = true) (hp : p ∈ c.ms.pool) (hwhy : p.why = .slot q.val) :
    Leads (.soloGrant k q) s k (fun b => b.solo q.val = { owner := some (p.ctx, c.cseq p.ctx.toNat), waiters := r }
      ∧ { p with woken := true } ∈ b.ms.pool ∧ b.ms.pool.length = c.ms.pool.length) := by
  have hgives := soloGrant_gives hc howner hwaiters
  have hmine : p.waitsFor q.val p.tile p.row p.way p.ctx = true := by simp [Parked.waitsFor, hwhy]
  rw [hlive, List.any_eq_true.2 ⟨p, hp, hmine⟩, Bool.and_true, if_pos rfl] at hgives
  refine ⟨_, hgives, ?_, Chan.mem_wakeParked hp hmine, ?_⟩
  · exact (Chan.setSolo_solo ..).trans (if_pos rfl)
  · rw [Chan.wakeParked_pool, List.length_map]
    rfl

theorem soloSlotRelease_gives {q : SlotId} {id : CtxId} {cs : BitVec 16} (howner : (c.solo q.val).owner = some (id, cs)) :
    Gives (.soloSlotRelease k q) s k (if c.live id.toNat && c.cseq id.toNat == cs then c else c.freeSolo q.val) := by
  have hexec : exec (.soloSlotRelease k q) s = execSoloSlotRelease k q s := rfl
  rw [Gives, hexec, execSoloSlotRelease, onCh, ← hc]
  simp only [howner]

/-! ## The Solo cursor (R261) -/

theorem soloCursorAdvance_passes {n : OrdId} {i : Nat} (hi : i = ((c.ord n.val).cursor - (c.ord n.val).head).toNat)
    (hlen : i < c.ordLen n.val)
    (h : posState (c.posAt n.val i) ≠ 0 ∨ ∃ p ∈ c.ms.pool, p.why = .cursor n.val (c.ord n.val).cursor) :
    Gives (.soloCursorAdvance k n) s k ((c.passCursor n.val i).soloAt n.val (c.ord n.val).cursor) := by
  have hexec : exec (.soloCursorAdvance k n) s = execSoloCursorAdvance k n s := rfl
  subst hi
  have hpass : (decide (posState (c.posAt n.val ((c.ord n.val).cursor - (c.ord n.val).head).toNat) ≠ 0)
      || c.ms.pool.any (fun p => p.why == .cursor n.val (c.ord n.val).cursor)) = true := by
    simpa only [Bool.or_eq_true, decide_eq_true_eq, List.any_eq_true, beq_iff_eq] using h
  rw [Gives, hexec, execSoloCursorAdvance, onCh, ← hc]
  simp only [if_neg (Nat.not_le.2 hlen), hpass, if_true]

theorem soloCursorAdvance_stays {n : OrdId} {i : Nat} (hi : i = ((c.ord n.val).cursor - (c.ord n.val).head).toNat)
    (hheld : posState (c.posAt n.val i) = 0) (hnone : ∀ p ∈ c.ms.pool, p.why ≠ .cursor n.val (c.ord n.val).cursor) :
    Gives (.soloCursorAdvance k n) s k c := by
  have hexec : exec (.soloCursorAdvance k n) s = execSoloCursorAdvance k n s := rfl
  subst hi
  have hstay : (c.ms.pool.any (fun p => p.why == .cursor n.val (c.ord n.val).cursor)) = false :=
    List.any_eq_false.2 fun p hp => by simpa only [beq_iff_eq] using hnone p hp
  rw [Gives, hexec, execSoloCursorAdvance, onCh, ← hc]
  simp only [hheld, hstay, ne_eq, not_true_eq_false, decide_false, Bool.or_self, Bool.false_eq_true, if_false, ite_self]

/-! ## The head time limit (R256) -/

theorem headTimeLimit_gives (n : OrdId) : Gives (.headTimeLimit k n) s k
    (if c.ordLen n.val ≠ 0 ∧ posState (c.posAt n.val 0) = 0 ∧ (c.ord n.val).limit ≠ 0 ∧ (c.ord n.val).fired = false
        ∧ (c.ord n.val).since + (c.ord n.val).limit * 1024 ≤ c.xclk then
      ((c.setOrd n.val { c.ord n.val with fired := true }).raise (320 + n.val)).inc F.flStatHeadlate
    else c) := by
  have hexec : exec (.headTimeLimit k n) s = execHeadTimeLimit k n s := rfl
  rw [Gives, hexec, execHeadTimeLimit, onCh, ← hc]

end

/-! ## The flow check of a SOLO.IN (R257, R261) -/

/-- Of the order queues only Solo cursors may differ; the pointers of the queues and their registers are the same. -/
structure Chan.CursorsOnly (c d : Chan) : Prop where
  ord : ∀ n, ∃ m, d.ord n = { c.ord n with cursor := m }
  ptrs : d.qu.ptrs = c.qu.ptrs
  rd : ∀ o, 0x8000 ≤ o → d.rd o = c.rd o

theorem Chan.CursorsOnly.same (c : Chan) : c.CursorsOnly c := ⟨fun n => ⟨(c.ord n).cursor, rfl⟩, rfl, fun _ _ => rfl⟩

theorem Chan.CursorsOnly.andThen {c d e : Chan} (h : c.CursorsOnly d) (k : d.CursorsOnly e) : c.CursorsOnly e where
  ord n := by
    obtain ⟨m, hm⟩ := h.ord n
    obtain ⟨m', hm'⟩ := k.ord n
    exact ⟨m', by rw [hm', hm]⟩
  ptrs := k.ptrs.trans h.ptrs
  rd o ho := (k.rd o ho).trans (h.rd o ho)

theorem Chan.CursorsOnly.ordLen {c d : Chan} (h : c.CursorsOnly d) (n : Nat) : d.ordLen n = c.ordLen n := by
  have hdup : d.qDup (768 + n) = c.qDup (768 + n) := by
    simp only [Chan.qDup, Chan.flag, Chan.fld]
    rw [h.rd _ (by simp only [F.quCfgDup]; omega)]
  simp only [Chan.ordLen, Chan.qHeld, Chan.qUnit, Chan.qptr, hdup, h.ptrs]

section

variable (c : Chan)

theorem Chan.cursorsOnly_ms (m : Match) : c.CursorsOnly { c with ms := m } := ⟨fun n => ⟨(c.ord n).cursor, rfl⟩, rfl, fun _ _ => rfl⟩

theorem Chan.cursorsOnly_setSolo (q : Nat) (x : SoloSlot) : c.CursorsOnly (c.setSolo q x) :=
  ⟨fun n => ⟨(c.ord n).cursor, rfl⟩, rfl, fun _ _ => rfl⟩

/-- FL_CNT counts a grant of a class, and lies below the registers of the queues. -/
theorem Chan.cursorsOnly_grants (cls : BitVec 6) : c.CursorsOnly (c.wrapInc (F.flCntGrants cls.toNat)) where
  ord n := ⟨(c.ord n).cursor, rfl⟩
  ptrs := rfl
  rd o ho := by
    have hcls := cls.isLt
    rw [Chan.wrapInc, Chan.setFld, Chan.wr_rd, if_neg]
    simp only [F.flCntGrants]
    omega

theorem Chan.cursorsOnly_passCursor (n i : Nat) : c.CursorsOnly (c.passCursor n i) where
  ord m := by
    rw [Chan.passCursor, Chan.setOrd_ord]
    split
    · next h => exact ⟨_, by rw [h]⟩
    · exact ⟨(c.ord m).cursor, rfl⟩
  ptrs := rfl
  rd _ _ := rfl

theorem Chan.cursorsOnly_askSlot (t : Nat) (p : FPacket) (q : Nat) : c.CursorsOnly (c.askSlot t p q).1 := by
  simp only [Chan.askSlot]
  split
  · exact c.cursorsOnly_grants _
  · split
    · exact (c.cursorsOnly_setSolo _ _).andThen (Chan.cursorsOnly_grants _ _)
    · exact c.cursorsOnly_setSolo _ _

theorem Chan.cursorsOnly_flowCheck (t : Nat) (p : FPacket) (key : Opd) : c.CursorsOnly (c.flowCheck t p key).1 := by
  simp only [Chan.flowCheck]
  split
  · exact .same c
  split
  · split
    · exact .same c
    split
    · exact c.cursorsOnly_askSlot _ _ _
    split
    · exact c.cursorsOnly_askSlot _ _ _
    split
    · exact c.cursorsOnly_askSlot _ _ _
    split
    · exact (c.cursorsOnly_passCursor _ _).andThen (Chan.cursorsOnly_askSlot _ _ _ _)
    · exact .same c
  case h_2 | h_3 =>
    split
    · split
      · split <;> exact .same c
      · exact .same c
    · exact .same c
  · exact .same c

theorem Chan.cursorsOnly_soloAt (n : Nat) (m : BitVec 16) : c.CursorsOnly (c.soloAt n m) := by
  rw [Chan.soloAt]
  split
  · exact .same c
  · simp only [Chan.registerSolo]
    split
    · exact .same c
    · exact (c.cursorsOnly_flowCheck _ _ _).andThen (Chan.cursorsOnly_ms _ _)

end

/-! ## HEAD passes a position (R252, R254) -/

theorem Chan.qNow_held (c : Chan) (q : Nat) : (c.qNow q).held = (c.qptr q).held := by
  rw [Chan.qNow, QPtr.in_]
  split <;> rfl

theorem Chan.qMark_ptrs (c : Chan) (q : Nat) : (c.qMark q).qu.ptrs = c.qu.ptrs := by
  rw [Chan.qMark]
  split <;> rfl

/-- A queue that has given and released an item holds one fewer. -/
theorem Chan.qHeld_release {c : Chan} {q : Nat} (h : c.qHeld q ≠ 0) : ((c.qAdvance q).qRelease q 1).qHeld q + 1 = c.qHeld q := by
  have hunit : ((c.qAdvance q).qRelease q 1).qUnit q = c.qUnit q := by
    obtain ⟨hidx, hregs, -⟩ := (c.qAdvance q).qRelease_regs q 1
    simp only [Chan.qUnit, Chan.qDup, Chan.flag, Chan.fld, Chan.rd, Chan.rst, hidx, hregs]
    rfl
  have hunit' : (c.qAdvance q).qUnit q = c.qUnit q := rfl
  have hadvance : ((c.qAdvance q).qptr q).held = (c.qptr q).held := by
    simp only [Chan.qAdvance, Chan.setQptr_qptr_same, Chan.qNow_held]
  have hheld : (((c.qAdvance q).qRelease q 1).qptr q).held = (c.qptr q).held - min (c.qUnit q) (c.qptr q).held := by
    rw [Chan.qRelease, Chan.qptr, Chan.qMark_ptrs, ← Chan.qptr, Chan.setQptr_qptr_same]
    simp only [Chan.qNow_held, hadvance, hunit', Nat.one_mul]
  have hpos : 0 < c.qUnit q := by
    rw [Chan.qUnit]
    split <;> decide
  have hle : c.qUnit q ≤ (c.qptr q).held := Nat.le_of_not_lt fun hlt => h (Nat.div_eq_of_lt hlt)
  rw [Chan.qHeld, hunit, hheld, Nat.min_eq_left hle, Chan.qHeld, ← Nat.add_div_right _ hpos, Nat.sub_add_cancel hle]

/-- HEAD moves on; a SOLO.IN that waits for the position it passes is registered first, and the firing that waits for the next position
is woken. -/
theorem Chan.passHead_eq (c : Chan) (now n : Nat) : ∃ (o : Machine.Ord) (e : Chan),
    o.head = (c.ord n).head + 1 ∧ o.since = now ∧ o.fired = false
    ∧ (((c.qAdvance (768 + n)).qRelease (768 + n) 1).setOrd n o).CursorsOnly e
    ∧ c.passHead now n = e.wakeParked (fun p => p.why == .head n ((c.ord n).head + 1)) := by
  simp only [Chan.passHead]
  split
  · exact ⟨_, _, rfl, rfl, rfl, Chan.cursorsOnly_soloAt _ _ _, rfl⟩
  · exact ⟨_, _, rfl, rfl, rfl, .same _, rfl⟩

theorem Chan.passHead_passes {c : Chan} (now : Nat) {n : Nat} (hlen : c.ordLen n ≠ 0) :
    ((c.passHead now n).ord n).head = (c.ord n).head + 1 ∧ (c.passHead now n).ordLen n + 1 = c.ordLen n
    ∧ ((c.passHead now n).ord n).since = now ∧ ((c.passHead now n).ord n).fired = false
    ∧ ∀ p ∈ (c.passHead now n).ms.pool, p.why = .head n ((c.ord n).head + 1) → p.woken = true := by
  obtain ⟨o, e, hhead, hsince, hfired, he, hpass⟩ := c.passHead_eq now n
  obtain ⟨m, hord⟩ := he.ord n
  rw [Chan.setOrd_ord_same] at hord
  have hheld : e.ordLen n + 1 = c.ordLen n := by
    rw [he.ordLen n]
    exact Chan.qHeld_release hlen
  rw [hpass]
  have hordof : ∀ hit, (e.wakeParked hit).ord n = { o with cursor := m } := fun _ => hord
  simp only [hordof]
  exact ⟨hhead, hheld, hsince, hfired, Chan.wakeParked_wakes fun p hp => beq_iff_eq.2 hp⟩

section

variable {c d : Chan} (h : c.StageSame d)

include h

theorem Chan.StageSame.qItem (q i : Nat) : d.qItem q i = c.qItem q i := by
  simp only [Chan.qItem, Chan.qAddr, Chan.qBase, Chan.qCap, Chan.qWord, h.qUnit, h.qptr, h.fld, h.qu]

theorem Chan.StageSame.ordLen (n : Nat) : d.ordLen n = c.ordLen n := by
  simp only [Chan.ordLen, Chan.qHeld, h.qptr, h.qUnit]

end

/-- The judgement of HEAD reads the position, the order queue and contexts. -/
theorem Chan.headFree_regs {c : Chan} {r : Tbl Word} (h : c.StageSame { c with regs := r }) (n : Nat) :
    ({ c with regs := r } : Chan).headFree n = c.headFree n := by
  rw [Chan.headFree, Chan.posAt, h.qItem]
  rfl

section

variable {s : State} {k : Ch} {c : Chan} (hc : c = s.chan k.val) {n : OrdId} (hlen : c.ordLen n.val ≠ 0)

include hc hlen

theorem promenadeHeadAdvance_gives : ∃ r, c.StageSame { c with regs := r } ∧
    Gives (.promenadeHeadAdvance k n parityGood) s k
      (if c.headFree n.val then ({ c with regs := r } : Chan).passHead c.xclk n.val else { c with regs := r }) := by
  have hexec : exec (.promenadeHeadAdvance k n parityGood) s = execPromenadeHeadAdvance k n parityGood s := rfl
  obtain ⟨r, hgood, hrd⟩ := c.qParity_good (768 + n.val)
  have hsame : c.StageSame { c with regs := r } := ⟨hrd, rfl, rfl, fun _ => rfl, fun _ => rfl⟩
  refine ⟨r, hsame, ?_⟩
  rw [Gives, hexec, execPromenadeHeadAdvance, onCh, ← hc]
  simp only [if_neg hlen, hgood, Bool.false_eq_true, if_false, Chan.headFree_regs hsame]

theorem promenadeHeadAdvance_passes (hfree : c.headFree n.val = true) :
    Leads (.promenadeHeadAdvance k n parityGood) s k (fun b =>
      (b.ord n.val).head = (c.ord n.val).head + 1 ∧ b.ordLen n.val + 1 = c.ordLen n.val ∧ (b.ord n.val).since = c.xclk
      ∧ (b.ord n.val).fired = false ∧ ∀ p ∈ b.ms.pool, p.why = .head n.val ((c.ord n.val).head + 1) → p.woken = true) := by
  obtain ⟨r, hsame, hgives⟩ := promenadeHeadAdvance_gives hc hlen
  rw [hfree, if_pos rfl] at hgives
  have hpass := Chan.passHead_passes (c := { c with regs := r }) c.xclk (n := n.val) (by rwa [hsame.ordLen])
  rw [hsame.ordLen] at hpass
  exact ⟨_, hgives, hpass⟩

theorem promenadeHeadAdvance_stays (hkept : c.headFree n.val = false) :
    Leads (.promenadeHeadAdvance k n parityGood) s k (fun b =>
      b.ord n.val = c.ord n.val ∧ b.ordLen n.val = c.ordLen n.val ∧ b.ms = c.ms) := by
  obtain ⟨r, hsame, hgives⟩ := promenadeHeadAdvance_gives hc hlen
  rw [hkept, if_neg Bool.false_ne_true] at hgives
  exact ⟨_, hgives, rfl, hsame.ordLen n.val, rfl⟩

end

/-- Settles O30: each command of the flow units by the case it meets, a position that HEAD passes among them with the SOLO.IN that is
registered on the way, which moves Solo cursors only. -/
theorem flowUnits : Obligations.FlowUnits := by
  intro s k c hc
  refine ⟨?_, fun q id cs howner => ⟨fun hgone => ?_, fun hlive hcs => ?_⟩, ?_,
    fun n hlen => ⟨promenadeHeadAdvance_passes hc hlen, promenadeHeadAdvance_stays hc hlen⟩, ?_⟩
  · rintro q x t row way id cls r p rfl howner hwaiters
    refine ⟨?_, fun hdead => ?_⟩
    · rintro hlive hp rfl rfl rfl rfl hwhy
      exact soloGrant_wakes hc howner hwaiters hlive hp hwhy
    · have hgives := soloGrant_gives hc howner hwaiters
      rwa [hdead, Bool.false_and, if_neg Bool.false_ne_true] at hgives
  · have hgives := soloSlotRelease_gives hc howner
    rwa [if_neg (by rcases hgone with h | h <;> simp [h])] at hgives
  · have hgives := soloSlotRelease_gives hc howner
    rwa [if_pos (by simp [hlive, hcs])] at hgives
  · intro n i hi hlen
    refine ⟨fun hpos hnone => ?_, soloCursorAdvance_passes hc hi hlen, soloCursorAdvance_stays hc hi⟩
    have hgives := soloCursorAdvance_passes hc hi hlen (.inl hpos)
    rw [Chan.soloAt_none (c := c.passCursor n.val i) hnone] at hgives
    exact ⟨_, hgives, Chan.setOrd_ord_same _ _ _, rfl⟩
  · rintro n o rfl
    refine ⟨fun hlen hheld hlimit hfired hlate => ?_, fun hearly => ?_⟩
    · have hgives := headTimeLimit_gives hc n
      rwa [if_pos ⟨hlen, hheld, hlimit, hfired, hlate⟩] at hgives
    · have hgives := headTimeLimit_gives hc n
      rwa [if_neg] at hgives
      rintro ⟨-, -, hlimit, hfired, hlate⟩
      rcases hearly with h | h | h
      · rw [hfired] at h
        exact Bool.false_ne_true h
      · exact hlimit h
      · omega

end Sys2Proof.Machine
end

section
/-! The poison of memory words (R348, R397): the end of a context whose record is lost clears none of it. -/

namespace Sys2Proof.Machine

/-! ## Context records -/

@[simp] theorem Chan.ctxUpd_poison (c : Chan) (id : Nat) (f : Ctx → Ctx) : (c.ctxUpd id f).poison = c.poison := by
  obtain ⟨l, q, hq⟩ := (c.setCtx id (f (c.ctx id))).cacheTouch_eq id true
  rw [Chan.ctxUpd, hq]
  rfl

@[simp] theorem Chan.orphan_poison (c : Chan) (id n : Nat) : (c.orphan id n).poison = c.poison := by
  rw [Chan.orphan]
  split
  · rfl
  · exact Chan.ctxUpd_poison _ _ _

@[simp] theorem Chan.cancel_poison (c : Chan) (id : Nat) : (c.cancel id).poison = c.poison := by
  rw [Chan.cancel, Chan.inc_poison, Chan.orphan_poison]

@[simp] theorem Chan.dropKey_poison (c : Chan) (t e : Nat) : (c.dropKey t e).poison = c.poison := by
  simp only [Chan.dropKey]
  split
  · rfl
  · split <;> rfl

@[simp] theorem Chan.freeKey_poison (c : Chan) (t e : Nat) : (c.freeKey t e).poison = c.poison := by
  simp only [Chan.freeKey]
  split
  · rfl
  · exact (Chan.ctxUpd_poison _ _ _).trans (c.dropKey_poison t e)

@[simp] theorem Chan.dropParked_poison (c : Chan) (id : Nat) : (c.dropParked id).poison = c.poison :=
  foldl_leaves Chan.poison _ (fun _ _ => (Chan.cancel_poison _ _).trans (Chan.freeKey_poison _ _ _)) _ _

@[simp] theorem Chan.leaveLive_poison (c : Chan) (now id : Nat) (st : CtxSt) : (c.leaveLive now id st).poison = c.poison := by
  have hgone := ((c.ctxUpd id (Ctx.leaves now st)).dropParked_poison id).trans (Chan.ctxUpd_poison _ _ _)
  simp only [Chan.leaveLive]
  split
  · exact hgone
  · split <;> exact hgone

@[simp] theorem Chan.skipPositions_poison (c : Chan) (id : Nat) : (c.skipPositions id).poison = c.poison := by
  refine foldl_leaves Chan.poison _ (fun b e => foldl_leaves Chan.poison _ (fun b i => ?_) _ b) _ c
  simp only []
  split <;> rfl

/-! ## Tokens and status words -/

@[simp] theorem Chan.inject_poison (c : Chan) (tile : Nat) (p : NPkt) : (c.inject tile p).poison = c.poison := by
  simp only [Chan.inject, Chan.offerPkt]
  split <;> rfl

@[simp] theorem Chan.countEpoch_poison (c : Chan) (dev e : Nat) : (c.countEpoch dev e).poison = c.poison := by
  simp only [Chan.countEpoch]
  split
  · rfl
  · split
    · rfl
    · rw [Chan.inc_poison]

@[simp] theorem Chan.countReach_poison (c : Chan) (t : Token) (cause : Nat) : (c.countReach t cause).poison = c.poison := by
  rw [Chan.countReach]
  split
  · rw [Chan.inc_poison]
  · rw [Chan.inc_poison, Chan.countEpoch_poison]

@[simp] theorem Chan.sendRaw_poison (c : Chan) (t : Token) (r : Route) (cls : Bool) (acc : Acc) (tile : Nat) :
    (c.sendRaw t r cls acc tile).poison = c.poison := by
  cases r with
  | home => exact c.inject_poison _ _
  | port p => exact c.inject_poison _ _
  | none => rfl

@[simp] theorem Chan.sendDev_poison (c : Chan) (t : Token) : (c.sendDev t).poison = c.poison := by
  rw [Chan.sendDev]
  split
  · exact (Chan.countEpoch_poison _ _ _).trans (c.sendRaw_poison _ _ _ _ _)
  · exact c.countReach_poison _ _

@[simp] theorem Chan.raiseNoKill_poison (c : Chan) (id cause ip : Nat) (detail : BitVec 32) :
    (c.raiseNoKill id cause ip detail).1.poison = c.poison := by
  have hcount : (c.excCount id).poison = c.poison := c.ctxUpd_poison _ _
  simp only [Chan.raiseNoKill]
  split
  · rfl
  · split
    · exact hcount
    · exact (Chan.sendDev_poison _ _).trans hcount

@[simp] theorem Chan.qPush_poison (c : Chan) (q : Nat) (w : BitVec 144) : (c.qPush q w).poison = c.poison := by
  simp only [Chan.qPush, Chan.qMark]
  split <;> split <;> rfl

@[simp] theorem Chan.sendStatus_poison (c : Chan) (id status ip : Nat) (p : Bool) : (c.sendStatus id status ip p).poison = c.poison := by
  simp only [Chan.sendStatus]
  split
  · split
    · exact c.qPush_poison _ _
    · rfl
  · split
    · rfl
    · split
      · exact c.sendDev_poison _
      · exact (Chan.raiseNoKill_poison _ _ _ _ _).trans (c.countReach_poison _ _)

@[simp] theorem Chan.noteEnd_poison (c : Chan) (e : Ended) : (c.noteEnd e).poison = c.poison := rfl

@[simp] theorem Chan.poisonCtx_poison (c : Chan) (now id : Nat) : (c.poisonCtx now id).poison = c.poison := by
  have hraise : ∀ tag, (c.raise 9 (tag := tag)).poison = c.poison := fun _ => rfl
  simp only [Chan.poisonCtx]
  split
  · rw [hraise]
  · split
    · rw [Chan.orphan_poison, hraise]
    · rw [Chan.noteEnd_poison, Chan.sendStatus_poison, Chan.skipPositions_poison, Chan.leaveLive_poison, hraise]

end Sys2Proof.Machine
end

section
/-! Walks of the host translation table (R397, R531, R532, R535): one that finds its entries leaves the rings and the flow units. -/

namespace Sys2Proof.Machine

/-! ## Operations that leave the rings and the flow units -/

/-- The state of the flow units, of admission, of the rings and of the completion rings. -/
def Chan.engine (c : Chan) : Flow × Tbl Ring × Tbl CRing := (c.fl, c.rings, c.crings)

theorem Chan.engine_eq {c d : Chan} : d.engine = c.engine ↔ d.fl = c.fl ∧ d.rings = c.rings ∧ d.crings = c.crings := by
  simp only [Chan.engine, Prod.mk.injEq]

theorem Chan.sameEngine {c d : Chan} (hfl : d.fl = c.fl) (hrings : d.rings = c.rings) (hcrings : d.crings = c.crings) :
    d.engine = c.engine := Chan.engine_eq.2 ⟨hfl, hrings, hcrings⟩

@[simp] theorem Chan.setFld_engine (c : Chan) (f : Fd) (v : Nat) : (c.setFld f v).engine = c.engine := Chan.sameEngine rfl rfl rfl

@[simp] theorem Chan.inc_engine (c : Chan) (f : Fd) : (c.inc f).engine = c.engine := Chan.sameEngine rfl rfl rfl

@[simp] theorem Chan.raise_engine (c : Chan) (src n tile : Nat) (tag : Option Nat) : (c.raise src n tile tag).engine = c.engine :=
  Chan.sameEngine rfl rfl rfl

@[simp] theorem Chan.setPoison_engine (c : Chan) (a : Nat) (p : Bool) : (c.setPoison a p).engine = c.engine :=
  Chan.sameEngine rfl rfl rfl

@[simp] theorem Chan.storeCheck_engine (c : Chan) (e : Nat × Bool) : (c.storeCheck e).engine = c.engine := by
  rw [Chan.storeCheck]
  split
  · exact Chan.sameEngine rfl rfl rfl
  · rfl

@[simp] theorem Chan.checkUse_engine (c : Chan) (a : Nat) (wr : Bool) : (c.checkUse a wr).engine = c.engine :=
  foldl_leaves Chan.engine (fun (c : Chan) e => c.storeCheck e) (fun c e => c.storeCheck_engine e) _ c

@[simp] theorem Chan.bufLine_engine (c : Chan) (l : Nat) : (c.bufLine l).engine = c.engine := by
  simp only [Chan.bufLine]
  split <;> rfl

@[simp] theorem Chan.dmWrote_engine (c : Chan) (a n : Nat) : (c.dmWrote a n).engine = c.engine :=
  foldl_leaves Chan.engine _ (fun c l => (Chan.checkUse_engine _ _ _).trans (c.bufLine_engine l)) _ c

@[simp] theorem Chan.wrWords_engine (ws : List Word) : ∀ (c : Chan) (a : Nat), (c.wrWords a ws).engine = c.engine := by
  induction ws with
  | nil => exact fun _ _ => rfl
  | cons w r ih => exact fun c a => ih _ _

@[simp] theorem Chan.ctxOver_engine (c : Chan) (id : Nat) : (c.ctxOver id).engine = c.engine := by simp [Chan.ctxOver]

@[simp] theorem Chan.dmUncorr_engine (c : Chan) (a : Nat) : (c.dmUncorr a).engine = c.engine := by
  have hpoison : ∀ l : Nat, ((List.range 8).foldl (fun c i => c.setPoison (l + 8 * i) true) c).engine = c.engine := fun l =>
    foldl_leaves Chan.engine (fun c i => c.setPoison (l + 8 * i) true) (fun b _ => b.setPoison_engine _ _) _ c
  simp only [Chan.dmUncorr]
  rw [Chan.raise_engine, Chan.checkUse_engine]
  split
  · rw [Chan.inc_engine, hpoison]
  · rw [Chan.setFld_engine, Chan.setFld_engine, Chan.inc_engine, hpoison]

@[simp] theorem Chan.rowCandidate_engine (c : Chan) (r : RowId) : (c.rowCandidate r).engine = c.engine := by
  rw [Chan.rowCandidate]
  split
  · rfl
  · exact Chan.sameEngine rfl rfl rfl

@[simp] theorem Chan.lineBad_engine (c : Chan) (line : Nat) : (c.lineBad line).engine = c.engine :=
  (Chan.rowCandidate_engine _ _).trans (c.dmUncorr_engine line)

/-! ## A line of the table (R397) -/

/-- Where the line held a context's record, that context ends; the line's words stay poisoned. -/
theorem Chan.lineLost_engine (c : Chan) (now a : Nat) :
    (c.lineLost now a).engine = c.engine ∨ (c.lineLost now a).poison = c.poison := by
  simp only [Chan.lineLost]
  split
  · split
    · split
      · exact .inl (c.ctxOver_engine _)
      · exact .inl rfl
    · split
      · exact .inr (c.poisonCtx_poison _ _)
      · exact .inl rfl
  · split <;> exact .inl rfl

theorem Chan.mem_setPoison (c : Chan) (a x : Nat) : x ∈ (c.setPoison a true).poison ↔ x = a / 8 * 8 ∨ x ∈ c.poison := by
  simp only [Chan.setPoison, if_true]
  split
  · next h =>
    refine ⟨.inr, ?_⟩
    rintro (rfl | hx)
    · exact List.contains_iff_mem.1 h
    · exact hx
  · exact List.mem_cons

/-- Poison that is set word by word. -/
theorem Chan.mem_poisonWords (at_ : Nat → Nat) (x : Nat) (l : List Nat) : ∀ c : Chan,
    x ∈ (l.foldl (fun c i => c.setPoison (at_ i) true) c).poison ↔ (∃ i ∈ l, x = at_ i / 8 * 8) ∨ x ∈ c.poison := by
  induction l with
  | nil => simp
  | cons i l ih =>
    intro c
    rw [List.foldl_cons, ih, Chan.mem_setPoison, List.exists_mem_cons_iff, or_left_comm, or_assoc]

@[simp] theorem Chan.checkUse_poison (c : Chan) (a : Nat) (wr : Bool) : (c.checkUse a wr).poison = c.poison := by
  refine foldl_leaves Chan.poison (fun (c : Chan) e => c.storeCheck e) (fun c e => ?_) _ c
  rw [Chan.storeCheck]
  split <;> rfl

theorem Chan.rowCandidate_poison (c : Chan) (r : RowId) : (c.rowCandidate r).poison = c.poison := by
  rw [Chan.rowCandidate]
  split <;> rfl

/-- Every word of a line in error is poisoned. -/
theorem Chan.lineBad_wordPoison (c : Chan) (a : Nat) : (c.lineBad (a / 64 * 64)).wordPoison a = true := by
  have hline : a / 64 * 64 / 64 * 64 = a / 64 * 64 := by omega
  have hword : a / 8 * 8 ∈ ((List.range 8).foldl (fun c i => c.setPoison (a / 64 * 64 + 8 * i) true) c).poison :=
    (Chan.mem_poisonWords (fun i => a / 64 * 64 + 8 * i) _ _ c).2
      (.inl ⟨a / 8 % 8, List.mem_range.2 (Nat.mod_lt _ (by decide)), by omega⟩)
  rw [Chan.wordPoison, List.contains_iff_mem, Chan.lineBad, Chan.rowCandidate_poison]
  simp only [Chan.dmUncorr, hline]
  rw [Chan.raise_poison, Chan.checkUse_poison]
  split
  · rwa [Chan.inc_poison]
  · rwa [Chan.setFld_poison, Chan.setFld_poison, Chan.inc_poison]

/-- A line whose word at a can be used then has ended no context. -/
theorem Chan.dmLine_engine {c : Chan} {now : Nat} {errs : LineErrs} {a : Nat}
    (hclean : (c.dmLine now errs (a / 64 * 64)).wordPoison a = false) : (c.dmLine now errs (a / 64 * 64)).engine = c.engine := by
  rcases herr : errOf errs (a / 64 * 64) with _ | _ | _
  · rw [c.dmLine_clean now herr, Chan.checkUse_engine]
  · rw [c.dmLine_corrected now herr, Chan.inc_engine, Chan.checkUse_engine]
  · rw [c.dmLine_bad now herr] at hclean ⊢
    rcases (c.lineBad (a / 64 * 64)).lineLost_engine now (a / 64 * 64) with hsame | hsame
    · rw [hsame, Chan.lineBad_engine]
    · rw [Chan.wordPoison, hsame, ← Chan.wordPoison, Chan.lineBad_wordPoison] at hclean
      exact absurd hclean Bool.true_eq_false_eq_False

/-! ## A walk that finds its entries (R532, R535) -/

/-- The rings and the flow units are the same, and so are the registers from those of the flow units to those of the rings: a walk counts in
CH_HWSTAT, an error of a line in countRegs. -/
structure Chan.Walks (c d : Chan) : Prop where
  engine : d.engine = c.engine
  rd : ∀ o, 0x4000 ≤ o → o < 0x1A000 → d.rd o = c.rd o

theorem Chan.Walks.same (c : Chan) : c.Walks c := ⟨rfl, fun _ _ _ => rfl⟩

theorem Chan.Walks.andThen {c d e : Chan} (h : c.Walks d) (k : d.Walks e) : c.Walks e :=
  ⟨k.engine.trans h.engine, fun o hlo hhi => (k.rd o hlo hhi).trans (h.rd o hlo hhi)⟩

theorem Chan.Walks.of_counts {c d : Chan} (h : c.OnlyCounts d) (hengine : d.engine = c.engine) : c.Walks d :=
  ⟨hengine, fun o hlo hhi => h.rd o (by simp only [countRegs, List.mem_cons, List.not_mem_nil, or_false]; omega)⟩

theorem Chan.walks_hwstat (c : Chan) {f : Fd} (hf : f.off = 0x1A0) : c.Walks (c.inc f) :=
  ⟨rfl, fun o hlo _ => by rw [Chan.inc, Chan.addSat, Chan.setFld, Chan.wr_rd, if_neg (by omega)]⟩

/-- A word lies in one line. -/
theorem linesOf_word {a : Nat} (h : a % 8 = 0) : linesOf a 8 = [a / 64 * 64] := by
  have hcount : (a + 8 - 1) / 64 + 1 - a / 64 = 1 := by omega
  rw [linesOf, hcount, List.range_one, List.map_singleton, Nat.add_zero]

theorem Chan.hwEntryAddr_aligned (c : Chan) (i : Nat) : c.hwEntryAddr i % 8 = 0 := by
  have h20 : 2 ^ 20 = 8 * 2 ^ 17 := by norm_num
  rw [Chan.hwEntryAddr, h20]
  omega

theorem Chan.walks_hwCachePut (c : Chan) (i : Nat) (e : Word) : c.Walks (c.hwCachePut i e) :=
  ⟨Chan.sameEngine rfl rfl rfl, fun _ _ _ => rfl⟩

theorem Chan.walks_dmTouch (c : Chan) : c.Walks c.dmTouch := ⟨Chan.sameEngine rfl rfl rfl, fun _ _ _ => rfl⟩

theorem Chan.walks_dmRead {c : Chan} {now a : Nat} {errs : LineErrs} (ha : a % 8 = 0)
    (hclean : (c.dmRead now errs a 8).wordPoison a = false) : c.Walks (c.dmRead now errs a 8) := by
  have hline : c.dmRead now errs a 8 = c.dmLine now errs (a / 64 * 64) := by
    rw [Chan.dmRead, linesOf_word ha, List.foldl_cons, List.foldl_nil]
  refine .of_counts (c.onlyCounts_dmRead now errs a 8) ?_
  rw [hline] at hclean ⊢
  exact Chan.dmLine_engine hclean

/-- The channel once a walk has read the line of translation entry i. -/
def Chan.walked (c : Chan) (i : Nat) (errs : LineErrs) : Chan :=
  (c.inc F.chHwstatMiss).dmTouch.dmRead (c.inc F.chHwstatMiss).xclk errs (c.hwEntryAddr i) 8

theorem Chan.walks_walked {c : Chan} {i : Nat} {errs : LineErrs} (hclean : (c.walked i errs).wordPoison (c.hwEntryAddr i) = false) :
    c.Walks (c.walked i errs) :=
  ((c.walks_hwstat rfl).andThen (Chan.walks_dmTouch _)).andThen (Chan.walks_dmRead (c.hwEntryAddr_aligned i) hclean)

theorem Chan.hwFetch_hit {c : Chan} {i : Nat} {x : Nat × Word} (hhit : c.hw.cache.find? (fun x => x.1 == i) = some x)
    (errs : LineErrs) : c.hwFetch i errs = (c.hwCachePut i x.2, some x.2) := by
  simp only [Chan.hwFetch, hhit]

theorem Chan.hwFetch_miss {c : Chan} {i : Nat} (hmiss : c.hw.cache.find? (fun x => x.1 == i) = none) (errs : LineErrs) :
    c.hwFetch i errs =
      if (c.inc F.chHwstatMiss).range (c.hwEntryAddr i) == .dram then
        if (c.walked i errs).wordPoison (c.hwEntryAddr i) then ((c.walked i errs).inc F.chHwstatTblerr, none)
        else ((c.walked i errs).hwCachePut i ((c.walked i errs).rdWord (c.hwEntryAddr i)),
          some ((c.walked i errs).rdWord (c.hwEntryAddr i)))
      else (c.inc F.chHwstatMiss, none) := by
  cases hopen : (c.inc F.chHwstatMiss).range (c.hwEntryAddr i) == .dram with
  | false => simp only [Chan.hwFetch, hmiss, hopen, Bool.not_false, if_true, Bool.false_eq_true, if_false]
  | true =>
    simp only [Chan.hwFetch, hmiss, hopen, Chan.walked, if_true, Bool.not_true, Bool.false_eq_true, if_false]
    rfl

/-- A translation entry is had from the cache, or from a line of the table whose word can be used. -/
theorem Chan.hwFetch_walks {c d : Chan} {i : Nat} {errs : LineErrs} {e : Word} (h : c.hwFetch i errs = (d, some e)) : c.Walks d := by
  rcases hfind : c.hw.cache.find? (fun x => x.1 == i) with _ | x
  · rw [Chan.hwFetch_miss hfind] at h
    split at h
    · split at h
      · exact absurd (congrArg Prod.snd h) nofun
      · next hclean =>
        obtain ⟨rfl, -⟩ := Prod.mk.inj h
        exact (Chan.walks_walked (Bool.eq_false_of_not_eq_true hclean)).andThen (Chan.walks_hwCachePut _ _ _)
    · exact absurd (congrArg Prod.snd h) nofun
  · rw [Chan.hwFetch_hit hfind] at h
    obtain ⟨rfl, -⟩ := Prod.mk.inj h
    exact c.walks_hwCachePut _ _

theorem Chan.hwPageCheck_walks {c d : Chan} {i : Nat} {write : Bool} {errs : LineErrs} {e : Word}
    (h : c.hwPageCheck i write errs = (d, some e)) : c.Walks d := by
  rw [Chan.hwPageCheck] at h
  split at h
  · exact absurd (congrArg Prod.snd h) nofun
  · split at h
    · next b g hfetch =>
      obtain ⟨rfl, -⟩ := Prod.mk.inj h
      exact Chan.hwFetch_walks hfetch
    · exact absurd (congrArg Prod.snd h) nofun

theorem Chan.hwXlate_walks {c d : Chan} {a n : Nat} {write : Bool} {errs : LineErrs} {x : Word × Word}
    (h : c.hwXlate a n write errs = (d, some x)) : c.Walks d := by
  rw [Chan.hwXlate] at h
  split at h
  · exact absurd (congrArg Prod.snd h) nofun
  · next b e hfirst =>
    split at h
    · obtain ⟨rfl, -⟩ := Prod.mk.inj h
      exact Chan.hwPageCheck_walks hfirst
    · split at h
      · exact absurd (congrArg Prod.snd h) nofun
      · next b' g hlast =>
        obtain ⟨rfl, -⟩ := Prod.mk.inj h
        exact (Chan.hwPageCheck_walks hfirst).andThen (Chan.hwPageCheck_walks hlast)

theorem Chan.walks_hostGet (c : Chan) (a n id : Nat) (e g : Word) : c.Walks (c.hostGet a n id e g) := by
  simp only [Chan.hostGet]
  split <;> exact ⟨Chan.sameEngine rfl rfl rfl, fun _ _ _ => rfl⟩

/-- A read that the ring engine issues leaves the rings and the flow units. -/
theorem Chan.engineRead_walks {c d : Chan} {a n : Nat} (h : c.engineRead a n = (d, true)) : c.Walks d := by
  rw [Chan.engineRead] at h
  split at h
  · exact absurd (congrArg Prod.snd h) nofun
  · next b e g hxlate =>
    obtain ⟨rfl, -⟩ := Prod.mk.inj h
    have hnext : b.Walks { b with hw := { b.hw with nextId := b.hw.nextId + 1 } } := ⟨Chan.sameEngine rfl rfl rfl, fun _ _ _ => rfl⟩
    exact ((Chan.hwXlate_walks hxlate).andThen hnext).andThen (Chan.walks_hostGet _ _ _ _ _ _)

end Sys2Proof.Machine
end

section
/-! The decision on a RUN (R268, R273 to R276): what it makes of the ring, of its completion ring and of the deadlines of a level. -/

namespace Sys2Proof.Machine

/-! ## What the decision reads and writes -/

theorem Chan.fld_inc_ne (c : Chan) {f g : Fd} (h : g.off ≠ f.off) : (c.inc f).fld g = c.fld g := c.fld_wr_ne _ h

theorem declineFld_off (n : Nat) : (declineFld n).off = 0x5608 := by
  unfold declineFld
  split <;> rfl

/-- A decline of a class is counted twice (R290). -/
def Chan.countDecline (c : Chan) (n tc : Nat) : Chan := (c.inc (declineFld n)).inc (F.adTcntDecline tc)

/-- The registers of the rings lie above those of admission. -/
theorem Chan.countDecline_fld (c : Chan) (n : Nat) {tc : Nat} (htc : tc < 16) {g : Fd} (hg : 0x10000 ≤ g.off) :
    (c.countDecline n tc).fld g = c.fld g := by
  rw [Chan.countDecline, Chan.fld_inc_ne, Chan.fld_inc_ne]
  · rw [declineFld_off]
    omega
  · simp only [F.adTcntDecline]
    omega

/-- The completion decided for the entry at CI. -/
def Chan.entryCpl (c : Chan) (r status detail : Nat) : Cpl :=
  { status := BitVec.ofNat 8 status, detail := BitVec.ofNat 32 detail, sq := r, slot := BitVec.ofNat 16 (c.sqSlot r), bumpCi := true }

theorem Chan.finishEntry_cpls (c : Chan) (r status detail : Nat) :
    ((c.finishEntry r status detail).cring (c.cqOf r)).cpls = (c.cring (c.cqOf r)).cpls ++ [c.entryCpl r status detail] :=
  congrArg CRing.cpls (Chan.setCring_cring_same _ _ _)

theorem Chan.finishEntry_ring (c : Chan) (r status detail : Nat) :
    (c.finishEntry r status detail).ring r = { c.ring r with busy := (c.ring r).busy + 1 } :=
  (Chan.setCring_ring _ _ _ _).trans (Chan.setRing_ring_same _ _ _)

theorem Chan.acceptItem_ring (c : Chan) (r : Nat) (l : Line) (a : Adm) :
    (c.acceptItem r l a).ring r = { c.ring r with fetched := some l, admitted := some a, out := (c.ring r).out + 1 } := by
  rw [Chan.acceptItem, Chan.inc_ring, Chan.setRing_ring_same]

theorem Chan.acceptItem_deadlines (c : Chan) (r : Nat) (l : Line) (a : Adm) (q : Nat) : (c.acceptItem r l a).deadlines q = c.deadlines q := by
  rw [Chan.deadlines, Chan.acceptItem, Chan.inc_fl, Chan.setRing_fl, Chan.deadlines]

theorem Chan.addDeadline_deadlines (c : Chan) (q deadline : Nat) (x : DlFor) :
    (c.addDeadline q deadline x).deadlines q = c.deadlines q ++ [deadline] := by
  rw [Chan.deadlines, Chan.addDeadline, tblGet_put_same, List.map_append, List.map_singleton, Chan.deadlines]

/-! ## What the fetch of an entry leaves (R547) -/

theorem Chan.Walks.fld {c d : Chan} (h : c.Walks d) {g : Fd} (hlo : 0x4000 ≤ g.off) (hhi : g.off < 0x1A000) : d.fld g = c.fld g := by
  rw [Chan.fld, h.rd _ hlo hhi, Chan.fld]

/-- A ring and its configuration read the same. -/
structure Chan.SameRing (c d : Chan) (r : Nat) : Prop where
  ring : d.ring r = c.ring r
  cring : ∀ q, d.cring q = c.cring q
  cq : d.cqOf r = c.cqOf r
  slot : d.sqSlot r = c.sqSlot r

theorem Chan.SameRing.of_fields {c d : Chan} {r : Nat} (hrings : d.rings = c.rings) (hcrings : d.crings = c.crings)
    (hscfg : ∀ g : Fd, g.off = 0x10010 + 64 * r → d.fld g = c.fld g) : c.SameRing d r where
  ring := by rw [Chan.ring, hrings, Chan.ring]
  cring q := by rw [Chan.cring, hcrings, Chan.cring]
  cq := by rw [Chan.cqOf, hscfg _ rfl, Chan.cqOf]
  slot := by rw [Chan.sqSlot, Chan.sqSize, Chan.ring, hrings, hscfg _ rfl, Chan.sqSlot, Chan.sqSize, Chan.ring]

theorem Chan.SameRing.andThen {c d e : Chan} {r : Nat} (h : c.SameRing d r) (k : d.SameRing e r) : c.SameRing e r :=
  ⟨k.ring.trans h.ring, fun q => (k.cring q).trans (h.cring q), k.cq.trans h.cq, k.slot.trans h.slot⟩

theorem Chan.Walks.sameRing {c d : Chan} (h : c.Walks d) (r : RingId) : c.SameRing d r.val := by
  obtain ⟨-, hrings, hcrings⟩ := Chan.engine_eq.1 h.engine
  have hscfg : ∀ g : Fd, g.off = 0x10010 + 64 * r.val → d.fld g = c.fld g := fun g hg => by
    have hr := r.isLt
    exact h.fld (by omega) (by omega)
  exact .of_fields hrings hcrings hscfg

theorem Chan.sameRing_countDecline (c : Chan) (n r : Nat) {tc : Nat} (htc : tc < 16) : c.SameRing (c.countDecline n tc) r := by
  refine .of_fields ?_ ?_ fun _ hg => c.countDecline_fld n htc (by omega)
  · rw [Chan.countDecline, Chan.inc_rings, Chan.inc_rings]
  · rw [Chan.countDecline, Chan.inc_crings, Chan.inc_crings]

/-! ## The RUN at the head of a ring (R547) -/

theorem Chan.mayFetch_fetched {c : Chan} {r : Nat} (h : c.mayFetch r = true) : (c.ring r).fetched = none := by
  simp only [Chan.mayFetch, Bool.and_eq_true, Option.isNone_iff_eq_none] at h
  obtain ⟨⟨⟨⟨-, hfetched⟩, -⟩, -⟩, -⟩ := h
  exact hfetched

/-- An entry of the kinds named whose translation succeeds, with no FENCE and no fault, goes on. -/
theorem Chan.onEntry_goes {c d : Chan} {r : Nat} {l : Line} {isOp : Nat → Bool} {go : Chan → Line → Chan} (hmay : c.mayFetch r = true)
    (hopen : c.xlateOpen (c.sqBase r + 64 * c.sqSlot r) 64 = true) (hread : c.engineRead (c.sqBase r + 64 * c.sqSlot r) 64 = (d, true))
    (hop : isOp (lineOpc l) = true) (hfence : lineFence l = false) (hbad : Machine.lineBad l = none) : c.onEntry r (.ok l) isOp go = go d l := by
  delta Chan.onEntry -- its equation lemma is costly to derive
  rw [hread]
  simp only [hmay, hopen, hop, hfence, hbad, Bool.not_true, Bool.or_self, Bool.false_eq_true, if_false, Bool.false_and]

section

variable {s : State} {k : Ch} {c d : Chan} (hc : c = s.chan k.val) {r : RingId} {l : Line} (hmay : c.mayFetch r.val = true)
  (hopen : c.xlateOpen (c.sqBase r.val + 64 * c.sqSlot r.val) 64 = true)
  (hread : c.engineRead (c.sqBase r.val + 64 * c.sqSlot r.val) 64 = (d, true)) (hopc : lineOpc l = 1) (hfence : lineFence l = false)
  (hbad : lineBad l = none)

include hc hmay hopen hread hopc hfence hbad

theorem admissionDecision_gives : Gives (.admissionDecision k r (.ok l)) s k (d.decideRun s.dev.time r.val l) := by
  have hexec : exec (.admissionDecision k r (.ok l)) s = execAdmissionDecision k r (.ok l) s := rfl
  have hrun : (lineOpc l == 1) = true := beq_iff_eq.2 hopc
  rw [Gives, hexec, execAdmissionDecision, onCh, ← hc, Chan.onEntry_goes hmay hopen hread hrun hfence hbad]

theorem admissionDecision_declines {n : Nat}
    (hdecl : d.admission s.dev.time (d.fld (F.rgSctxTempo r.val)) (wbits l.w0 0 32) (d.fld (F.rgSctxFlow r.val)) = .decline n) :
    Leads (.admissionDecision k r (.ok l)) s k (fun b => (b.cring (c.cqOf r.val)).cpls = (c.cring (c.cqOf r.val)).cpls ++
        [{ status := BitVec.ofNat 8 n, sq := r.val, slot := BitVec.ofNat 16 (c.sqSlot r.val), bumpCi := true }]
      ∧ (b.ring r.val).out = (c.ring r.val).out ∧ (b.ring r.val).busy = (c.ring r.val).busy + 1 ∧ (b.ring r.val).fetched = none) := by
  have hgives := admissionDecision_gives hc hmay hopen hread hopc hfence hbad
  have hdecide : d.decideRun s.dev.time r.val l = (d.countDecline n (d.fld (F.rgSctxTempo r.val))).finishEntry r.val n 0 := by
    simp only [Chan.decideRun, hdecl, Chan.countDecline]
  rw [hdecide] at hgives
  obtain ⟨hring, hcring, hcq, hslot⟩ := ((Chan.engineRead_walks hread).sameRing r).andThen
    (d.sameRing_countDecline n r.val (d.fld_lt (F.rgSctxTempo r.val)))
  have hcpls := (d.countDecline n (d.fld (F.rgSctxTempo r.val))).finishEntry_cpls r.val n 0
  have hdone := (d.countDecline n (d.fld (F.rgSctxTempo r.val))).finishEntry_ring r.val n 0
  rw [hcq, hcring, Chan.entryCpl, hslot] at hcpls
  rw [hring] at hdone
  refine ⟨_, hgives, hcpls, ?_, ?_, ?_⟩
  · rw [hdone]
  · rw [hdone]
  · rw [hdone]
    exact Chan.mayFetch_fetched hmay

theorem admissionDecision_accepts {dl cost t : Nat}
    (hacc : d.admission s.dev.time (d.fld (F.rgSctxTempo r.val)) (wbits l.w0 0 32) (d.fld (F.rgSctxFlow r.val)) = .accept dl cost t) :
    Leads (.admissionDecision k r (.ok l)) s k (fun b => (b.ring r.val).fetched = some l
      ∧ (b.ring r.val).admitted = some { deadline := dl, cost := BitVec.ofNat 32 cost, guar := true, tc := d.fld (F.rgSctxTempo r.val) }
      ∧ (b.ring r.val).out = (c.ring r.val).out + 1 ∧ (b.ring r.val).ci = (c.ring r.val).ci
      ∧ b.deadlines (d.fld (F.adTcfgLevel (d.fld (F.rgSctxTempo r.val))))
        = c.deadlines (d.fld (F.adTcfgLevel (d.fld (F.rgSctxTempo r.val)))) ++ [dl]) := by
  have hgives := admissionDecision_gives hc hmay hopen hread hopc hfence hbad
  simp only [Chan.decideRun, hacc] at hgives
  have hwalk := Chan.engineRead_walks hread
  have hring : ∀ now level u q x, ((d.addDrain now level u).addDeadline q dl x).ring r.val = c.ring r.val :=
    fun _ _ _ _ _ => (hwalk.sameRing r).ring
  obtain ⟨hfl, -, -⟩ := Chan.engine_eq.1 hwalk.engine
  have hlist : ∀ now level u q, (d.addDrain now level u).deadlines q = c.deadlines q := fun _ _ _ q => by
    rw [Chan.deadlines, Chan.addDrain, hfl, Chan.deadlines]
  refine ⟨_, hgives, ?_, ?_, ?_, ?_, ?_⟩
  · rw [Chan.acceptItem_ring]
  · rw [Chan.acceptItem_ring]
  · rw [Chan.acceptItem_ring, hring]
  · rw [Chan.acceptItem_ring, hring]
  · rw [Chan.acceptItem_deadlines, Chan.addDeadline_deadlines, hlist]

theorem admissionDecision_bestEffort
    (hbest : d.admission s.dev.time (d.fld (F.rgSctxTempo r.val)) (wbits l.w0 0 32) (d.fld (F.rgSctxFlow r.val)) = .best) :
    Leads (.admissionDecision k r (.ok l)) s k (fun b => (b.ring r.val).fetched = some l
      ∧ (b.ring r.val).admitted = some { tc := d.fld (F.rgSctxTempo r.val) } ∧ (b.ring r.val).out = (c.ring r.val).out + 1) := by
  have hgives := admissionDecision_gives hc hmay hopen hread hopc hfence hbad
  simp only [Chan.decideRun, hbest] at hgives
  have hring := ((Chan.engineRead_walks hread).sameRing r).ring
  refine ⟨_, hgives, ?_, ?_, ?_⟩
  · rw [Chan.acceptItem_ring]
  · rw [Chan.acceptItem_ring]
  · rw [Chan.acceptItem_ring, hring]

end

/-! ## The rule of R274 -/

/-- An item is accepted only where none of the grounds for a decline holds, and where every level from its own down has room for it. -/
theorem Chan.admission_accept {c : Chan} {now tc x n dl cost t : Nat} (h : c.admission now tc x n = .accept dl cost t) :
    (c.flag F.adCfgEn = true ∧ c.flag (F.adTcfgEn tc) = true) ∧ c.flag (F.adTcfgGuar tc) = true
    ∧ c.cost (c.fld (F.adTcfgCurve tc)) x (List.range 8) = some cost
    ∧ (c.freeIds ≠ 0 ∧ c.gate false 1 = true ∧ (c.deadlines (c.fld (F.adTcfgLevel tc))).length < 1024)
    ∧ (dl = now + c.fld (F.adTcfgBound tc) ∧ t = (cost * c.fld F.adCfgCostclk + 255) / 256)
    ∧ ∀ q, q < 8 → c.fld (F.adTcfgLevel tc) ≤ q →
        c.levelFits now (c.fld (F.adTcfgLevel tc)) (c.fld (F.adTcfgBound tc)) t q = true := by
  simp only [Chan.admission] at h
  split at h
  · split at h <;> exact absurd h nofun
  · next hon =>
    split at h
    · exact absurd h nofun
    · next hguar =>
      split at h
      · exact absurd h nofun
      · next k hcost =>
        split at h
        · exact absurd h nofun
        · next hroom =>
          split at h
          · next hfits =>
            obtain ⟨rfl, rfl, rfl⟩ := Decision.accept.inj h
            simp only [Bool.or_eq_true, Bool.not_eq_true', not_or, Bool.not_eq_false] at hon
            simp only [not_or, Bool.not_eq_false, Nat.not_le] at hroom
            obtain ⟨hids, hgate, -, hlen⟩ := hroom
            refine ⟨hon, by simpa using hguar, hcost, ⟨hids, hgate, hlen⟩, ⟨rfl, rfl⟩, fun q hq hlevel => ?_⟩
            have hq' := List.all_eq_true.1 hfits q (List.mem_range.2 hq)
            simpa [Nat.not_lt.2 hlevel] using hq'
          · exact absurd h nofun

/-- No cost is out of range (R268). -/
theorem Chan.cost_ne {c : Chan} {k x cost : Nat} : ∀ {l : List Nat}, c.cost k x l = some cost → cost ≠ 0xFFFFFFFF := by
  intro l
  induction l with
  | nil => exact nofun
  | cons i r ih =>
    intro h
    rw [Chan.cost] at h
    split at h
    · exact absurd h nofun
    · next hne =>
      split at h
      · rwa [← Option.some.inj h]
      · exact ih h

theorem Chan.levelFits_meets {c : Chan} {now level bound t q e : Nat} (h : c.levelFits now level bound t q = true)
    (he : (c.deadlines q).min? = some e) : max (c.finishAt now q) now + t + c.margin q ≤ e := by
  simpa only [Chan.levelFits, he, decide_eq_true_eq] using h

/-! ## A write of AD_CFG (R2, R271) -/

theorem regAt_adCfg : regAt chanRegTable 0x5600 = some (⟨.adCfg, 0x5600, 0, 1, [(63, 1, .rw), (32, 16, .rw), (0, 16, .rw)]⟩, 0) := by
  decide +kernel

/-- A RW field takes the bits written (R12). -/
theorem Chan.wrFields_fld {o : Nat} {d : RegDesc} {i : Nat} (hreg : regAt chanRegTable o = some (d, i)) (c : Chan) (w : Word) {g : Fd}
    (hoff : g.off = o) (hg : (g.lo, g.len, Access.rw) ∈ d.fields) (hrw : fieldAccess d.name i g.lo .rw = .rw) :
    (c.wrFields o w).fld g = wbits w g.lo g.len := by
  obtain ⟨hmem, -, -⟩ := regAt_some hreg
  obtain ⟨hfit, -, -⟩ := chanRegTable_rows _ hmem
  have hword : g.lo + g.len ≤ 64 := hfit.1 _ hg
  rw [Chan.fld, c.wrFields_of_regAt w 0 64 hreg, Chan.wr_rd, if_pos hoff, wbits_mergeFields _ _ _ _ _ _ hfit hg]
  simp [writtenTo, inSpan, hword, hrw, fieldWritten]

theorem Chan.wrFields_adCfg_en (c : Chan) (w : Word) : (c.wrFields 0x5600 w).flag F.adCfgEn = wbit w 63 := by
  rw [Chan.flag, Chan.wrFields_fld regAt_adCfg c w rfl (by decide) rfl]
  change (wbits w 63 1 != 0) = wbit w 63
  rw [wbits_one]
  cases wbit w 63 <;> rfl

/-- An access that stirs the channel reads the same registers. -/
theorem Chan.adForbidden_stir (c : Chan) (o : Nat) (w : Word) :
    ((c.stir o).wrFields 0x5600 w).adForbidden = (c.wrFields 0x5600 w).adForbidden := by
  obtain ⟨b, hb⟩ := c.stir_eq o
  rw [hb, Chan.wrFields_of_regAt _ w 0 64 regAt_adCfg, Chan.wrFields_of_regAt _ w 0 64 regAt_adCfg]
  rfl

theorem adCfgWrite_gives {s : State} {k : Ch} {c : Chan} (hc : c = s.chan k.val) {p : Party} (w : Word) (hs : c.served 0x5600 = true)
    (hmay : c.mayWrite p 0x5600 = true) : Gives (.adCfgWrite k p w) s k
      (if wbit w 63 && (c.wrFields 0x5600 w).adForbidden then c.stir 0x5600 else (c.stir 0x5600).wrFields 0x5600 w) := by
  have hexec : exec (.adCfgWrite k p w) s = execAdCfgWrite k p w s := rfl
  rw [Gives, hexec, execAdCfgWrite, onCh, ← hc]
  simp only [Chan.regWrite, hs, hmay, Chan.adCfgWriteOp, Chan.wrFields_adCfg_en, Chan.adForbidden_stir, Bool.not_true, Bool.false_eq_true,
    if_false]

/-- Settles O31: the decision on a RUN as the rule of R274 gives it, after a fetch whose translation leaves rings and deadlines, and a
write of AD_CFG by what it would leave. -/
theorem admission : Obligations.Admission := by
  refine ⟨fun s k c hc => ⟨fun r l d hmay hopen hread hopc hfence hbad => ⟨fun n => ?_, fun dl cost t => ?_, ?_⟩, fun p w hs hmay => ?_⟩, ?_⟩
  · exact admissionDecision_declines hc hmay hopen hread hopc hfence hbad
  · exact admissionDecision_accepts hc hmay hopen hread hopc hfence hbad
  · exact admissionDecision_bestEffort hc hmay hopen hread hopc hfence hbad
  · have hgives := adCfgWrite_gives hc w hs hmay
    refine ⟨fun hen hforbidden => ?_, fun hallowed => ?_⟩
    · rw [hen, hforbidden, Bool.and_self, if_pos rfl] at hgives
      exact ⟨_, hgives, c.stir_regs _⟩
    · rw [if_neg (by rcases hallowed with h | h <;> simp [h])] at hgives
      exact ⟨_, hgives, Chan.wrFields_adCfg_en _ w, Chan.wrFields_fld regAt_adCfg _ w rfl (by decide) rfl,
        Chan.wrFields_fld regAt_adCfg _ w rfl (by decide) rfl⟩
  · intro c now tc x n dl cost t h
    obtain ⟨⟨hcfg, hclass⟩, hguar, hcost, ⟨hids, hgate, hlen⟩, ⟨hdl, ht⟩, hfits⟩ := Chan.admission_accept h
    exact ⟨hcfg, hclass, hguar, hcost, hdl, ht, hids, hgate, hlen, fun q e hlevel hq he => Chan.levelFits_meets (hfits q hq hlevel) he,
      Chan.cost_ne hcost⟩

end Sys2Proof.Machine
end

section
/-! Spill records (R303): a record written to memory reads back whole. -/

namespace Sys2Proof.Machine

/-! ## The words of a record -/

/-- The eight words of a record, the last two of which hold 0. -/
def SRec.words (r : SRec) : List Word := [r.val0, r.val1, r.val2, r.word3, r.word4, r.evtime, 0, 0]

theorem Chan.writeRec_eq (c : Chan) (a : Nat) (r : SRec) : c.writeRec a r = (c.wrWords a r.words).dmWrote a 64 := rfl

theorem SRec.word3_toNat (r : SRec) : r.word3.toNat = 2 ^ 63 + r.sb2.toNat * 2 ^ 32 + r.sb1.toNat * 2 ^ 24 + r.sb0.toNat * 2 ^ 16
    + r.need.toNat * 2 ^ 12 + r.got.toNat * 2 ^ 8 + r.pmin.toNat * 2 ^ 5 := by
  rw [SRec.word3, BitVec.toNat_ofNat]
  simp only [Nat.shiftLeft_eq]
  omega

theorem SRec.word4_toNat (r : SRec) : r.word4.toNat = r.cseq.toNat * 2 ^ 40 + r.ctx.toNat * 2 ^ 16 + r.ip.toNat := by
  rw [SRec.word4, BitVec.toNat_ofNat]
  simp only [Nat.shiftLeft_eq]
  omega

/-- A field of a word that holds the number of v reads as v. -/
theorem ofNat_wbits {n lo : Nat} {w : Word} {v : BitVec n} (h : w.toNat / 2 ^ lo % 2 ^ n = v.toNat) :
    BitVec.ofNat n (wbits w lo n) = v := by
  rw [wbits, bitsOf, Nat.shiftRight_eq_div_pow, h, BitVec.ofNat_toNat, BitVec.setWidth_eq]

theorem SRec.word3_valid (r : SRec) : wbit r.word3 63 = true := by
  have h3 := r.word3_toNat
  have hlt := r.word3.isLt
  rw [wbit, Nat.testBit_eq_decide_div_mod_eq, decide_eq_true_eq]
  omega

theorem SRec.word3_fields (r : SRec) :
    BitVec.ofNat 8 (wbits r.word3 32 8) = r.sb2 ∧ BitVec.ofNat 8 (wbits r.word3 24 8) = r.sb1
    ∧ BitVec.ofNat 8 (wbits r.word3 16 8) = r.sb0 ∧ BitVec.ofNat 4 (wbits r.word3 12 4) = r.need
    ∧ BitVec.ofNat 4 (wbits r.word3 8 4) = r.got ∧ BitVec.ofNat 3 (wbits r.word3 5 3) = r.pmin := by
  have h3 := r.word3_toNat
  exact ⟨ofNat_wbits (by omega), ofNat_wbits (by omega), ofNat_wbits (by omega), ofNat_wbits (by omega), ofNat_wbits (by omega),
    ofNat_wbits (by omega)⟩

theorem SRec.word4_fields (r : SRec) :
    BitVec.ofNat 16 (wbits r.word4 40 16) = r.cseq ∧ BitVec.ofNat 24 (wbits r.word4 16 24) = r.ctx
    ∧ BitVec.ofNat 16 (wbits r.word4 0 16) = r.ip := by
  have h4 := r.word4_toNat
  exact ⟨ofNat_wbits (by omega), ofNat_wbits (by omega), ofNat_wbits (by omega)⟩

/-! ## Words in memory -/

theorem Chan.rdWord_congr {c d : Chan} {a : Nat} (h : ∀ x, a ≤ x → x < a + 8 → memByte d.mem x = memByte c.mem x) :
    d.rdWord a = c.rdWord a := by
  rw [Chan.rdWord, memBytes_congr 8 d.mem c.mem a fun i hi => h _ (by omega) (by omega), Chan.rdWord]

/-- A word below those written reads as before. -/
theorem Chan.rdWord_wrWords_below (ws : List Word) {b : Nat} :
    ∀ (c : Chan) (a : Nat), b + 8 ≤ a → (c.wrWords a ws).rdWord b = c.rdWord b := by
  induction ws with
  | nil => exact fun _ _ _ => rfl
  | cons w r ih =>
    intro c a hb
    rw [Chan.wrWords, ih _ _ (by omega), Chan.rdWord_wrWord_ne _ _ _ _ (.inl hb)]

/-- Words written read back. -/
theorem Chan.rdWord_wrWords {w : Word} (ws : List Word) :
    ∀ (c : Chan) (a i : Nat), ws[i]? = some w → (c.wrWords a ws).rdWord (a + 8 * i) = w := by
  induction ws with
  | nil => exact fun _ _ _ h => absurd h (by simp)
  | cons v r ih =>
    intro c a i hi
    rw [Chan.wrWords]
    cases i with
    | zero =>
      have hfirst : ((c.wrWord a v).wrWords (a + 8) r).rdWord a = v := by
        rw [Chan.rdWord_wrWords_below r _ _ (Nat.le_refl _), Chan.rdWord_wrWord]
      exact hfirst.trans (Option.some.inj hi)
    | succ i =>
      have hat : a + 8 * (i + 1) = a + 8 + 8 * i := by omega
      rw [hat]
      exact ih _ _ _ hi

theorem Chan.rdWord_writeRec (c : Chan) (a : Nat) (r : SRec) {i : Nat} {w : Word} (h : r.words[i]? = some w) :
    (c.writeRec a r).rdWord (a + 8 * i) = w := by
  have hmem : (c.writeRec a r).mem = (c.wrWords a r.words).mem := Chan.dmWrote_mem _ _ _
  rw [Chan.rdWord, hmem, ← Chan.rdWord]
  exact Chan.rdWord_wrWords r.words c a i h

/-! ## Records in memory -/

/-- A record reads the same where its line holds the same bytes. -/
theorem Chan.readRec_congr {c d : Chan} {a : Nat} (h : ∀ x, a ≤ x → x < a + 64 → memByte d.mem x = memByte c.mem x) :
    d.readRec a = c.readRec a := by
  have hword : ∀ o, o + 8 ≤ 64 → d.rdWord (a + o) = c.rdWord (a + o) := fun o ho =>
    Chan.rdWord_congr fun x hlo hhi => h x (by omega) (by omega)
  have hfirst : d.rdWord a = c.rdWord a := hword 0 (by decide)
  simp only [Chan.readRec, hfirst, hword 8 (by decide), hword 16 (by decide), hword 24 (by decide), hword 32 (by decide),
    hword 40 (by decide)]

theorem Chan.readRec_of_mem {c d : Chan} (h : d.mem = c.mem) (a : Nat) : d.readRec a = c.readRec a :=
  Chan.readRec_congr fun _ _ _ => by rw [h]

theorem Chan.readRec_writeRec (c : Chan) (a : Nat) (r : SRec) : (c.writeRec a r).readRec a = some r := by
  have hval0 : (c.writeRec a r).rdWord a = r.val0 := c.rdWord_writeRec a r (i := 0) rfl
  have hval1 : (c.writeRec a r).rdWord (a + 8) = r.val1 := c.rdWord_writeRec a r (i := 1) rfl
  have hval2 : (c.writeRec a r).rdWord (a + 16) = r.val2 := c.rdWord_writeRec a r (i := 2) rfl
  have hword3 : (c.writeRec a r).rdWord (a + 24) = r.word3 := c.rdWord_writeRec a r (i := 3) rfl
  have hword4 : (c.writeRec a r).rdWord (a + 32) = r.word4 := c.rdWord_writeRec a r (i := 4) rfl
  have htime : (c.writeRec a r).rdWord (a + 40) = r.evtime := c.rdWord_writeRec a r (i := 5) rfl
  obtain ⟨hsb2, hsb1, hsb0, hneed, hgot, hpmin⟩ := r.word3_fields
  obtain ⟨hcseq, hctx, hip⟩ := r.word4_fields
  simp only [Chan.readRec, hval0, hval1, hval2, hword3, hword4, htime, r.word3_valid, if_true, hsb2, hsb1, hsb0, hneed, hgot, hpmin, hcseq,
    hctx, hip]

end Sys2Proof.Machine
end

section
/-! The search for a record and the writes of the spill area (R302, R304): what they leave of the matching store. -/

namespace Sys2Proof.Machine

/-! ## What is noted in the GDDR7 controller (R396, R398) -/

/-- Nothing but the GDDR7 controller has changed. -/
def Chan.OnlyDm (c d : Chan) : Prop := ∃ x, d = { c with dm := x }

theorem Chan.OnlyDm.andThen {c d e : Chan} (h : c.OnlyDm d) (k : d.OnlyDm e) : c.OnlyDm e := by
  obtain ⟨x, rfl⟩ := h
  obtain ⟨y, rfl⟩ := k
  exact ⟨y, rfl⟩

theorem Chan.OnlyDm.fold {α : Type} (f : Chan → α → Chan) (h : ∀ (c : Chan) (a : α), c.OnlyDm (f c a)) (l : List α) (c : Chan) :
    c.OnlyDm (l.foldl f c) :=
  List.foldlRecOn (motive := c.OnlyDm) l f ⟨c.dm, rfl⟩ (fun d hd a _ => hd.andThen (h d a))

theorem Chan.onlyDm_storeCheck (c : Chan) (e : Nat × Bool) : c.OnlyDm (c.storeCheck e) := by
  rw [Chan.storeCheck]
  split
  · exact ⟨_, rfl⟩
  · exact ⟨c.dm, rfl⟩

theorem Chan.onlyDm_checkUse (c : Chan) (a : Nat) (wr : Bool) : c.OnlyDm (c.checkUse a wr) := by
  rw [Chan.checkUse]
  exact (Chan.OnlyDm.fold (fun (c : Chan) e => c.storeCheck e) (fun c e => c.onlyDm_storeCheck e) _ c).andThen ⟨_, rfl⟩

theorem Chan.onlyDm_bufLine (c : Chan) (l : Nat) : c.OnlyDm (c.bufLine l) := by
  simp only [Chan.bufLine]
  split
  · exact ⟨c.dm, rfl⟩
  · exact ⟨_, rfl⟩

theorem Chan.onlyDm_dmWrote (c : Chan) (a n : Nat) : c.OnlyDm (c.dmWrote a n) :=
  .fold _ (fun c l => (c.onlyDm_bufLine l).andThen (Chan.onlyDm_checkUse _ _ _)) _ c

/-- Lines that a write covers in part and that hold no error are merged without another effect (R400). -/
theorem Chan.onlyDm_dmMerge (c : Chan) (now a n : Nat) : c.OnlyDm (c.dmMerge now [] a n) :=
  .fold _ (fun c l => by rw [c.dmLine_clean now rfl]; exact c.onlyDm_checkUse _ _) _ c

section

variable {c d : Chan} (h : c.OnlyDm d)

include h

theorem Chan.OnlyDm.ms : d.ms = c.ms := by
  obtain ⟨x, rfl⟩ := h
  rfl

theorem Chan.OnlyDm.cu : d.cu = c.cu := by
  obtain ⟨x, rfl⟩ := h
  rfl

theorem Chan.OnlyDm.nBuckets : d.nBuckets = c.nBuckets := by
  obtain ⟨x, rfl⟩ := h
  rfl

theorem Chan.OnlyDm.recAddr (b i : Nat) : d.recAddr b i = c.recAddr b i := by
  obtain ⟨x, rfl⟩ := h
  rfl

theorem Chan.OnlyDm.spillRec (dv : Dev) (t e : Nat) (x : MEntry) : d.spillRec dv t e x = c.spillRec dv t e x := by
  obtain ⟨y, rfl⟩ := h
  rfl

theorem Chan.OnlyDm.tile (t : Nat) : d.tile t = c.tile t := by rw [Chan.tile, h.ms, Chan.tile]

end

/-! ## Writes of the spill area -/

theorem Chan.wrWords_ms (ws : List Word) : ∀ (c : Chan) (a : Nat), (c.wrWords a ws).ms = c.ms := by
  induction ws with
  | nil => exact fun _ _ => rfl
  | cons w r ih => exact fun c a => ih _ _

@[simp] theorem Chan.writeRec_ms (c : Chan) (a : Nat) (r : SRec) : (c.writeRec a r).ms = c.ms := by
  rw [Chan.writeRec_eq, (Chan.onlyDm_dmWrote _ _ _).ms, Chan.wrWords_ms]

@[simp] theorem Chan.writeRec_units (c : Chan) (a : Nat) (r : SRec) : (c.writeRec a r).units = c.units := by
  rw [Chan.writeRec_eq, Chan.dmWrote_units, Chan.wrWords_units]

@[simp] theorem Chan.setMap_ms (c : Chan) (b : Nat) : (c.setMap b).ms = c.ms := (Chan.onlyDm_dmWrote _ _ _).ms

/-- Of the memory the map's bit changes the byte of its bucket. -/
theorem Chan.memByte_setMap (c : Chan) (b : Nat) {x : Nat} (h : x ≠ c.mapAddr b) : memByte (c.setMap b).mem x = memByte c.mem x := by
  rw [Chan.setMap, Chan.dmWrote_mem, memByte_putByte, if_neg h]

/-! ## Records that are freed -/

theorem Chan.ctxUpd_ms (c : Chan) (id : Nat) (f : Ctx → Ctx) : (c.ctxUpd id f).ms = c.ms := by
  obtain ⟨l, q, hq⟩ := (c.setCtx id (f (c.ctx id))).cacheTouch_eq id true
  rw [Chan.ctxUpd, hq]
  rfl

/-- The entries in use of the matching store are the same. -/
structure Chan.SameEntries (c d : Chan) : Prop where
  entries : d.ms.entries = c.ms.entries

theorem Chan.SameEntries.same (c : Chan) : c.SameEntries c := ⟨rfl⟩

theorem Chan.SameEntries.of_ms {c d : Chan} (h : d.ms = c.ms) : c.SameEntries d := ⟨congrArg Match.entries h⟩

theorem Chan.SameEntries.andThen {c d e : Chan} (h : c.SameEntries d) (k : d.SameEntries e) : c.SameEntries e :=
  ⟨k.entries.trans h.entries⟩

theorem Chan.SameEntries.fold {α : Type} (f : Chan → α → Chan) (h : ∀ (c : Chan) (a : α), c.SameEntries (f c a)) (l : List α)
    (c : Chan) : c.SameEntries (l.foldl f c) :=
  List.foldlRecOn (motive := c.SameEntries) l f (.same c) (fun d hd a _ => hd.andThen (h d a))

theorem Chan.SameEntries.ite {c d e : Chan} {p : Prop} [Decidable p] (hd : p → c.SameEntries d) (he : ¬ p → c.SameEntries e) :
    c.SameEntries (if p then d else e) := by
  split
  · next h => exact hd h
  · next h => exact he h

theorem Chan.sameEntries_setFld (c : Chan) (f : Fd) (v : Nat) : c.SameEntries (c.setFld f v) := .of_ms (c.setFld_ms f v)

theorem Chan.sameEntries_setTile (c : Chan) (t : Nat) (x : TileSt) : c.SameEntries (c.setTile t x) := ⟨rfl⟩

theorem Chan.sameEntries_unstick (c : Chan) : c.SameEntries c.unstick := ⟨rfl⟩

theorem Chan.sameEntries_freeRec (c : Chan) (b i : Nat) (r : SRec) : c.SameEntries (c.freeRec b i r) := by
  have hfreed : ∀ (w : Word) (n t ctx ip : Nat) (x : TileSt), c.SameEntries
      ((((((c.wrWord (c.recAddr b i + 24) w).dmWrote (c.recAddr b i + 24) 8).setMap b).setFld
        F.pgSpillstatUsed n).filterSub t ctx ip).setTile t x) := by
    intro w n t ctx ip x
    have hmap : c.SameEntries (((c.wrWord (c.recAddr b i + 24) w).dmWrote (c.recAddr b i + 24) 8).setMap b) :=
      .of_ms ((Chan.setMap_ms _ _).trans (Chan.onlyDm_dmWrote _ _ _).ms)
    exact ((hmap.andThen (Chan.sameEntries_setFld _ _ _)).andThen (Chan.sameEntries_setTile _ _ _)).andThen
      (Chan.sameEntries_setTile _ _ _)
  exact Chan.SameEntries.andThen (.ite (fun _ => (hfreed ..).andThen (.of_ms (Chan.ctxUpd_ms _ _ _))) (fun _ => hfreed ..))
    (Chan.sameEntries_unstick _)

theorem Chan.sameEntries_readBucket (c : Chan) (now : Nat) (gone : Chan → SRec → Bool) (b : Nat) :
    c.SameEntries (c.readBucket now [] gone b) := by
  refine .fold _ (fun c i => .ite (fun hbad => absurd hbad Bool.false_ne_true) (fun _ => ?_)) _ c
  have hline : c.SameEntries (c.dmLine now [] (c.recAddr b i)) := by
    rw [c.dmLine_clean now rfl]
    exact .of_ms (c.onlyDm_checkUse _ _).ms
  dsimp only
  split
  · exact .ite (fun _ => hline.andThen (Chan.sameEntries_freeRec _ _ _ _)) (fun _ => hline)
  · exact hline

/-- A search that meets no line in error leaves the entries. -/
theorem Chan.sameEntries_cleanProbe (c : Chan) (now ctx ip : Nat) : c.SameEntries (c.cleanProbe now [] ctx ip) :=
  .fold _ (fun c _ => c.sameEntries_readBucket now _ _) _ c

end Sys2Proof.Machine
end

section
/-! Evictions and the Cut-in queue (R300 to R311, R321): what each command does, and the obligation put together from them. -/

namespace Sys2Proof.Machine

/-! ## The start of an eviction (R300, R301) -/

theorem Chan.startEvict_tile (c : Chan) (t e : Nat) (x : MEntry) (b i : Nat) :
    ((c.startEvict t e x (b, i)).tile t).evict = some { e := e, bucket := b, slot := i } := by
  rw [Chan.startEvict, Chan.setTile_tile_same]

theorem Chan.sameEntries_startEvict (c : Chan) (t e : Nat) (x : MEntry) (slot : Nat × Nat) : c.SameEntries (c.startEvict t e x slot) :=
  (c.sameEntries_setTile _ _).andThen (Chan.sameEntries_setTile _ _ _)

/-- A victim with a free record among its buckets is placed. -/
theorem Chan.tryVictims_places {c d : Chan} {now t : Nat} {errs : LineErrs} {v : Nat × MEntry} {vs : List (Nat × MEntry)}
    {slot : Nat × Nat} (hd : d = c.cleanProbe now errs v.2.ctx.toNat v.2.ip.toNat)
    (hslot : d.freeSlot v.2.ctx.toNat v.2.ip.toNat (List.range d.nProbe) = some slot) :
    Chan.tryVictims now t errs (v :: vs) c = (d.startEvict t v.1 v.2 slot, true) := by
  subst hd
  simp only [Chan.tryVictims, hslot]

/-! ## The end of an eviction (R302) -/

theorem Chan.dropEntry_entry_same (c : Chan) (t e : Nat) : (c.dropEntry t e).entry t e = none := by
  rw [Chan.entry, Chan.dropEntry, tblFind_del, if_pos rfl]

theorem Chan.dropEntry_entry_none {c : Chan} {t e : Nat} (h : c.entry t e = none) (u i : Nat) : (c.dropEntry u i).entry t e = none := by
  rw [Chan.entry, Chan.dropEntry, tblFind_del]
  split
  · rfl
  · exact h

theorem Chan.dropKey_entry_same (c : Chan) (t e : Nat) : (c.dropKey t e).entry t e = none := by
  rcases hx : c.entry t e with _ | x
  · rwa [Chan.dropKey, hx]
  · have hgone := c.dropEntry_entry_same t e
    simp only [Chan.dropKey, hx]
    split
    · exact hgone
    · exact Chan.dropEntry_entry_none hgone _ _

/-- The entries of a key that is dropped are all that changes, but for the note that the occupancy has moved. -/
theorem Chan.dropKey_eq (c : Chan) (t e : Nat) : ∃ l m, c.dropKey t e = { c with ms := { c.ms with entries := l, moved := m } } := by
  simp only [Chan.dropKey]
  split
  · exact ⟨c.ms.entries, c.ms.moved, rfl⟩
  · split <;> exact ⟨_, _, rfl⟩

theorem Chan.dropKey_tile (c : Chan) (t e u : Nat) : (c.dropKey t e).tile u = c.tile u := by
  obtain ⟨l, m, h⟩ := c.dropKey_eq t e
  rw [h]
  rfl

theorem Chan.dropKey_cutq (c : Chan) (t e : Nat) : (c.dropKey t e).ms.cutq = c.ms.cutq := by
  obtain ⟨l, m, h⟩ := c.dropKey_eq t e
  rw [h]

theorem Chan.dropKey_mem (c : Chan) (t e : Nat) : (c.dropKey t e).mem = c.mem := by
  obtain ⟨l, m, h⟩ := c.dropKey_eq t e
  rw [h]

/-! ## The tokens that waited for the key (R302, R305) -/

/-- The tokens of the miss buffer that wait for the eviction of the key of entry x. -/
def Chan.waiting (c : Chan) (t : Nat) (x : MEntry) : List Missed := (c.tile t).miss.filter (waitsEvict x)

theorem Chan.OnlyDm.waiting {c d : Chan} (h : c.OnlyDm d) (t : Nat) (x : MEntry) : d.waiting t x = c.waiting t x := by
  rw [Chan.waiting, h.tile, Chan.waiting]

/-- Of the tile only the miss buffer changes, and none of its tokens waits for the eviction any longer. -/
theorem Chan.toSpillPath_tile (c : Chan) (t : Nat) (x : MEntry) :
    ∃ l, (c.toSpillPath t x).tile t = { c.tile t with miss := l } ∧ ∀ m ∈ l, waitsEvict x m = false := by
  refine ⟨_, Chan.setTile_tile_same _ _ _, fun m hm => ?_⟩
  rcases List.mem_append.1 hm with hother | hrest
  · simpa using (List.mem_filter.1 hother).2
  · obtain ⟨m', -, rfl⟩ := List.mem_map.1 hrest
    rfl

theorem Chan.toSpillPath_entry (c : Chan) (t u e : Nat) (x : MEntry) : (c.toSpillPath t x).entry u e = c.entry u e := rfl

theorem Chan.toSpillPath_mem (c : Chan) (t : Nat) (x : MEntry) : (c.toSpillPath t x).mem = c.mem := rfl

theorem Chan.toSpillPath_cu (c : Chan) (t : Nat) (x : MEntry) : (c.toSpillPath t x).cu = c.cu := rfl

theorem Chan.toSpillPath_cutq {c : Chan} {t : Nat} {x : MEntry} (hroom : c.ms.cutq.length + (c.waiting t x).length ≤ 32) :
    (c.toSpillPath t x).ms.cutq = c.ms.cutq ++ (c.waiting t x).map (fun m => ⟨t, m.tok, m.word⟩) := by
  have hall : (c.waiting t x).take (cutqSize - c.ms.cutq.length) = c.waiting t x := List.take_of_length_le (by rw [cutqSize]; omega)
  have hqueue : (c.toSpillPath t x).ms.cutq
      = c.ms.cutq ++ ((c.waiting t x).take (cutqSize - c.ms.cutq.length)).map (fun m => ⟨t, m.tok, m.word⟩) := rfl
  rw [hqueue, hall]

/-! ## The record and the ways (R302) -/

/-- The map lies above the records. -/
theorem Chan.recAddr_below_mapAddr {c : Chan} {v : Evict} (hbucket : v.bucket < c.nBuckets) (hslot : v.slot < 8) :
    c.recAddr v.bucket v.slot + 64 ≤ c.mapAddr v.bucket := by
  rw [Chan.recAddr, Chan.mapAddr]
  omega

theorem Chan.writeRec_mapAddr (c : Chan) (a : Nat) (r : SRec) (b : Nat) : (c.writeRec a r).mapAddr b = c.mapAddr b := by
  have hcounts : c.OnlyCounts (c.writeRec a r) := (Chan.onlyCounts_wrWords r.words c a).andThen (Chan.onlyCounts_dmWrote _ _ _)
  simp only [Chan.mapAddr, Chan.spillBase, Chan.nBuckets]
  rw [hcounts.fld (by decide), hcounts.fld (by decide)]

/-- The channel with the record of an eviction and its bucket's map bit written, before its ways are freed. -/
def Chan.recorded (c : Chan) (dv : Dev) (t : Nat) (v : Evict) (x : MEntry) : Chan :=
  (c.writeRec (c.recAddr v.bucket v.slot) (c.spillRec dv t v.e x)).setMap v.bucket

section

variable (c : Chan) (dv : Dev) (t : Nat) (v : Evict) (x : MEntry)

theorem Chan.recorded_ms : (c.recorded dv t v x).ms = c.ms := by rw [Chan.recorded, Chan.setMap_ms, Chan.writeRec_ms]

theorem Chan.recorded_units : (c.recorded dv t v x).units = c.units := by rw [Chan.recorded, Chan.setMap_units, Chan.writeRec_units]

theorem Chan.finishEvict_eq : ∃ n, c.finishEvict dv t v x
    = ((((c.recorded dv t v x).setFld F.pgSpillstatUsed n).inc F.pgCutcntEvict).setTile t
      { c.tile t with spilled := (c.tile t).spilled + 1, evict := none }).dropKey t v.e := by
  refine ⟨(c.recorded dv t v x).fld F.pgSpillstatUsed + 1, ?_⟩
  have htile : (((c.recorded dv t v x).setFld F.pgSpillstatUsed ((c.recorded dv t v x).fld F.pgSpillstatUsed + 1)).inc
      F.pgCutcntEvict).tile t = c.tile t := by
    rw [Chan.inc_tile, Chan.setFld_tile, Chan.tile, Chan.recorded_ms, Chan.tile]
  rw [← htile]
  rfl

theorem Chan.finishEvict_tile : (c.finishEvict dv t v x).tile t = { c.tile t with spilled := (c.tile t).spilled + 1, evict := none } := by
  obtain ⟨n, hn⟩ := c.finishEvict_eq dv t v x
  rw [hn, Chan.dropKey_tile, Chan.setTile_tile_same]

theorem Chan.finishEvict_entry : (c.finishEvict dv t v x).entry t v.e = none := by
  obtain ⟨n, hn⟩ := c.finishEvict_eq dv t v x
  rw [hn, Chan.dropKey_entry_same]

theorem Chan.finishEvict_cutq : (c.finishEvict dv t v x).ms.cutq = c.ms.cutq := by
  obtain ⟨n, hn⟩ := c.finishEvict_eq dv t v x
  rw [hn, Chan.dropKey_cutq, Chan.setTile_ms_cutq, Chan.inc_ms, Chan.setFld_ms, Chan.recorded_ms]

theorem Chan.finishEvict_cu : (c.finishEvict dv t v x).cu = c.cu := by
  obtain ⟨n, hn⟩ := c.finishEvict_eq dv t v x
  have hunits : (c.finishEvict dv t v x).units = c.units := by
    rw [hn, Chan.dropKey_units, Chan.setTile_units, Chan.inc_units, Chan.setFld_units, Chan.recorded_units]
  exact (Chan.units_eq.1 hunits).1

theorem Chan.finishEvict_mem : (c.finishEvict dv t v x).mem = (c.recorded dv t v x).mem := by
  obtain ⟨n, hn⟩ := c.finishEvict_eq dv t v x
  rw [hn, Chan.dropKey_mem, Chan.setTile_mem, Chan.inc_mem, Chan.setFld_mem]

theorem Chan.recorded_readRec (hbucket : v.bucket < c.nBuckets) (hslot : v.slot < 8) :
    (c.recorded dv t v x).readRec (c.recAddr v.bucket v.slot) = some (c.spillRec dv t v.e x) := by
  have habove := Chan.recAddr_below_mapAddr hbucket hslot
  rw [← c.readRec_writeRec (c.recAddr v.bucket v.slot) (c.spillRec dv t v.e x)]
  refine Chan.readRec_congr fun a _ ha => Chan.memByte_setMap _ _ ?_
  rw [Chan.writeRec_mapAddr]
  omega

/-! ## The whole of an eviction's end -/

/-- Channel c with the eviction v of entry x brought to its end. -/
def Chan.evicted (c : Chan) (dv : Dev) (t : Nat) (v : Evict) (x : MEntry) : Chan := (c.finishEvict dv t v x).toSpillPath t x

/-- The bank's eviction is over, the entry is free, and no token waits for it any longer. -/
theorem Chan.evicted_ends : ((c.evicted dv t v x).tile t).evict = none ∧ (c.evicted dv t v x).entry t v.e = none
    ∧ ∀ m ∈ ((c.evicted dv t v x).tile t).miss, waitsEvict x m = false := by
  obtain ⟨l, htile, hnone⟩ := (c.finishEvict dv t v x).toSpillPath_tile t x
  rw [Chan.evicted, htile, Chan.finishEvict_tile, Chan.toSpillPath_entry, Chan.finishEvict_entry]
  exact ⟨rfl, rfl, hnone⟩

theorem Chan.evicted_spilled : ((c.evicted dv t v x).tile t).spilled = (c.tile t).spilled + 1 := by
  obtain ⟨l, htile, -⟩ := (c.finishEvict dv t v x).toSpillPath_tile t x
  rw [Chan.evicted, htile, Chan.finishEvict_tile]

theorem Chan.evicted_cu : (c.evicted dv t v x).cu = c.cu := by rw [Chan.evicted, Chan.toSpillPath_cu, Chan.finishEvict_cu]

theorem Chan.evicted_readRec (hbucket : v.bucket < c.nBuckets) (hslot : v.slot < 8) :
    (c.evicted dv t v x).readRec (c.recAddr v.bucket v.slot) = some (c.spillRec dv t v.e x) := by
  have hmem : (c.evicted dv t v x).mem = (c.recorded dv t v x).mem := by rw [Chan.evicted, Chan.toSpillPath_mem, Chan.finishEvict_mem]
  rw [Chan.readRec_of_mem hmem, Chan.recorded_readRec _ _ _ _ _ hbucket hslot]

theorem Chan.evicted_cutq (hroom : c.ms.cutq.length + (c.waiting t x).length ≤ 32) :
    (c.evicted dv t v x).ms.cutq = c.ms.cutq ++ (c.waiting t x).map (fun m => ⟨t, m.tok, m.word⟩) := by
  have hsame : (c.finishEvict dv t v x).waiting t x = c.waiting t x := by rw [Chan.waiting, Chan.finishEvict_tile, Chan.waiting]
  rw [Chan.evicted, Chan.toSpillPath_cutq, Chan.finishEvict_cutq, hsame]
  rwa [Chan.finishEvict_cutq, hsame]

end

/-! ## What the commands make of a channel -/

/-- The channel in which an eviction writes its record: the internal port is taken and the map's line read (R400). -/
def Chan.merged (c : Chan) (dv : Dev) (errs : LineErrs) (v : Evict) : Chan :=
  (c.dmTake dv.time).dmMerge c.xclk errs (c.mapAddr v.bucket) 1

theorem Chan.onlyDm_merged (c : Chan) (dv : Dev) (v : Evict) : c.OnlyDm (c.merged dv [] v) :=
  Chan.OnlyDm.andThen (d := c.dmTake dv.time) ⟨_, rfl⟩ (Chan.onlyDm_dmMerge _ _ _ _)

/-- The head of the Cut-in queue has been dealt with. -/
def Chan.cutTaken (c : Chan) : Chan := { c with ms := { c.ms with cutq := c.ms.cutq.drop 1 } }

theorem Chan.cutTaken_mem (c : Chan) : c.cutTaken.mem = c.mem := rfl

theorem Chan.cutTaken_ms (c : Chan) : c.cutTaken.ms = { c.ms with cutq := c.ms.cutq.drop 1 } := rfl

/-- What a lookup that ends in channel d, with or without a record, makes of the token at the head of the Cut-in queue (R305). -/
def Chan.lookedUp (c d : Chan) (u : Nat) (tok : Token) (w : Word) (errs : LineErrs) : Option (Nat × Nat) → Chan
  | none => (d.noRecord c.xclk u tok w errs).getD c.cutFails
  | some (b, i) =>
    match d.readRec (d.recAddr b i) with
    | none => c
    | some q =>
      if (q.fill tok).got = (q.fill tok).need then (d.reload c.xclk u b i (q.fill tok) w errs).getD c.cutFails
      else (d.writeRec (d.recAddr b i) (q.fill tok)).cutTaken

/-- The stall monitor has fired (R311): FIRED is set, the count starts anew, and source 15 is raised. -/
def Chan.stallFired (c : Chan) : Chan := ({ c.setFld F.pgStallFired 1 with ms := { c.ms with stall := 0 } }).raise 15

theorem Chan.flag_ms (c : Chan) (m : Match) (f : Fd) : ({ c with ms := m } : Chan).flag f = c.flag f := rfl

theorem Chan.ev_ms (c : Chan) (m : Match) : ({ c with ms := m } : Chan).ev = c.ev := rfl

theorem Chan.stallFired_flag (c : Chan) : c.stallFired.flag F.pgStallFired = true := by
  rw [Chan.stallFired, Chan.raise_flag, Chan.flag_ms, Chan.flag, Chan.fld_setFld _ _ _ (by decide)]
  rfl

theorem Chan.stallFired_stall (c : Chan) : c.stallFired.ms.stall = 0 := by rw [Chan.stallFired, Chan.raise_ms]

theorem Chan.stallFired_sent (c : Chan) : c.stallFired.ev.sent = c.ev.sent ++ [{ src := 15, tile := evSender 15 }] := by
  rw [Chan.stallFired, Chan.raise_msgs, Chan.ev_ms, Chan.setFld_ev]

/-! ## The commands -/

section

variable {s : State} {k : Ch} {c : Chan} (hc : c = s.chan k.val) {t : Tile} {errs : LineErrs}

include hc

theorem backgroundEviction_starts {v : Nat × MEntry} {b i : Nat} {d : Chan} (hlow : c.flag F.msWmstatNow = true)
    (hen : c.flag F.pgSpillcfgEn = true) (hidle : (c.tile t.val).evict = none) (hvictim : c.backgroundVictim c.xclk t.val = some v)
    (hdm : c.dmSecond (c.victimLines [v]) = true) (hd : d = c.dmTouch.cleanProbe c.xclk errs v.2.ctx.toNat v.2.ip.toNat)
    (hslot : d.freeSlot v.2.ctx.toNat v.2.ip.toNat (List.range d.nProbe) = some (b, i)) :
    Gives (.backgroundEviction k t errs) s k (d.startEvict t.val v.1 v.2 (b, i)) := by
  have hexec : exec (.backgroundEviction k t errs) s = execBackgroundEviction k t s errs := rfl
  rw [Gives, hexec, execBackgroundEviction, onCh, ← hc]
  simp only [hlow, hen, hidle, hvictim, hdm, Bool.not_true, Option.isSome_none, Bool.or_self, Bool.false_eq_true, if_false, if_true,
    Chan.tryVictims_places hd hslot]

theorem evictionComplete_gives {v : Evict} {x : MEntry} (hevict : (c.tile t.val).evict = some v) (hentry : c.entry t.val v.e = some x)
    (hdm : c.dmSecond (c.evictLines v) = true) : Gives (.evictionComplete k t errs) s k
      ((c.merged s.dev errs v).evicted s.dev t.val v x) := by
  have hexec : exec (.evictionComplete k t errs) s = execEvictionComplete k t s errs := rfl
  rw [Gives, hexec, execEvictionComplete, onCh, ← hc]
  simp only [hevict, hentry, hdm, Bool.true_eq_false, if_false, Chan.merged, Chan.evicted]

theorem spillRetryTimeout_gives {tok : Token} {w : Word} {n : Nat} {r : List Deferred}
    (hdefer : (c.tile t.val).defer = { tok := tok, word := w, stuckAt := some n } :: r) : Gives (.spillRetryTimeout k t errs) s k
      (if c.xclk < n + 1024 then c
       else (c.setTile t.val { c.tile t.val with defer := { tok := tok, word := w } :: r }).demandEvict c.xclk t.val errs) := by
  have hexec : exec (.spillRetryTimeout k t errs) s = execSpillRetryTimeout k t s errs := rfl
  rw [Gives, hexec, execSpillRetryTimeout, onCh, ← hc]
  simp only [hdefer]

theorem cutInLookup_gives {u : Nat} {tok : Token} {w : Word} {r : List CutTok} {d : Chan} {o : Option (Nat × Nat)}
    (hhead : c.ms.cutq = ⟨u, tok, w⟩ :: r) (hdm : c.dmSecond (c.probeLines (tagCtx tok.tag) (tagIp tok.tag)) = true)
    (hlookup : Chan.lookup c.xclk errs tok (List.range c.nProbe) (c.dmTake s.dev.time) = (d, o)) :
    Gives (.cutInLookup k errs) s k (c.lookedUp d u tok w errs o) := by
  have hexec : exec (.cutInLookup k errs) s = execCutInLookup k errs s := rfl
  rw [Gives, hexec, execCutInLookup, onCh, ← hc]
  simp only [hhead, hdm, hlookup, Bool.not_true, Bool.false_eq_true, if_false]
  cases o <;> rfl

theorem cutInLookup_waits {x : CutTok} {r : List CutTok} (hhead : c.ms.cutq = x :: r)
    (hdm : c.dmSecond (c.probeLines (tagCtx x.tok.tag) (tagIp x.tok.tag)) = false) : Gives (.cutInLookup k errs) s k c := by
  have hexec : exec (.cutInLookup k errs) s = execCutInLookup k errs s := rfl
  rw [Gives, hexec, execCutInLookup, onCh, ← hc]
  simp only [hhead, hdm, Bool.not_false, if_true]

theorem stallMonitorFire_gives : Gives (.stallMonitorFire k) s k
    (if c.flag F.pgStallEn && decide (c.stallLimit ≤ c.ms.stall) then c.stallFired else c) := by
  have hexec : exec (.stallMonitorFire k) s = execStallMonitorFire k s := rfl
  rw [Gives, hexec, execStallMonitorFire, onCh, ← hc]
  rfl

end

/-! ## What the commands lead to -/

section

variable {s : State} {k : Ch} {c : Chan} (hc : c = s.chan k.val)

include hc

theorem evictionComplete_leads {t : Tile} {errs : LineErrs} {v : Evict} {x : MEntry} (hevict : (c.tile t.val).evict = some v)
    (hentry : c.entry t.val v.e = some x) (hdm : c.dmSecond (c.evictLines v) = true) :
    Leads (.evictionComplete k t errs) s k (fun b => (b.tile t.val).evict = none ∧ b.entry t.val v.e = none
      ∧ (∀ m ∈ (b.tile t.val).miss, waitsEvict x m = false)
      ∧ (errs = [] → v.bucket < c.nBuckets → v.slot < 8 →
        (b.tile t.val).spilled = (c.tile t.val).spilled + 1 ∧ b.cu = c.cu
        ∧ b.readRec (c.recAddr v.bucket v.slot) = some (c.spillRec s.dev t.val v.e x)
        ∧ (c.ms.cutq.length + (c.waiting t.val x).length ≤ 32 →
          b.ms.cutq = c.ms.cutq ++ (c.waiting t.val x).map (fun m => ⟨t.val, m.tok, m.word⟩)))) := by
  obtain ⟨hover, hfree, hnone⟩ := (c.merged s.dev errs v).evicted_ends s.dev t.val v x
  refine ⟨_, evictionComplete_gives hc hevict hentry hdm, hover, hfree, hnone, ?_⟩
  rintro rfl hbucket hslot
  have hsame := c.onlyDm_merged s.dev v
  refine ⟨?_, ?_, ?_, fun hroom => ?_⟩
  · rw [Chan.evicted_spilled, hsame.tile]
  · rw [Chan.evicted_cu, hsame.cu]
  · rw [← hsame.recAddr, ← hsame.spillRec]
    exact Chan.evicted_readRec _ _ _ _ _ (by rwa [hsame.nBuckets]) hslot
  · rw [← hsame.ms, ← hsame.waiting] at hroom ⊢
    exact Chan.evicted_cutq _ _ _ _ _ hroom

/-- An operand that does not complete its key stays in its record. -/
theorem cutInLookup_fills {errs : LineErrs} {u b i : Nat} {tok : Token} {w : Word} {r : List CutTok} {d : Chan} {q : SRec}
    (hhead : c.ms.cutq = ⟨u, tok, w⟩ :: r) (hdm : c.dmSecond (c.probeLines (tagCtx tok.tag) (tagIp tok.tag)) = true)
    (hlookup : Chan.lookup c.xclk errs tok (List.range c.nProbe) (c.dmTake s.dev.time) = (d, some (b, i)))
    (hrec : d.readRec (d.recAddr b i) = some q) (hpart : (q.fill tok).got ≠ (q.fill tok).need) :
    Leads (.cutInLookup k errs) s k (fun e => e.readRec (d.recAddr b i) = some (q.fill tok)
      ∧ e.ms = { d.ms with cutq := d.ms.cutq.drop 1 }) := by
  have hgives := cutInLookup_gives hc hhead hdm hlookup
  simp only [Chan.lookedUp, hrec, if_neg hpart] at hgives
  refine ⟨_, hgives, ?_, ?_⟩
  · rw [Chan.readRec_of_mem (Chan.cutTaken_mem _), Chan.readRec_writeRec]
  · rw [Chan.cutTaken_ms, Chan.writeRec_ms]

theorem stallMonitorFire_fires (hen : c.flag F.pgStallEn = true) (hlimit : c.stallLimit ≤ c.ms.stall) :
    Leads (.stallMonitorFire k) s k (fun b =>
      b.flag F.pgStallFired = true ∧ b.ms.stall = 0 ∧ b.ev.sent = c.ev.sent ++ [{ src := 15, tile := evSender 15 }]) := by
  have hgives := stallMonitorFire_gives hc
  rw [hen, decide_eq_true hlimit, Bool.and_self, if_pos rfl] at hgives
  exact ⟨_, hgives, c.stallFired_flag, c.stallFired_stall, c.stallFired_sent⟩

end

/-- Settles O32: an eviction from its start to its end, a lookup by what it finds, the retry and the stall monitor at their limits, and a
record that reads back by `Chan.readRec_writeRec`. -/
theorem cutInAndSpill : Obligations.CutInAndSpill := by
  refine ⟨fun s k t c hc => ⟨?_, fun errs v x hevict hentry hdm => evictionComplete_leads hc hevict hentry hdm, ?_, ?_,
    fun errs x r hhead hdm => cutInLookup_waits hc hhead hdm, fun hen hlimit => stallMonitorFire_fires hc hen hlimit, ?_⟩,
    Chan.readRec_writeRec⟩
  · intro errs v b i d hlow hen hidle hvictim hdm hd hslot
    have hentries := d.sameEntries_startEvict t.val v.1 v.2 (b, i)
    refine ⟨_, backgroundEviction_starts hc hlow hen hidle hvictim hdm hd hslot, Chan.startEvict_tile _ _ _ _ _ _, hentries.entries, ?_⟩
    rintro rfl
    have hclean := c.dmTouch.sameEntries_cleanProbe c.xclk v.2.ctx.toNat v.2.ip.toNat
    rw [← hd] at hclean
    exact (hclean.andThen hentries).entries
  · intro errs tok w n r hdefer
    have hgives := spillRetryTimeout_gives (errs := errs) hc hdefer
    refine ⟨fun hdue => ?_, fun hearly => ?_⟩
    · rwa [if_neg (Nat.not_lt.2 hdue)] at hgives
    · rwa [if_pos hearly] at hgives
  · intro errs u tok w r d hhead hdm
    refine ⟨fun b i q hlookup hrec hpart => cutInLookup_fills hc hhead hdm hlookup hrec hpart,
      fun b i q e hlookup hrec hfull hreload => ?_, fun e hlookup hplaced => ?_⟩
    · have hgives := cutInLookup_gives hc hhead hdm hlookup
      simpa only [Chan.lookedUp, hrec, if_pos hfull, hreload, Option.getD_some] using hgives
    · have hgives := cutInLookup_gives hc hhead hdm hlookup
      rwa [Chan.lookedUp, hplaced, Option.getD_some] at hgives
  · intro hbelow
    have hgives := stallMonitorFire_gives hc
    have hwaits : decide (c.stallLimit ≤ c.ms.stall) = false := decide_eq_false (Nat.not_le.2 hbelow)
    rwa [hwaits, Bool.and_false, if_neg Bool.false_ne_true] at hgives

end Sys2Proof.Machine
end

section
/-! Queue operations at the unit (R329 to R338): what each leaves of the pointers and words of its queue. -/

namespace Sys2Proof.Machine

/-! ## Operations that change one part of a channel -/

/-- An offer to the network leaves what has been delivered. -/
theorem Chan.inject_eq (c : Chan) (tile : Nat) (p : NPkt) :
    ∃ x : Net, c.inject tile p = { c with net := x } ∧ x.arrive = c.net.arrive := by
  simp only [Chan.inject, Chan.offerPkt]
  split <;> exact ⟨_, rfl, rfl⟩

/-- An answer enters the network, and changes nothing else of the channel. -/
theorem Chan.reply_eq (c : Chan) (tile : Nat) (r : Reply) (o0 o1 : Opd) (acc : Acc) :
    ∃ x : Net, c.reply tile r o0 o1 acc = { c with net := x } ∧ x.arrive = c.net.arrive := by
  cases r with
  | regs n gen id => exact c.inject_eq _ _
  | tags t0 t1 =>
    cases t0 with
    | none =>
      cases t1 with
      | none => exact ⟨c.net, rfl, rfl⟩
      | some b => exact c.inject_eq _ _
    | some a =>
      obtain ⟨x, hx, hx'⟩ := c.inject_eq tile { localPkt ⟨o0.sb, o0.val, a⟩ acc with cls := true }
      cases t1 with
      | none => exact ⟨x, hx, hx'⟩
      | some b =>
        obtain ⟨y, hy, hy'⟩ := Chan.inject_eq { c with net := x } tile { localPkt ⟨o1.sb, o1.val, b⟩ .none with cls := true }
        refine ⟨y, ?_, hy'.trans hx'⟩
        simp only [Chan.reply, Option.isSome_some, if_true]
        rw [hx, hy]

@[simp] theorem Chan.reply_qptr (c : Chan) (tile : Nat) (r : Reply) (o0 o1 : Opd) (acc : Acc) (q : Nat) :
    (c.reply tile r o0 o1 acc).qptr q = c.qptr q := by
  obtain ⟨x, hx, -⟩ := c.reply_eq tile r o0 o1 acc
  rw [hx]
  rfl

@[simp] theorem Chan.qMark_qptr (c : Chan) (q m : Nat) : (c.qMark q).qptr m = c.qptr m := by
  rw [Chan.qptr, Chan.qMark_ptrs, Chan.qptr]

/-! ## The pointers of a queue -/

section

variable (c : Chan) (q : Nat)

/-- The counts of an XCLK are no pointers. -/
theorem Chan.qNow_ptrs : (c.qNow q).held = (c.qptr q).held ∧ (c.qNow q).unread = (c.qptr q).unread ∧ (c.qNow q).rel = (c.qptr q).rel
    ∧ (c.qNow q).wr = (c.qptr q).wr ∧ (c.qNow q).marks = (c.qptr q).marks := by
  rw [Chan.qNow, QPtr.in_]
  split <;> exact ⟨rfl, rfl, rfl, rfl, rfl⟩

theorem Chan.qPush_qptr (w : BitVec 144) : (c.qPush q w).qptr q = { c.qNow q with
    wr := ((c.qNow q).wr + c.qUnit q) % (max 1 (c.qCap q)), held := (c.qNow q).held + c.qUnit q,
    unread := (c.qNow q).unread + c.qUnit q, pushed := (c.qNow q).pushed + c.qUnit q } := by
  simp only [Chan.qPush, Chan.qMark_qptr, Chan.setQptr_qptr_same]

/-- The first word of a pushed item stands at WR; its copy, where there is one, holds the same. -/
theorem Chan.qPush_qWord (w : BitVec 144) : (c.qPush q w).qWord (c.qBase q + (c.qptr q).wr) = w := by
  obtain ⟨-, -, -, hwr, -⟩ := c.qNow_ptrs q
  have hmark : ∀ (d : Chan) (a : Nat), (d.qMark q).qWord a = d.qWord a := fun d a => by
    rw [Chan.qMark]
    split <;> rfl
  have hptr : ∀ (d : Chan) (x : QPtr) (a : Nat), (d.setQptr q x).qWord a = d.qWord a := fun _ _ _ => rfl
  simp only [Chan.qPush, hmark, hptr, hwr]
  split
  · simp only [Chan.qWord, Chan.setQWord, tblGet_put]
    split
    · rfl
    · simp only [if_true]
  · simp only [Chan.qWord, Chan.setQWord, tblGet_put_same]

theorem Chan.qPush_eq (w : BitVec 144) : ∃ u : Queues, c.qPush q w = { c with qu := u } ∧ u.waiters = c.qu.waiters := by
  simp only [Chan.qPush, Chan.qMark]
  split <;> split <;> exact ⟨_, rfl, rfl⟩

theorem Chan.qAdvance_qptr : (c.qAdvance q).qptr q = { c.qNow q with
    unread := (c.qNow q).unread - c.qUnit q, reads := (c.qNow q).reads + 1 } := Chan.setQptr_qptr_same _ _ _

theorem Chan.qRelease_qptr (n : Nat) : (c.qRelease q n).qptr q = { c.qNow q with
    rel := ((c.qNow q).rel + min (n * c.qUnit q) (c.qNow q).held) % max 1 (c.qCap q),
    held := (c.qNow q).held - min (n * c.qUnit q) (c.qNow q).held,
    unread := min (c.qNow q).unread ((c.qNow q).held - min (n * c.qUnit q) (c.qNow q).held),
    marks := (c.qNow q).marks.map (fun x => x - min (n * c.qUnit q) (c.qNow q).held),
    freed := (c.qNow q).freed + min (n * c.qUnit q) (c.qNow q).held } := by
  simp only [Chan.qRelease, Chan.qMark_qptr, Chan.setQptr_qptr_same]

end

/-! ## The queue instructions (R332 to R335) -/

section

variable {c : Chan} {t q : Nat} {r : Req}

/-- A waiter finds nothing where none waits. -/
theorem Chan.serveWaiter_none {pf : Parity} (h : c.popWaiter q = none) : c.serveWaiter t q pf = c := by
  rw [Chan.serveWaiter, h]

theorem Chan.unitPush_pushes (hroom : c.qRoom q = true) (hwait : c.popWaiter q = none) :
    (c.unitPush t q r parityGood).qu = (c.qPush q (softWord r.d0)).qu
    ∧ (c.unitPush t q r parityGood).net.arrive = c.net.arrive := by
  obtain ⟨u, hpush, hwaiters⟩ := c.qPush_eq q (softWord r.d0)
  obtain ⟨x, hreply, hnet⟩ := Chan.reply_eq { c with qu := u } t r.reply (statusOpd 0 (({ c with qu := u } : Chan).qptr q).held)
    (statusOpd 0 (({ c with qu := u } : Chan).qptr q).held) .none
  have hnone : ({ c with qu := u, net := x } : Chan).popWaiter q = none := by
    rw [Chan.popWaiter] at hwait ⊢
    exact hwaiters ▸ hwait
  simp only [Chan.unitPush, hroom, if_true, hpush]
  rw [hreply, Chan.serveWaiter_none hnone]
  exact ⟨rfl, hnet⟩

theorem Chan.unitPush_full (hroom : c.qRoom q = false) (pf : Parity) : c.unitPush t q r pf =
    c.reply t r.reply (statusOpd 1 (c.qptr q).held) (statusOpd 1 (c.qptr q).held) := by
  simp only [Chan.unitPush, hroom, Bool.false_eq_true, if_false]

/-- QPOP takes the word at RD, of which no half is lost: RD moves on by an item, and the word leaves, with the space of the item where
RETAIN is 0. -/
theorem Chan.popWord_good (c : Chan) (t q : Nat) (r : Req) : ∃ g : Tbl Word, c.StageSame { c with regs := g } ∧
    ∀ (d : Chan) (o : Opd), d = ({ c with regs := g } : Chan).qAdvance q → o = (softOpd (c.qItem q (c.qRead q))).orPoison false →
      c.popWord t q r parityGood = if d.qRetain q then d.reply t r.reply o o
        else if r.reply.hasDest then d.reply t r.reply o o (.qword q) else d.qRelease q 1 := by
  obtain ⟨g, hg, hrd⟩ := c.qParity_good q
  refine ⟨g, ⟨hrd, rfl, rfl, fun _ => rfl, fun _ => rfl⟩, ?_⟩
  rintro d o rfl rfl
  simp only [Chan.popWord, hg, Bool.false_eq_true, if_false]

theorem Chan.popWord_keeps (hretain : c.qRetain q = true) : ∃ d : Chan, d.net = c.net
    ∧ d.qptr q = { c.qNow q with unread := (c.qptr q).unread - c.qUnit q, reads := (c.qNow q).reads + 1 }
    ∧ c.popWord t q r parityGood = d.reply t r.reply ((softOpd (c.qItem q (c.qRead q))).orPoison false)
        ((softOpd (c.qItem q (c.qRead q))).orPoison false) := by
  obtain ⟨g, hsame, hpop⟩ := c.popWord_good t q r
  have hkept : (({ c with regs := g } : Chan).qAdvance q).qRetain q = true := (hsame.flag _).trans hretain
  refine ⟨({ c with regs := g } : Chan).qAdvance q, rfl, ?_, by rw [hpop _ _ rfl rfl, if_pos hkept]⟩
  obtain ⟨-, hunread, -⟩ := c.qNow_ptrs q
  rw [Chan.qAdvance_qptr, hsame.qUnit, ← hunread]
  rfl

theorem Chan.popWord_frees (hretain : c.qRetain q = false) (hdest : r.reply.hasDest = false) :
    ((c.popWord t q r parityGood).qptr q).held = (c.qptr q).held - min (c.qUnit q) (c.qptr q).held := by
  obtain ⟨g, hsame, hpop⟩ := c.popWord_good t q r
  have hkept : (({ c with regs := g } : Chan).qAdvance q).qRetain q = false := (hsame.flag _).trans hretain
  have hunit : (({ c with regs := g } : Chan).qAdvance q).qUnit q = c.qUnit q := hsame.qUnit q
  have hheld : (({ c with regs := g } : Chan).qptr q).held = (c.qptr q).held := rfl
  rw [hpop _ _ rfl rfl, hkept, hdest, if_neg Bool.false_ne_true, if_neg Bool.false_ne_true, Chan.qRelease_qptr, hunit]
  simp only [Chan.qNow_held, Chan.qAdvance_qptr, Nat.one_mul, hheld]

end

/-- What enters the network changes it in a way that depends on the network only. -/
theorem Chan.inject_net {c d : Chan} (h : d.net = c.net) (tile : Nat) (p : NPkt) : (d.inject tile p).net = (c.inject tile p).net := by
  have hbuf : ∀ k, d.buf k = c.buf k := fun k => by rw [Chan.buf, h, Chan.buf]
  have hoffer : ∀ k u, d.offer k u = c.offer k u := fun k u => by rw [Chan.offer, h, Chan.offer]
  have hfits : ∀ k u, ((d.offer k u).isEmpty && d.offerTurn k u && d.bufRoom k (p.nflit + 1))
      = ((c.offer k u).isEmpty && c.offerTurn k u && c.bufRoom k (p.nflit + 1)) := fun k u => by
    rw [Chan.offerTurn, hoffer, hoffer, h, Chan.bufRoom, hbuf]
    rfl
  rw [Chan.inject, Chan.offerPkt, hfits, Chan.inject, Chan.offerPkt]
  generalize ((c.offer _ _).isEmpty && c.offerTurn _ _ && c.bufRoom _ (p.nflit + 1)) = fits
  cases fits with
  | false => simp only [Bool.false_eq_true, if_false, Chan.setOffer, Chan.offer, h]
  | true => simp only [if_true, Chan.enterBuf, Chan.setBuf, Chan.buf, h]

section

variable {c : Chan} {t q : Nat} {r : Req}

/-- QMARK, QREWIND and QRELEASE leave in a queue with RETAIN 1 the pointers that the answer finds. -/
theorem Chan.unitMark_mark (hretain : c.qRetain q = true) (hkind : r.kind = .qmark q) : (c.unitMark t q r).qptr q =
    { c.qptr q with marks := [(c.qptr q).held - (c.qptr q).unread - (c.qNow q).reads * c.qUnit q] } := by
  simp only [Chan.unitMark, hretain, hkind, Bool.not_true, Bool.false_eq_true, if_false, Chan.reply_qptr, Chan.setQptr_qptr_same]

theorem Chan.unitMark_rewind (hretain : c.qRetain q = true) (hkind : r.kind = .qrewind q) : (c.unitMark t q r).qptr q =
    { c.qNow q with unread := (c.qptr q).held - (c.qptr q).marks.headD 0, reads := (c.qNow q).reads + 1 } := by
  simp only [Chan.unitMark, hretain, hkind, Bool.not_true, Bool.false_eq_true, if_false, Chan.reply_qptr, Chan.setQptr_qptr_same]

theorem Chan.unitMark_release (hretain : c.qRetain q = true) (hkind : r.kind = .qrelease q) : (c.unitMark t q r).qptr q =
    { (c.qRelease q (c.qRead q)).qptr q with marks := [] } := by
  simp only [Chan.unitMark, hretain, hkind, Bool.not_true, Bool.false_eq_true, if_false, Chan.reply_qptr, Chan.setQptr_qptr_same]

theorem Chan.unitMark_mode (hretain : c.qRetain q = false) : c.unitMark t q r =
    c.reply t r.reply (statusOpd 3 (c.qptr q).held) (statusOpd 3 (c.qptr q).held) := by
  simp only [Chan.unitMark, hretain, Bool.not_false, if_true]

/-- Where what is read and held is a whole number of items, all of it is released. -/
theorem Chan.qRelease_read (hwhole : ((c.qptr q).held - (c.qptr q).unread) % c.qUnit q = 0) (hle : (c.qptr q).unread ≤ (c.qptr q).held) :
    ((c.qRelease q (c.qRead q)).qptr q).held = (c.qptr q).unread
    ∧ ((c.qRelease q (c.qRead q)).qptr q).unread = (c.qptr q).unread := by
  obtain ⟨hheld, hunread, -⟩ := c.qNow_ptrs q
  have hread : c.qRead q * c.qUnit q = (c.qptr q).held - (c.qptr q).unread := Nat.div_mul_cancel (Nat.dvd_of_mod_eq_zero hwhole)
  rw [Chan.qRelease_qptr, hread, hheld, hunread]
  simp only []
  omega

end

/-! ## The commands -/

section

variable {s : State} {k : Ch} {c : Chan} (hc : c = s.chan k.val)

include hc

section

variable {t : Tile} {p : NPkt} {r : Req} {q : Nat} (harr : c.arrived t.val 1 = some p) (hpay : p.pay = .req r)
  (hqueue : r.kind.queue = some q) (hdom : c.domUp 4 = true)

include harr hpay hqueue hdom

theorem queueUnitOperation_waits (hturn : c.qTurnOver q r = true) (pf : Parity) : Gives (.queueUnitOperation k t pf) s k c := by
  have hexec : exec (.queueUnitOperation k t pf) s = execQueueUnitOperation k t pf s := rfl
  obtain ⟨⟩ := p
  obtain rfl : _ = Pay.req r := hpay
  rw [Gives, hexec, execQueueUnitOperation, onCh, ← hc]
  simp only [harr, hqueue, hdom, hturn, Bool.not_true, Bool.false_or, if_true]

theorem queueUnitOperation_gives (hturn : c.qTurnOver q r = false) (pf : Parity) : Gives (.queueUnitOperation k t pf) s k
    (((c.takeArrived t.val 1).unitOp c.xclk t.val q r pf).getD ((c.takeArrived t.val 1).backToCb r)) := by
  have hexec : exec (.queueUnitOperation k t pf) s = execQueueUnitOperation k t pf s := rfl
  obtain ⟨⟩ := p
  obtain rfl : _ = Pay.req r := hpay
  rw [Gives, hexec, execQueueUnitOperation, onCh, ← hc]
  simp only [harr, hqueue, hdom, hturn, Bool.not_true, Bool.false_or, Bool.false_eq_true, if_false]
  rfl

end

/-! ## Waiters, rebuilt queues and regenerated words (R333, R337, R338) -/

theorem popWaiterRemoval_gives {i : Nat} {w : PopWait} (hwait : c.qu.waiters[i]? = some w) : Gives (.popWaiterRemoval k i) s k
    (if c.whoLive w.req.who then c
     else ({ c with qu := { c.qu with waiters := dropNth c.qu.waiters i } } : Chan).dropDead w.req.who) := by
  have hexec : exec (.popWaiterRemoval k i) s = execPopWaiterRemoval k i s := rfl
  rw [Gives, hexec, execPopWaiterRemoval, onCh, ← hc]
  simp only [hwait]

/-- A bank with one MATCHED entry, of a LIVE context: its packet enters the queue of its level. -/
theorem readyQueueRebuild_gives {t : Tile} {e : Nat} {x : MEntry} {p : FPacket} (hrebuild : (c.tile t.val).rebuild = true)
    (hscanned : (c.tile t.val).scanned = false) (he : e < 1536)
    (hentries : c.ms.entries.filter (fun v => v.1 / 1536 == t.val) = [(1536 * t.val + e, x)]) (hmatched : c.rebuilt t.val e x = true)
    (hlive : c.live x.ctx.toNat = true) (hp : p = packetOf (c.instr x.ip.toNat) x e) :
    Gives (.readyQueueRebuild k t) s k ((c.qPush (8 * t.val + p.prio.toNat) (packetWord p)).setTile t.val
      { c.tile t.val with scanned := true }) := by
  have hexec : exec (.readyQueueRebuild k t) s = execReadyQueueRebuild k t s := rfl
  have hno : (1536 * t.val + e) % 1536 = e := by omega
  have htile : (c.qPush (8 * t.val + p.prio.toNat) (packetWord p)).tile t.val = c.tile t.val := by
    rw [Chan.tile, Chan.qPush_ms, Chan.tile]
  rw [Gives, hexec, execReadyQueueRebuild, onCh, ← hc]
  simp only [hrebuild, hscanned, hentries, List.map_cons, List.map_nil, List.foldl_cons, List.foldl_nil, hno, hmatched, hlive, ← hp,
    htile, Bool.not_true, Bool.or_self, Bool.false_eq_true, if_false]

theorem rebuildComplete_gives {t : Tile} (hrebuild : (c.tile t.val).rebuild = true) (hscanned : (c.tile t.val).scanned = true) :
    Gives (.rebuildComplete k t) s k (c.setTile t.val { c.tile t.val with rebuild := false, scanned := false }) := by
  have hexec : exec (.rebuildComplete k t) s = execRebuildComplete k t s := rfl
  rw [Gives, hexec, execRebuildComplete, onCh, ← hc]
  simp only [hrebuild, hscanned, Bool.and_self, if_true]

theorem ringTokenRegeneration_gives {r : RingId} {x : RTok} {more : List RTok} {d : Chan} {l : Line}
    (hbad : (c.ring r.val).badHead = true) (htoks : (c.ring r.val).toks = x :: more) (hon : c.ringsOn = true)
    (hopen : c.xlateOpen (c.sqBase r.val + 64 * x.slot.toNat) 64 = true)
    (hread : c.engineRead (c.sqBase r.val + 64 * x.slot.toNat) 64 = (d, true)) :
    Gives (.ringTokenRegeneration k r (.ok l)) s k
      (((d.setQWord (d.qAddr (512 + r.val) (d.qRead (512 + r.val))) (tokWord (d.argToken r.val x.ctx.toNat l x.arg) 0)).setRing r.val
        { d.ring r.val with badHead := false }).inc F.chQstatRegen) := by
  have hexec : exec (.ringTokenRegeneration k r (.ok l)) s = execRingTokenRegeneration k r (.ok l) s := rfl
  rw [Gives, hexec, execRingTokenRegeneration, onCh, ← hc]
  simp only [hbad, htoks, hon, hopen, hread, Bool.not_true, Bool.or_self, Bool.false_eq_true, if_false]

end
end Sys2Proof.Machine
end

section
/-! A walk of the host translation table that finds its entries leaves the queues and the registers that units act on (R397, R532). -/

namespace Sys2Proof.Machine

/-! ## Lines of the memory -/

/-- The queues, and the register words that units act on for the rest of an XCLK. -/
def Chan.queueSide (c : Chan) : Queues × Tbl (Nat × Word) := (c.qu, c.late)

theorem Chan.sameSide {c d : Chan} (hqu : d.qu = c.qu) (hlate : d.late = c.late) : d.queueSide = c.queueSide := by
  rw [Chan.queueSide, hqu, hlate, Chan.queueSide]

@[simp] theorem Chan.inc_queueSide (c : Chan) (f : Fd) : (c.inc f).queueSide = c.queueSide := Chan.sameSide rfl rfl

@[simp] theorem Chan.checkUse_queueSide (c : Chan) (a : Nat) (wr : Bool) : (c.checkUse a wr).queueSide = c.queueSide := by
  refine foldl_leaves Chan.queueSide (fun (c : Chan) e => c.storeCheck e) (fun c e => ?_) _ c
  rw [Chan.storeCheck]
  split
  · exact Chan.sameSide rfl rfl
  · rfl

@[simp] theorem Chan.ctxOver_queueSide (c : Chan) (id : Nat) : (c.ctxOver id).queueSide = c.queueSide := by
  have hbuf : ∀ (b : Chan) l, (b.bufLine l).queueSide = b.queueSide := fun b l => by
    simp only [Chan.bufLine]
    split
    · rfl
    · exact Chan.sameSide rfl rfl
  have hwords : ∀ (ws : List Word) (b : Chan) (a : Nat), (b.wrWords a ws).queueSide = b.queueSide := fun ws => by
    induction ws with
    | nil => exact fun _ _ => rfl
    | cons w r ih => exact fun b a => ih _ _
  rw [Chan.ctxOver, Chan.dmWrote,
    foldl_leaves Chan.queueSide _ (fun b l => (Chan.checkUse_queueSide _ _ _).trans (hbuf b l)), hwords]

@[simp] theorem Chan.lineBad_queueSide (c : Chan) (line : Nat) : (c.lineBad line).queueSide = c.queueSide := by
  have hpoison : ∀ l : Nat, ((List.range 8).foldl (fun c i => c.setPoison (l + 8 * i) true) c).queueSide = c.queueSide := fun l =>
    foldl_leaves Chan.queueSide (fun c i => c.setPoison (l + 8 * i) true) (fun b _ => Chan.sameSide rfl rfl) _ c
  have hrow : ∀ (b : Chan) (r : RowId), (b.rowCandidate r).queueSide = b.queueSide := fun b r => by
    rw [Chan.rowCandidate]
    split
    · rfl
    · exact Chan.sameSide rfl rfl
  have hraise : ∀ (b : Chan) src n tile tag, (b.raise src n tile tag).queueSide = b.queueSide := fun _ _ _ _ _ => Chan.sameSide rfl rfl
  have hfld : ∀ (b : Chan) f v, (b.setFld f v).queueSide = b.queueSide := fun _ _ _ => Chan.sameSide rfl rfl
  have hinc : ∀ (b : Chan) f, (b.inc f).queueSide = b.queueSide := fun _ _ => Chan.sameSide rfl rfl
  rw [Chan.lineBad, hrow]
  simp only [Chan.dmUncorr]
  rw [hraise, Chan.checkUse_queueSide]
  split
  · rw [Chan.inc_queueSide, hpoison]
  · rw [hfld, hfld, Chan.inc_queueSide, hpoison]

theorem Chan.lineLost_queueSide (c : Chan) (now a : Nat) :
    (c.lineLost now a).queueSide = c.queueSide ∨ (c.lineLost now a).poison = c.poison := by
  simp only [Chan.lineLost]
  split
  · split
    · split
      · exact .inl (c.ctxOver_queueSide _)
      · exact .inl rfl
    · split
      · exact .inr (c.poisonCtx_poison _ _)
      · exact .inl rfl
  · split <;> exact .inl rfl

/-- A line whose word at a can be used then has ended no context. -/
theorem Chan.dmLine_queueSide {c : Chan} {now : Nat} {errs : LineErrs} {a : Nat}
    (hclean : (c.dmLine now errs (a / 64 * 64)).wordPoison a = false) :
    (c.dmLine now errs (a / 64 * 64)).queueSide = c.queueSide := by
  rcases herr : errOf errs (a / 64 * 64) with _ | _ | _
  · rw [c.dmLine_clean now herr, Chan.checkUse_queueSide]
  · rw [c.dmLine_corrected now herr, Chan.inc_queueSide, Chan.checkUse_queueSide]
  · rw [c.dmLine_bad now herr] at hclean ⊢
    rcases (c.lineBad (a / 64 * 64)).lineLost_queueSide now (a / 64 * 64) with hsame | hsame
    · rw [hsame, Chan.lineBad_queueSide]
    · rw [Chan.wordPoison, hsame, ← Chan.wordPoison, Chan.lineBad_wordPoison] at hclean
      exact absurd hclean Bool.true_eq_false_eq_False

/-! ## The walk -/

/-- The registers that a walk of the translation table counts in. -/
def walkRegs : List Nat := 0x1A0 :: countRegs

/-- The queues are the same, and so are the registers but those of walkRegs. -/
structure Chan.SameQueues (c d : Chan) : Prop where
  side : d.queueSide = c.queueSide
  xclk : d.xclk = c.xclk
  rd : ∀ o, o ∉ walkRegs → d.rd o = c.rd o

theorem Chan.SameQueues.andThen {c d e : Chan} (h : c.SameQueues d) (k : d.SameQueues e) : c.SameQueues e :=
  ⟨k.side.trans h.side, k.xclk.trans h.xclk, fun o ho => (k.rd o ho).trans (h.rd o ho)⟩

theorem Chan.sameQueues_hwstat (c : Chan) {f : Fd} (hf : f.off = 0x1A0) : c.SameQueues (c.inc f) :=
  ⟨Chan.sameSide rfl rfl, rfl, fun o ho => by rw [Chan.inc, Chan.addSat, Chan.setFld, Chan.wr_rd,
    if_neg (fun h => ho (by simp [walkRegs, h, hf]))]⟩

theorem Chan.sameQueues_dmTouch (c : Chan) : c.SameQueues c.dmTouch := ⟨Chan.sameSide rfl rfl, rfl, fun _ _ => rfl⟩

theorem Chan.sameQueues_hwCachePut (c : Chan) (i : Nat) (e : Word) : c.SameQueues (c.hwCachePut i e) :=
  ⟨Chan.sameSide rfl rfl, rfl, fun _ _ => rfl⟩

theorem Chan.sameQueues_walked {c : Chan} {i : Nat} {errs : LineErrs}
    (hclean : (c.walked i errs).wordPoison (c.hwEntryAddr i) = false) : c.SameQueues (c.walked i errs) := by
  have hcount : (c.inc F.chHwstatMiss).dmTouch.OnlyCounts (c.walked i errs) := Chan.onlyCounts_dmRead _ _ _ _ _
  have hread : (c.inc F.chHwstatMiss).dmTouch.SameQueues (c.walked i errs) := by
    refine ⟨?_, ?_, fun o ho => hcount.rd o (fun h => ho (List.mem_cons_of_mem _ h))⟩
    all_goals rw [Chan.walked, Chan.dmRead, linesOf_word (c.hwEntryAddr_aligned i), List.foldl_cons, List.foldl_nil] at *
    · exact Chan.dmLine_queueSide hclean
    · exact Chan.dmLine_xclk _ _ _ _
  exact ((c.sameQueues_hwstat rfl).andThen (Chan.sameQueues_dmTouch _)).andThen hread

theorem Chan.hwFetch_sameQueues {c d : Chan} {i : Nat} {errs : LineErrs} {e : Word} (h : c.hwFetch i errs = (d, some e)) :
    c.SameQueues d := by
  rcases hfind : c.hw.cache.find? (fun x => x.1 == i) with _ | x
  · rw [Chan.hwFetch_miss hfind] at h
    split at h
    · split at h
      · exact absurd (congrArg Prod.snd h) nofun
      · next hclean =>
        obtain ⟨rfl, -⟩ := Prod.mk.inj h
        exact (Chan.sameQueues_walked (Bool.eq_false_of_not_eq_true hclean)).andThen (Chan.sameQueues_hwCachePut _ _ _)
    · exact absurd (congrArg Prod.snd h) nofun
  · rw [Chan.hwFetch_hit hfind] at h
    obtain ⟨rfl, -⟩ := Prod.mk.inj h
    exact c.sameQueues_hwCachePut _ _

theorem Chan.hwPageCheck_sameQueues {c d : Chan} {i : Nat} {write : Bool} {errs : LineErrs} {e : Word}
    (h : c.hwPageCheck i write errs = (d, some e)) : c.SameQueues d := by
  rw [Chan.hwPageCheck] at h
  split at h
  · exact absurd (congrArg Prod.snd h) nofun
  · split at h
    · next b g hfetch =>
      obtain ⟨rfl, -⟩ := Prod.mk.inj h
      exact Chan.hwFetch_sameQueues hfetch
    · exact absurd (congrArg Prod.snd h) nofun

theorem Chan.hwXlate_sameQueues {c d : Chan} {a n : Nat} {write : Bool} {errs : LineErrs} {x : Word × Word}
    (h : c.hwXlate a n write errs = (d, some x)) : c.SameQueues d := by
  rw [Chan.hwXlate] at h
  split at h
  · exact absurd (congrArg Prod.snd h) nofun
  · next b e hfirst =>
    split at h
    · obtain ⟨rfl, -⟩ := Prod.mk.inj h
      exact Chan.hwPageCheck_sameQueues hfirst
    · split at h
      · exact absurd (congrArg Prod.snd h) nofun
      · next b' g hlast =>
        obtain ⟨rfl, -⟩ := Prod.mk.inj h
        exact (Chan.hwPageCheck_sameQueues hfirst).andThen (Chan.hwPageCheck_sameQueues hlast)

theorem Chan.engineRead_sameQueues {c d : Chan} {a n : Nat} (h : c.engineRead a n = (d, true)) : c.SameQueues d := by
  rw [Chan.engineRead] at h
  split at h
  · exact absurd (congrArg Prod.snd h) nofun
  · next b e g hxlate =>
    obtain ⟨rfl, -⟩ := Prod.mk.inj h
    refine (Chan.hwXlate_sameQueues hxlate).andThen ?_
    simp only [Chan.hostGet]
    split <;> exact ⟨Chan.sameSide rfl rfl, rfl, fun _ _ => rfl⟩

/-! ## What is read alike -/

section

variable {c d : Chan} (h : c.SameQueues d)

include h

theorem Chan.SameQueues.qptr (q : Nat) : d.qptr q = c.qptr q := by
  have hqu : d.qu = c.qu := congrArg Prod.fst h.side
  rw [Chan.qptr, hqu, Chan.qptr]

theorem Chan.SameQueues.fld {f : Fd} (hf : f.off ∉ walkRegs) : d.fld f = c.fld f := by rw [Chan.fld, h.rd _ hf, Chan.fld]

theorem Chan.SameQueues.devNo : d.devNo = c.devNo := by
  have hlate : d.late = c.late := congrArg Prod.snd h.side
  rw [Chan.devNo, Chan.seenFld, Chan.seen, hlate, h.xclk, h.rd _ (by decide), Chan.devNo, Chan.seenFld, Chan.seen]

/-- The registers of queues lie above those that a walk counts in but one, whose offset is not of that form. -/
theorem Chan.SameQueues.addrOf (q n : Nat) (hq : q < 1024) : d.qAddr q n = c.qAddr q n ∧ d.qRead q = c.qRead q := by
  have hoff : 0x8000 + 32 * q ∉ walkRegs := by simp only [walkRegs, countRegs, List.mem_cons, List.not_mem_nil, or_false]; omega
  have hunit : d.qUnit q = c.qUnit q := by
    rw [Chan.qUnit, Chan.qDup, Chan.flag, h.fld (by exact hoff)]
    rfl
  rw [Chan.qAddr, Chan.qBase, Chan.qCap, h.fld (by exact hoff), h.fld (by exact hoff), h.qptr, Chan.qRead, h.qptr, hunit]
  exact ⟨rfl, rfl⟩

theorem Chan.SameQueues.argToken (r : RingId) (id : Nat) (l : Line) (j : Nat) : d.argToken r.val id l j = c.argToken r.val id l j := by
  have htempo : d.fld (F.rgSctxTempo r.val) = c.fld (F.rgSctxTempo r.val) := h.fld (by
    simp only [F.rgSctxTempo, walkRegs, countRegs, List.mem_cons, List.not_mem_nil, or_false]; omega)
  have hclass : c.fld (F.rgSctxTempo r.val) < 16 := c.fld_lt _
  have hlevel : d.fld (F.adTcfgLevel (c.fld (F.rgSctxTempo r.val))) = c.fld (F.adTcfgLevel (c.fld (F.rgSctxTempo r.val))) := h.fld (by
    simp only [F.adTcfgLevel, walkRegs, countRegs, List.mem_cons, List.not_mem_nil, or_false]; omega)
  simp only [Chan.argToken, htempo, hlevel, h.devNo]

end

end Sys2Proof.Machine
end

section
/-! The operations of the queue unit (R329 to R338). -/

namespace Sys2Proof.Machine

section

variable {s : State} {k : Ch} {t : Tile} {p : NPkt} {r : Req} {q : Nat} {c : Chan} (hc : c = s.chan k.val)
  (harr : c.arrived t.val 1 = some p) (hpay : p.pay = .req r) (hdom : c.domUp 4 = true) (hturn : c.qTurnOver q r = false)

include hc harr hpay hdom hturn

theorem queueUnitOperation_refuses (hqueue : r.kind.queue = some q) (hno : q < 960 ∨ c.qEn q = false) :
    Gives (.queueUnitOperation k t parityGood) s k ((c.takeArrived t.val 1).causeFor c.xclk r 0x27 (BitVec.ofNat 32 q)) := by
  have hcannot : (!(decide (960 ≤ q) && (c.takeArrived t.val 1).qEn q)) = true := by
    rcases hno with hlow | hoff
    · rw [decide_eq_false (Nat.not_le.2 hlow)]
      rfl
    · have hoff' : (c.takeArrived t.val 1).qEn q = false := hoff
      rw [hoff', Bool.and_false, Bool.not_false]
  have h := queueUnitOperation_gives hc harr hpay hqueue hdom hturn parityGood
  rwa [Chan.unitOp, if_pos hcannot, Option.getD_some] at h

section

variable (hq : 960 ≤ q) (hen : c.qEn q = true)

include hq hen

theorem queueUnitOperation_push (hkind : r.kind = .qpush q) :
    Gives (.queueUnitOperation k t parityGood) s k ((c.takeArrived t.val 1).unitPush t.val q r parityGood) := by
  have hen' : (c.takeArrived t.val 1).qEn q = true := hen
  have h := queueUnitOperation_gives hc harr hpay (q := q) (by rw [hkind]; rfl) hdom hturn parityGood
  simpa only [Chan.unitOp, hq, hen', hkind, decide_true, Bool.and_self, Bool.not_true, Bool.false_eq_true, if_false,
    Option.getD_some] using h

theorem queueUnitOperation_pop (hkind : r.kind = .qpop q) : Gives (.queueUnitOperation k t parityGood) s k
    (((c.takeArrived t.val 1).unitPop t.val q r parityGood).getD ((c.takeArrived t.val 1).backToCb r)) := by
  have hen' : (c.takeArrived t.val 1).qEn q = true := hen
  have h := queueUnitOperation_gives hc harr hpay (q := q) (by rw [hkind]; rfl) hdom hturn parityGood
  simpa only [Chan.unitOp, hq, hen', hkind, decide_true, Bool.and_self, Bool.not_true, Bool.false_eq_true, if_false] using h

theorem queueUnitOperation_marks (hkind : r.kind = .qmark q ∨ r.kind = .qrewind q ∨ r.kind = .qrelease q) :
    Gives (.queueUnitOperation k t parityGood) s k ((c.takeArrived t.val 1).unitMark t.val q r) := by
  have hen' : (c.takeArrived t.val 1).qEn q = true := hen
  rcases hkind with hkind | hkind | hkind
  all_goals
    have h := queueUnitOperation_gives hc harr hpay (q := q) (by rw [hkind]; rfl) hdom hturn parityGood
    simpa only [Chan.unitOp, hq, hen', hkind, decide_true, Bool.and_self, Bool.not_true, Bool.false_eq_true, if_false,
      Option.getD_some] using h

/-! ### QPUSH -/

theorem queueUnitOperation_pushes (hkind : r.kind = .qpush q) (hroom : c.qRoom q = true) (hwait : c.popWaiter q = none) :
    Leads (.queueUnitOperation k t parityGood) s k (fun b =>
      (b.qptr q).held = (c.qptr q).held + c.qUnit q ∧ (b.qptr q).unread = (c.qptr q).unread + c.qUnit q
      ∧ (b.qptr q).rel = (c.qptr q).rel ∧ (b.qptr q).wr = ((c.qptr q).wr + c.qUnit q) % max 1 (c.qCap q)
      ∧ b.qWord (c.qBase q + (c.qptr q).wr) = softWord r.d0 ∧ b.arrived t.val 1 = none) := by
  obtain ⟨hqu, hnet⟩ := Chan.unitPush_pushes (c := c.takeArrived t.val 1) (t := t.val) (r := r) (by exact hroom) (by exact hwait)
  obtain ⟨hheld, hunread, hrel, hwr, -⟩ := c.qNow_ptrs q
  refine ⟨_, queueUnitOperation_push hc harr hpay hdom hturn hq hen hkind, ?_⟩
  have hptr := (c.takeArrived t.val 1).qPush_qptr q (softWord r.d0)
  have hword := (c.takeArrived t.val 1).qPush_qWord q (softWord r.d0)
  rw [Chan.qptr, ← hqu, ← Chan.qptr] at hptr
  rw [Chan.qWord, ← hqu, ← Chan.qWord] at hword
  refine ⟨?_, ?_, ?_, ?_, hword, ?_⟩
  · exact (congrArg QPtr.held hptr).trans (congrArg (· + c.qUnit q) hheld)
  · exact (congrArg QPtr.unread hptr).trans (congrArg (· + c.qUnit q) hunread)
  · exact (congrArg QPtr.rel hptr).trans hrel
  · exact (congrArg QPtr.wr hptr).trans (congrArg (fun n => (n + c.qUnit q) % max 1 (c.qCap q)) hwr)
  · rw [Chan.arrived, hnet]
    exact (c.takeArrived_arrived t.val 1 t.val 1).trans (if_pos rfl)

/-! ### QPOP -/

theorem queueUnitOperation_pops (hkind : r.kind = .qpop q) (hlive : c.whoLive r.who = true) (hgives : c.qGives q = true) :
    Gives (.queueUnitOperation k t parityGood) s k ((c.takeArrived t.val 1).popWord t.val q r parityGood) := by
  have hlive' : (c.takeArrived t.val 1).whoLive r.who = true := hlive
  have hgives' : (c.takeArrived t.val 1).qGives q = true := hgives
  have h := queueUnitOperation_pop hc harr hpay hdom hturn hq hen hkind
  simpa only [Chan.unitPop, hlive', hgives', Bool.not_true, Bool.false_eq_true, if_false, if_true, Option.getD_some] using h

theorem queueUnitOperation_pops_kept (hkind : r.kind = .qpop q) (hlive : c.whoLive r.who = true) (hgives : c.qGives q = true)
    (hretain : c.qRetain q = true) : Leads (.queueUnitOperation k t parityGood) s k (fun b =>
      (b.qptr q) = { c.qNow q with unread := (c.qptr q).unread - c.qUnit q, reads := 1 }
      ∧ ∀ n g id, r.reply = .regs n g id → b.net = ((c.takeArrived t.val 1).inject t.val
        { pay := .result n g id ((softOpd (c.qItem q (c.qRead q))).orPoison false)
            ((softOpd (c.qItem q (c.qRead q))).orPoison false), cls := true, dkind := 5, dtile := 35, nflit := 1 }).net) := by
  obtain ⟨d, hnet, hptr, hpop⟩ :=
    Chan.popWord_keeps (c := c.takeArrived t.val 1) (t := t.val) (r := r) (q := q) hretain
  have hfirst : (c.qNow q).reads = 0 := by
    simp only [Chan.qGives, Bool.and_eq_true, decide_eq_true_eq] at hgives
    exact hgives.2
  refine ⟨_, queueUnitOperation_pops hc harr hpay hdom hturn hq hen hkind hlive hgives, ?_, ?_⟩
  · rw [hpop, Chan.reply_qptr, hptr]
    have hreads : ((c.takeArrived t.val 1).qNow q).reads + 1 = 1 := congrArg (· + 1) hfirst
    rw [hreads]
    rfl
  · intro n g id hreply
    rw [hpop, hreply]
    exact Chan.inject_net hnet _ _

theorem queueUnitOperation_pops_freed (hkind : r.kind = .qpop q) (hlive : c.whoLive r.who = true) (hgives : c.qGives q = true)
    (hretain : c.qRetain q = false) (hdest : r.reply = .tags none none) : Leads (.queueUnitOperation k t parityGood) s k (fun b =>
      (b.qptr q).held = (c.qptr q).held - min (c.qUnit q) (c.qptr q).held) :=
  ⟨_, queueUnitOperation_pops hc harr hpay hdom hturn hq hen hkind hlive hgives,
    Chan.popWord_frees (c := c.takeArrived t.val 1) hretain (by rw [hdest]; rfl)⟩

theorem queueUnitOperation_pop_waits (hkind : r.kind = .qpop q) (hlive : c.whoLive r.who = true) (hgives : c.qGives q = false)
    (hroom : c.qu.waiters.length < 256) : Gives (.queueUnitOperation k t parityGood) s k
      { c.takeArrived t.val 1 with qu := { c.qu with waiters := c.qu.waiters ++ [⟨q, r⟩] } } := by
  have hlive' : (c.takeArrived t.val 1).whoLive r.who = true := hlive
  have hgives' : (c.takeArrived t.val 1).qGives q = false := hgives
  have hroom' : c.qu.waiters.length < popRecords := hroom
  have h := queueUnitOperation_pop hc harr hpay hdom hturn hq hen hkind
  simpa only [Chan.unitPop, hlive', hgives', hroom', Bool.not_true, Bool.false_eq_true, if_false, if_true, Option.getD_some,
    Chan.takeArrived_qu] using h

/-! ### QRELEASE -/

theorem queueUnitOperation_releases (hkind : r.kind = .qrelease q) (hretain : c.qRetain q = true) :
    Leads (.queueUnitOperation k t parityGood) s k (fun b =>
      (b.qptr q).marks = [] ∧ (b.qptr q).wr = (c.qptr q).wr
      ∧ (((c.qptr q).held - (c.qptr q).unread) % c.qUnit q = 0 → (c.qptr q).unread ≤ (c.qptr q).held →
        (b.qptr q).held = (c.qptr q).unread ∧ (b.qptr q).unread = (c.qptr q).unread)) := by
  refine ⟨_, queueUnitOperation_marks hc harr hpay hdom hturn hq hen (.inr (.inr hkind)), ?_⟩
  have hptr := Chan.unitMark_release (c := c.takeArrived t.val 1) (t := t.val) hretain hkind
  have hwr : (((c.takeArrived t.val 1).qRelease q ((c.takeArrived t.val 1).qRead q)).qptr q).wr = (c.qptr q).wr := by
    rw [Chan.qRelease_qptr]
    obtain ⟨-, -, -, hwr, -⟩ := c.qNow_ptrs q
    exact hwr
  refine ⟨congrArg QPtr.marks hptr, (congrArg QPtr.wr hptr).trans hwr, fun hwhole hle => ?_⟩
  obtain ⟨hheld, hunread⟩ := Chan.qRelease_read (c := c.takeArrived t.val 1) hwhole hle
  exact ⟨(congrArg QPtr.held hptr).trans hheld, (congrArg QPtr.unread hptr).trans hunread⟩

end

end

/-- The failed word is written again in place, and the ring's queue stands as before. -/
theorem ringTokenRegeneration_leads {s : State} {k : Ch} {c : Chan} (hc : c = s.chan k.val) {r : RingId} {x : RTok} {more : List RTok}
    {d : Chan} {l : Line} (hbad : (c.ring r.val).badHead = true) (htoks : (c.ring r.val).toks = x :: more) (hon : c.ringsOn = true)
    (hopen : c.xlateOpen (c.sqBase r.val + 64 * x.slot.toNat) 64 = true)
    (hread : c.engineRead (c.sqBase r.val + 64 * x.slot.toNat) 64 = (d, true)) :
    Leads (.ringTokenRegeneration k r (.ok l)) s k (fun b => (b.ring r.val).badHead = false ∧ (b.ring r.val).toks = x :: more
      ∧ b.qWord (c.qAddr (512 + r.val) (c.qRead (512 + r.val))) = tokWord (c.argToken r.val x.ctx.toNat l x.arg) 0
      ∧ b.qptr (512 + r.val) = c.qptr (512 + r.val)) := by
  have hsame := Chan.engineRead_sameQueues hread
  obtain ⟨-, hrings, -⟩ := Chan.engine_eq.1 (Chan.engineRead_walks hread).engine
  have hring : d.ring r.val = c.ring r.val := by rw [Chan.ring, hrings, Chan.ring]
  obtain ⟨haddr, hpos⟩ := hsame.addrOf (512 + r.val) (d.qRead (512 + r.val)) (by omega)
  refine ⟨_, ringTokenRegeneration_gives hc hbad htoks hon hopen hread, ?_, ?_, ?_, ?_⟩
  · rw [Chan.inc_ring, Chan.setRing_ring_same]
  · rw [Chan.inc_ring, Chan.setRing_ring_same]
    exact (congrArg Ring.toks hring).trans htoks
  · rw [haddr, hpos, hsame.argToken]
    exact tblGet_put_same _ _ _ _
  · exact hsame.qptr _

end Sys2Proof.Machine
end

section
/-! O33. The queue unit. -/

namespace Sys2Proof.Machine

/-- Settles O33: for each operation the lemma that says what the unit gives, and what that leaves of the queue's pointers. -/
theorem queueUnit : Obligations.QueueUnit := by
  unfold Obligations.QueueUnit
  refine ⟨?_, ?_⟩
  · rintro s k t p r q c x hc harr hpay hqueue hdom rfl
    refine ⟨fun hturn => queueUnitOperation_waits hc harr hpay hqueue hdom hturn _,
      fun hturn hno => queueUnitOperation_refuses hc harr hpay hdom hturn hqueue hno, fun hturn hq hen => ?_⟩
    refine ⟨fun hkind hroom hwait => queueUnitOperation_pushes hc harr hpay hdom hturn hq hen hkind hroom hwait,
      fun hkind hroom => ?_,
      fun hkind hlive hgives hretain => queueUnitOperation_pops_kept hc harr hpay hdom hturn hq hen hkind hlive hgives hretain,
      fun hkind hlive hgives hretain hdest =>
        queueUnitOperation_pops_freed hc harr hpay hdom hturn hq hen hkind hlive hgives hretain hdest,
      fun hkind hlive hgives hroom => queueUnitOperation_pop_waits hc harr hpay hdom hturn hq hen hkind hlive hgives hroom,
      fun hkind hretain => ⟨_, queueUnitOperation_marks hc harr hpay hdom hturn hq hen (.inl hkind),
        Chan.unitMark_mark (c := c.takeArrived t.val 1) hretain hkind⟩,
      fun hkind hretain => ⟨_, queueUnitOperation_marks hc harr hpay hdom hturn hq hen (.inr (.inl hkind)),
        Chan.unitMark_rewind (c := c.takeArrived t.val 1) hretain hkind⟩,
      fun hkind hretain => queueUnitOperation_releases hc harr hpay hdom hturn hq hen hkind hretain,
      fun hkind hretain => ?_⟩
    · have h := queueUnitOperation_push hc harr hpay hdom hturn hq hen hkind
      rwa [Chan.unitPush_full (c := c.takeArrived t.val 1) hroom] at h
    · have h := queueUnitOperation_marks hc harr hpay hdom hturn hq hen hkind
      rwa [Chan.unitMark_mode (c := c.takeArrived t.val 1) hretain] at h
  · intro s k c hc
    refine ⟨fun i w id v hwait hwho => ⟨fun hdead => ?_, fun hlive => ?_⟩, ?_, ?_, ?_⟩
    · have h := popWaiterRemoval_gives hc hwait
      rw [hdead, if_neg Bool.false_ne_true, hwho] at h
      exact h
    · have h := popWaiterRemoval_gives hc hwait
      rwa [hlive, if_pos rfl] at h
    · exact fun t e x p hrebuild hscanned he hentries hmatched hlive hp =>
        readyQueueRebuild_gives hc hrebuild hscanned he hentries hmatched hlive hp
    · exact fun t hrebuild hscanned => rebuildComplete_gives hc hrebuild hscanned
    · exact fun r x more d l hbad htoks hon hopen hread => ringTokenRegeneration_leads hc hbad htoks hon hopen hread

end Sys2Proof.Machine
end

section
/-! Hops of packets (R424 to R428): what a packet that is sent leaves in the buffers of two routers and on the link between them. -/

namespace Sys2Proof.Machine

/-! ## Buffers -/

section

variable (c : Chan)

theorem Chan.setBuf_buf (k m : Nat) (l : List NPkt) : (c.setBuf k l).buf m = if m = k then l else c.buf m := tblGet_put _ _ _ _ _

@[simp] theorem Chan.setBuf_buf_same (k : Nat) (l : List NPkt) : (c.setBuf k l).buf k = l := tblGet_put_same _ _ _ _

theorem Chan.setBuf_buf_ne {k m : Nat} (h : m ≠ k) (l : List NPkt) : (c.setBuf k l).buf m = c.buf m := by
  rw [Chan.setBuf_buf, if_neg h]

@[simp] theorem Chan.setFails_linkFails_same (l n : Nat) : (c.setFails l n).linkFails l = n := tblGet_put_same _ _ _ _

@[simp] theorem Chan.setFails_buf (l n k : Nat) : (c.setFails l n).buf k = c.buf k := rfl

@[simp] theorem Chan.setBuf_linkFails (k l : Nat) (b : List NPkt) : (c.setBuf k b).linkFails l = c.linkFails l := rfl

@[simp] theorem Chan.setBuf_fld (k : Nat) (b : List NPkt) (f : Fd) : (c.setBuf k b).fld f = c.fld f := rfl

@[simp] theorem Chan.setFails_fld (l n : Nat) (f : Fd) : (c.setFails l n).fld f = c.fld f := rfl

@[simp] theorem Chan.raise_buf (src k : Nat) : (c.raise src).buf k = c.buf k := rfl

@[simp] theorem Chan.raise_linkFails (src l : Nat) : (c.raise src).linkFails l = c.linkFails l := rfl

@[simp] theorem Chan.putArrived_arrived (p : NPkt) : (c.putArrived p).arrived p.dtile p.dkind = some p := by
  rw [Chan.arrived]
  exact (tblFind_ins _ _ _ _).trans (if_pos rfl)

variable {c}

theorem Chan.buf_of_net {c d : Chan} (h : d.net = c.net) {k : Nat} : d.buf k = c.buf k := by rw [Chan.buf, h, Chan.buf]

theorem Chan.offer_of_net {c d : Chan} (h : d.net = c.net) {k : Nat} {u : Bool} : d.offer k u = c.offer k u := by
  rw [Chan.offer, h, Chan.offer]

/-- Where nothing is on offer, nothing follows. -/
theorem Chan.refill_of_empty {k : Nat} (hunit : c.offer k true = []) (htile : c.offer k false = []) (n : Nat) : c.refill k n = c := by
  cases n with
  | zero => rfl
  | succ n => simp only [Chan.refill, hunit, htile, List.isEmpty_nil, Bool.not_true, Bool.false_and]

theorem Chan.popBuf_of_empty {k : Nat} (hunit : c.offer k true = []) (htile : c.offer k false = []) :
    c.popBuf k = c.setBuf k ((c.buf k).drop 1) := by
  rw [Chan.popBuf]
  exact Chan.refill_of_empty (c := c.setBuf k ((c.buf k).drop 1)) hunit htile 4

/-- A packet enters a gate's buffer at once where it has room and nothing waits. -/
theorem Chan.offerPkt_enters {k : Nat} {p : NPkt} (hunit : c.offer k true = []) (htile : c.offer k false = [])
    (hroom : c.bufRoom k (p.nflit + 1) = true) : c.offerPkt k true p = c.enterBuf k true p := by
  simp only [Chan.offerPkt, Chan.offerTurn, hunit, htile, hroom, List.isEmpty_nil, Bool.not_true, Bool.true_or, Bool.and_self, if_true]

@[simp] theorem Chan.enterBuf_buf (k : Nat) (u : Bool) (p : NPkt) : (c.enterBuf k u p).buf k = c.buf k ++ [p] :=
  Chan.setBuf_buf_same _ _ _

end

/-! ## A hop leads to another router (R420, R425) -/

theorem hopOut_le (r d : Nat) : hopOut r d ≤ 4 := by
  simp only [hopOut]
  repeat' split
  all_goals decide

theorem hopTile_ne {r : Nat} (_hr : r < 64) (o : Nat) : hopTile r o ≠ r := by
  simp only [hopTile]
  split <;> omega

theorem hopIn_le (o : Nat) : hopIn o ≤ 4 := by
  rcases o with _ | _ | _ | _ | o <;> simp [hopIn]

theorem b2n_le (b : Bool) : b2n b ≤ 1 := by cases b <;> decide

/-- Buffers of two routers are not the same. -/
theorem bufKey_ne {r r' inp inp' vc vc' : Nat} (h : r ≠ r') (hinp : inp < 6) (hinp' : inp' < 6) (hvc : vc < 4) (hvc' : vc' < 4) :
    bufKey r inp vc ≠ bufKey r' inp' vc' := by
  simp only [bufKey]
  omega

theorem hopBuf_ne (rx : Rx) (p : NPkt) : hopBuf rx.r.val rx.inp.val p ≠ bufKey rx.r.val rx.inp.val rx.vc.val := by
  have hin := hopIn_le (outOf rx.r.val p)
  have hcls := b2n_le p.cls
  have hdl := b2n_le (hopDl rx.r.val rx.inp.val (outOf rx.r.val p) p.dl)
  exact bufKey_ne (hopTile_ne rx.r.isLt _) (by omega) rx.inp.isLt (by omega) rx.vc.isLt

/-! ## A packet that is sent (R424, R425, R428) -/

/-- The channel once router rx.r serves the input that a packet stands in. -/
def Chan.turned (c : Chan) (rx : Rx) (p : NPkt) : Chan :=
  { c with net := { c.net with rr := tblPut c.net.rr (linkKey rx.r.val (outOf rx.r.val p)) (rx.inp.val * 4 + rx.vc.val) 23 } }

@[simp] theorem Chan.turned_buf (c : Chan) (rx : Rx) (p : NPkt) (k : Nat) : (c.turned rx p).buf k = c.buf k := rfl

@[simp] theorem Chan.turned_fld (c : Chan) (rx : Rx) (p : NPkt) (f : Fd) : (c.turned rx p).fld f = c.fld f := rfl

@[simp] theorem Chan.turned_linkFails (c : Chan) (rx : Rx) (p : NPkt) (l : Nat) : (c.turned rx p).linkFails l = c.linkFails l := rfl

section

variable {c : Chan} {rx : Rx} {p : NPkt} {r : List NPkt} (hbuf : c.buf (bufKey rx.r.val rx.inp.val rx.vc.val) = p :: r)
  (hunit : c.offer (bufKey rx.r.val rx.inp.val rx.vc.val) true = [])
  (htile : c.offer (bufKey rx.r.val rx.inp.val rx.vc.val) false = [])

include hbuf

theorem Chan.sendHead_fails (ho : outOf rx.r.val p < 4) (now : Nat) :
    (c.sendHead now rx p false).buf (bufKey rx.r.val rx.inp.val rx.vc.val) = { p with failed := true } :: r
    ∧ (c.sendHead now rx p false).linkFails (linkKey rx.r.val (outOf rx.r.val p)) = c.linkFails (linkKey rx.r.val (outOf rx.r.val p)) + 1
    ∧ (c.linkFails (linkKey rx.r.val (outOf rx.r.val p)) = 15 →
      (c.sendHead now rx p false).ev.sent = c.ev.sent ++ [{ src := 23, tile := evSender 23 }]) := by
  have hsend : c.sendHead now rx p false =
      if c.linkFails (linkKey rx.r.val (outOf rx.r.val p)) + 1 = 16 then
        (((c.turned rx p).setBuf (bufKey rx.r.val rx.inp.val rx.vc.val) ({ p with failed := true } :: r)).setFails
          (linkKey rx.r.val (outOf rx.r.val p)) (c.linkFails (linkKey rx.r.val (outOf rx.r.val p)) + 1)).raise 23
      else ((c.turned rx p).setBuf (bufKey rx.r.val rx.inp.val rx.vc.val) ({ p with failed := true } :: r)).setFails
          (linkKey rx.r.val (outOf rx.r.val p)) (c.linkFails (linkKey rx.r.val (outOf rx.r.val p)) + 1) := by
    rw [Chan.sendHead]
    simp only [if_neg (Nat.not_le.2 ho), Bool.false_eq_true, if_false]
    rw [← Chan.turned, Chan.turned_buf, Chan.turned_linkFails, hbuf, List.drop_one, List.tail_cons]
  rw [hsend]
  refine ⟨?_, ?_, fun h => by rw [if_pos (congrArg (· + 1) h)]; rfl⟩
  · split <;> simp
  · split <;> simp

include hunit htile

/-- The packet has left its buffer. -/
theorem Chan.turned_popBuf : (c.turned rx p).popBuf (bufKey rx.r.val rx.inp.val rx.vc.val) =
    (c.turned rx p).setBuf (bufKey rx.r.val rx.inp.val rx.vc.val) r := by
  rw [Chan.popBuf_of_empty (c := c.turned rx p) hunit htile, Chan.turned_buf, hbuf, List.drop_one, List.tail_cons]

theorem Chan.sendHead_hops (ho : outOf rx.r.val p < 4) (now : Nat) :
    (c.sendHead now rx p true).buf (bufKey rx.r.val rx.inp.val rx.vc.val) = r
    ∧ (c.sendHead now rx p true).linkFails (linkKey rx.r.val (outOf rx.r.val p)) = 0
    ∧ (c.sendHead now rx p true).buf (hopBuf rx.r.val rx.inp.val p) = c.buf (hopBuf rx.r.val rx.inp.val p)
        ++ [{ p with dl := hopDl rx.r.val rx.inp.val (outOf rx.r.val p) p.dl, failed := false }]
    ∧ ∀ f, (c.sendHead now rx p true).fld f = c.fld f := by
  have hne := hopBuf_ne rx p
  have hsend : c.sendHead now rx p true =
      (((c.turned rx p).setBuf (bufKey rx.r.val rx.inp.val rx.vc.val) r).setFails (linkKey rx.r.val (outOf rx.r.val p)) 0).setBuf
        (hopBuf rx.r.val rx.inp.val p) (c.buf (hopBuf rx.r.val rx.inp.val p)
          ++ [{ p with dl := hopDl rx.r.val rx.inp.val (outOf rx.r.val p) p.dl, failed := false }]) := by
    have hkept : (((c.turned rx p).setBuf (bufKey rx.r.val rx.inp.val rx.vc.val) r).setFails (linkKey rx.r.val (outOf rx.r.val p)) 0).buf
        (hopBuf rx.r.val rx.inp.val p) = c.buf (hopBuf rx.r.val rx.inp.val p) := by
      rw [Chan.setFails_buf, Chan.setBuf_buf_ne _ hne, Chan.turned_buf]
    rw [Chan.sendHead]
    simp only [if_neg (Nat.not_le.2 ho), if_true]
    rw [← Chan.turned, Chan.turned_popBuf hbuf hunit htile, hkept]
  rw [hsend]
  refine ⟨?_, ?_, Chan.setBuf_buf_same _ _ _, fun f => ?_⟩
  · rw [Chan.setBuf_buf_ne _ hne.symm, Chan.setFails_buf, Chan.setBuf_buf_same]
  · rw [Chan.setBuf_linkFails, Chan.setFails_linkFails_same]
  · rw [Chan.setBuf_fld, Chan.setFails_fld, Chan.setBuf_fld, Chan.turned_fld]

/-- At its tile a packet leaves the network for its receiver. -/
theorem Chan.sendHead_delivers (ho : 4 ≤ outOf rx.r.val p) (now : Nat) (ok : Bool) : c.sendHead now rx p ok =
    ((c.turned rx p).setBuf (bufKey rx.r.val rx.inp.val rx.vc.val) r).deliver now p := by
  rw [Chan.sendHead]
  simp only [if_pos ho]
  rw [← Chan.turned, Chan.turned_popBuf hbuf hunit htile]

end

/-! ## Deliveries (R423) -/

section

variable {c : Chan} {p : NPkt}

theorem Chan.deliver_event {m : EvMsg} (hkind : p.dkind = 5) (hpay : p.pay = .event m) (now : Nat) :
    c.deliver now p = { c with ev := { c.ev with msgs := c.ev.msgs ++ [m] } } := by
  rw [Chan.deliver, hkind, hpay]
  rfl

theorem Chan.deliver_unit (hkind : p.dkind = 1 ∨ p.dkind = 4 ∨ (p.dkind = 5 ∧ p.dtile ≠ 28)) (hpay : ∀ m, p.pay ≠ .event m) (now : Nat) :
    c.deliver now p = c.putArrived p := by
  have hdram : toDram p.dtile p.dkind = false := by
    rcases hkind with h | h | ⟨h, htile⟩
    · rw [toDram, h]; rfl
    · rw [toDram, h]; rfl
    · rw [toDram, tileDram, beq_eq_false_iff_ne.2 htile, Bool.and_false]
  rw [Chan.deliver]
  split
  case h_5 m hm => exact absurd hm (hpay m)
  case h_6 => rw [hdram, if_neg Bool.false_ne_true]
  all_goals omega

theorem Chan.deliver_token {tok : Token} (hkind : p.dkind = 0) (hacc : p.acc = .none) (hpay : p.pay = .tok tok) (now : Nat) :
    c.deliver now p = c.putArrived { p with word := c.instr (tagIp tok.tag) } := by
  obtain ⟨⟩ := p
  obtain rfl : _ = Acc.none := hacc
  obtain rfl : _ = 0 := hkind
  obtain rfl : _ = Pay.tok tok := hpay
  rfl

end

end Sys2Proof.Machine
end

section
/-! The packets of the network (R424 to R428), and the head of a receive queue (R337, R431). -/

namespace Sys2Proof.Machine

/-! ## The commands of a router -/

/-- A packet that is served at its tile may be delivered there. -/
theorem Chan.mayDeliver_of_served {c : Chan} {rx : Rx} {p : NPkt} (ho : 4 ≤ outOf rx.r.val p) (hserved : c.served? rx p = true) :
    c.mayDeliver p.dtile p.dkind = true := by
  rw [Chan.served?, Bool.and_eq_true, Chan.canSend, if_pos ho, Bool.and_eq_true] at hserved
  exact hserved.1.1

/-- A resend is counted in the registers. -/
theorem Chan.maybeInc_leaves (c : Chan) (f : Fd) (b : Bool) : (if b then c.inc f else c).net = c.net ∧ (if b then c.inc f else c).ev = c.ev
    ∧ (if b then c.inc f else c).prog = c.prog ∧ (b = true → (if b then c.inc f else c).fld f = (c.inc f).fld f) := by
  cases b with
  | false => exact ⟨rfl, rfl, rfl, nofun⟩
  | true => exact ⟨rfl, rfl, rfl, fun _ => rfl⟩

section

variable {s : State} {k : Ch} {rx : Rx} {p : NPkt} {r : List NPkt} {c : Chan} (hc : c = s.chan k.val) (hdom : c.domUp 5 = true)
  (hbuf : c.buf (bufKey rx.r.val rx.inp.val rx.vc.val) = p :: r)

include hc hdom hbuf

theorem flitReceive_gives (hfirst : p.failed = false) (ok : Bool) : Gives (.flitReceive k rx ok) s k
    (if decide (4 ≤ outOf rx.r.val p) && !c.mayDeliver p.dtile p.dkind then c.holdAt p.dtile p.dkind
     else if c.served? rx p then c.sendHead s.dev.time rx p ok else c) := by
  have hexec : exec (.flitReceive k rx ok) s = execFlitReceive k rx ok s := rfl
  rw [Gives, hexec, execFlitReceive, onCh, ← hc]
  simp only [hbuf, hfirst, hdom, Bool.not_true, Bool.or_self, Bool.false_eq_true, if_false]

theorem flitResend_gives (hagain : p.failed = true) (ok : Bool) : Gives (.flitResend k rx ok) s k
    (if c.served? rx p then (c.inc F.ntStatLinkretry).sendHead s.dev.time rx p ok else c) := by
  have hexec : exec (.flitResend k rx ok) s = execFlitResend k rx ok s := rfl
  rw [Gives, hexec, execFlitResend, onCh, ← hc]
  cases hserved : c.served? rx p <;>
    simp only [hbuf, hagain, hdom, hserved, Bool.not_true, Bool.not_false, Bool.or_self, Bool.or_true, Bool.false_eq_true, if_false,
      if_true]

/-- A first send and a resend, which is counted: what each gives where the packet is served, and where it is not. -/
theorem send_gives {cmd : (Bool → Instr) × Bool} (hcmd : cmd ∈ [(Instr.flitReceive k rx, false), (Instr.flitResend k rx, true)])
    (hfailed : p.failed = cmd.2) (ok : Bool) :
    (c.served? rx p = true → Gives (cmd.1 ok) s k ((if cmd.2 then c.inc F.ntStatLinkretry else c).sendHead s.dev.time rx p ok))
    ∧ (c.served? rx p = false → (cmd.2 = true ∨ outOf rx.r.val p < 4 ∨ c.mayDeliver p.dtile p.dkind = true) → Gives (cmd.1 ok) s k c) := by
  rw [List.mem_cons, List.mem_singleton] at hcmd
  rcases hcmd with rfl | rfl
  · have h := flitReceive_gives hc hdom hbuf hfailed ok
    refine ⟨fun hserved => ?_, fun hserved hfree => ?_⟩
    · have hfree : (decide (4 ≤ outOf rx.r.val p) && !c.mayDeliver p.dtile p.dkind) = false := by
        rcases Nat.lt_or_ge (outOf rx.r.val p) 4 with ho | ho
        · rw [decide_eq_false (Nat.not_le.2 ho), Bool.false_and]
        · rw [Chan.mayDeliver_of_served ho hserved, Bool.not_true, Bool.and_false]
      rwa [hfree, hserved, if_neg Bool.false_ne_true, if_pos rfl] at h
    · have hfree' : (decide (4 ≤ outOf rx.r.val p) && !c.mayDeliver p.dtile p.dkind) = false := by
        rcases hfree with hno | ho | hmay
        · exact absurd hno Bool.false_ne_true
        · rw [decide_eq_false (Nat.not_le.2 ho), Bool.false_and]
        · rw [hmay, Bool.not_true, Bool.and_false]
      rwa [hfree', hserved, if_neg Bool.false_ne_true, if_neg Bool.false_ne_true] at h
  · have h := flitResend_gives hc hdom hbuf hfailed ok
    refine ⟨fun hserved => ?_, fun hserved _ => ?_⟩
    · rwa [hserved, if_pos rfl] at h
    · rwa [hserved, if_neg Bool.false_ne_true] at h

theorem flitReceive_holds (hfirst : p.failed = false) (ho : 4 ≤ outOf rx.r.val p) (hmay : c.mayDeliver p.dtile p.dkind = false) (ok : Bool) :
    Gives (.flitReceive k rx ok) s k (c.holdAt p.dtile p.dkind) := by
  have h := flitReceive_gives hc hdom hbuf hfirst ok
  rwa [decide_eq_true ho, hmay, Bool.not_false, Bool.and_self, if_pos rfl] at h

/-! ### A packet that is served -/

section

variable {cmd : (Bool → Instr) × Bool} (hcmd : cmd ∈ [(Instr.flitReceive k rx, false), (Instr.flitResend k rx, true)])
  (hfailed : p.failed = cmd.2) (hserved : c.served? rx p = true)

include hcmd hfailed hserved

theorem send_fails (ho : outOf rx.r.val p < 4) : Leads (cmd.1 false) s k (fun b =>
    b.buf (bufKey rx.r.val rx.inp.val rx.vc.val) = { p with failed := true } :: r
    ∧ b.linkFails (linkKey rx.r.val (outOf rx.r.val p)) = c.linkFails (linkKey rx.r.val (outOf rx.r.val p)) + 1
    ∧ (c.linkFails (linkKey rx.r.val (outOf rx.r.val p)) = 15 → b.ev.sent = c.ev.sent ++ [{ src := 23, tile := evSender 23 }])) := by
  have h := (send_gives hc hdom hbuf hcmd hfailed false).1 hserved
  obtain ⟨hnet, hev, -⟩ := c.maybeInc_leaves F.ntStatLinkretry cmd.2
  generalize (if cmd.2 then c.inc F.ntStatLinkretry else c) = d at h hnet hev
  have hlink : d.linkFails = c.linkFails := by funext l; rw [Chan.linkFails, hnet, Chan.linkFails]
  rw [← Chan.buf_of_net hnet] at hbuf
  rw [← hlink, ← hev]
  exact ⟨_, h, d.sendHead_fails hbuf ho _⟩

section

variable (hunit : c.offer (bufKey rx.r.val rx.inp.val rx.vc.val) true = [])
  (htile : c.offer (bufKey rx.r.val rx.inp.val rx.vc.val) false = [])

include hunit htile

theorem send_hops (ho : outOf rx.r.val p < 4) : Leads (cmd.1 true) s k (fun b => b.buf (bufKey rx.r.val rx.inp.val rx.vc.val) = r
    ∧ b.linkFails (linkKey rx.r.val (outOf rx.r.val p)) = 0
    ∧ b.buf (hopBuf rx.r.val rx.inp.val p) = c.buf (hopBuf rx.r.val rx.inp.val p)
        ++ [{ p with dl := hopDl rx.r.val rx.inp.val (outOf rx.r.val p) p.dl, failed := false }]
    ∧ (cmd.2 = true → b.fld F.ntStatLinkretry = min (2 ^ F.ntStatLinkretry.len - 1) (c.fld F.ntStatLinkretry + 1))) := by
  have h := (send_gives hc hdom hbuf hcmd hfailed true).1 hserved
  obtain ⟨hnet, -, -, hcount⟩ := c.maybeInc_leaves F.ntStatLinkretry cmd.2
  generalize (if cmd.2 then c.inc F.ntStatLinkretry else c) = d at h hnet hcount
  rw [← Chan.offer_of_net hnet] at hunit htile
  rw [← Chan.buf_of_net hnet] at hbuf
  obtain ⟨hleft, hfails, hnext, hfld⟩ := d.sendHead_hops hbuf hunit htile ho s.dev.time
  rw [Chan.buf_of_net hnet] at hnext
  exact ⟨_, h, hleft, hfails, hnext, fun hagain => ((hfld _).trans (hcount hagain)).trans (c.fld_inc _ (by decide))⟩

/-- At its tile the packet leaves its buffer and is handed over; e is the channel in which its receiver takes it. -/
theorem send_delivers (ho : 4 ≤ outOf rx.r.val p) (ok : Bool) : ∃ e : Chan, e.buf (bufKey rx.r.val rx.inp.val rx.vc.val) = r ∧ e.ev = c.ev
    ∧ e.prog = c.prog ∧ Gives (cmd.1 ok) s k (e.deliver s.dev.time p) := by
  have h := (send_gives hc hdom hbuf hcmd hfailed ok).1 hserved
  obtain ⟨hnet, hev, hprog, -⟩ := c.maybeInc_leaves F.ntStatLinkretry cmd.2
  generalize (if cmd.2 then c.inc F.ntStatLinkretry else c) = d at h hnet hev hprog
  rw [← Chan.offer_of_net hnet] at hunit htile
  rw [← Chan.buf_of_net hnet] at hbuf
  rw [d.sendHead_delivers hbuf hunit htile ho] at h
  exact ⟨(d.turned rx p).setBuf _ r, Chan.setBuf_buf_same _ _ _, hev, hprog, h⟩

theorem send_event (ho : 4 ≤ outOf rx.r.val p) (hkind : p.dkind = 5) {m : EvMsg} (hpay : p.pay = .event m) (ok : Bool) :
    Leads (cmd.1 ok) s k (fun b => b.buf (bufKey rx.r.val rx.inp.val rx.vc.val) = r ∧ b.ev.msgs = c.ev.msgs ++ [m]
      ∧ b.ev.sent = c.ev.sent) := by
  obtain ⟨e, hleft, hev, -, h⟩ := send_delivers hc hdom hbuf hcmd hfailed hserved hunit htile ho ok
  rw [Chan.deliver_event hkind hpay, hev] at h
  exact ⟨_, h, hleft, rfl, rfl⟩

theorem send_unit (ho : 4 ≤ outOf rx.r.val p) (hkind : p.dkind = 1 ∨ p.dkind = 4 ∨ (p.dkind = 5 ∧ p.dtile ≠ 28))
    (hpay : ∀ m, p.pay ≠ .event m) (ok : Bool) :
    Leads (cmd.1 ok) s k (fun b => b.buf (bufKey rx.r.val rx.inp.val rx.vc.val) = r ∧ b.arrived p.dtile p.dkind = some p) := by
  obtain ⟨e, hleft, -, -, h⟩ := send_delivers hc hdom hbuf hcmd hfailed hserved hunit htile ho ok
  rw [Chan.deliver_unit hkind hpay] at h
  exact ⟨_, h, hleft, e.putArrived_arrived p⟩

theorem send_token (ho : 4 ≤ outOf rx.r.val p) (hkind : p.dkind = 0) (hacc : p.acc = .none) {tok : Token} (hpay : p.pay = .tok tok)
    (ok : Bool) : Leads (cmd.1 ok) s k (fun b => b.buf (bufKey rx.r.val rx.inp.val rx.vc.val) = r
      ∧ b.arrived p.dtile 0 = some { p with word := c.instr (tagIp tok.tag) }) := by
  obtain ⟨e, hleft, -, hprog, h⟩ := send_delivers hc hdom hbuf hcmd hfailed hserved hunit htile ho ok
  have hinstr : e.instr (tagIp tok.tag) = c.instr (tagIp tok.tag) := by rw [Chan.instr, hprog, Chan.instr]
  rw [Chan.deliver_token hkind hacc hpay, hinstr] at h
  exact ⟨_, h, hleft, hkind ▸ e.putArrived_arrived { p with word := c.instr (tagIp tok.tag) }⟩

end

end

end

/-! ## The head of a receive queue -/

section

variable {c d : Chan}

/-- A route reads registers, the time and the ports. -/
theorem Chan.route_congr (hrd : ∀ o, d.rd o = c.rd o) (hlate : d.late = c.late) (hxclk : d.xclk = c.xclk) (hports : d.ports = c.ports)
    (dev e ap : Nat) : d.routeDim dev = c.routeDim dev ∧ d.route dev e ap = c.route dev e ap := by
  have hseen : ∀ f, d.seenFld f = c.seenFld f := fun f => by rw [Chan.seenFld, Chan.seen, hlate, hxclk, hrd]; rfl
  have hflag : ∀ f, d.flag f = c.flag f := fun f => by rw [Chan.flag, Chan.fld, hrd]; rfl
  have hport : d.port = c.port := by funext p; rw [Chan.port, hports, Chan.port]
  have hdev : d.devNo = c.devNo := hseen _
  have hdim : d.routeDim dev = c.routeDim dev := by
    simp only [Chan.routeDim]
    rw [hdev]
  have hentry : d.rtEntry = c.rtEntry := by
    funext e n
    rw [Chan.rtEntry, hrd, Chan.rtEntry]
  have hepoch : d.routeEpoch e = c.routeEpoch e := by
    rw [Chan.routeEpoch, Chan.epochValid, Chan.curEpoch, hflag, hflag, hseen]
    rfl
  refine ⟨hdim, ?_⟩
  rw [Chan.route, hdim, hentry, hepoch, hport, Chan.route]

/-- The end of an epoch's count raises an event, and nothing else that is read here changes. -/
theorem Chan.epochCheck_eq (c : Chan) : ∃ (f : Bool) (l : List EvMsg) (n : List Note), c.epochCheck =
    { c with net := { c.net with flip := f }, ev := { c.ev with sent := c.ev.sent ++ l }, notes := n } := by
  rw [Chan.epochCheck]
  split
  · exact ⟨false, _, _, rfl⟩
  · exact ⟨c.net.flip, [], c.notes, by rw [List.append_nil]⟩

theorem isRxQueue_rxQueue (p : PortId) (j : Vc) : isRxQueue (rxQueue p.val j.val) = true := by
  have hp := p.isLt
  have hj := j.isLt
  have hq : rxQueue p.val j.val = 896 + 8 * p.val + j.val := rfl
  rw [isRxQueue, decide_eq_true (by omega), decide_eq_true (by omega), decide_eq_true (by omega)]
  rfl

/-! ### A token accepted from a receive queue -/

theorem Chan.qRelease_eq (c : Chan) (q n : Nat) : ∃ u : Queues, c.qRelease q n = { c with qu := u } := by
  simp only [Chan.qRelease, Chan.qMark]
  split <;> exact ⟨_, rfl⟩

/-- The acceptance of a word of a receive queue moves no packet; the events that it raises follow those that stand. -/
theorem Chan.accept_rx {q : Nat} (hq : isRxQueue q = true) (c : Chan) :
    (c.accept (.qword q)).net.bufs = c.net.bufs ∧ ∃ l, (c.accept (.qword q)).ev.sent = c.ev.sent ++ l := by
  obtain ⟨u, hrelease⟩ := c.qRelease_eq q 1
  simp only [Chan.accept, hq, if_true, hrelease, Chan.portRelease]
  obtain ⟨f, l, n, hcheck⟩ := Chan.epochCheck_eq (({ c with qu := u } : Chan).setPort ((q - 896) / 8)
    (Port.settle { ({ c with qu := u } : Chan).port ((q - 896) / 8) with
      giveBack := tblPut (({ c with qu := u } : Chan).port ((q - 896) / 8)).giveBack (q % 8)
        (tblGet (({ c with qu := u } : Chan).port ((q - 896) / 8)).giveBack (q % 8) 0 + 1) 0,
      rxFrames := takeLeft (q % 8) (({ c with qu := u } : Chan).port ((q - 896) / 8)).rxFrames }))
  rw [hcheck]
  exact ⟨rfl, l, rfl⟩

/-- A token with a reserved KIND or TYPE is counted, kept and raised. -/
theorem Chan.stray_leaves (c : Chan) (f : Fd) (tok : Token) :
    (c.stray f tok).net = c.net ∧ ∃ m ∈ (c.stray f tok).ev.sent, m.src = 8 := by
  have hraise : ∀ d : Chan, ∃ m ∈ (d.raise 8).ev.sent, m.src = 8 := fun d =>
    ⟨_, List.mem_append_right _ (List.mem_singleton_self _), rfl⟩
  simp only [Chan.stray]
  split
  · exact ⟨rfl, hraise _⟩
  · exact ⟨rfl, hraise _⟩

/-! ### A token that goes on -/

theorem Chan.countEpoch_eq (c : Chan) (dev e : Nat) : ∃ g : Tbl Word, c.countEpoch dev e = { c with regs := g } := by
  simp only [Chan.countEpoch]
  split
  · exact ⟨c.regs, rfl⟩
  · split
    · exact ⟨c.regs, rfl⟩
    · exact ⟨_, rfl⟩

/-- A packet of one flit that finds room at the G port of a gate enters its buffer. -/
theorem Chan.injectGate_enters {p : Nat} {x : NPkt} (hnet : d.net = c.net) (hroom : c.gateRoom p = true)
    (htile : c.offer (bufKey (gateTile p) 5 0) false = []) (hx : x.nflit = 0) :
    (d.injectGate p x).buf (bufKey (gateTile p) 5 0) = c.buf (bufKey (gateTile p) 5 0) ++ [x]
    ∧ (d.injectGate p x).qu = d.qu ∧ (d.injectGate p x).ms = d.ms := by
  rw [Chan.gateRoom, Bool.and_eq_true, List.isEmpty_iff, Chan.bufRoom, ← Chan.buf_of_net hnet, ← Chan.bufRoom,
    ← Chan.offer_of_net hnet] at hroom
  obtain ⟨hunit, hfits⟩ := hroom
  rw [← Chan.offer_of_net hnet] at htile
  rw [Chan.injectGate, Chan.offerPkt_enters hunit htile (by rw [hx]; exact hfits), Chan.enterBuf_buf, Chan.buf_of_net hnet]
  exact ⟨rfl, rfl, rfl⟩

theorem localPkt_nflit (t : Token) (acc : Acc) : (localPkt t acc).nflit = 0 := by
  rw [localPkt]
  split
  · rfl
  · split <;> rfl

theorem Chan.StageSame.qAdvance_unread (h : c.StageSame d) (q : Nat) :
    ((d.qAdvance q).qptr q).unread = (c.qptr q).unread - c.qUnit q := by
  obtain ⟨-, hunread, -⟩ := d.qNow_ptrs q
  rw [Chan.qAdvance_qptr, h.qUnit, hunread, h.qptr]

theorem b2n_beq_one (b : Bool) : (b2n b == 1) = b := by cases b <;> rfl

section

variable {p e ap adl : Nat} {t : Token} {acc : Acc} (hroom : c.gateRoom p = true)
  (htile : c.offer (bufKey (gateTile p) 5 0) false = []) (hnet : d.net = c.net)

include hroom htile hnet

/-- A token of this device goes to its unit. -/
theorem Chan.routeOn_home (hdim : d.routeDim (tagDev t.tag) = none) (accept : Chan → Acc → Chan) :
    (d.routeOn p t e ap adl acc accept).buf (bufKey (gateTile p) 5 0) = c.buf (bufKey (gateTile p) 5 0)
      ++ [{ localPkt t acc with epoch := e == 1, fvc := BitVec.ofNat 2 ((if tagKind t.tag = 0 then 0 else 2) + adl) }]
    ∧ (d.routeOn p t e ap adl acc accept).qu = d.qu ∧ (d.routeOn p t e ap adl acc accept).ms = d.ms := by
  have hcount : d.countEpoch (tagDev t.tag) e = d := by simp only [Chan.countEpoch, hdim]
  have hroute : d.route (tagDev t.tag) e ap = .home := by simp only [Chan.route, hdim]
  simp only [Chan.routeOn, hroute, hcount]
  exact Chan.injectGate_enters hnet hroom htile (localPkt_nflit t acc)

/-- A token of another device goes to the port that the tables name. -/
theorem Chan.routeOn_port {o : Nat} (hroute : d.route (tagDev t.tag) e ap = .port o) (accept : Chan → Acc → Chan) :
    (∃ x, (d.routeOn p t e ap adl acc accept).buf (bufKey (gateTile p) 5 0) = c.buf (bufKey (gateTile p) 5 0) ++ [x]
      ∧ x.pay = .tok t ∧ x.dkind = 3 ∧ x.dtile = gateTile o ∧ x.ap = BitVec.ofNat 3 ap)
    ∧ (d.routeOn p t e ap adl acc accept).qu = d.qu := by
  obtain ⟨g, hcount⟩ := d.countEpoch_eq (tagDev t.tag) e
  simp only [Chan.routeOn, hroute, hcount]
  obtain ⟨hbuf, hqu, -⟩ := Chan.injectGate_enters (x := ({ d with regs := g } : Chan).gatePkt t o
    (({ d with regs := g } : Chan).routeEpoch e) ap adl acc) (d := { d with regs := g }) (by exact hnet) hroom htile rfl
  exact ⟨⟨_, hbuf, rfl, rfl, rfl, rfl⟩, hqu⟩

end

/-- A read that finds the first half lost in a queue with DUP 0 is counted, and the queue stands as before. -/
theorem Chan.qParity_lost {q : Nat} (hdup : c.qDup q = false) : ∃ (g : Tbl Word) (l : Bool),
    c.qParity q { parityGood with a0 := true } = ({ c with regs := g }, l, true)
    ∧ ({ c with regs := g } : Chan).qRead q = c.qRead q := by
  have hcfg : ∀ f, f.off = 0x8018 + 32 * q ∨ f.off = 0x160 → ∀ (d : Chan) n, (d.addSat f n).qDup q = d.qDup q := fun f hf d n => by
    rw [Chan.qDup, Chan.flag, Chan.addSat, Chan.setFld, d.fld_wr_ne _ (by simp only [F.quCfgDup]; omega)]
    rfl
  have hdup' : ((c.addSat (F.quStatParerr q) 1).addSat F.chQstatParerr 1).qDup q = c.qDup q := by
    rw [hcfg _ (.inr rfl), hcfg _ (.inl rfl)]
  have hlost : c.qParity q { parityGood with a0 := true } = ((c.addSat (F.quStatParerr q) 1).addSat F.chQstatParerr 1, true, true) := by
    simp [Chan.qParity, parityGood, b2n, hdup', hdup]
  have hcounts : ∀ (d : Chan) (f : Fd) (n : Nat), ∃ g : Tbl Word, d.addSat f n = { d with regs := g } := fun _ _ _ => ⟨_, rfl⟩
  obtain ⟨g, hg⟩ := hcounts c (F.quStatParerr q) 1
  obtain ⟨g', hg'⟩ := hcounts { c with regs := g } F.chQstatParerr 1
  rw [hg, hg'] at hlost hdup'
  exact ⟨g', true, hlost, by rw [Chan.qRead, Chan.qUnit, hdup']; rfl⟩

/-! ### The command -/

section

variable {s : State} {k : Ch} {p : PortId} {j : Vc} {q : Nat} (hc : c = s.chan k.val) (hq : q = rxQueue p.val j.val)
  (hdom : c.domUp 5 = true) (hgives : c.qGives q = true) (hfetch : tblFind (c.port p.val).refetch j.val = none)
  (hroom : c.gateRoom p.val = true)

include hc hq hdom hgives hfetch hroom

/-- A word of which no half is lost: of the registers only the counts of its reading are written. -/
theorem receiveQueueRoute_gives : ∃ g : Tbl Word, c.StageSame { c with regs := g } ∧ Gives (.receiveQueueRoute k p j parityGood) s k
    (if malformed (wordTok (c.qItem q (c.qRead q))) then
      (((({ c with regs := g } : Chan).qAdvance q).stray F.chTokstatMalformed (wordTok (c.qItem q (c.qRead q)))).accept (.qword q)).epochCheck
     else ((({ c with regs := g } : Chan).qAdvance q).routeOn p.val (wordTok (c.qItem q (c.qRead q)))
      (b2n (wordEpoch (c.qItem q (c.qRead q)))) p.val (wordDl (c.qItem q (c.qRead q))) (.qword q) Chan.accept).epochCheck) := by
  have hexec : exec (.receiveQueueRoute k p j parityGood) s = execReceiveQueueRoute k p j parityGood s := rfl
  obtain ⟨g, hg, hrd⟩ := c.qParity_good q
  have hsame : c.StageSame { c with regs := g } := ⟨hrd, rfl, rfl, fun _ => rfl, fun _ => rfl⟩
  have hread : ({ c with regs := g } : Chan).qRead q = c.qRead q := by rw [Chan.qRead, hsame.qUnit]; rfl
  refine ⟨g, hsame, ?_⟩
  subst hq
  rw [Gives, hexec, execReceiveQueueRoute, onCh, ← hc]
  simp only [hdom, hgives, hfetch, hroom, hg, hread, hsame.qItem, Option.isSome_none, Bool.not_true, Bool.or_self, Bool.false_eq_true,
    if_false]

theorem receiveQueueRoute_malformed (hbad : malformed (wordTok (c.qItem q (c.qRead q))) = true) :
    Leads (.receiveQueueRoute k p j parityGood) s k (fun b => b.net.bufs = c.net.bufs ∧ ∃ m ∈ b.ev.sent, m.src = 8) := by
  obtain ⟨g, -, h⟩ := receiveQueueRoute_gives hc hq hdom hgives hfetch hroom
  rw [hbad, if_pos rfl] at h
  refine ⟨_, h, ?_⟩
  obtain ⟨hnet, m, hm, hsrc⟩ :=
    (({ c with regs := g } : Chan).qAdvance q).stray_leaves F.chTokstatMalformed (wordTok (c.qItem q (c.qRead q)))
  generalize (({ c with regs := g } : Chan).qAdvance q).stray F.chTokstatMalformed (wordTok (c.qItem q (c.qRead q))) = d at hnet hm
  obtain ⟨hbufs, l, hsent⟩ := Chan.accept_rx (hq ▸ isRxQueue_rxQueue p j) d
  obtain ⟨f, l', n, hcheck⟩ := (d.accept (.qword q)).epochCheck_eq
  rw [hcheck]
  refine ⟨hbufs.trans (congrArg Net.bufs hnet), m, ?_, hsrc⟩
  rw [hsent]
  exact List.mem_append_left _ (List.mem_append_left _ hm)

section

variable (htile : c.offer (bufKey (gateTile p.val) 5 0) false = []) (hgood : malformed (wordTok (c.qItem q (c.qRead q))) = false)

include htile hgood

theorem receiveQueueRoute_home (hdim : c.routeDim (tagDev (wordTok (c.qItem q (c.qRead q))).tag) = none) :
    Leads (.receiveQueueRoute k p j parityGood) s k (fun b =>
      (b.qptr q).unread = (c.qptr q).unread - c.qUnit q ∧ b.ms = c.ms
      ∧ b.buf (bufKey (gateTile p.val) 5 0) = c.buf (bufKey (gateTile p.val) 5 0)
        ++ [{ localPkt (wordTok (c.qItem q (c.qRead q))) (.qword q) with
            epoch := wordEpoch (c.qItem q (c.qRead q)),
            fvc := BitVec.ofNat 2 ((if tagKind (wordTok (c.qItem q (c.qRead q))).tag = 0 then 0 else 2)
              + wordDl (c.qItem q (c.qRead q))) }]) := by
  obtain ⟨g, hsame, h⟩ := receiveQueueRoute_gives hc hq hdom hgives hfetch hroom
  rw [hgood, if_neg Bool.false_ne_true] at h
  refine ⟨_, h, ?_⟩
  have hdim' : (({ c with regs := g } : Chan).qAdvance q).routeDim (tagDev (wordTok (c.qItem q (c.qRead q))).tag) = none :=
    (Chan.route_congr hsame.rd rfl rfl rfl _ 0 0).1.trans hdim
  obtain ⟨hbuf, hqu, hms⟩ := Chan.routeOn_home (d := ({ c with regs := g } : Chan).qAdvance q) (p := p.val)
    (e := b2n (wordEpoch (c.qItem q (c.qRead q)))) (ap := p.val) (adl := wordDl (c.qItem q (c.qRead q))) (acc := .qword q)
    hroom htile rfl hdim' Chan.accept
  rw [b2n_beq_one] at hbuf
  have hptr := hsame.qAdvance_unread q
  rw [Chan.qptr, ← hqu, ← Chan.qptr] at hptr
  obtain ⟨f, l, n, hcheck⟩ := Chan.epochCheck_eq ((({ c with regs := g } : Chan).qAdvance q).routeOn p.val
    (wordTok (c.qItem q (c.qRead q))) (b2n (wordEpoch (c.qItem q (c.qRead q)))) p.val (wordDl (c.qItem q (c.qRead q))) (.qword q)
    Chan.accept)
  rw [hcheck]
  exact ⟨hptr, hms, hbuf⟩

theorem receiveQueueRoute_port {o : Nat}
    (hroute : c.route (tagDev (wordTok (c.qItem q (c.qRead q))).tag) (b2n (wordEpoch (c.qItem q (c.qRead q)))) p.val = .port o) :
    Leads (.receiveQueueRoute k p j parityGood) s k (fun b => (b.qptr q).unread = (c.qptr q).unread - c.qUnit q
      ∧ ∃ x, b.buf (bufKey (gateTile p.val) 5 0) = c.buf (bufKey (gateTile p.val) 5 0) ++ [x]
        ∧ x.pay = .tok (wordTok (c.qItem q (c.qRead q))) ∧ x.dkind = 3 ∧ x.dtile = gateTile o ∧ x.ap = BitVec.ofNat 3 p.val) := by
  obtain ⟨g, hsame, h⟩ := receiveQueueRoute_gives hc hq hdom hgives hfetch hroom
  rw [hgood, if_neg Bool.false_ne_true] at h
  refine ⟨_, h, ?_⟩
  have hroute' : (({ c with regs := g } : Chan).qAdvance q).route (tagDev (wordTok (c.qItem q (c.qRead q))).tag)
      (b2n (wordEpoch (c.qItem q (c.qRead q)))) p.val = .port o :=
    (Chan.route_congr hsame.rd rfl rfl rfl _ _ _).2.trans hroute
  obtain ⟨hbuf, hqu⟩ := Chan.routeOn_port (d := ({ c with regs := g } : Chan).qAdvance q) (adl := wordDl (c.qItem q (c.qRead q)))
    (acc := .qword q) hroom htile rfl hroute' Chan.accept
  have hptr := hsame.qAdvance_unread q
  rw [Chan.qptr, ← hqu, ← Chan.qptr] at hptr
  obtain ⟨f, l, n, hcheck⟩ := Chan.epochCheck_eq ((({ c with regs := g } : Chan).qAdvance q).routeOn p.val
    (wordTok (c.qItem q (c.qRead q))) (b2n (wordEpoch (c.qItem q (c.qRead q)))) p.val (wordDl (c.qItem q (c.qRead q))) (.qword q)
    Chan.accept)
  rw [hcheck]
  exact ⟨hptr, hbuf⟩

end

/-! ### A lost word -/

theorem receiveQueueRoute_refetches (hdup : c.qDup q = false) {v : BitVec 8} {n : Nat}
    (hframe : frameOf j.val (c.qRead q) (c.port p.val).rxFrames = some (v, n)) :
    Leads (.receiveQueueRoute k p j { parityGood with a0 := true }) s k (fun b =>
      tblFind (b.port p.val).refetch j.val = some (v, n) ∧ (b.port p.val).ctl = (c.port p.val).ctl ++ [(7, v)]
      ∧ b.qptr q = c.qptr q) := by
  have hexec : exec (.receiveQueueRoute k p j { parityGood with a0 := true }) s
      = execReceiveQueueRoute k p j { parityGood with a0 := true } s := rfl
  obtain ⟨g, l, hlost, hread⟩ := Chan.qParity_lost hdup
  have hgives : Gives (.receiveQueueRoute k p j { parityGood with a0 := true }) s k (({ c with regs := g } : Chan).setPort p.val
      (Port.ctl_ { c.port p.val with refetch := tblIns (c.port p.val).refetch j.val (v, n) } 7 v)) := by
    subst hq
    rw [Gives, hexec, execReceiveQueueRoute, onCh, ← hc]
    simp only [hdom, hgives, hfetch, hroom, hlost, hread, hframe, Option.isSome_none, Bool.not_true, Bool.or_self, Bool.false_eq_true,
      if_false, if_true]
  have hport := ({ c with regs := g } : Chan).setPort_port_same p.val
    (Port.ctl_ { c.port p.val with refetch := tblIns (c.port p.val).refetch j.val (v, n) } 7 v)
  refine ⟨_, hgives, ?_, congrArg Port.ctl hport, rfl⟩
  exact (congrArg (fun x : Port => tblFind x.refetch j.val) hport).trans ((tblFind_ins _ _ _ _).trans (if_pos rfl))

end

end

end Sys2Proof.Machine
end

section
/-! O39. Hops, deliveries and the receive queues. -/

namespace Sys2Proof.Machine

/-- Settles O39: a packet that is served hops, fails or is delivered; one that is not stays; and a receive queue gives its head. -/
theorem packetsMove : Obligations.PacketsMove := by
  unfold Obligations.PacketsMove
  refine ⟨?_, ?_⟩
  · rintro s k rx p r c i o n hc hdom rfl rfl hbuf rfl
    refine ⟨fun cmd hcmd hfailed => ⟨fun hserved hunit htile => ⟨fun ho => ⟨?_, ?_⟩, ?_, ?_, ?_⟩, fun hno hfree ok => ?_⟩,
      fun hfirst ho hmay ok => flitReceive_holds hc hdom hbuf hfirst ho hmay ok⟩
    · exact send_hops hc hdom hbuf hcmd hfailed hserved hunit htile ho
    · exact send_fails hc hdom hbuf hcmd hfailed hserved ho
    · exact fun ho hkind m hpay ok => send_event hc hdom hbuf hcmd hfailed hserved hunit htile ho hkind hpay ok
    · exact fun ho hkind hpay ok => send_unit hc hdom hbuf hcmd hfailed hserved hunit htile ho hkind hpay ok
    · exact fun ho hkind hacc tok hpay ok => send_token hc hdom hbuf hcmd hfailed hserved hunit htile ho hkind hacc hpay ok
    · exact (send_gives hc hdom hbuf hcmd hfailed ok).2 hno hfree
  · rintro s k p j c q g t hc hq rfl hdom hgives hfetch rfl hroom htile
    exact ⟨receiveQueueRoute_malformed hc hq hdom hgives hfetch hroom,
      fun hgood hdim => receiveQueueRoute_home hc hq hdom hgives hfetch hroom htile hgood hdim,
      fun o hgood hroute => receiveQueueRoute_port hc hq hdom hgives hfetch hroom htile hgood hroute,
      fun v n hdup hframe => receiveQueueRoute_refetches hc hq hdom hgives hfetch hroom hdup hframe⟩

end Sys2Proof.Machine
end

section
/-! Frames that a port receives (R437 to R443): what the counts of a frame leave, and what its header does. -/

namespace Sys2Proof.Machine

/-! ## The counts of a received frame (R437, R441, R466) -/

/-- The registers that a received frame of port p counts in. -/
theorem Chan.countCheck_eq (c : Chan) (p : Nat) (chk : FrameCheck) : ∃ g : Tbl Word, c.countCheck p chk = { c with regs := g } := by
  have hcount : ∀ (d : Chan) (f : Fd) (n : Nat), ∃ g : Tbl Word, d.addSat f n = { d with regs := g } := fun _ _ _ => ⟨_, rfl⟩
  simp only [Chan.countCheck]
  obtain ⟨g, hg⟩ := hcount c (F.fbErrFeccorr p) chk.fixed
  rw [hg]
  split
  · exact hcount { c with regs := g } (F.fbErrFecuncorr p) 1
  · split
    · exact ⟨g, rfl⟩
    · exact hcount { c with regs := g } (F.fbErrCrcerr p) 1

theorem Chan.countCheck_fld_ne (c : Chan) {p : Nat} (chk : FrameCheck) {f : Fd} (hf : f.off ≠ 0x20038 + 256 * p) :
    (c.countCheck p chk).fld f = c.fld f := by
  have hcount : ∀ (d : Chan) (g : Fd) (n : Nat), g.off = 0x20038 + 256 * p → (d.addSat g n).fld f = d.fld f := fun d g n hg => by
    rw [Chan.addSat, Chan.setFld, d.fld_wr_ne _ (by rw [hg]; exact hf)]
  simp only [Chan.countCheck]
  split
  · exact (hcount _ _ 1 rfl).trans (hcount c _ _ rfl)
  · split
    · exact hcount c _ _ rfl
    · exact (hcount _ _ 1 rfl).trans (hcount c _ _ rfl)

/-- A good frame counts its corrected codewords. -/
theorem Chan.countCheck_good (c : Chan) (p : Nat) {chk : FrameCheck} (hgood : FrameGood chk = true) :
    c.countCheck p chk = c.addSat (F.fbErrFeccorr p) chk.fixed := by
  rw [FrameGood, Bool.and_eq_true, Bool.not_eq_true'] at hgood
  obtain ⟨hcrc, hbad⟩ := hgood
  simp only [Chan.countCheck, hcrc, hbad, Bool.false_eq_true, if_false, if_true]

section

variable (c : Chan) (p : Nat) (chk : FrameCheck)

@[simp] theorem Chan.countCheck_port (m : Nat) : (c.countCheck p chk).port m = c.port m := by
  obtain ⟨g, hg⟩ := c.countCheck_eq p chk
  rw [hg]
  rfl

@[simp] theorem Chan.countCheck_qu : (c.countCheck p chk).qu = c.qu := by
  obtain ⟨g, hg⟩ := c.countCheck_eq p chk
  rw [hg]

@[simp] theorem Chan.countCheck_net : (c.countCheck p chk).net = c.net := by
  obtain ⟨g, hg⟩ := c.countCheck_eq p chk
  rw [hg]

/-- The registers of a queue are not those of a port. -/
theorem Chan.countCheck_queue (q : Nat) : (c.countCheck p chk).qUnit q = c.qUnit q ∧ (c.countCheck p chk).qEn q = c.qEn q
    ∧ (c.countCheck p chk).qCap q = c.qCap q ∧ (c.countCheck p chk).qBase q = c.qBase q := by
  have hcfg : ∀ f, f.off = 0x8000 + 32 * q → (c.countCheck p chk).fld f = c.fld f := fun f hf =>
    c.countCheck_fld_ne chk (by omega)
  rw [Chan.qUnit, Chan.qDup, Chan.flag, hcfg _ rfl, Chan.qEn, Chan.flag, hcfg _ rfl, Chan.qCap, hcfg _ rfl, Chan.qBase, hcfg _ rfl]
  exact ⟨rfl, rfl, rfl, rfl⟩

@[simp] theorem Chan.countCheck_slotsFit (l : List Slot) : (c.countCheck p chk).slotsFit p l = c.slotsFit p l := by
  have hptr : ∀ q, (c.countCheck p chk).qptr q = c.qptr q := fun q => by rw [Chan.qptr, Chan.countCheck_qu, Chan.qptr]
  rw [Chan.slotsFit, Chan.slotsFit]
  congr 1
  funext j
  obtain ⟨-, hen, hcap, -⟩ := c.countCheck_queue p chk (rxQueue p j)
  simp only [hen, hcap, hptr]

/-- Where the first unread word of a queue lies. -/
theorem Chan.countCheck_addr (q : Nat) : (c.countCheck p chk).qAddr q ((c.countCheck p chk).qRead q) = c.qAddr q (c.qRead q) := by
  have hptr : (c.countCheck p chk).qptr q = c.qptr q := by rw [Chan.qptr, Chan.countCheck_qu, Chan.qptr]
  obtain ⟨hunit, -, hcap, hbase⟩ := c.countCheck_queue p chk q
  rw [Chan.qAddr, Chan.qRead, hptr, hunit, hcap, hbase]
  rfl

/-! ## The header (R439, R441, R442) -/

/-- The header acknowledges frames and returns credits, in the ports only. -/
theorem Chan.header_eq (now : Nat) (a : BitVec 8) (v : BitVec 2) (n : BitVec 3) :
    ∃ t : Tbl Port, c.header now p a v n = { c with ports := t } := by
  simp only [Chan.header, Chan.portAck]
  split <;> exact ⟨_, rfl⟩

theorem Chan.header_port (now : Nat) (a : BitVec 8) (v : BitVec 2) (n : BitVec 3) :
    ((c.header now p a v n).port p).rxSeq = (c.port p).rxSeq ∧ ((c.header now p a v n).port p).nakSent = (c.port p).nakSent
    ∧ tblGet ((c.header now p a v n).port p).credits v.toNat 0 = tblGet (c.port p).credits v.toNat 0 + n.toNat := by
  simp only [Chan.header, Chan.setPort_port_same, tblGet_put_same, Chan.portAck]
  split
  · exact ⟨rfl, rfl, rfl⟩
  · rw [Chan.setPort_port_same]
    exact ⟨rfl, rfl, rfl⟩

end

/-! ## The tokens of a frame (R440) -/

/-- The words of a frame enter the receive queues, and nothing else of the channel changes. -/
theorem Chan.pushSlots_eq (c : Chan) (p : Nat) (l : List Slot) : ∃ u : Queues, c.pushSlots p l = { c with qu := u } := by
  induction l generalizing c with
  | nil => exact ⟨c.qu, rfl⟩
  | cons sl l ih =>
    obtain ⟨u, hpush, -⟩ := c.qPush_eq (rxQueue p sl.vc.toNat)
      (tokWord (tokReceived sl.tok) (fabricHi sl.epoch p (sl.vc.toNat % 2)))
    obtain ⟨u', hrest⟩ := ih { c with qu := u }
    refine ⟨u', ?_⟩
    rw [Chan.pushSlots, List.foldl_cons, hpush]
    exact hrest

/-- The channel in which the tokens of a good frame enter: its header has acted. -/
def Chan.opened (c : Chan) (now p : Nat) (fr : Frame) (chk : FrameCheck) : Chan :=
  ((c.countCheck p chk).header now p fr.ack fr.crvc fr.crcnt).portBusy now p

/-- A DATA frame in sequence that is taken (R439 to R441). -/
def Chan.takeFrame (c : Chan) (now p : Nat) (fr : Frame) (chk : FrameCheck) : Chan :=
  let d := (c.opened now p fr chk).pushSlots p fr.slots
  d.setPort p (Port.settle { d.port p with
    rxSeq := (d.port p).rxSeq + 1, nakSent := false, rxFrames := (d.port p).rxFrames ++ [(fr.seq, slotCounts fr.slots)] })

section

variable (c : Chan) (now p : Nat) (fr : Frame) (chk : FrameCheck)

theorem Chan.opened_eq : ∃ t : Tbl Port, c.opened now p fr chk = { c.countCheck p chk with ports := t } := by
  obtain ⟨t, hheader⟩ := (c.countCheck p chk).header_eq p now fr.ack fr.crvc fr.crcnt
  rw [Chan.opened, hheader]
  exact ⟨_, rfl⟩

theorem Chan.opened_rxSeq : ((c.opened now p fr chk).port p).rxSeq = (c.port p).rxSeq := by
  obtain ⟨hrx, -, -⟩ := (c.countCheck p chk).header_port p now fr.ack fr.crvc fr.crcnt
  rw [Chan.countCheck_port] at hrx
  rw [Chan.opened, Chan.portBusy, Chan.setPort_port_same]
  exact hrx

theorem Chan.takeFrame_port : ((c.takeFrame now p fr chk).port p).rxSeq = (c.port p).rxSeq + 1
    ∧ ((c.takeFrame now p fr chk).port p).nakSent = false := by
  obtain ⟨u, hpush⟩ := (c.opened now p fr chk).pushSlots_eq p fr.slots
  have hport : ((c.opened now p fr chk).pushSlots p fr.slots).port p = (c.opened now p fr chk).port p := by
    rw [hpush]
    rfl
  simp only [Chan.takeFrame, Chan.setPort_port_same, Port.settle, hport, Chan.opened_rxSeq, and_self]

/-- Beyond the counts of its check, a frame changes the queues and the ports. -/
theorem Chan.takeFrame_eq : ∃ (u : Queues) (t : Tbl Port), c.takeFrame now p fr chk = { c.countCheck p chk with qu := u, ports := t } := by
  obtain ⟨t, hopen⟩ := c.opened_eq now p fr chk
  obtain ⟨u, hpush⟩ := ({ c.countCheck p chk with ports := t } : Chan).pushSlots_eq p fr.slots
  simp only [Chan.takeFrame, hopen, hpush]
  exact ⟨u, _, rfl⟩

theorem Chan.takeFrame_net : (c.takeFrame now p fr chk).net = c.net := by
  obtain ⟨u, t, htake⟩ := c.takeFrame_eq now p fr chk
  rw [htake]
  exact c.countCheck_net p chk

theorem Chan.takeFrame_fld (f : Fd) : (c.takeFrame now p fr chk).fld f = (c.countCheck p chk).fld f := by
  obtain ⟨u, t, htake⟩ := c.takeFrame_eq now p fr chk
  rw [htake]
  rfl

/-- A frame of one token adds an item to its queue. -/
theorem Chan.takeFrame_unread {sl : Slot} (hslots : fr.slots = [sl]) :
    ((c.takeFrame now p fr chk).qptr (rxQueue p sl.vc.toNat)).unread
      = (c.qptr (rxQueue p sl.vc.toNat)).unread + c.qUnit (rxQueue p sl.vc.toNat) := by
  obtain ⟨t, hopen⟩ := c.opened_eq now p fr chk
  have hptr : (c.opened now p fr chk).qptr (rxQueue p sl.vc.toNat) = c.qptr (rxQueue p sl.vc.toNat) := by
    rw [hopen, Chan.qptr]
    exact congrArg (fun u : Queues => tblGet u.ptrs (rxQueue p sl.vc.toNat) {}) (c.countCheck_qu p chk)
  have hunit : (c.opened now p fr chk).qUnit (rxQueue p sl.vc.toNat) = c.qUnit (rxQueue p sl.vc.toNat) := by
    rw [hopen]
    exact (c.countCheck_queue p chk _).1
  simp only [Chan.takeFrame, hslots, Chan.pushSlots, List.foldl_cons, List.foldl_nil, Chan.setPort_qptr, Chan.qPush_unread, hptr, hunit]

end

end Sys2Proof.Machine
end

section
/-! The frames of a port (R437 to R443, R449, R450). -/

namespace Sys2Proof.Machine

/-! ## DATA, REDATA and reserved frames -/

section

variable {s : State} {k : Ch} {p : PortId} {c : Chan} (hc : c = s.chan k.val)

include hc

/-- What comes in state BOW is counted. -/
theorem frames_heard (hst : (c.port p.val).st = 3) (hdom : c.domUp 7 = true) {fr : Frame} (chk : FrameCheck) (hwf : fr.wf = true) :
    Gives (.dataFrameReceive k p fr chk) s k (c.countCheck p.val chk) ∧ Gives (.redataFrameReceive k p fr chk) s k (c.countCheck p.val chk)
    ∧ ∀ h : Hdr, Gives (.controlIdle k p h) s k (c.countCheck p.val h.chk) := by
  have hdata : exec (.dataFrameReceive k p fr chk) s = execDataFrameReceive k p fr chk s := rfl
  have hredata : exec (.redataFrameReceive k p fr chk) s = execRedataFrameReceive k p fr chk s := rfl
  have hidle : ∀ h, exec (.controlIdle k p h) s = execControlIdle k p h s := fun _ => rfl
  have htakes : c.takesFrames p.val = false := by rw [Chan.takesFrames, hst]; rfl
  have hheard : ∀ chk, c.heard p.val chk = c.countCheck p.val chk := fun chk => by
    have hhears : c.hears p.val = true := by rw [Chan.hears, hst, hdom]; rfl
    rw [Chan.heard, if_pos hhears]
  refine ⟨?_, ?_, fun h => ?_⟩
  · rw [Gives, hdata, execDataFrameReceive, if_neg (by rw [hwf]; decide), onCh, ← hc]
    simp only [htakes, hheard, Bool.not_false, if_true]
  · rw [Gives, hredata, execRedataFrameReceive, if_neg (by rw [hwf]; decide), onCh, ← hc]
    simp only [htakes, hheard, Bool.not_false, if_true]
  · rw [Gives, hidle, execControlIdle, onCh, ← hc]
    simp only [Chan.control, htakes, hheard, Bool.not_false, if_true]

section

variable (htakes : c.takesFrames p.val = true)

include htakes

section

variable {fr : Frame} {chk : FrameCheck} (hwf : fr.wf = true)

include hwf

theorem dataFrameReceive_gives : Gives (.dataFrameReceive k p fr chk) s k
    (if !FrameGood chk then (c.countCheck p.val chk).badFrame p.val
     else if fr.seq ≠ (c.port p.val).rxSeq ∨ c.slotsFit p.val fr.slots = false then (c.countCheck p.val chk).sendNak p.val
     else c.takeFrame s.dev.time p.val fr chk) := by
  have hexec : exec (.dataFrameReceive k p fr chk) s = execDataFrameReceive k p fr chk s := rfl
  rw [Gives, hexec, execDataFrameReceive, if_neg (by rw [hwf]; decide), onCh, ← hc]
  simp only [htakes, Bool.not_true, Bool.false_eq_true, if_false, Chan.countCheck_port, Chan.countCheck_slotsFit]
  rfl

/-- A frame in sequence whose tokens find room. -/
theorem dataFrameReceive_takes (hgood : FrameGood chk = true) (hseq : fr.seq = (c.port p.val).rxSeq)
    (hfit : c.slotsFit p.val fr.slots = true) : Leads (.dataFrameReceive k p fr chk) s k (fun b =>
      (b.port p.val).rxSeq = (c.port p.val).rxSeq + 1 ∧ (b.port p.val).nakSent = false ∧ b.net = c.net
      ∧ b.fld (F.fbErrFeccorr p.val) = min (2 ^ (F.fbErrFeccorr p.val).len - 1) (c.fld (F.fbErrFeccorr p.val) + chk.fixed)
      ∧ ∀ sl, fr.slots = [sl] → (b.qptr (rxQueue p.val sl.vc.toNat)).unread
          = (c.qptr (rxQueue p.val sl.vc.toNat)).unread + c.qUnit (rxQueue p.val sl.vc.toNat)) := by
  have h := dataFrameReceive_gives hc htakes hwf (chk := chk)
  have hno : ¬ (fr.seq ≠ (c.port p.val).rxSeq ∨ c.slotsFit p.val fr.slots = false) := by rw [hseq, hfit]; simp
  rw [hgood, Bool.not_true, if_neg Bool.false_ne_true, if_neg hno] at h
  obtain ⟨hseq', hnak⟩ := c.takeFrame_port s.dev.time p.val fr chk
  refine ⟨_, h, hseq', hnak, c.takeFrame_net _ _ _ _, ?_, fun sl hslots => c.takeFrame_unread _ _ _ _ hslots⟩
  rw [Chan.takeFrame_fld, Chan.countCheck_good _ _ hgood]
  exact c.fld_addSat _ _ (by simp [F.fbErrFeccorr])

/-- A frame that fails its check, or is out of sequence, is answered by NAK. -/
theorem dataFrameReceive_naks (hbad : FrameGood chk = false ∨ fr.seq ≠ (c.port p.val).rxSeq) (hnak : (c.port p.val).nakSent = false) :
    Leads (.dataFrameReceive k p fr chk) s k (fun b => (b.port p.val).ctl = (c.port p.val).ctl ++ [(1, (c.port p.val).rxSeq)]
      ∧ (b.port p.val).nakSent = true ∧ (b.port p.val).rxSeq = (c.port p.val).rxSeq ∧ b.qu = c.qu) := by
  have h := dataFrameReceive_gives hc htakes hwf (chk := chk)
  have hsent : (c.countCheck p.val chk).sendNak p.val = (c.countCheck p.val chk).setPort p.val
      { Port.ctl_ (c.port p.val) 1 (c.port p.val).rxSeq with nakSent := true } := by
    simp only [Chan.sendNak, Chan.countCheck_port, hnak, Bool.false_eq_true, if_false]
  have hgives : Gives (.dataFrameReceive k p fr chk) s k ((c.countCheck p.val chk).sendNak p.val) := by
    cases hgood : FrameGood chk with
    | false =>
      rw [hgood, Bool.not_false, if_pos rfl] at h
      exact h
    | true =>
      rw [hgood, Bool.not_true, if_neg Bool.false_ne_true, if_pos (.inl (hbad.resolve_left (by rw [hgood]; decide)))] at h
      exact h
  rw [hsent] at hgives
  refine ⟨_, hgives, ?_⟩
  simp only [Chan.setPort_port_same, Chan.setPort_qu, Chan.countCheck_qu, Port.ctl_, and_self]

theorem redataFrameReceive_gives (hgood : FrameGood chk = true) :
    Gives (.redataFrameReceive k p fr chk) s k ((c.countCheck p.val chk).takeRedata p.val fr) := by
  have hexec : exec (.redataFrameReceive k p fr chk) s = execRedataFrameReceive k p fr chk s := rfl
  rw [Gives, hexec, execRedataFrameReceive, if_neg (by rw [hwf]; decide), onCh, ← hc]
  simp only [htakes, hgood, Bool.not_true, Bool.false_eq_true, if_false]

theorem redataFrameReceive_nothing (hgood : FrameGood chk = true) (hfetch : (c.port p.val).refetch = []) :
    Gives (.redataFrameReceive k p fr chk) s k (c.countCheck p.val chk) := by
  have h := redataFrameReceive_gives hc htakes hwf hgood
  rwa [Chan.takeRedata, Chan.countCheck_port, hfetch, List.foldl_nil] at h

/-- The word asked for comes back in place. -/
theorem redataFrameReceive_takes (hgood : FrameGood chk = true) {j n : Nat} {sl : Slot}
    (hfetch : (c.port p.val).refetch = [(j, (fr.seq, n))])
    (hslot : (fr.slots.filter (fun (v : Slot) => v.vc.toNat == j))[(fr.slots.filter (fun (v : Slot) => v.vc.toNat == j)).length - n]?
      = some sl) : Leads (.redataFrameReceive k p fr chk) s k (fun b => (b.port p.val).refetch = []
        ∧ b.qWord (c.qAddr (rxQueue p.val j) (c.qRead (rxQueue p.val j)))
            = tokWord (tokReceived sl.tok) (fabricHi sl.epoch p.val (j % 2)) ∧ b.qu.ptrs = c.qu.ptrs) := by
  have h := redataFrameReceive_gives hc htakes hwf hgood
  rw [Chan.takeRedata, Chan.countCheck_port, hfetch, List.foldl_cons, List.foldl_nil] at h
  simp only [ne_eq, not_true_eq_false, if_false, hslot, Chan.countCheck_addr, Chan.countCheck_port, hfetch] at h
  have hptrs : (c.countCheck p.val chk).qu.ptrs = c.qu.ptrs := congrArg Queues.ptrs (c.countCheck_qu p.val chk)
  refine ⟨_, h, ?_, tblGet_put_same _ _ _ _, hptrs⟩
  rw [Chan.setPort_port_same]
  simp [tblDel]

end

theorem reservedFrameReceive_gives {ftype : BitVec 3} {code : BitVec 8} (chk : FrameCheck)
    (hres : 4 ≤ ftype.toNat ∨ (ftype = 1 ∧ 8 ≤ code.toNat)) : Gives (.reservedFrameReceive k p ftype code chk) s k
      (if FrameGood chk then (c.countCheck p.val chk).inc (F.fbErrCrcerr p.val) else (c.countCheck p.val chk).badFrame p.val) := by
  have hexec : exec (.reservedFrameReceive k p ftype code chk) s = execReservedFrameReceive k p ftype code s chk := rfl
  have hres' : (decide (4 ≤ ftype.toNat) || (ftype == 1 && decide (8 ≤ code.toNat))) = true := by
    simpa only [Bool.or_eq_true, Bool.and_eq_true, decide_eq_true_eq, beq_iff_eq] using hres
  rw [Gives, hexec, execReservedFrameReceive, onCh, ← hc]
  simp only [htakes, hres', Bool.true_or, Bool.and_self, if_true]

end

end

/-! ## What a CONTROL frame asks for -/

theorem Port.frame_isSome {x : Port} {a : BitVec 8} : (x.frame a).isSome = true ↔ ∃ f ∈ x.replay, f.seq = a := by
  simp only [Port.frame, List.find?_isSome, beq_iff_eq]

/-- A pulse event stands until the link state machine takes it. -/
theorem Chan.pulse_pulses (c : Chan) (p : Nat) {e : Nat} (he : (BitVec.ofNat 32 (2 ^ e)).getLsbD e = true) :
    ((c.pulse p e).port p).pulses.getLsbD e = true := by
  simp only [Chan.pulse, Chan.setPort_port_same, BitVec.getLsbD_or, he, Bool.or_true]

theorem Chan.replayPort_replays (c : Chan) (now : Nat) {p : Nat} (h : (c.port p).replay ≠ []) :
    ((c.replayPort now p).port p).resend = (c.port p).replay.map (fun f => f.seq)
    ∧ ((c.replayPort now p).port p).replay = (c.port p).replay ∧ ((c.replayPort now p).port p).ackAt = now := by
  have hsome : (c.port p).replay.isEmpty = false := List.isEmpty_eq_false_iff.2 h
  simp only [Chan.replayPort, hsome, Bool.false_eq_true, if_false]
  split <;> simp [Chan.pulse]

/-! ## CONTROL frames -/

theorem control_credits {s : State} {p : PortId} {h : Hdr} {c d : Chan}
    (hd : d = (c.countCheck p.val h.chk).header s.dev.time p.val h.ack h.crvc h.crcnt) :
    tblGet (d.port p.val).credits h.crvc.toNat 0
      = tblGet (c.port p.val).credits h.crvc.toNat 0 + h.crcnt.toNat := by
  obtain ⟨-, -, hcredits⟩ := (c.countCheck p.val h.chk).header_port p.val s.dev.time h.ack h.crvc h.crcnt
  rw [Chan.countCheck_port, ← hd] at hcredits
  exact hcredits

section

variable {s : State} {k : Ch} {p : PortId} {h : Hdr} {c d : Chan} (hc : c = s.chan k.val) (htakes : c.takesFrames p.val = true)
  (hgood : FrameGood h.chk = true) (hd : d = (c.countCheck p.val h.chk).header s.dev.time p.val h.ack h.crvc h.crcnt)

include htakes hgood hd

/-- The header of a CONTROL frame acts whatever its code. -/
theorem control_eq (f : Chan → Chan) : c.control s.dev.time p.val h f = f d := by
  simp only [Chan.control, htakes, hgood, hd, Bool.not_true, Bool.false_eq_true, if_false]

include hc

theorem control_gives {i : Instr} (f : Dev → Chan → Chan) (hexec : exec i s = onCh k s (fun dv c => c.control dv.time p.val h (f dv))) :
    Gives i s k (f s.dev d) := by
  rw [Gives, hexec, onCh, ← hc, control_eq htakes hgood hd]

/-- NAK starts a replay, where frames stand to be replayed. -/
theorem nak_replays (a : BitVec 8) (hreplay : (d.port p.val).replay ≠ []) : Leads (.nak k p h a) s k (fun b =>
    (b.port p.val).resend = (d.port p.val).replay.map (fun f => f.seq) ∧ (b.port p.val).replay = (d.port p.val).replay
    ∧ (b.port p.val).ackAt = s.dev.time) :=
  ⟨_, control_gives hc htakes hgood hd (fun dv c => c.replayPort dv.time p.val) rfl, d.replayPort_replays s.dev.time hreplay⟩

theorem nak_empty (a : BitVec 8) (hreplay : (d.port p.val).replay = []) : Gives (.nak k p h a) s k d := by
  have h' := control_gives hc htakes hgood hd (i := .nak k p h a) (fun dv c => c.replayPort dv.time p.val) rfl
  simpa only [Chan.replayPort, hreplay, List.isEmpty_nil, if_true] using h'

theorem sleepreq_answers : Leads (.sleepreq k p h) s k (fun b =>
    (b.port p.val).ctl = (d.port p.val).ctl ++ [(if d.maySleep s.dev.time p.val then 3 else 4, 0)]) := by
  refine ⟨_, control_gives hc htakes hgood hd (fun dv c =>
    c.setPort p.val (Port.ctl_ (c.port p.val) (if c.maySleep dv.time p.val then 3 else 4) 0)) rfl, ?_⟩
  simp only [Chan.setPort_port_same, Port.ctl_]

theorem sleepack_idles (hsent : (d.port p.val).sleepSent = true) :
    Leads (.sleepack k p h) s k (fun b => (b.port p.val).pulses.getLsbD 10 = true) := by
  refine ⟨_, control_gives hc htakes hgood hd (fun _ c => if (c.port p.val).sleepSent then c.pulse p.val 10 else c) rfl, ?_⟩
  simp only [hsent, if_true]
  exact d.pulse_pulses p.val (by decide)

theorem drainreq_pulses : Leads (.drainreq k p h) s k (fun b => (b.port p.val).pulses.getLsbD 12 = true) :=
  ⟨_, control_gives hc htakes hgood hd (fun _ c => c.pulse p.val 12) rfl, d.pulse_pulses p.val (by decide)⟩

theorem refetch_gives (a : BitVec 8) : Gives (.refetch k p h a) s k
    (if ((d.port p.val).frame a).isSome then d.setPort p.val { d.port p.val with redata := (d.port p.val).redata ++ [a] } else d) :=
  control_gives hc htakes hgood hd (fun _ c =>
    if ((c.port p.val).frame a).isSome then c.setPort p.val { c.port p.val with redata := (c.port p.val).redata ++ [a] } else c) rfl

end

end Sys2Proof.Machine
end

section
/-! O40. What a received frame of each kind does to a port. -/

namespace Sys2Proof.Machine

/-- Settles O40: for each frame the lemma that says what it does. -/
theorem portFrames : Obligations.PortFrames := by
  unfold Obligations.PortFrames
  refine ⟨?_, ?_⟩
  · rintro s k p c x hc rfl
    refine ⟨fun hst hdom fr chk hwf => frames_heard hc hst hdom chk hwf, fun htakes fr chk hwf => ⟨?_, ?_, ?_, ?_⟩,
      fun htakes ftype code chk hres => ⟨fun hgood => ?_, fun hbad => ?_⟩⟩
    · exact fun hgood hseq hfit => dataFrameReceive_takes hc htakes hwf hgood hseq hfit
    · exact fun hbad hnak => dataFrameReceive_naks hc htakes hwf hbad hnak
    · exact fun hgood hfetch => redataFrameReceive_nothing hc htakes hwf hgood hfetch
    · rintro j n sl mine hgood hfetch rfl hslot
      exact redataFrameReceive_takes hc htakes hwf hgood hfetch hslot
    · have h := reservedFrameReceive_gives hc htakes chk hres
      rwa [hgood, if_pos rfl] at h
    · have h := reservedFrameReceive_gives hc htakes chk hres
      rwa [hbad, if_neg Bool.false_ne_true] at h
  · rintro s k p h c d x hc htakes hgood hd rfl
    refine ⟨control_credits hd, control_gives hc htakes hgood hd (fun _ => id) rfl,
      fun a hreplay => nak_replays hc htakes hgood hd a hreplay, fun a hreplay => nak_empty hc htakes hgood hd a hreplay,
      sleepreq_answers hc htakes hgood hd, fun hsent => sleepack_idles hc htakes hgood hd hsent,
      control_gives hc htakes hgood hd
        (fun dv c => c.setPort p.val { c.port p.val with sleepSent := false, idleSince := dv.time }) rfl,
      drainreq_pulses hc htakes hgood hd,
      control_gives hc htakes hgood hd (fun _ c => c.setPort p.val { c.port p.val with drainDone := true }) rfl,
      fun a hheld => ?_, fun a hheld => ?_⟩
    · have hgives := refetch_gives hc htakes hgood hd a
      rwa [if_pos (Port.frame_isSome.2 hheld)] at hgives
    · have hgives := refetch_gives hc htakes hgood hd a
      rwa [if_neg (fun hsome => (Port.frame_isSome.1 hsome).elim fun f hf => hheld f hf.1 hf.2)] at hgives

end Sys2Proof.Machine
end


section
/-! Soundness of every step (R118, R330, R367, R500, R504, R518, R600, R601, R638). A table may hold a key twice: what is read of it is the
first record (`tblFind`), while the event controller of the device blocks takes an event from the first record that has one (`devRaiser`), and
puts that record in the place of the first. A channel that is sound as it is read can so give way to a second one that is not. The statement
speaks of every state, not only of those whose table of channels is in rising order of key. -/

namespace Sys2Proof.Machine

/-- A channel with an event for the device blocks, in whose queue 0 more is unread than held (R330). -/
def overreadChan : Chan := { qu := { ptrs := [(0, { unread := 1 })] }, devEv := [0] }

theorem overreadChan_not_sound : ¬ ({ overreadChan with devEv := [] } : Chan).Sound := fun h => absurd (h.queues 0) (by decide)

/-- A state with two records of channel 0, the second with an event that the device blocks are to take. -/
def twoRecordState : State := { chans := [(0, Chan.fresh 0), (0, overreadChan)], pending := [.doorbellMessage .dev] }

/-- Every channel reads as after reset. -/
theorem twoRecordState_chan (j : Nat) : twoRecordState.chan j = Chan.fresh j := by
  cases j <;> rfl

/-- The event comes from the second record. -/
theorem devRaiser_twoRecordState : devRaiser twoRecordState.chans = some (0, overreadChan) := rfl

/-- The step puts the second record, its event taken, in the place of the first. -/
theorem step_twoRecordState : ∃ t, step twoRecordState = .next t ∧ t.chan 0 = { overreadChan with devEv := [] } :=
  ⟨_, rfl, State.setChan_chan_same _ _ _⟩

/-- Refutes O60: with two records of channel 0, the step of `doorbellMessage .dev` leaves a channel that is not sound where every channel was. -/
theorem not_deviceStaysSound : ¬ Obligations.DeviceStaysSound := by
  intro h
  obtain ⟨t, hstep, hchan⟩ := step_twoRecordState
  obtain ⟨-, hkeeps, -⟩ := h twoRecordState t hstep
  have hbefore : ∀ j, (twoRecordState.chan j).Sound := fun j => twoRecordState_chan j ▸ Chan.sound_fresh j
  exact overreadChan_not_sound (hchan ▸ hkeeps hbefore 0)

end Sys2Proof.Machine
end
